-- ==== Sys2Proof/Word.lean ====
section
/-! DEFINITION. Word types and their plainest arithmetic (chapter 00, R3: bits from 0, little-endian). -/

namespace Sys2Proof

/-- A 64-bit register value, address or instruction word. -/
abbrev Word := BitVec 64
/-- A byte of storage. -/
abbrev Byte := BitVec 8
/-- One vector register: 32 lanes of 32 bits, lane 0 in the low bits (R77). -/
abbrev Vec := BitVec 1024

/-- The field [hi:lo] of a number, hi - lo + 1 = n bits (R3). -/
def bitField (x lo n : Nat) : Nat := x / 2 ^ lo % 2 ^ n

end Sys2Proof
end

