-- ==== Sys2Proof/Syntax.lean ====
section
/-! DEFINITION. The instructions and events of the DX9: one constructor of `Instr` per row of the opcode table.
A strand instruction carries the record of its word format (chapter 07, R155 to R163). An event carries nothing: what names
it (a core, a bus, a port, a queue) and what the outside world supplies with it are in `Args`, which the state holds while
the event is taken. -/

namespace Sys2Proof

/-- Fields of the SR word format (R155), high bits first. -/
structure SR where
  sd : BitVec 6
  sa : BitVec 6
  sb : BitVec 6
  fn : BitVec 4
  deriving DecidableEq, Repr

/-- Fields of the SI word format (R155), high bits first. -/
structure SI where
  sd : BitVec 6
  sa : BitVec 6
  imm : BitVec 32
  deriving DecidableEq, Repr

/-- Fields of the VR word format (R155), high bits first. -/
structure VR where
  vd : BitVec 10
  va : BitVec 10
  vb : BitVec 10
  vc : BitVec 10
  pg : BitVec 3
  bs : BitVec 1
  rm : BitVec 3
  sat : BitVec 1
  ty : BitVec 3
  sub : BitVec 3
  deriving DecidableEq, Repr

/-- Fields of the VI word format (R155), high bits first. -/
structure VI where
  vd : BitVec 10
  va : BitVec 10
  imm : BitVec 20
  pg : BitVec 3
  ty : BitVec 3
  sub : BitVec 3
  deriving DecidableEq, Repr

/-- Fields of the MV word format (R155), high bits first. -/
structure MV where
  reg : BitVec 10
  base : BitVec 6
  off : BitVec 22
  wd : BitVec 2
  pg : BitVec 3
  set : BitVec 3
  wait : BitVec 7
  deriving DecidableEq, Repr

/-- Fields of the SY word format (R155), high bits first. -/
structure SY where
  idx : BitVec 8
  sd : BitVec 6
  sa : BitVec 6
  sb : BitVec 6
  imm : BitVec 14
  opt : BitVec 3
  set : BitVec 3
  wait : BitVec 7
  deriving DecidableEq, Repr

/-- Fields of the BR word format (R155), high bits first. -/
structure BR where
  cond : BitVec 4
  sa : BitVec 6
  sb : BitVec 6
  pg : BitVec 3
  off : BitVec 32
  deriving DecidableEq, Repr

/-- Fields of the CT word format (R155), high bits first. -/
structure CT where
  sd : BitVec 6
  sa : BitVec 6
  imm : BitVec 32
  opt : BitVec 10
  deriving DecidableEq, Repr

/-- Fields of the AR word format (R158), high bits first. -/
structure AR where
  ad : BitVec 5
  aa : BitVec 5
  ab : BitVec 5
  fn : BitVec 4
  deriving DecidableEq, Repr

/-- Fields of the AI word format (R158), high bits first. -/
structure AI where
  ad : BitVec 5
  aa : BitVec 5
  imm : BitVec 32
  deriving DecidableEq, Repr

/-- Fields of the AB word format (R158), high bits first. -/
structure AB where
  cond : BitVec 4
  aa : BitVec 5
  ab : BitVec 5
  off : BitVec 32
  deriving DecidableEq, Repr

/-- Fields of the AT word format (R158), high bits first. -/
structure AT where
  d : BitVec 6
  crd : BitVec 5
  dk : BitVec 3
  dx : BitVec 6
  flag : BitVec 6
  ch : BitVec 3
  set : BitVec 3
  wait : BitVec 7
  ord : BitVec 6
  var : BitVec 13
  deriving DecidableEq, Repr

/-- Fields of the AS word format (R158), high bits first. -/
structure AS where
  flag : BitVec 6
  aa : BitVec 5
  ch : BitVec 3
  opt : BitVec 3
  set : BitVec 3
  wait : BitVec 7
  deriving DecidableEq, Repr

/-- Fields of the MM word format (R161), high bits first. -/
structure MM where
  aty : BitVec 4
  bty : BitVec 4
  asrc : BitVec 1
  aidx : BitVec 5
  bsrc : BitVec 1
  bidx : BitVec 5
  cacc : BitVec 5
  cmode : BitVec 2
  scl : BitVec 1
  tsm : BitVec 1
  btr : BitVec 1
  flag : BitVec 6
  deriving DecidableEq, Repr

/-- Fields of the MG word format (R161), high bits first. -/
structure MG where
  gm : BitVec 2
  cflag : BitVec 6
  deriving DecidableEq, Repr

/-- Fields of the MN word format (R161), high bits first. -/
structure MN where
  lv : BitVec 3
  mr : BitVec 4
  cnt : BitVec 32
  step : BitVec 32
  deriving DecidableEq, Repr

/-- Fields of the MT word format (R161), high bits first. -/
structure MT where
  t : BitVec 4
  mr : BitVec 4
  flag : BitVec 6
  opt : BitVec 3
  imm : BitVec 48
  deriving DecidableEq, Repr

/-- Fields of the MS word format (R161), high bits first. -/
structure MS where
  md : BitVec 4
  ma : BitVec 4
  mb : BitVec 4
  cond : BitVec 4
  imm : BitVec 64
  deriving DecidableEq, Repr

/-- Fields of the OC word format (R163), high bits first. -/
structure OC where
  bus : BitVec 3
  div : BitVec 2
  tm1 : BitVec 10
  deriving DecidableEq, Repr

/-- Fields of the OW word format (R163), high bits first. -/
structure OW where
  bus : BitVec 3
  seg : BitVec 5
  wsrc : BitVec 5
  acc : BitVec 5
  row0 : BitVec 6
  nrow : BitVec 6
  sh : BitVec 4
  mode : BitVec 1
  tsm : BitVec 1
  flag : BitVec 6
  segoff : BitVec 32
  deriving DecidableEq, Repr

/-- Fields of the OS word format (R163), high bits first. -/
structure OS where
  od : BitVec 4
  oa : BitVec 4
  kind : BitVec 3
  bus : BitVec 3
  deriving DecidableEq, Repr

/-- Fields of the OX word format (R163), high bits first. -/
structure OX where
  od : BitVec 4
  oa : BitVec 4
  ob : BitVec 4
  cond : BitVec 4
  flag : BitVec 6
  imm : BitVec 64
  deriving DecidableEq, Repr

/-- The four strand kinds of a core (R23). -/
inductive StrandKind where
  | c | a | m | o
  deriving DecidableEq, Repr

/-- How atomics that reach their unit together combine (R139): a binary tree whose leaves are the cell's old value and the
operands of the accesses named by core, strand and access number. One atomic alone is `node cell (op g k id)`. -/
inductive MergeTree where
  | cell
  | op (g : Nat) (k : StrandKind) (id : Nat)
  | node (l r : MergeTree)
  deriving DecidableEq, Repr

/-- Where the pager takes a page frame from, in the order of R73: the free ones, an unpinned page of the same launch, the core's
reserve, an unpinned page of another launch. An evicted page is named with the frame that its content goes to. -/
inductive FrameFrom where
  | free
  | page (ctx tensor page : Nat) (back : Option Nat)
  | reserve
  deriving DecidableEq, Repr

/-- What the pager found for a page-in (R421). -/
inductive PageInResult where
  /-- The new entry, the physical address the data is copied from (none means a page declared zero), and where its frame came from. -/
  | resident (w0 w1 : BitVec 64) (src : Option Nat) (took : FrameFrom)
  | notMapped
  | noFrame (need got : Nat)
  | tierLost
  /-- Another writer of its table has made the page valid (R69). -/
  | valid
  /-- A page of a launch that is over gives its frame to the core's reserve (R422); its content goes to a frame of firmware's. -/
  | refill (ctx tensor page : Nat) (back : Option Nat)
  deriving DecidableEq, Repr

/-- The units that execute atomics and hold an atomic status register (R228, R394). -/
inductive AtomicUnit where
  | vault (g : Nat)
  | engine (d : Nat)
  | slice (n : Nat)
  deriving DecidableEq, Repr

/-- A firmware image as the boot ROM judges it (R376): the release, whether its signature holds, what its public key hashes to, and its
security version. -/
structure FwImage where
  release : Nat
  signed : Bool
  key : Nat
  version : Nat
  deriving DecidableEq, Repr

/-- What bring-up reads and finds (R375): the fused-off cores, the speed grade, cores that cannot reach SKW 0, whether the
second tier and the host link came up, the commit of step 5, and the step from 1 to 5 that fails, if one does. -/
structure Fuses where
  absent : List Nat := []
  grade : BitVec 8 := 20
  skewFailed : List Nat := []
  tier : Bool := true
  link : Bool := true
  pairs : List (BitVec 64 × BitVec 64) := []
  failStep : Option (BitVec 3) := none
  /-- Cores whose row maps are not the identity or that have bad rows: logical and physical row of each pair, bad physical rows
  (R123). -/
  rows : List (Nat × List (Nat × Nat) × List Nat) := []
  /-- The key hash and the rollback counter fused in Keystone, and the images of the two flash copies (R376). -/
  key : Nat := 0
  rollback : Nat := 0
  images : List FwImage := [⟨0, true, 0, 0⟩]
  /-- HBM stacks that did not train (R375). -/
  badStacks : List Nat := []
  deriving DecidableEq, Repr

/-- A host access through BAR2 (R350). -/
inductive HostOp where
  | read (n : Nat)
  | write (bytes : List (BitVec 8))
  | atomicOp
  deriving DecidableEq, Repr

/-- Host link errors (R447). -/
inductive PcieError where
  | correctable
  | completion (id : Nat) (status : BitVec 64)
  | poisonedTlp (g : Nat) (k : StrandKind) (id : Nat)
  deriving DecidableEq, Repr

/-- Registers that a write reaches without a row of its own (R11, R349): by name, since R349 leaves the offsets inside most
regions to the firmware release. -/
inductive RegName where
  | lqbase (n : Nat) | lqcfg (n : Nat) | lqhead (n : Nat) | lqtail (n : Nat) | elbase | elcfg | elrd | msixPba (k : Nat) | msixmap (k : Nat) | msixEntry (k : Nat) | hwin | elwr
  | fxctl | fxplt | fxstat (d : Nat) | xfcon | xfext (bus k : Nat)
  | mctl | mcnt (e d : Nat) | msn (e d : Nat) | cairnctx | cairnhdr (b : Nat) | cairnst | cairnslot (b e k w : Nat)
  | cairnpub | msnap | cairnvc | mrepcmd | mrepgo | mrepst | mstep | mdone | mbud (d : Nat) | muse (d : Nat)
  | rtst | rtdef (b : Nat) | rtovr (b n : Nat) | ftout | fretry | flife | ferrlim
  | dlkcfg (d : Nat) | qpool (g q : Nat) | l2ecc | atst (u : AtomicUnit)
  | brst | pcap | pstat | mbcmd | mbsts | mbdata (k : Nat)
  | ttbase (ctx : Nat) | stageWeight (l s : Nat) | atomicRequester
  deriving DecidableEq, Repr

/-- What the outside world supplies with an event: which core, strand, bus, port, queue or entry it concerns, and the data
that comes from outside the machine with it. Each event's constructor says which of these it reads. -/
structure Args where
  core : Nat := 0
  strand : StrandKind := .c
  num : Nat := 0
  num2 : Nat := 0
  num3 : Nat := 0
  num4 : Nat := 0
  word : BitVec 64 := 0
  flag : Bool := false
  nums : List Nat := []
  bytes : List (BitVec 8) := []
  pairs : List (BitVec 64 × BitVec 64) := []
  tree : MergeTree := .cell
  page : PageInResult := .notMapped
  unit : AtomicUnit := .vault 0
  fuses : Fuses := {}
  host : HostOp := .read 0
  pcie : PcieError := .correctable
  reg : RegName := .hwin
  deriving DecidableEq, Repr


/-- One constructor per row of the opcode table, in the order of the table. -/
inductive Instr where
  /-- ADD (R176): Writes the 64-bit sum of two s-registers to sd. -/
  | add (f : SR)
  /-- SUB (R176): Writes the 64-bit difference of two s-registers to sd. -/
  | sub (f : SR)
  /-- MUL (R176): Writes the low 64 bits of the product of two s-registers to sd. -/
  | mul (f : SR)
  /-- MULH (R176): Writes the high 64 bits of the signed 128-bit product to sd. -/
  | mulh (f : SR)
  /-- MULHU (R176): Writes the high 64 bits of the unsigned 128-bit product to sd. -/
  | mulhu (f : SR)
  /-- DIV (R177): Writes the signed quotient truncated toward zero, with defined results for division by zero and overflow. -/
  | div (f : SR)
  /-- DIVU (R177): Writes the unsigned quotient, all ones on division by zero. -/
  | divu (f : SR)
  /-- REM (R177): Writes the signed remainder with the sign of the dividend. -/
  | rem (f : SR)
  /-- REMU (R177): Writes the unsigned remainder. -/
  | remu (f : SR)
  /-- AND (R176): Writes the bitwise AND of two s-registers. -/
  | and (f : SR)
  /-- OR (R176): Writes the bitwise OR of two s-registers. -/
  | or (f : SR)
  /-- XOR (R176): Writes the bitwise XOR of two s-registers. -/
  | xor (f : SR)
  /-- SHL (R176): Shifts sa left by the low six bits of sb. -/
  | shl (f : SR)
  /-- SHR (R176): Shifts sa right logically by the low six bits of sb. -/
  | shr (f : SR)
  /-- SAR (R176): Shifts sa right arithmetically by the low six bits of sb. -/
  | sar (f : SR)
  /-- MIN (R176): Writes the signed minimum of two s-registers. -/
  | min (f : SR)
  /-- MAX (R176): Writes the signed maximum of two s-registers. -/
  | max (f : SR)
  /-- MINU (R176): Writes the unsigned minimum of two s-registers. -/
  | minu (f : SR)
  /-- MAXU (R176): Writes the unsigned maximum of two s-registers. -/
  | maxu (f : SR)
  /-- SEQ (R176): Writes 1 if the operands are equal, else 0. -/
  | seq (f : SR)
  /-- SNE (R176): Writes 1 if the operands differ, else 0. -/
  | sne (f : SR)
  /-- SLT (R176): Writes 1 if sa is signed-less than sb, else 0. -/
  | slt (f : SR)
  /-- SLTU (R176): Writes 1 if sa is unsigned-less than sb, else 0. -/
  | sltu (f : SR)
  /-- CLZ (R176): Writes the number of leading zero bits of sa. -/
  | clz (f : SR)
  /-- POPC (R176): Writes the number of one bits of sa. -/
  | popc (f : SR)
  /-- BFX (R176): Extracts a zero-extended bit field of sa at the position and length held in sb. -/
  | bfx (f : SR)
  /-- BFI (R176): Inserts the low bits of sa into a field of sd. -/
  | bfi (f : SR)
  /-- SEXT (R176): Sign-extends the low 8, 16 or 32 bits of sa. -/
  | sext (f : SR)
  /-- ZEXT (R176): Zero-extends the low 8, 16 or 32 bits of sa. -/
  | zext (f : SR)
  /-- ADDI (R178): Adds a sign-extended 32-bit immediate to sa. -/
  | addi (f : SI)
  /-- MULI (R178): Multiplies sa by a sign-extended immediate, keeping the low 64 bits. -/
  | muli (f : SI)
  /-- ANDI (R178): ANDs sa with a sign-extended immediate. -/
  | andi (f : SI)
  /-- ORI (R178): ORs sa with a sign-extended immediate. -/
  | ori (f : SI)
  /-- XORI (R178): XORs sa with a sign-extended immediate. -/
  | xori (f : SI)
  /-- SHLI (R178): Shifts sa left by an immediate count. -/
  | shli (f : SI)
  /-- SHRI (R178): Shifts sa right logically by an immediate count. -/
  | shri (f : SI)
  /-- SARI (R178): Shifts sa right arithmetically by an immediate count. -/
  | sari (f : SI)
  /-- SLTI (R178): Writes 1 if sa is signed-less than the immediate. -/
  | slti (f : SI)
  /-- SLTUI (R178): Writes 1 if sa is unsigned-less than the sign-extended immediate. -/
  | sltui (f : SI)
  /-- LI (R178): Loads a sign-extended 32-bit immediate into sd. -/
  | li (f : SI)
  /-- LIH (R178): Replaces bits 63 to 32 of sa with the immediate and writes the result to sd. -/
  | lih (f : SI)
  /-- FADDS (R180): Adds two FP32 values with the given rounding and accrues flags. -/
  | fadds (f : SR)
  /-- FSUBS (R180): Subtracts two FP32 values with the given rounding. -/
  | fsubs (f : SR)
  /-- FMULS (R180): Multiplies two FP32 values with the given rounding. -/
  | fmuls (f : SR)
  /-- FMAS (R180): Computes a fused FP32 multiply-add into sd with one rounding. -/
  | fmas (f : SR)
  /-- FMINS (R181): Returns the lesser FP32 operand with IEEE NaN and signed-zero handling. -/
  | fmins (f : SR)
  /-- FMAXS (R181): Returns the greater FP32 operand with IEEE NaN and signed-zero handling. -/
  | fmaxs (f : SR)
  /-- FCMPS (R181): Compares two FP32 values by a compare code and writes 1 or 0. -/
  | fcmps (f : SR)
  /-- FCVTIS (R180): Converts an FP32 value to a saturated 64-bit integer. -/
  | fcvtis (f : SR)
  /-- FCVTSI (R180): Converts a 64-bit signed integer to FP32. -/
  | fcvtsi (f : SR)
  /-- VADD (R204): Adds integer vector elements, wrapping or saturating. -/
  | vadd (f : VR)
  /-- VSUB (R204): Subtracts integer vector elements, wrapping or saturating. -/
  | vsub (f : VR)
  /-- VMUL (R204): Multiplies integer vector elements, wrapping or saturating. -/
  | vmul (f : VR)
  /-- VMULH (R204): Writes the high half of signed or unsigned element products. -/
  | vmulh (f : VR)
  /-- VMAD (R204): Computes an integer multiply-add per element. -/
  | vmad (f : VR)
  /-- VMIN (R204): Writes the signed or unsigned minimum per element. -/
  | vmin (f : VR)
  /-- VMAX (R204): Writes the signed or unsigned maximum per element. -/
  | vmax (f : VR)
  /-- VAND (R204): Bitwise AND per element. -/
  | vand (f : VR)
  /-- VOR (R204): Bitwise OR per element. -/
  | vor (f : VR)
  /-- VXOR (R204): Bitwise XOR per element. -/
  | vxor (f : VR)
  /-- VSHL (R204): Shifts each element left. -/
  | vshl (f : VR)
  /-- VSHR (R204): Shifts each element right logically. -/
  | vshr (f : VR)
  /-- VSAR (R204): Shifts each element right arithmetically. -/
  | vsar (f : VR)
  /-- VABS (R204): Writes the absolute value of each integer element. -/
  | vabs (f : VR)
  /-- VCLZ (R204): Writes the leading zero count of each element. -/
  | vclz (f : VR)
  /-- VPOPC (R204): Writes the one-bit count of each element. -/
  | vpopc (f : VR)
  /-- VADDI (R204): Adds a sign-extended immediate to each element, wrapping. -/
  | vaddi (f : VI)
  /-- VFADD (R205): Adds floating-point elements with per-element rounding and flags. -/
  | vfadd (f : VR)
  /-- VFSUB (R205): Subtracts floating-point elements. -/
  | vfsub (f : VR)
  /-- VFMUL (R205): Multiplies floating-point elements. -/
  | vfmul (f : VR)
  /-- VFMA (R205): Computes a fused multiply-add per floating-point element. -/
  | vfma (f : VR)
  /-- VFMIN (R205): Writes the floating-point minimum per element. -/
  | vfmin (f : VR)
  /-- VFMAX (R205): Writes the floating-point maximum per element. -/
  | vfmax (f : VR)
  /-- VFNEG (R205): Negates, clears or copies the sign bit of each element without flags. -/
  | vfneg (f : VR)
  /-- VCMP (R206): Compares INT32 elements and writes a predicate. -/
  | vcmp (f : VR)
  /-- VFCMP (R206): Compares FP32 elements and writes a predicate. -/
  | vfcmp (f : VR)
  /-- PAND (R207): ANDs two predicates. -/
  | pand (f : VR)
  /-- POR (R207): ORs two predicates. -/
  | por (f : VR)
  /-- PXOR (R207): XORs two predicates. -/
  | pxor (f : VR)
  /-- PNOT (R207): Inverts a predicate. -/
  | pnot (f : VR)
  /-- PMOVS (R207): Moves the low 32 bits of an s-register into a predicate. -/
  | pmovs (f : VR)
  /-- SMOVP (R207): Moves a predicate into an s-register. -/
  | smovp (f : VR)
  /-- VSEL (R208): Selects lanes from two vectors by a predicate. -/
  | vsel (f : VR)
  /-- VMOV (R208): Copies the active lanes of one vector register to another. -/
  | vmov (f : VR)
  /-- VMOV_STREAM (R208): Pops one element from a stream into a vector register, blocking while the stream is empty. -/
  | vmovStream (f : VR)
  /-- VMVS (R208): Moves one lane into an s-register, sign-extended. -/
  | vmvs (f : VR)
  /-- VMVL (R208): Moves an s-register into one lane. -/
  | vmvl (f : VR)
  /-- VIDX (R208): Writes element index values plus an optional base. -/
  | vidx (f : VR)
  /-- VLI (R208): Broadcasts a sign-extended immediate into every element. -/
  | vli (f : VI)
  /-- VEXP2 (R209): Computes 2^x per element within the SFU accuracy. -/
  | vexp2 (f : VR)
  /-- VLOG2 (R209): Computes log2 x per element. -/
  | vlog2 (f : VR)
  /-- VRCP (R209): Computes the reciprocal per element. -/
  | vrcp (f : VR)
  /-- VRSQRT (R209): Computes the reciprocal square root per element. -/
  | vrsqrt (f : VR)
  /-- VTANH (R209): Computes tanh per element. -/
  | vtanh (f : VR)
  /-- VSIGM (R209): Computes the logistic sigmoid per element. -/
  | vsigm (f : VR)
  /-- VCVT (R210): Converts elements between formats with quarter selection. -/
  | vcvt (f : VR)
  /-- VPACK (R211): Packs INT8 elements into BIN1 bits or INT4 nibbles. -/
  | vpack (f : VR)
  /-- VUNPK (R211): Unpacks BIN1 bits or INT4 nibbles into INT8 elements. -/
  | vunpk (f : VR)
  /-- VPERM (R212): Permutes lanes from two vectors by an index vector. -/
  | vperm (f : VR)
  /-- VBCL (R212): Broadcasts one lane to all active lanes. -/
  | vbcl (f : VR)
  /-- VSLIDE (R212): Slides lanes down or up across two vectors. -/
  | vslide (f : VR)
  /-- VRED (R213): Reduces the 32 lanes by a fixed pairwise tree into lane 0. -/
  | vred (f : VR)
  /-- VSCAN (R214): Writes inclusive prefix reductions built from the tree nodes. -/
  | vscan (f : VR)
  /-- TRD (R215): Reads one tile row into a vector register, blocking while the tile is empty. -/
  | trd (f : VR)
  /-- TWR (R215): Writes one tile row from a vector register, blocking while the tile is full. -/
  | twr (f : VR)
  /-- TSETF (R216): Sets a tile's bit full as a release, blocking while it is full. -/
  | tsetf (f : VR)
  /-- TREL (R216): Sets a full tile's bit empty as a release. -/
  | trel (f : VR)
  /-- ACCRD (R218): Reads 32 accumulator words into a vector register. -/
  | accrd (f : VR)
  /-- ACCWR (R218): Writes 32 accumulator words from a vector register. -/
  | accwr (f : VR)
  /-- ACCZ (R218): Zeroes a range of accumulator words. -/
  | accz (f : VR)
  /-- LDV (R220): Loads a 128-byte vector from memory. -/
  | ldv (f : MV)
  /-- STV (R220): Stores a 128-byte vector to memory, sealing when marked or to space 2 or 6. -/
  | stv (f : MV)
  /-- LDS (R220): Loads 1, 2, 4 or 8 bytes into an s-register, zero-extended. -/
  | lds (f : MV)
  /-- STS (R220): Stores the low 1, 2, 4 or 8 bytes of an s-register. -/
  | sts (f : MV)
  /-- LDVX (R221): Gathers one element per lane through a vector of offsets. -/
  | ldvx (f : MV)
  /-- STVX (R221): Scatters one element per lane through a vector of offsets. -/
  | stvx (f : MV)
  /-- AMOV (R227): Issues an atomic operation with order, use and scope, sealing its region. -/
  | amov (f : SY)
  /-- CASV (R227): Issues a compare-and-swap that returns the old value, sealing its region. -/
  | casv (f : SY)
  /-- FLADD (R232): Adds a value to a counting flag as a CORE release. -/
  | fladd (f : SY)
  /-- FLWAIT (R232): Waits until a flag reaches a value, optionally subtracting it. -/
  | flwait (f : SY)
  /-- FLSET (R232): Sets a flag to a value as a CORE release. -/
  | flset (f : SY)
  /-- FLRD (R232): Reads a flag without ordering. -/
  | flrd (f : SY)
  /-- WAIT (R234): Waits for named scoreboard slots and optionally for die time. -/
  | wait (f : SY)
  /-- TIDWAIT (R235): Waits until a copy channel's transfer identifier passes a value. -/
  | tidwait (f : SY)
  /-- RCLAIM (R236): Claims the lowest Free ring slot, blocking or returning 0 with TRY. -/
  | rclaim (f : SY)
  /-- RPUB (R236): Publishes a claimed slot to the consumer stage as a release, sealing its region. -/
  | rpub (f : SY)
  /-- RWFILL (R236): Waits until a ring holds enough Published slots or is closed. -/
  | rwfill (f : SY)
  /-- RWFREE (R236): Waits until a ring holds enough Free slots. -/
  | rwfree (f : SY)
  /-- RCONS (R236): Returns the task's Taken input slot to Free. -/
  | rcons (f : SY)
  /-- RINFO (R237): Reads a snapshot of a ring's state. -/
  | rinfo (f : SY)
  /-- GBAR (R238): Arrives at a barrier and waits until the episode passes. -/
  | gbar (f : SY)
  /-- GARR (R238): Records the issuer's arrival at a barrier episode. -/
  | garr (f : SY)
  /-- GWAIT (R238): Waits until a named barrier episode has passed. -/
  | gwait (f : SY)
  /-- LJOIN (R240): Joins a scalar value into a lattice cell at the die replica. -/
  | ljoin (f : SY)
  /-- LJOINV (R240): Joins a 32-byte vector value into a lattice cell. -/
  | ljoinv (f : SY)
  /-- LLDT (R242): Loads a lattice cell once it meets a threshold, parking at the die until then. -/
  | lldt (f : SY)
  /-- LLDT_V (R242): Vector form of the threshold load for 32-byte cells. -/
  | lldtV (f : SY)
  /-- LLD (R240): Loads the die replica value of a lattice cell. -/
  | lld (f : SY)
  /-- LLD_V (R240): Vector form of the lattice load. -/
  | lldV (f : SY)
  /-- FENCE (R133): Blocks C until earlier accesses are performed at the named scope. -/
  | fence (f : SY)
  /-- QFENCE (R143): Places fence entries at the tail of the named engine queues. -/
  | qfence (f : SY)
  /-- EVSIG (R245): Enters a program event record after a DEV-scope release, sealing its region. -/
  | evsig (f : SY)
  /-- BR (R182): Branches when a condition holds for two s-registers. -/
  | br (f : BR)
  /-- BRZ (R182): Branches when an s-register is zero or non-zero. -/
  | brz (f : BR)
  /-- BRP (R183): Branches on ANY, ALL or NONE of a predicate's active lanes. -/
  | brp (f : BR)
  /-- JMP (R182): Jumps to a relative target, popping loop levels that do not hold it. -/
  | jmp (f : BR)
  /-- JAL (R182): Jumps and writes the return address to an s-register. -/
  | jal (f : BR)
  /-- JR (R184): Jumps to an s-register target plus a word offset. -/
  | jr (f : BR)
  /-- LOOP (R185): Pushes a hardware loop level with a count read once at issue. -/
  | loop (f : BR)
  /-- NOP (R199): Has no effect. -/
  | nop (f : CT)
  /-- FORK (R188): Starts an A, M or O strand at an entry. -/
  | fork (f : CT)
  /-- JOIN (R189): Blocks C until the named strands have Ended. -/
  | join (f : CT)
  /-- END (R192): Ends the C strand and the task once the other strands end. -/
  | endC (f : CT)
  /-- REGION (R190): Closes the current region after strands and entries finish and opens a new one. -/
  | region (f : CT)
  /-- CSRRD (R193): Reads a CSR. -/
  | csrrd (f : CT)
  /-- CSRWR (R193): Swaps a CSR's value with an s-register atomically. -/
  | csrwr (f : CT)
  /-- CSRSET (R193): Sets CSR bits and returns the old value. -/
  | csrset (f : CT)
  /-- CSRCLR (R193): Clears CSR bits and returns the old value. -/
  | csrclr (f : CT)
  /-- TRAP (R196): Raises a program trap that stops the task and fails the launch. -/
  | trap (f : CT)
  /-- BKPT (R197): Halts the core for debug when breakpoints are enabled. -/
  | bkpt (f : CT)
  /-- SYSCALL (R198): Releases at DIE scope and passes a request to the die control core, blocking C. -/
  | syscall (f : CT)
  /-- AADD (R248): Adds two a-registers. -/
  | aadd (f : AR)
  /-- ASUB (R248): Subtracts two a-registers. -/
  | asub (f : AR)
  /-- AMUL (R248): Multiplies two a-registers, keeping the low 64 bits. -/
  | amul (f : AR)
  /-- AAND (R248): Bitwise AND of two a-registers. -/
  | aand (f : AR)
  /-- AOR (R248): Bitwise OR of two a-registers. -/
  | aor (f : AR)
  /-- AXOR (R248): Bitwise XOR of two a-registers. -/
  | axor (f : AR)
  /-- ASHL (R248): Shifts an a-register left. -/
  | ashl (f : AR)
  /-- ASHR (R248): Shifts an a-register right logically. -/
  | ashr (f : AR)
  /-- AMIN (R248): Unsigned minimum of two a-registers. -/
  | amin (f : AR)
  /-- AMAX (R248): Unsigned maximum of two a-registers. -/
  | amax (f : AR)
  /-- AADDI (R248): Adds a sign-extended immediate to an a-register. -/
  | aaddi (f : AI)
  /-- ALI (R248): Loads a sign-extended immediate into an a-register. -/
  | ali (f : AI)
  /-- ALIH (R248): Replaces the high 32 bits of an a-register. -/
  | alih (f : AI)
  /-- ABR (R249): Branches on a condition of two a-registers. -/
  | abr (f : AB)
  /-- AJMP (R249): Jumps unconditionally on the A strand. -/
  | ajmp (f : AB)
  /-- ALOOP (R249): Pushes an A-strand hardware loop level. -/
  | aloop (f : AB)
  /-- AEND (R249): Ends the A strand, leaving queued entries to be performed. -/
  | aend (f : AB)
  /-- ANOP (R249): Has no effect. -/
  | anop (f : AB)
  /-- DLD (R250): Reads and checks a tensor descriptor into a descriptor slot. -/
  | dld (f : AT)
  /-- DSET (R251): Changes PAD and POIS of a loaded descriptor slot. -/
  | dset (f : AT)
  /-- ALDS (R252): Reads 8 bytes from memory into an a-register. -/
  | alds (f : AT)
  /-- ALDS_STATUS (R253): Reads an A status register into an a-register. -/
  | aldsStatus (f : AT)
  /-- TLD (R255): Queues a load of 1 to 8 tiles into a stream, tile or vault. -/
  | tld (f : AT)
  /-- TST (R255): Queues a store of 1 to 8 tiles from a stream, tile or vault. -/
  | tst (f : AT)
  /-- TGATH (R257): Queues a gathered tile load by an index list. -/
  | tgath (f : AT)
  /-- TSCAT (R257): Queues a scattered tile store by an index list. -/
  | tscat (f : AT)
  /-- TPREF (R258): Queues a prefetch of tiles into L2. -/
  | tpref (f : AT)
  /-- SCLD (R258): Queues a push of page scales into the scale queue. -/
  | scld (f : AT)
  /-- COPY (R260): Queues a byte copy on a channel, handing out a transfer identifier. -/
  | copy (f : AT)
  /-- XSEND (R263): Arms or queues a send of bytes to a local or remote core. -/
  | xsend (f : AT)
  /-- XCOLL (R266): Queues a collective plan for the port processors. -/
  | xcoll (f : AT)
  /-- XRTSW (R266): Records a barrier arrival with a route-table bank to switch to. -/
  | xrtsw (f : AT)
  /-- XCIRC (R266): Requests or releases a circuit on an express port. -/
  | xcirc (f : AT)
  /-- AMO (R267): A-strand atomic with its operands in an operand block. -/
  | amo (f : AT)
  /-- ACAS (R267): A-strand compare-and-swap with its operands in an operand block. -/
  | acas (f : AT)
  /-- DISPATCH (R268): Sends one token row to a replica of an expert through the Cairn table. -/
  | dispatch (f : AT)
  /-- BCAST (R269): Queues broadcast segments on a bus after checking limits. -/
  | bcast (f : AT)
  /-- AWAIT (R270): Waits for named A-strand scoreboard slots. -/
  | await (f : AS)
  /-- AFLWAIT (R270): A-strand wait on a flag, optionally subtracting. -/
  | aflwait (f : AS)
  /-- AFLADD (R270): A-strand add to a flag as a CORE release. -/
  | afladd (f : AS)
  /-- ATIDWAIT (R270): A-strand wait for a copy channel's transfer identifier. -/
  | atidwait (f : AS)
  /-- MMA (R278): Queues a 32 x K by K x 32 matrix product into the accumulator store. -/
  | mma (f : MM)
  /-- BMMA (R279): Queues a binary AND or XOR matrix product. -/
  | bmma (f : MM)
  /-- MGANG (R285): Gangs the following MMA, BMMA or MGO with a quad gang group. -/
  | mgang (f : MG)
  /-- MNEST (R283): Sets one level of the M-strand operand nest. -/
  | mnest (f : MN)
  /-- MGO (R284): Enters the next MMA or BMMA once per point of the nest. -/
  | mgo (f : MN)
  /-- MTZ (R288): Queues a zeroing of a tile register and sets it full. -/
  | mtz (f : MT)
  /-- MACCZ (R288): Queues a zeroing of accumulator words. -/
  | maccz (f : MT)
  /-- MTACC (R289): Queues a conversion of an accumulator block into a tile. -/
  | mtacc (f : MT)
  /-- MSETF (R288): Queues a set-full of a tile after earlier M writes. -/
  | msetf (f : MT)
  /-- MTREL (R288): Queues a release of a tile after earlier readers. -/
  | mtrel (f : MT)
  /-- MFLADD (R288): Queues a flag addition as a CORE release. -/
  | mfladd (f : MT)
  /-- MSCQ (R282): Queues a scale drop and sets the scale geometry. -/
  | mscq (f : MS)
  /-- MFLWAIT (R288): Holds M issue until a flag reaches a value. -/
  | mflwait (f : MT)
  /-- MLI (R290): Loads a 64-bit immediate into an m-register. -/
  | mli (f : MS)
  /-- MADD (R290): Adds two m-registers and an immediate. -/
  | madd (f : MS)
  /-- MBR (R290): Branches on a condition of two m-registers. -/
  | mbr (f : MS)
  /-- MLOOP (R290): Pushes an M-strand hardware loop level. -/
  | mloop (f : MS)
  /-- MEND (R290): Ends the M strand. -/
  | mend (f : MS)
  /-- OCFG (R294): Sets the symbol rate and window length of a bus in the bus table. -/
  | ocfg (f : OC)
  /-- OREF (R295): Sets the reference mode captured by later windows. -/
  | oref (f : OS)
  /-- OCAL (R295): Queues a TRIM or SKEW calibration. -/
  | ocal (f : OS)
  /-- OWIN (R296): Captures and queues an optical window after its checks. -/
  | owin (f : OW)
  /-- OWAIT (R300): Waits for a window to complete and reads its status word. -/
  | owait (f : OS)
  /-- OSTAT (R300): Reads a window's status word or a code without waiting. -/
  | ostat (f : OS)
  /-- OLI (R302): Loads a 64-bit immediate into an o-register. -/
  | oli (f : OX)
  /-- OADD (R302): Adds two o-registers and an immediate. -/
  | oadd (f : OX)
  /-- OBR (R302): Branches on a condition of two o-registers. -/
  | obr (f : OX)
  /-- OLOOP (R302): Pushes an O-strand hardware loop level. -/
  | oloop (f : OX)
  /-- OEND (R302): Ends the O strand. -/
  | oend (f : OX)
  /-- OFLADD (R303): Adds to a flag at issue as a CORE release. -/
  | ofladd (f : OX)
  /-- OFLWAIT (R303): Holds O issue until a flag reaches a value. -/
  | oflwait (f : OX)
  /-- SYSCALL_REPLY (R198): Firmware's reply is written to sd as a DIE acquire and C resumes. Reads ev.core (g), ev.word (firmware's finding for code 3: 0 done, 1 refused, 2 not mapped), ev.page (the page made resident for code 3). -/
  | syscallReply
  /-- TRANSFER_ENTRY_PERFORM (R259): A transfer queue entry at the head moves its tiles and adds its byte flag. Reads ev.core (g). -/
  | transferEntryPerform
  /-- COPY_TIME_RELEASE (R262): A timed copy enters its channel when die TIME reaches its time. Reads ev.core (g). -/
  | copyTimeRelease
  /-- COPY_ENTRY_PERFORM (R261): A copy channel entry moves its bytes, adds its flag and advances TIDST. Reads ev.core (g), ev.num (ch). -/
  | copyEntryPerform
  /-- SEND_START (R265): A send at the head of the send queue reads its source into staging or the destination. Reads ev.core (g). -/
  | sendStart
  /-- SEND_LOCAL_COMPLETION (R265): A ZC 0 send completes locally once every byte is read and adds its flag. Reads ev.core (g), ev.num (id). -/
  | sendLocalCompletion
  /-- SEND_ACK (R265): The destination's acknowledgement completes a zero-copy send. Reads ev.core (g), ev.num (id). -/
  | sendAck
  /-- SEND_DELIVERY (R371): Send bytes arrive at the destination core and add to its RFLAG. Reads ev.num (k). -/
  | sendDelivery
  /-- DISPATCH_PERFORM (R268): Claims a replica ring slot, writes and publishes the item, joins SENT and counts the expert load. Reads ev.core (g). -/
  | dispatchPerform
  /-- BCAST_ACCEPT (R269): The sequencer accepts or refuses a BCAST by the segment-order check. Reads ev.core (g). -/
  | bcastAccept
  /-- MATRIX_ENTRY_PERFORM (R278): An MMA or BMMA entry at the head reads its operands and scales and writes its accumulator block. Reads ev.core (g). -/
  | matrixEntryPerform
  /-- GANG_ENTRY_START (R286): The four members' ganged entries start together with the supplier's B multicast. Reads ev.core (g). -/
  | gangEntryStart
  /-- M_COMMAND_PERFORM (R288): An M tile, accumulator, flag or scale command entry is performed at the queue head. Reads ev.core (g). -/
  | mCommandPerform
  /-- CALIBRATION_RUN (R122): A calibration at the head of the window queue adjusts trims or skew. Reads ev.core (g). -/
  | calibrationRun
  /-- CALIBRATION_COMPLETE (R431): A calibration ends, setting SKW and moving failed rows or recording a failure. Reads ev.core (g), ev.flag (ok), ev.nums (badRows). -/
  | calibrationComplete
  /-- WINDOW_HEAD_READY (R111): The head window becomes ready and counts as armed for its segment. Reads ev.core (g). -/
  | windowHeadReady
  /-- SEGMENT_EMISSION_COMMIT (R112): With every arm counted the sequencer commits a segment and starts its marker frame. Reads ev.num (bus). -/
  | segmentEmissionCommit
  /-- MARKER_FRAME_ARRIVAL (R113): A marker frame reaches a core, which receives the segment, misses it or faults. Reads ev.core (g), ev.num (bus). -/
  | markerFrameArrival
  /-- SEGMENT_SENT (R269): A segment's last symbol is sent and 1 is added to the BCAST's flag. Reads ev.num (bus). -/
  | segmentSent
  /-- WINDOW_COMPLETION (R110): A received window's updates are performed, its status written and its flag added. Reads ev.core (g). -/
  | windowCompletion
  /-- RE_EMISSION (R116): The sequencer re-emits a missed segment for one core. Reads ev.num (bus), ev.core (g). -/
  | reEmission
  /-- REMOTE_ARM_FLIT (R117): A subscribed module's arm flit is counted as one arm at the source sequencer. Reads ev.num (bus), ev.num2 (n), ev.num3 (module). -/
  | remoteArmFlit
  /-- ARM_FLIT_RESEND (R443): A receiving module resends its arm every 20 microseconds until the marker frame arrives. Reads ev.num (bus), ev.num2 (n). -/
  | armFlitResend
  /-- STRAND_UNBLOCK (R25): A blocked strand's condition clears and its instruction completes or retries. Reads ev.core (g), ev.strand (k). -/
  | strandUnblock
  /-- MEMORY_ACCESS_COMPLETION (R131): A variable-latency access completes, writes its destination and clears its slot. Reads ev.core (g), ev.strand (k), ev.num (id). -/
  | memoryAccessCompletion
  /-- ATOMIC_EXECUTE (R228): An atomic request is executed at its unit, possibly merged. Reads ev.core (g), ev.strand (k), ev.num (id), ev.tree. -/
  | atomicExecute
  /-- QFENCE_PASS (R143): All named queues reach their fence entries and pass them together. Reads ev.core (g), ev.num (id). -/
  | qfencePass
  /-- QUA_PENDING_FLUSH (R140): A die's pending QUA sum is added to its location after 4 microseconds or another trigger. Reads ev.num (die), ev.num2 (k). -/
  | quaPendingFlush
  /-- PAGE_IN_COMPLETE (R421): The pager finishes a page-in and the halted access resumes, or fails with RESIDENCY. Reads ev.core (g), ev.strand (k), ev.num (the request, where the strand waits on none), ev.page (r). -/
  | pageInComplete
  /-- PAGE_MIGRATION (R71): Firmware moves an unpinned page to a new home in five ordered steps. Reads ev.num (ctx), ev.num2 (tensor), ev.num3 (page), ev.word (frame), ev.bytes (the page, where it comes from another chip). -/
  | pageMigration
  /-- LATTICE_TYPE_CHANGE (R322): Firmware changes a page's LAT, merging replicas into the frame before the new entry. Reads ev.num (ctx), ev.num2 (tensor), ev.num3 (page), ev.num4 (lat). -/
  | latticeTypeChange
  /-- TTINV_WRITE (R69): Invalidates cached translations of a virtual page in the context. Reads ev.num (ctx), ev.word (va), ev.flag (written over the host link). -/
  | ttinvWrite
  /-- PREEMPTION_REQUEST (R44): A pre-emption request reaches a core and discards an open region or waits on a sealed one. Reads ev.core (g). -/
  | preemptionRequest
  /-- DISCARD_COMPLETE (R45): Discard finishes, the restart record is written and the task is re-queued. Reads ev.core (g). -/
  | discardComplete
  /-- REGION_BOUND_OVERRUN (R44): The region bound expires with the region still sealed, failing the launch. Reads ev.core (g). -/
  | regionBoundOverrun
  /-- TASK_START (R30): A core starts a task, setting its initial state and starting the strands START names. Reads ev.core (g). -/
  | taskStart
  /-- TASK_END (R27): Every engine entry of an ended task is performed and the task ends as a DIE release. Reads ev.core (g). -/
  | taskEnd
  /-- LAUNCH_COMPLETION (R320): Every stage completed and stores and sends performed, the completion record goes to the arbiter. Reads ev.num (l). -/
  | launchCompletion
  /-- SCHEDULER_PERIOD (R311): Every 4,096 kcy the scheduler computes targets, grants cores and sends pre-emption requests. Reads ev.nums (free cores in the order in which they are granted). -/
  | schedulerPeriod
  /-- STALL_LIMIT (R405): The stall monitor's count reaches its limit and fails the launch. Reads ev.core (g). -/
  | stallLimit
  /-- GANG_PARTNER_TIMEOUT (R411): A ganged entry waits 65,536 ccy for a partner that cannot supply and raises a gang mismatch. Reads ev.core (g). -/
  | gangPartnerTimeout
  /-- PARKED_LOAD_TIMEOUT (R429): A load parked beyond FXPLT.LIMIT is withdrawn and its launch fails. Reads ev.num (die), ev.num2 (k). -/
  | parkedLoadTimeout
  /-- DIE_EXCHANGE_SLOT (R325): In its rotation slot a die exchanges changed granules with Keystone. Reads ev.num (die). -/
  | dieExchangeSlot
  /-- IMMEDIATE_EXCHANGE (R327): A requested extra exchange of a die runs outside the rotation. Reads ev.num (die). -/
  | immediateExchange
  /-- GRANULE_FETCH (R324): A die or chip obtains a lattice granule, copying its poison marks. Reads ev.num (die), ev.num2 (addr). -/
  | granuleFetch
  /-- POD_EXCHANGE_PHASE (R328): In each pod phase even chips exchange HOME 2 granules with a neighbour. Reads nothing: the phase is that of pod time. -/
  | podExchangePhase
  /-- POD_EXCHANGE_LOST (R428): An exchange without an ack within Q/6 is recorded lost and the loss epoch rises. Reads nothing: the oldest that is due. -/
  | podExchangeLost
  /-- HOME0_WRITEBACK (R426): A HOME 0 copy is written back to its frame every 1 ms. Reads ev.num (die), ev.num2 (addr). -/
  | home0Writeback
  /-- COUNTER_DECAY (R337): All expert load counters are halved every 2^k kcy. -/
  | counterDecay
  /-- MSNAP_WRITE (R337): Copies every load counter into the snapshot array in one step. Reads ev.word (v), ev.flag (written over the host link). -/
  | msnapWrite
  /-- CAIRN_PUBLISH (R342): Checks the idle bank and makes it current with the next version, or raises a publish error. Reads ev.word (v), ev.flag (written over the host link). -/
  | cairnPublish
  /-- CAIRN_IBUSY_CLEAR (R341): IBUSY clears once no DISPATCH or redirection of the old version is in flight. -/
  | cairnIbusyClear
  /-- MREPGO_WRITE (R344): Starts a replication from MREPCMD, or refuses it over budget. Reads ev.word (v), ev.nums (free frames of the stack), ev.flag (written over the host link). -/
  | mrepgoWrite
  /-- REPLICATION_COMPLETED (R344): A replication finishes copying weights and zeroing gradients, or fails. Reads ev.num (k). -/
  | replicationCompleted
  /-- REPLICA_DRAINED (R345): A draining replica has consumed every sent item and its frames are freed. Reads ev.num (e), ev.num2 (k). -/
  | replicaDrained
  /-- ITEM_REDIRECTION (R346): A Published item of a force-retired replica is moved to an active replica's ring. Reads ev.num (e), ev.num2 (k). -/
  | itemRedirection
  /-- GRADIENT_MERGE (R347): At a step barrier pass Mason sums replica gradients into the primary and joins MDONE. -/
  | gradientMerge
  /-- WEIGHT_RETURN_COPY (R347): At a weight-return barrier pass Mason copies the primary's weights to every replica. -/
  | weightReturnCopy
  /-- LAUNCH (R308): Launch command: checks the pipeline record and reserves minimum cores. Reads ev.num (q). -/
  | launch
  /-- LAUNCH_ACCEPT (R308): A LAUNCH waiting for cores is accepted when enough are released. Reads ev.num (q). -/
  | launchAccept
  /-- CIRCUIT (R368): Circuit command: requests or releases a circuit as XCIRC does. Reads ev.num (q). -/
  | circuit
  /-- DRAIN_PORT (R367): Drain-port command: the port stops being chosen and drains. Reads ev.num (q). -/
  | drainPort
  /-- RETRAIN_PORT (R367): Retrain-port command: a drained or failed port trains. Reads ev.num (q). -/
  | retrainPort
  /-- CHECKPOINT (R356): Checkpoint command: quiesces every task and writes the device image to the second tier. Reads ev.num (q). -/
  | checkpoint
  /-- CHECKPOINT_COMPLETION (R356): The image and header are written, the completion record enters and requests are released. -/
  | checkpointCompletion
  /-- FENCE_COMMAND (R307): Fence command: accepted only when every earlier command of the queue is done. Reads ev.num (q). -/
  | fenceCommand
  /-- SIGNAL (R307): Signal command: accepted at once, completing with a record once earlier commands are done. Reads ev.num (q). -/
  | signal
  /-- LQTAIL_WRITE (R305): Doorbell write making commands pending, or a queue error when overfull. Reads ev.num (q), ev.word (v), ev.flag (written over the host link). -/
  | lqtailWrite
  /-- LQCFG_WRITE (R408): Configures or resets a launch queue, including a stopped one. Reads ev.num (q), ev.word (v), ev.flag (written over the host link). -/
  | lqcfgWrite
  /-- EVENT_RECORD_ENTRY (R321): The arbiter enters one record into the event log and advances ELWR. Reads ev.num (die). -/
  | eventRecordEntry
  /-- ELCFG_WRITE (R352): Sets the log size, enabling it and retrying held records. Reads ev.word (v), ev.flag (written over the host link). -/
  | elcfgWrite
  /-- ELBASE_WRITE (R352): Sets the log base and retries an unwritable record. Reads ev.word (v), ev.flag (written over the host link). -/
  | elbaseWrite
  /-- ELRD_WRITE (R352): Advances the host's read pointer, freeing room for held records. Reads ev.word (v), ev.flag (written over the host link). -/
  | elrdWrite
  /-- EVENT_LOG_RETRY (R352): A log in host memory retries an unwritable record once per ms. -/
  | eventLogRetry
  /-- ATOMIC_STATUS_POLL (R394): Firmware reads atomic status registers once per ms and enters records. Reads ev.unit (u). -/
  | atomicStatusPoll
  /-- CORRECTED_ERROR_REPORT (R414): Firmware enters at most one corrected-error record per array per ms. Reads ev.num (array). -/
  | correctedErrorReport
  /-- HBM_ERROR_COUNT_POLL (R416): Every 10 ms the controller reads stack error counts and records increases. Reads ev.num (stack), ev.num2 (count). -/
  | hbmErrorCountPoll
  /-- L2_CHECK_MODE_SWITCH (R415): Slices switch between SEC-DED and DEC-TED around SRAM rail changes. Reads ev.flag (decTed). -/
  | l2CheckModeSwitch
  /-- STRATA_COMMIT (R380): Firmware commits the lifetime record to flash every 10 min. -/
  | strataCommit
  /-- TIME_CONVERSION_COMMIT (R21): Firmware commits a new set of time conversion pairs and increments TGEN. Reads ev.num (die), ev.pairs. -/
  | timeConversionCommit
  /-- POWER_GOOD (R375): After power-good the module runs bring-up steps 0 to 5. Reads ev.fuses. -/
  | powerGood
  /-- POWER_WINDOW (R377): At each 1 ms window end the clock is lowered or raised by the power limit. Reads ev.num (watts). -/
  | powerWindow
  /-- DIE_TEMPERATURE_THRESHOLD (R378): A die's hottest reading crosses 95, 105 or 115 degrees C. Reads ev.num (die), ev.num2 (degC). -/
  | dieTemperatureThreshold
  /-- LASER_POWER_CHANGE (R430): A laser monitor's power class changes. Reads ev.num (bus), ev.num2 (lpc). -/
  | laserPowerChange
  /-- LASER_POWER_LOST_EXPIRY (R432): A laser at LPC 3 for 100 ms fails affected launches. Reads ev.num (bus). -/
  | laserPowerLostExpiry
  /-- FIRMWARE_VERSION (R379): Mailbox command returning the firmware version. Reads ev.num (tag). -/
  | firmwareVersion
  /-- PRESENT_MASK (R379): Mailbox command returning a word of the present-core mask. Reads ev.num (tag). -/
  | presentMask
  /-- READ_STRATA_PAGE (R379): Mailbox command returning one Strata page. Reads ev.num (tag). -/
  | readStrataPage
  /-- DEBUG_HALT (R379): Mailbox debug command halting a core. Reads ev.num (tag). -/
  | debugHalt
  /-- DEBUG_RESUME (R379): Mailbox debug command resuming a halted core. Reads ev.num (tag). -/
  | debugResume
  /-- DEBUG_SET_DBG (R379): Mailbox debug command writing a core's DBG register. Reads ev.num (tag). -/
  | debugSetDbg
  /-- RESTORE_CHECKPOINT (R379): Mailbox command writing a checkpoint image back and restarting its launches. Reads ev.num (tag). -/
  | restoreCheckpoint
  /-- FIRMWARE_UPDATE_BLOCK (R376): Mailbox command writing one block of a firmware image to the idle flash copy. Reads ev.num (tag). -/
  | firmwareUpdateBlock
  /-- HOST_BAR2_ACCESS (R350): A host access through BAR2 reaches HBM coherently through L2. Reads ev.num (off), ev.host (op). -/
  | hostBar2Access
  /-- REGISTER_WRITE (R11): A write to a register without a row of its own sets its RW fields. Reads ev.reg (r), ev.word (v), ev.flag (written over the host link). -/
  | registerWrite
  /-- PACKET_HOP (R362): A packet arrives at a chip and is delivered or routed by its bank. Reads ev.num (k). -/
  | packetHop
  /-- ROUTE_CARRYING_HOP (R364): A route-carrying packet pops a hop entry, reducing, forking or delivering. Reads ev.num (k). -/
  | routeCarryingHop
  /-- FLIT_UNCORRECTABLE (R358): A flit the code cannot correct discards its packet. Reads ev.num (port), ev.num2 (k), ev.num3 (the flit of the packet). -/
  | flitUncorrectable
  /-- REQUEST_AT_HOME (R360): A request reaches its home, which drops it if stale, resends or performs it. Reads ev.num (k). -/
  | requestAtHome
  /-- RESPONSE_ARRIVAL (R440): The first response for a request completes it; later ones are discarded. Reads ev.num (id), ev.flag (ok), ev.bytes (value), ev.num2 (the cause where it is not ok). -/
  | responseArrival
  /-- REQUESTER_TIMER_EXPIRY (R359): A request's timer expires and it is reissued or ends in REMOTE_TIMEOUT. Reads ev.num (id). -/
  | requesterTimerExpiry
  /-- ROUTE_BROKEN (R441): A ROUTE_BROKEN reply counts as an expiry and the request is reissued with ALT. Reads ev.num (id), ev.num2 (chip). -/
  | routeBroken
  /-- BUSY_REPLY (R446): A BUSY reply stops the timer during a checkpoint. Reads ev.num (id). -/
  | busyReply
  /-- BUSY_REISSUE (R446): After 100 microseconds the requester reissues a request that received BUSY. Reads ev.num (id). -/
  | busyReissue
  /-- TARGET_HALTED (R446): A TARGET_HALTED reply ends its request without reissue. Reads ev.num (id). -/
  | targetHalted
  /-- HALTED_REQUEST_EXPIRY (R369): A request held 100 microseconds at a halted chip is answered TARGET_HALTED. Reads ev.num (k). -/
  | haltedRequestExpiry
  /-- CONTROL_PACKET_ARRIVAL (R361): The first good copy of a control packet is delivered and the other discarded. Reads ev.num (k). -/
  | controlPacketArrival
  /-- COLLECTIVE_PLAN_RUN (R366): A port processor requests the plan's circuits and runs its steps. Reads ev.num (k). -/
  | collectivePlanRun
  /-- DRAIN_PACKET_ARRIVAL (R367): A peer's DRAIN makes the port take the drain path. Reads ev.num (port). -/
  | drainPacketArrival
  /-- PORT_DRAINED (R367): Queue empty, credits returned and DRAIN_ACK received, the port becomes DRAINED. Reads ev.num (port). -/
  | portDrained
  /-- DRAIN_TIMEOUT (R367): After 100 microseconds of draining the port discards queued packets and becomes DRAINED. Reads ev.num (port). -/
  | drainTimeout
  /-- TRAINING_PASS (R367): All training steps pass and the port becomes UP. Reads ev.num (port). -/
  | trainingPass
  /-- TRAINING_TIMEOUT (R367): A training step fails or 2 ms pass and the port becomes FAILED. Reads ev.num (port). -/
  | trainingTimeout
  /-- CIRCUIT_SETUP_HOP (R368): A SETUP reaches a hop, which reserves its cross-point or returns BUSY. Reads ev.num (src), ev.num2 (dst), ev.num3 (inPort), ev.num4 (outPort). -/
  | circuitSetupHop
  /-- CIRCUIT_ACK (R368): An ACK returns, each hop commits and the path lights. Reads ev.num (port). -/
  | circuitAck
  /-- CIRCUIT_BUSY (R368): A BUSY returns, hops release and the requester waits or fails. Reads ev.num (port). -/
  | circuitBusy
  /-- CIRCUIT_BACKOFF_END (R368): The backoff wait ends and SETUP is sent again. Reads ev.num (port). -/
  | circuitBackoffEnd
  /-- SETUP_REPLY_TIMEOUT (R445): A SETUP with no reply in 50 microseconds counts as BUSY. Reads ev.num (port). -/
  | setupReplyTimeout
  /-- CIRCUIT_FEC_LOCK (R368): FEC locks and the circuit becomes UP. Reads ev.num (port). -/
  | circuitFecLock
  /-- CIRCUIT_LOCK_TIMEOUT (R368): FEC fails to lock in 20 microseconds and set-up fails. Reads ev.num (port). -/
  | circuitLockTimeout
  /-- TEARDOWN_ACK (R368): An acknowledged TEARDOWN returns the circuit to IDLE. Reads ev.num (port). -/
  | teardownAck
  /-- PCIE_ERROR (R447): The host link reports a correctable error, completion error or poisoned TLP. Reads ev.pcie (e); for an access also ev.core (g), ev.strand (k). -/
  | pcieError
  /-- PCIE_LINK_DOWN (R447): The host link goes down and requests to host memory fail. -/
  | pcieLinkDown
  /-- SECOND_TIER_FAILURE (R448): A CXL link down or fatal error makes the second tier unavailable. Reads ev.num (the image offset that a running checkpoint has reached). -/
  | secondTierFailure
  /-- POWER_LOSS (R449): The module loses power: a running checkpoint is interrupted without a record, and Strata counts since the last commit are lost. -/
  | powerLoss
  /-- DIE_BELOW_100_C (R378): A die forced to 1.0 GHz cools below 100 degrees C, and hardware releases the forced compute clock. Reads ev.num (die). -/
  | dieBelow100C
  /-- SKEW_DRIFT_MEASURED (R121): The core's skew state ages past the 10 ms trim or is measured for drift, and SKW moves to 1 (within tolerance) or 2 (recalibration due). Reads ev.core (g), ev.flag (within). -/
  | skewDriftMeasured
  /-- PCIE_LINK_UP (R447): The host link returns after a link down, and host writes to BAR0 and BAR2 and device requests to host memory work again. -/
  | pcieLinkUp
  deriving DecidableEq, Repr

end Sys2Proof
end

