-- ==== Sys2Proof/WellFormed.lean ====
section
/-! DEFINITION. Which field values an instruction may hold: the limits of R151, R152, R154, R156, R161, R163, R201, R227 and
of the instruction pages. A word that breaks one is a reserved encoding, which the decoder refuses (R396). -/

namespace Sys2Proof

/-- The number names an s-register (R152). -/
def isS (x : BitVec 10) : Bool := x.toNat < 64
/-- The number names a v-register; 768 to 1023 name none (R152). -/
def isV (x : BitVec 10) : Bool := x.toNat < 768
/-- The number names a predicate register (R152). -/
def isP (x : BitVec 10) : Bool := x.toNat < 8
/-- An even register number, as I128 needs (R226). -/
def evenReg (x : BitVec 6) : Bool := x.toNat % 2 == 0
/-- A rounding code of R84; 0b101 and 0b110 are reserved. -/
def rmOk (x : BitVec 3) : Bool := x != 5 && x != 6

/-- Integer SR instructions other than the unary ones: fn is zero (R176). -/
def SR.plain (f : SR) : Bool := f.fn == 0
/-- CLZ and POPC: sb and fn are zero (R176). -/
def SR.unary (f : SR) : Bool := f.sb == 0 && f.fn == 0
/-- SEXT and ZEXT: fn[33:32] is a width code, 3 reserved (R176). -/
def SR.widthOk (f : SR) : Bool := f.sb == 0 && f.fn.toNat < 3
/-- FP instructions: fn[34:32] is a rounding code and fn[35] is zero (R179). -/
def SR.rounded (f : SR) : Bool := f.fn.toNat < 8 && rmOk (f.fn.setWidth 3)
/-- FCVTIS and FCVTSI name no second source (R180). -/
def SR.roundedUnary (f : SR) : Bool := f.rounded && f.sb == 0
/-- FCMPS: any compare code of R154, fn[35] zero. -/
def SR.compared (f : SR) : Bool := f.fn.toNat < 8
/-- Immediate shifts: 64 and above are reserved (R178). -/
def SI.shiftOk (f : SI) : Bool := f.imm.toNat < 64
/-- LI names no source (R178). -/
def SI.noSource (f : SI) : Bool := f.sa == 0

/-- Integer type codes 5 to 7 of the ty field (R201). -/
def VR.intTy (f : VR) : Bool := 5 ≤ f.ty.toNat
/-- Floating type codes 0 to 2 of the ty field (R201). -/
def VR.fpTy (f : VR) : Bool := f.ty.toNat ≤ 2
/-- The vb operand names a register of the file that bs selects (R200). -/
def VR.vbOk (f : VR) : Bool := if f.bs == 1 then isS f.vb else isV f.vb
/-- Destination, va and vb operands (R200). -/
def VR.binary (f : VR) : Bool := isV f.vd && isV f.va && f.vbOk
/-- Unary vector forms: vb, vc and bs are zero (R204). -/
def VR.unary (f : VR) : Bool := isV f.vd && isV f.va && f.vb == 0 && f.vc == 0 && f.bs == 0
/-- No type, rounding or saturation field (last row of R201). -/
def VR.bare (f : VR) : Bool := f.ty == 0 && f.rm == 0 && f.sat == 0
/-- The row operand of TRD and TWR (R215). -/
def VR.rowOk (f : VR) : Bool :=
  if f.bs == 1 then isS f.vb && f.vc == 0 else f.vb == 0 && f.vc.toNat < 32
/-- The fields of VRED and VSCAN (R201). -/
def VR.foldOk (f : VR) : Bool :=
  (f.fpTy && f.sub.toNat ≤ 2 && rmOk f.rm && f.sat == 0) ||
  (f.intTy && f.sub.toNat ≤ 5 && f.rm == 0 && (f.sat == 0 || f.sub == 0))
/-- VCVT's source type, vc[23:20] (R156). -/
def VR.cvtSrc (f : VR) : Nat := f.vc.toNat / 64
/-- VCVT's destination type, vc[19:16] (R156). -/
def VR.cvtDst (f : VR) : Nat := f.vc.toNat / 4 % 16
/-- VCVT's quarter select, vc[15:14] (R156). -/
def VR.cvtQ (f : VR) : Nat := f.vc.toNat % 4
/-- Integer type codes of the VI format (R201). -/
def VI.intTy (f : VI) : Bool := 5 ≤ f.ty.toNat

/-- The width in bits that a type takes in a register lane (R76, R210): 6-bit types take a byte; 0 where a type has none. -/
def laneWidth (t : Nat) : Nat :=
  if t = 0 ∨ t = 5 then 32 else if t = 1 ∨ t = 2 ∨ t = 6 then 16 else if t ≤ 13 ∧ t ≠ 9 ∧ t ≠ 12 then 8 else 0
/-- VCVT's types and quarter (R210). -/
def cvtOk (src dst q : Nat) : Bool :=
  (src ≤ 8 || src == 10 || src == 11 || src == 13) && (dst ≤ 8 || dst == 10 || dst == 11) &&
  (if laneWidth src = laneWidth dst then q == 0
   else if laneWidth src > laneWidth dst then q < laneWidth src / laneWidth dst
   else q < laneWidth dst / laneWidth src)

/-- LDVX and STVX: the index register in off22[37:28] (R156). -/
def MV.index (f : MV) : BitVec 10 := f.off.extractLsb' 12 10

/-- The operation fields of an atomic (R137, R226): imm14 of AMOV and CASV, bits [13:0] of an A operand block. -/
structure Amo where
  op : Nat
  ty : Nat
  order : Nat
  use : Nat
  scope : Bool
  deriving DecidableEq, Repr
/-- op[13:10] type[9:7] order[6:4] use[3:1] scope[0] of a 14-bit field. -/
def Amo.of (x : BitVec 14) : Amo :=
  { op := x.toNat / 1024, ty := x.toNat / 128 % 8, order := x.toNat / 16 % 8, use := x.toNat / 2 % 8,
    scope := x.toNat % 2 == 1 }
/-- The operation fields of AMOV and CASV. -/
def SY.amo (f : SY) : Amo := Amo.of f.imm
/-- The combinations of R227 with R137: operation, type, order and use. -/
def amoOk (x : Amo) : Bool :=
  x.order ≤ 3 && x.use ≤ 4 && (x.use == 0 || x.order == 0) &&
  (match x.op with
   | 0 => x.ty ≤ 4 && x.use == 0
   | 1 => x.ty ≤ 1 && (x.use == 0 || x.use == 1 || x.use == 3)
   | 2 | 3 | 4 | 5 | 6 | 7 | 8 => x.ty ≤ 1 && x.use ≤ 1
   | 9 => (x.ty == 2 || x.ty == 3) && x.use ≤ 1
   | 10 => x.ty ≤ 4 && x.order ≤ 1 && (x.use == 0 || x.use == 2 || x.use == 4)
   | 11 => x.ty ≤ 4 && (x.order == 0 || x.order == 2) && x.use == 0
   | _ => false)
/-- CASV and ACAS: op 0 and use UNP (R226, R267). -/
def casOk (x : Amo) : Bool := x.op == 0 && x.ty ≤ 4 && x.order ≤ 3 && x.use == 0
/-- AMOV's register limits: I128 pairs are even, COM, QUA and STORE return nothing, LOAD has no operand (R226, R227). -/
def amoRegsOk (x : Amo) (sd sb : BitVec 6) : Bool :=
  (x.ty != 4 || (evenReg sd && evenReg sb)) && ((x.use != 1 && x.use != 3 && x.op != 11) || sd == 0) &&
  (x.op != 10 || sb == 0)
/-- The vector register of LJOINV, LLDT.V and LLD.V: idx then sd[45:44], with sd[43:40] zero (R156). -/
def SY.vec (f : SY) : Nat := f.idx.toNat * 4 + f.sd.toNat / 16
/-- That register exists and the rest of sd is zero (R240). -/
def SY.vecOk (f : SY) : Bool := f.vec < 768 && f.sd.toNat % 16 == 0

/-- Every field of a CT word is zero. -/
def CT.blank (f : CT) : Bool := f.sd == 0 && f.sa == 0 && f.imm == 0 && f.opt == 0
/-- The CSR addresses that R195 lists. -/
def csrListed (x : BitVec 32) : Bool :=
  let n := x.toNat
  n ≤ 1 || (8 ≤ n && n ≤ 9) || (12 ≤ n && n ≤ 17) || (0x18 ≤ n && n ≤ 0x1B) || (0x20 ≤ n && n ≤ 0x21) ||
  (0x30 ≤ n && n ≤ 0x3C) || (0x40 ≤ n && n ≤ 0x4C) || n == 0x50 || (0x60 ≤ n && n ≤ 0x67) || n == 0x70
/-- The CSRs with an RW field: FPST and SPCP (R194, R195). -/
def csrWritable (x : BitVec 32) : Bool := x.toNat ≤ 1

/-- A lane type of a stream: 0x0 to 0x8, 0xA and 0xB (R255). -/
def laneTypeOk (t : Nat) : Bool := t ≤ 8 || t == 10 || t == 11
/-- The kind fields of TLD, TST, TGATH and TSCAT (R254, R255); `sl` where ord[18] is .SL, which only TST takes. -/
def AT.kindOk (f : AT) (sl : Bool) : Bool :=
  (sl || f.ord.toNat < 32) &&
  (match f.dk.toNat with
   | 0 => f.dx.toNat < 16 && f.ord.toNat % 32 < 16 && laneTypeOk (f.ord.toNat % 16)
   | 1 => f.dx.toNat < 16 && f.ord.toNat % 32 == 0
   | 2 => f.dx.toNat < 32 && f.ord.toNat % 32 == 0
   | _ => false)
/-- An operand block of n registers ends at a31, and the fields no block instruction uses are zero (R159). -/
def AT.block (f : AT) (n : Nat) : Bool := f.crd.toNat + n ≤ 32 && f.d == 0 && f.ord == 0 && f.var == 0

/-- The type pairs of MMA (R276). -/
def mmaPair (a b : BitVec 4) : Bool :=
  match a.toNat, b.toNat with
  | 0, 0 | 1, 1 | 2, 2 => true
  | 1, 7 | 1, 9 | 2, 7 | 2, 9 | 7, 1 | 9, 1 | 7, 2 | 9, 2 => true
  | 3, 3 | 3, 4 | 4, 3 | 4, 4 => true
  | 7, 7 | 7, 8 | 8, 7 | 8, 8 => true
  | 7, 9 | 9, 7 | 9, 9 | 10, 10 => true
  | _, _ => false
/-- An operand type that may take scales: INT8, INT4 or LNS6 (R90, R276). -/
def takesScale (t : BitVec 4) : Bool := t == 7 || t == 9 || t == 10
/-- The pair has an operand that takes scales (R276). -/
def scaled (a b : BitVec 4) : Bool := takesScale a || takesScale b
/-- One MM operand: a tile, or an even m-register pair up to 14 (R161). -/
def mmOperandOk (src : BitVec 1) (idx : BitVec 5) : Bool :=
  idx.toNat < 16 && (src == 0 || idx.toNat % 2 == 0)
/-- The operands, cacc and cmode of MMA and BMMA (R161, R277). -/
def MM.operandsOk (f : MM) : Bool :=
  mmOperandOk f.asrc f.aidx && mmOperandOk f.bsrc f.bidx && f.cacc.toNat < 16 && f.cmode != 3
/-- A word offset of MBR, MLOOP, OBR and OLOOP lies in −2^31 to 2^31 − 1 (R290, R302). -/
def near (x : BitVec 64) : Bool := decide (-(2 ^ 31) ≤ x.toInt) && decide (x.toInt < 2 ^ 31)
/-- MSCQ's geometry codes and drop count (R282). -/
def mscqOk (x : BitVec 64) : Bool :=
  let n := x.toNat
  n % 8 ≤ 4 && n / 8 % 2 == 0 && n / 16 % 8 ≤ 4 && n / 128 % 512 == 0 && n / 65536 ≤ 1024


/-- The instruction is one that its page allows. An event has no fields. BR.AL takes any sa and sb, which no comparison reads (DESIGN
CHOICE, unsafe; log entry 106). -/
def Instr.wf : Instr → Bool
  | .add f => f.plain
  | .sub f => f.plain
  | .mul f => f.plain
  | .mulh f => f.plain
  | .mulhu f => f.plain
  | .div f => f.plain
  | .divu f => f.plain
  | .rem f => f.plain
  | .remu f => f.plain
  | .and f => f.plain
  | .or f => f.plain
  | .xor f => f.plain
  | .shl f => f.plain
  | .shr f => f.plain
  | .sar f => f.plain
  | .min f => f.plain
  | .max f => f.plain
  | .minu f => f.plain
  | .maxu f => f.plain
  | .seq f => f.plain
  | .sne f => f.plain
  | .slt f => f.plain
  | .sltu f => f.plain
  | .clz f => f.unary
  | .popc f => f.unary
  | .bfx f => f.plain
  | .bfi f => f.plain
  | .sext f => f.widthOk
  | .zext f => f.widthOk
  | .addi _ => true
  | .muli _ => true
  | .andi _ => true
  | .ori _ => true
  | .xori _ => true
  | .shli f => f.shiftOk
  | .shri f => f.shiftOk
  | .sari f => f.shiftOk
  | .slti _ => true
  | .sltui _ => true
  | .li f => f.noSource
  | .lih _ => true
  | .fadds f => f.rounded
  | .fsubs f => f.rounded
  | .fmuls f => f.rounded
  | .fmas f => f.rounded
  | .fmins f => f.rounded
  | .fmaxs f => f.rounded
  | .fcmps f => f.compared
  | .fcvtis f => f.roundedUnary
  | .fcvtsi f => f.roundedUnary
  | .vadd f => f.intTy && f.binary && f.vc == 0 && f.rm == 0 && f.sub == 0
  | .vsub f => f.intTy && f.binary && f.vc == 0 && f.rm == 0 && f.sub == 0
  | .vmul f => f.intTy && f.binary && f.vc == 0 && f.rm == 0 && f.sub == 0
  | .vmulh f => f.intTy && f.binary && f.vc == 0 && f.rm == 0 && f.sat == 0 && f.sub.toNat ≤ 1
  | .vmad f => f.intTy && f.binary && isV f.vc && f.rm == 0 && f.sub == 0
  | .vmin f => f.intTy && f.binary && f.vc == 0 && f.rm == 0 && f.sat == 0 && f.sub.toNat ≤ 1
  | .vmax f => f.intTy && f.binary && f.vc == 0 && f.rm == 0 && f.sat == 0 && f.sub.toNat ≤ 1
  | .vand f => f.intTy && f.binary && f.vc == 0 && f.rm == 0 && f.sat == 0 && f.sub == 0
  | .vor f => f.intTy && f.binary && f.vc == 0 && f.rm == 0 && f.sat == 0 && f.sub == 0
  | .vxor f => f.intTy && f.binary && f.vc == 0 && f.rm == 0 && f.sat == 0 && f.sub == 0
  | .vshl f => f.intTy && f.binary && f.vc == 0 && f.rm == 0 && f.sub == 0
  | .vshr f => f.intTy && f.binary && f.vc == 0 && f.rm == 0 && f.sat == 0 && f.sub == 0
  | .vsar f => f.intTy && f.binary && f.vc == 0 && f.rm == 0 && f.sat == 0 && f.sub == 0
  | .vabs f => f.intTy && f.unary && f.rm == 0 && f.sub == 0
  | .vclz f => f.intTy && f.unary && f.rm == 0 && f.sat == 0 && f.sub == 0
  | .vpopc f => f.intTy && f.unary && f.rm == 0 && f.sat == 0 && f.sub == 0
  | .vaddi f => f.intTy && isV f.vd && isV f.va && f.sub == 0
  | .vfadd f => f.fpTy && f.binary && f.vc == 0 && rmOk f.rm && f.sat == 0 && f.sub == 0
  | .vfsub f => f.fpTy && f.binary && f.vc == 0 && rmOk f.rm && f.sat == 0 && f.sub == 0
  | .vfmul f => f.fpTy && f.binary && f.vc == 0 && rmOk f.rm && f.sat == 0 && f.sub == 0
  | .vfma f => f.fpTy && f.binary && isV f.vc && rmOk f.rm && f.sat == 0 && f.sub == 0
  | .vfmin f => f.fpTy && f.binary && f.vc == 0 && f.rm == 0 && f.sat == 0 && f.sub == 0
  | .vfmax f => f.fpTy && f.binary && f.vc == 0 && f.rm == 0 && f.sat == 0 && f.sub == 0
  | .vfneg f => f.fpTy && f.vc == 0 && f.rm == 0 && f.sat == 0 && ((f.sub.toNat ≤ 1 && f.unary) || (f.sub == 2 && f.binary))
  | .vcmp f => f.ty == 5 && isP f.vd && isV f.va && f.vbOk && f.vc == 0 && f.rm == 0 && f.sat == 0
  | .vfcmp f => f.ty == 0 && isP f.vd && isV f.va && f.vbOk && f.vc == 0 && f.rm == 0 && f.sat == 0
  | .pand f => f.bare && f.bs == 0 && f.pg == 0 && f.sub == 0 && isP f.vd && isP f.va && isP f.vb && f.vc == 0
  | .por f => f.bare && f.bs == 0 && f.pg == 0 && f.sub == 0 && isP f.vd && isP f.va && isP f.vb && f.vc == 0
  | .pxor f => f.bare && f.bs == 0 && f.pg == 0 && f.sub == 0 && isP f.vd && isP f.va && isP f.vb && f.vc == 0
  | .pnot f => f.bare && f.bs == 0 && f.pg == 0 && f.sub == 0 && isP f.vd && isP f.va && f.vb == 0 && f.vc == 0
  | .pmovs f => f.bare && f.bs == 1 && f.pg == 0 && f.sub == 0 && isP f.vd && f.va == 0 && isS f.vb && f.vc == 0
  | .smovp f => f.bare && f.bs == 0 && f.pg == 0 && f.sub == 0 && isS f.vd && isP f.va && f.vb == 0 && f.vc == 0
  | .vsel f => f.bare && f.binary && f.sub == 0 && isP f.vc
  | .vmov f => f.bare && f.unary && f.sub == 0
  | .vmovStream f => f.bare && f.bs == 0 && f.sub == 1 && isV f.vd && f.va.toNat < 16 && f.vb == 0 && f.vc == 0
  | .vmvs f => f.bare && f.bs == 0 && f.pg == 0 && f.sub == 0 && isS f.vd && isV f.va && f.vb == 0 && f.vc.toNat < 32
  | .vmvl f => f.bare && f.bs == 1 && f.pg == 0 && f.sub == 0 && isV f.vd && f.va == 0 && isS f.vb && f.vc.toNat < 32
  | .vidx f => f.intTy && f.rm == 0 && f.sat == 0 && f.sub == 0 && isV f.vd && f.va == 0 && f.vc == 0 && (if f.bs == 1 then isS f.vb else f.vb == 0)
  | .vli f => f.intTy && isV f.vd && f.va == 0 && f.sub == 0
  | .vexp2 f => f.fpTy && f.unary && rmOk f.rm && f.sat == 0 && f.sub == 0
  | .vlog2 f => f.fpTy && f.unary && rmOk f.rm && f.sat == 0 && f.sub == 0
  | .vrcp f => f.fpTy && f.unary && rmOk f.rm && f.sat == 0 && f.sub == 0
  | .vrsqrt f => f.fpTy && f.unary && rmOk f.rm && f.sat == 0 && f.sub == 0
  | .vtanh f => f.fpTy && f.unary && rmOk f.rm && f.sat == 0 && f.sub == 0
  | .vsigm f => f.fpTy && f.unary && rmOk f.rm && f.sat == 0 && f.sub == 0
  | .vcvt f => f.ty == 0 && f.bs == 0 && f.vb == 0 && isV f.vd && isV f.va && rmOk f.rm && f.sub == 0 && cvtOk f.cvtSrc f.cvtDst f.cvtQ
  | .vpack f => f.ty == 0 && f.rm == 0 && f.bs == 0 && f.vb == 0 && isV f.vd && isV f.va && ((f.sub == 0 && f.sat == 0 && f.vc.toNat < 8) || (f.sub == 1 && f.vc.toNat < 2))
  | .vunpk f => f.ty == 0 && f.rm == 0 && f.sat == 0 && f.bs == 0 && f.vb == 0 && isV f.vd && isV f.va && ((f.sub == 0 && f.vc.toNat < 8) || (f.sub == 1 && f.vc.toNat < 2))
  | .vperm f => f.bare && f.binary && f.sub == 0 && isV f.vc
  | .vbcl f => f.bare && f.bs == 0 && f.sub == 0 && isV f.vd && isV f.va && f.vb == 0 && f.vc.toNat < 32
  | .vslide f => f.bare && f.bs == 0 && f.sub.toNat ≤ 1 && isV f.vd && isV f.va && isV f.vb && f.vc.toNat < 32
  | .vred f => f.unary && f.foldOk
  | .vscan f => f.unary && f.foldOk
  | .trd f => f.bare && f.sub == 0 && isV f.vd && f.va.toNat < 16 && f.rowOk
  | .twr f => f.bare && f.sub == 0 && f.vd.toNat < 16 && isV f.va && f.rowOk
  | .tsetf f => f.bare && f.bs == 0 && f.pg == 0 && f.sub == 0 && f.vd.toNat < 16 && f.va == 0 && f.vb == 0 && f.vc == 0
  | .trel f => f.bare && f.bs == 0 && f.pg == 0 && f.sub == 0 && f.vd.toNat < 16 && f.va == 0 && f.vb == 0 && f.vc == 0
  | .accrd f => f.bare && f.bs == 1 && f.sub == 0 && isV f.vd && f.va == 0 && isS f.vb
  | .accwr f => f.bare && f.bs == 1 && f.sub == 0 && f.vd == 0 && isV f.va && isS f.vb
  | .accz f => f.bare && f.bs == 1 && f.sub == 0 && f.pg == 0 && f.vd == 0 && f.va == 0 && isS f.vb
  | .ldv f => isV f.reg && f.wd == 0
  | .stv f => isV f.reg && f.wd.toNat ≤ 1
  | .lds f => isS f.reg && f.pg == 0
  | .sts f => f.reg.toNat % 512 < 64 && f.pg == 0
  | .ldvx f => isV f.reg && f.wd.toNat ≤ 2 && isV f.index && f.off.toNat % 4096 == 0
  | .stvx f => isV f.reg && f.wd.toNat ≤ 2 && isV f.index && f.off.toNat % 4096 ≤ 1
  | .amov f => f.idx == 0 && f.opt == 0 && amoOk f.amo && amoRegsOk f.amo f.sd f.sb
  | .casv f => f.idx == 0 && f.opt == 0 && casOk f.amo && (f.amo.ty != 4 || (evenReg f.sd && evenReg f.sb))
  | .fladd f => f.idx.toNat < 64 && f.sb == 0 && f.opt == 0
  | .flwait f => f.idx.toNat < 64 && f.sb == 0 && f.opt.toNat ≤ 1
  | .flset f => f.idx.toNat < 64 && f.sb == 0 && f.opt == 0
  | .flrd f => f.idx.toNat < 64 && f.sa == 0 && f.sb == 0 && f.imm == 0 && f.opt == 0
  | .wait f => f.idx == 0 && f.sd == 0 && f.sb == 0 && f.imm == 0 && f.set == 0 && (f.opt == 1 || (f.opt == 0 && f.sa == 0))
  | .tidwait f => f.idx.toNat < 8 && f.sb == 0 && f.imm == 0 && f.opt == 0
  | .rclaim f => f.idx.toNat < 32 && f.sa == 0 && f.sb == 0 && f.imm == 0 && f.opt.toNat ≤ 1
  | .rpub f => f.idx.toNat < 32 && f.sd == 0 && f.sb == 0 && f.imm == 0 && f.opt == 0
  | .rwfill f => f.idx.toNat < 32 && f.sb == 0 && f.opt == 0
  | .rwfree f => f.idx.toNat < 32 && f.sb == 0 && f.opt == 0
  | .rcons f => f.idx.toNat < 32 && f.sd == 0 && f.sb == 0 && f.imm == 0 && f.opt == 0
  | .rinfo f => f.idx.toNat < 32 && f.sa == 0 && f.sb == 0 && f.imm == 0 && f.opt == 0
  | .gbar f => f.sa == 0 && f.sb == 0 && f.imm == 0 && f.opt == 0
  | .garr f => f.sa == 0 && f.sb == 0 && f.imm == 0 && f.opt == 0
  | .gwait f => f.sd == 0 && f.sb == 0 && f.imm == 0 && f.opt == 0
  | .ljoin f => f.idx == 0 && f.sd == 0 && f.opt == 0 && (f.imm == 0 || f.imm == 32)
  | .ljoinv f => f.vecOk && f.sb == 0 && f.opt == 4 && (f.imm == 0 || f.imm == 32)
  | .lldt f => f.idx == 0 && (f.opt == 0 || f.opt == 2) && (f.imm == 0 || f.imm == 16)
  | .lldtV f => f.vecOk && f.sb == 0 && (f.opt == 4 || f.opt == 6) && (f.imm == 0 || f.imm == 16)
  | .lld f => f.idx == 0 && f.sb == 0 && f.opt == 0 && (f.imm == 0 || f.imm == 16)
  | .lldV f => f.vecOk && f.sb == 0 && f.opt == 4 && (f.imm == 0 || f.imm == 16)
  | .fence f => f.idx == 0 && f.sd == 0 && f.sa == 0 && f.sb == 0 && f.imm == 0 && f.set == 0 && f.opt.toNat ≤ 3
  | .qfence f => f.idx == 0 && f.sd == 0 && f.sa == 0 && f.sb == 0 && f.opt == 0 && f.imm != 0 && f.imm.toNat < 8192
  | .evsig f => f.idx == 0 && f.sd == 0 && f.sb == 0 && f.opt == 0
  | .br f => f.cond.toNat ≤ 6 && f.pg == 0
  | .brz f => (f.cond == 7 || f.cond == 8) && f.sb == 0 && f.pg == 0
  | .brp f => 9 ≤ f.cond.toNat && f.cond.toNat ≤ 11 && f.sa == 0 && f.sb.toNat < 8
  | .jmp f => f.cond == 0 && f.sa == 0 && f.sb == 0 && f.pg == 0
  | .jal f => f.cond == 0 && f.sb == 0 && f.pg == 0
  | .jr f => f.cond == 0 && f.sb == 0 && f.pg == 0
  | .loop f => f.cond == 0 && f.sb == 0 && f.pg == 0 && 2 ≤ f.off.toInt
  | .nop f => f.blank
  | .fork f => f.sd == 0 && f.sa == 0 && (f.opt == 2 || f.opt == 4 || f.opt == 8)
  | .join f => f.sd == 0 && f.sa == 0 && f.imm == 0 && f.opt.toNat < 16
  | .endC f => f.blank
  | .region f => f.blank
  | .csrrd f => f.sa == 0 && csrListed f.imm
  | .csrwr f => csrWritable f.imm
  | .csrset f => csrWritable f.imm
  | .csrclr f => csrWritable f.imm
  | .trap f => f.sd == 0 && f.sa == 0 && f.imm.toNat < 65536 && f.opt == 0
  | .bkpt f => f.sd == 0 && f.sa == 0 && f.imm.toNat < 65536 && f.opt == 0
  | .syscall f => f.imm.toNat < 65536 && f.opt == 0
  | .syscallReply => true
  | .aadd f => f.fn == 0
  | .asub f => f.fn == 0
  | .amul f => f.fn == 0
  | .aand f => f.fn == 0
  | .aor f => f.fn == 0
  | .axor f => f.fn == 0
  | .ashl f => f.fn == 0
  | .ashr f => f.fn == 0
  | .amin f => f.fn == 0
  | .amax f => f.fn == 0
  | .aaddi _ => true
  | .ali f => f.aa == 0
  | .alih f => f.aa == 0
  -- DESIGN CHOICE (log entry 106): sources that AL does not compare are not checked
  | .abr f => f.cond.toNat ≤ 6
  | .ajmp f => f.cond == 0 && f.aa == 0 && f.ab == 0
  | .aloop f => f.cond == 0 && f.ab == 0 && 2 ≤ f.off.toInt
  | .aend f => f.cond == 0 && f.aa == 0 && f.ab == 0 && f.off == 0
  | .anop f => f.cond == 0 && f.aa == 0 && f.ab == 0 && f.off == 0
  | .dld f => f.dk == 0 && f.dx == 0 && f.flag == 0 && f.ch == 0 && f.ord == 0 && f.var == 0
  | .dset f => f.dk == 0 && f.dx == 0 && f.flag == 0 && f.ch == 0 && f.ord == 0 && f.var == 1
  | .alds f => f.d == 0 && f.dk == 0 && f.dx.toNat < 32 && f.flag == 0 && f.ch == 0 && f.ord == 0
  | .aldsStatus f => f.d == 0 && f.crd == 0 && f.dk == 0 && 32 ≤ f.dx.toNat && f.flag == 0 && f.ch == 0 && f.ord == 0 && f.var.toNat ≤ 24
  | .tld f => f.ch == 0 && f.var.toNat ≤ 7 && f.kindOk false
  | .tst f => f.ch == 0 && f.var.toNat ≤ 7 && f.kindOk true
  | .tgath f => f.ch == 0 && f.var.toNat ≤ 7 && f.kindOk false
  | .tscat f => f.ch == 0 && f.var.toNat ≤ 7 && f.kindOk false
  | .tpref f => f.ch == 0 && f.var.toNat ≤ 7 && f.dk == 3 && f.dx == 0 && f.ord == 0
  | .scld f => f.ch == 0 && f.var.toNat ≤ 7 && f.dk == 4 && f.dx == 0 && f.ord == 0
  | .transferEntryPerform => true
  | .copy f => f.block 5 && f.dk == 0 && f.dx == 0
  | .copyTimeRelease => true
  | .copyEntryPerform => true
  | .xsend f => f.block 5 && f.dk == 0 && f.ch == 0
  | .sendStart => true
  | .sendLocalCompletion => true
  | .sendAck => true
  | .sendDelivery => true
  | .xcoll f => f.block 4 && f.dk == 0 && f.dx == 0 && f.ch == 0
  | .xrtsw f => f.block 1 && f.dk == 0 && f.dx == 0 && f.ch == 0
  | .xcirc f => f.block 1 && f.dk == 0 && f.dx == 0 && f.ch == 0
  | .amo f => f.block 3 && f.dk == 0 && f.dx == 0 && f.ch == 0
  | .acas f => f.block 4 && f.dk == 0 && f.dx == 0 && f.ch == 0
  | .dispatch f => f.block 5 && f.dk == 0 && f.dx == 0 && f.ch == 0
  | .dispatchPerform => true
  | .bcast f => f.block 4 && f.dk == 0 && f.dx.toNat < 4 && f.ch == 0
  | .bcastAccept => true
  | .await f => f.flag == 0 && f.aa == 0 && f.ch == 0 && f.opt == 0
  | .aflwait f => f.ch == 0 && (f.opt == 0 || f.opt == 4)
  | .afladd f => f.ch == 0 && f.opt == 0
  | .atidwait f => f.flag == 0 && f.opt == 0
  | .mma f => f.operandsOk && mmaPair f.aty f.bty && (f.scl == 0 || scaled f.aty f.bty)
  | .bmma f => f.operandsOk && f.aty == 12 && f.bty == 12
  | .matrixEntryPerform => true
  | .mgang _ => true
  | .gangEntryStart => true
  | .mnest f => f.lv.toNat ≤ 5
  | .mgo f => f.lv.toNat ≤ 5 && f.mr == 0 && f.cnt == 0 && f.step == 0
  | .mtz f => f.mr == 0 && f.opt == 0 && f.imm == 0
  | .maccz f => f.t == 0 && f.opt == 0 && f.imm.toNat < 1024
  | .mtacc f => f.opt.toNat ≤ 4 && f.imm.toNat ≤ 1
  | .msetf f => f.mr == 0 && f.flag == 0 && f.opt == 0 && f.imm == 0
  | .mtrel f => f.mr == 0 && f.flag == 0 && f.opt == 0 && f.imm == 0
  | .mfladd f => f.t == 0 && f.flag != 63 && f.opt == 0
  | .mscq f => f.md == 0 && f.ma == 0 && f.mb == 0 && f.cond == 0 && mscqOk f.imm
  | .mCommandPerform => true
  | .mflwait f => f.t == 0 && f.flag != 63 && f.opt.toNat ≤ 1
  | .mli f => f.ma == 0 && f.mb == 0 && f.cond == 0
  | .madd f => f.cond == 0
  | .mbr f => f.md == 0 && f.cond.toNat ≤ 6 && near f.imm
  | .mloop f => f.md == 0 && f.mb == 0 && f.cond == 0 && near f.imm && 2 ≤ f.imm.toInt
  | .mend f => f.md == 0 && f.ma == 0 && f.mb == 0 && f.cond == 0 && f.imm == 0
  | .ocfg f => 32 ≤ (f.tm1.toNat + 1) * 2 ^ f.div.toNat
  | .oref f => f.od == 0 && f.oa == 0 && f.bus == 0 && f.kind.toNat ≤ 2
  | .ocal f => f.od == 0 && f.oa == 0 && f.bus == 0 && f.kind.toNat ≤ 1
  | .calibrationRun => true
  | .calibrationComplete => true
  | .owin f => f.seg.toNat < 16 && f.wsrc.toNat < 16 && f.acc.toNat < 16 && f.sh.toNat ≤ 10 && f.row0.toNat + f.nrow.toNat ≤ 63
  | .windowHeadReady => true
  | .segmentEmissionCommit => true
  | .markerFrameArrival => true
  | .segmentSent => true
  | .windowCompletion => true
  | .reEmission => true
  | .remoteArmFlit => true
  | .armFlitResend => true
  | .owait f => f.kind == 0 && f.bus == 0
  | .ostat f => f.kind == 0 && f.bus == 0
  | .oli f => f.oa == 0 && f.ob == 0 && f.cond == 0 && f.flag == 0
  | .oadd f => f.cond == 0 && f.flag == 0
  | .obr f => f.od == 0 && f.cond.toNat ≤ 6 && f.flag == 0 && near f.imm
  | .oloop f => f.od == 0 && f.ob == 0 && f.cond == 0 && f.flag == 0 && near f.imm && 2 ≤ f.imm.toInt
  | .oend f => f.od == 0 && f.oa == 0 && f.ob == 0 && f.cond == 0 && f.flag == 0 && f.imm == 0
  | .ofladd f => f.od == 0 && f.ob == 0 && f.cond == 0 && f.flag != 63
  | .oflwait f => f.od == 0 && f.ob == 0 && f.cond.toNat ≤ 1 && f.flag != 63
  | .strandUnblock => true
  | .memoryAccessCompletion => true
  | .atomicExecute => true
  | .qfencePass => true
  | .quaPendingFlush => true
  | .pageInComplete => true
  | .pageMigration => true
  | .latticeTypeChange => true
  | .ttinvWrite => true
  | .preemptionRequest => true
  | .discardComplete => true
  | .regionBoundOverrun => true
  | .taskStart => true
  | .taskEnd => true
  | .launchCompletion => true
  | .schedulerPeriod => true
  | .stallLimit => true
  | .gangPartnerTimeout => true
  | .parkedLoadTimeout => true
  | .dieExchangeSlot => true
  | .immediateExchange => true
  | .granuleFetch => true
  | .podExchangePhase => true
  | .podExchangeLost => true
  | .home0Writeback => true
  | .counterDecay => true
  | .msnapWrite => true
  | .cairnPublish => true
  | .cairnIbusyClear => true
  | .mrepgoWrite => true
  | .replicationCompleted => true
  | .replicaDrained => true
  | .itemRedirection => true
  | .gradientMerge => true
  | .weightReturnCopy => true
  | .launch => true
  | .launchAccept => true
  | .circuit => true
  | .drainPort => true
  | .retrainPort => true
  | .checkpoint => true
  | .checkpointCompletion => true
  | .fenceCommand => true
  | .signal => true
  | .lqtailWrite => true
  | .lqcfgWrite => true
  | .eventRecordEntry => true
  | .elcfgWrite => true
  | .elbaseWrite => true
  | .elrdWrite => true
  | .eventLogRetry => true
  | .atomicStatusPoll => true
  | .correctedErrorReport => true
  | .hbmErrorCountPoll => true
  | .l2CheckModeSwitch => true
  | .strataCommit => true
  | .timeConversionCommit => true
  | .powerGood => true
  | .powerWindow => true
  | .dieTemperatureThreshold => true
  | .laserPowerChange => true
  | .laserPowerLostExpiry => true
  | .firmwareVersion => true
  | .presentMask => true
  | .readStrataPage => true
  | .debugHalt => true
  | .debugResume => true
  | .debugSetDbg => true
  | .restoreCheckpoint => true
  | .firmwareUpdateBlock => true
  | .hostBar2Access => true
  | .registerWrite => true
  | .packetHop => true
  | .routeCarryingHop => true
  | .flitUncorrectable => true
  | .requestAtHome => true
  | .responseArrival => true
  | .requesterTimerExpiry => true
  | .routeBroken => true
  | .busyReply => true
  | .busyReissue => true
  | .targetHalted => true
  | .haltedRequestExpiry => true
  | .controlPacketArrival => true
  | .collectivePlanRun => true
  | .drainPacketArrival => true
  | .portDrained => true
  | .drainTimeout => true
  | .trainingPass => true
  | .trainingTimeout => true
  | .circuitSetupHop => true
  | .circuitAck => true
  | .circuitBusy => true
  | .circuitBackoffEnd => true
  | .setupReplyTimeout => true
  | .circuitFecLock => true
  | .circuitLockTimeout => true
  | .teardownAck => true
  | .pcieError => true
  | .pcieLinkDown => true
  | .secondTierFailure => true
  | .powerLoss => true
  | .dieBelow100C => true
  | .skewDriftMeasured => true
  | .pcieLinkUp => true

end Sys2Proof
end

