-- ==== Sys2Proof/Decode.lean ====
section
/-! DEFINITION. Words to instructions and back (chapter 07). `rawC`, `rawA`, `rawM` and `rawO` read a word by the opcode
maps (R157, R160, R162, R164) and the formats (R155, R158, R161, R163). A decoder accepts what it read only when the
instruction is well formed and its encoding is the word itself, so a reserved bit, a reserved value and an unlisted
opcode are refused (R151). -/

namespace Sys2Proof

/-- The SR fields of a word. -/
def SR.of (w : BitVec 64) : SR :=
  { sd := w.extractLsb' 48 6,
    sa := w.extractLsb' 42 6,
    sb := w.extractLsb' 36 6,
    fn := w.extractLsb' 32 4 }
/-- The word of an opcode and SR fields; unnamed spans are zero (R4). -/
def SR.bits (op : BitVec 10) (f : SR) : BitVec 64 :=
  op ++ f.sd ++ f.sa ++ f.sb ++ f.fn ++ 0#32

/-- The SI fields of a word. -/
def SI.of (w : BitVec 64) : SI :=
  { sd := w.extractLsb' 48 6,
    sa := w.extractLsb' 42 6,
    imm := w.extractLsb' 10 32 }
/-- The word of an opcode and SI fields; unnamed spans are zero (R4). -/
def SI.bits (op : BitVec 10) (f : SI) : BitVec 64 :=
  op ++ f.sd ++ f.sa ++ f.imm ++ 0#10

/-- The VR fields of a word. -/
def VR.of (w : BitVec 64) : VR :=
  { vd := w.extractLsb' 44 10,
    va := w.extractLsb' 34 10,
    vb := w.extractLsb' 24 10,
    vc := w.extractLsb' 14 10,
    pg := w.extractLsb' 11 3,
    bs := w.extractLsb' 10 1,
    rm := w.extractLsb' 7 3,
    sat := w.extractLsb' 6 1,
    ty := w.extractLsb' 3 3,
    sub := w.extractLsb' 0 3 }
/-- The word of an opcode and VR fields; unnamed spans are zero (R4). -/
def VR.bits (op : BitVec 10) (f : VR) : BitVec 64 :=
  op ++ f.vd ++ f.va ++ f.vb ++ f.vc ++ f.pg ++ f.bs ++ f.rm ++ f.sat ++ f.ty ++ f.sub

/-- The VI fields of a word. -/
def VI.of (w : BitVec 64) : VI :=
  { vd := w.extractLsb' 44 10,
    va := w.extractLsb' 34 10,
    imm := w.extractLsb' 14 20,
    pg := w.extractLsb' 11 3,
    ty := w.extractLsb' 3 3,
    sub := w.extractLsb' 0 3 }
/-- The word of an opcode and VI fields; unnamed spans are zero (R4). -/
def VI.bits (op : BitVec 10) (f : VI) : BitVec 64 :=
  op ++ f.vd ++ f.va ++ f.imm ++ f.pg ++ 0#5 ++ f.ty ++ f.sub

/-- The MV fields of a word. -/
def MV.of (w : BitVec 64) : MV :=
  { reg := w.extractLsb' 44 10,
    base := w.extractLsb' 38 6,
    off := w.extractLsb' 16 22,
    wd := w.extractLsb' 14 2,
    pg := w.extractLsb' 11 3,
    set := w.extractLsb' 8 3,
    wait := w.extractLsb' 1 7 }
/-- The word of an opcode and MV fields; unnamed spans are zero (R4). -/
def MV.bits (op : BitVec 10) (f : MV) : BitVec 64 :=
  op ++ f.reg ++ f.base ++ f.off ++ f.wd ++ f.pg ++ f.set ++ f.wait ++ 0#1

/-- The SY fields of a word. -/
def SY.of (w : BitVec 64) : SY :=
  { idx := w.extractLsb' 46 8,
    sd := w.extractLsb' 40 6,
    sa := w.extractLsb' 34 6,
    sb := w.extractLsb' 28 6,
    imm := w.extractLsb' 14 14,
    opt := w.extractLsb' 11 3,
    set := w.extractLsb' 8 3,
    wait := w.extractLsb' 1 7 }
/-- The word of an opcode and SY fields; unnamed spans are zero (R4). -/
def SY.bits (op : BitVec 10) (f : SY) : BitVec 64 :=
  op ++ f.idx ++ f.sd ++ f.sa ++ f.sb ++ f.imm ++ f.opt ++ f.set ++ f.wait ++ 0#1

/-- The BR fields of a word. -/
def BR.of (w : BitVec 64) : BR :=
  { cond := w.extractLsb' 50 4,
    sa := w.extractLsb' 44 6,
    sb := w.extractLsb' 38 6,
    pg := w.extractLsb' 35 3,
    off := w.extractLsb' 3 32 }
/-- The word of an opcode and BR fields; unnamed spans are zero (R4). -/
def BR.bits (op : BitVec 10) (f : BR) : BitVec 64 :=
  op ++ f.cond ++ f.sa ++ f.sb ++ f.pg ++ f.off ++ 0#3

/-- The CT fields of a word. -/
def CT.of (w : BitVec 64) : CT :=
  { sd := w.extractLsb' 48 6,
    sa := w.extractLsb' 42 6,
    imm := w.extractLsb' 10 32,
    opt := w.extractLsb' 0 10 }
/-- The word of an opcode and CT fields; unnamed spans are zero (R4). -/
def CT.bits (op : BitVec 10) (f : CT) : BitVec 64 :=
  op ++ f.sd ++ f.sa ++ f.imm ++ f.opt

/-- The AR fields of a word. -/
def AR.of (w : BitVec 64) : AR :=
  { ad := w.extractLsb' 53 5,
    aa := w.extractLsb' 48 5,
    ab := w.extractLsb' 43 5,
    fn := w.extractLsb' 39 4 }
/-- The word of an opcode and AR fields; unnamed spans are zero (R4). -/
def AR.bits (op : BitVec 6) (f : AR) : BitVec 64 :=
  op ++ f.ad ++ f.aa ++ f.ab ++ f.fn ++ 0#39

/-- The AI fields of a word. -/
def AI.of (w : BitVec 64) : AI :=
  { ad := w.extractLsb' 53 5,
    aa := w.extractLsb' 48 5,
    imm := w.extractLsb' 16 32 }
/-- The word of an opcode and AI fields; unnamed spans are zero (R4). -/
def AI.bits (op : BitVec 6) (f : AI) : BitVec 64 :=
  op ++ f.ad ++ f.aa ++ f.imm ++ 0#16

/-- The AB fields of a word. -/
def AB.of (w : BitVec 64) : AB :=
  { cond := w.extractLsb' 54 4,
    aa := w.extractLsb' 49 5,
    ab := w.extractLsb' 44 5,
    off := w.extractLsb' 12 32 }
/-- The word of an opcode and AB fields; unnamed spans are zero (R4). -/
def AB.bits (op : BitVec 6) (f : AB) : BitVec 64 :=
  op ++ f.cond ++ f.aa ++ f.ab ++ f.off ++ 0#12

/-- The AT fields of a word. -/
def AT.of (w : BitVec 64) : AT :=
  { d := w.extractLsb' 52 6,
    crd := w.extractLsb' 47 5,
    dk := w.extractLsb' 44 3,
    dx := w.extractLsb' 38 6,
    flag := w.extractLsb' 32 6,
    ch := w.extractLsb' 29 3,
    set := w.extractLsb' 26 3,
    wait := w.extractLsb' 19 7,
    ord := w.extractLsb' 13 6,
    var := w.extractLsb' 0 13 }
/-- The word of an opcode and AT fields; unnamed spans are zero (R4). -/
def AT.bits (op : BitVec 6) (f : AT) : BitVec 64 :=
  op ++ f.d ++ f.crd ++ f.dk ++ f.dx ++ f.flag ++ f.ch ++ f.set ++ f.wait ++ f.ord ++ f.var

/-- The AS fields of a word. -/
def AS.of (w : BitVec 64) : AS :=
  { flag := w.extractLsb' 52 6,
    aa := w.extractLsb' 47 5,
    ch := w.extractLsb' 44 3,
    opt := w.extractLsb' 41 3,
    set := w.extractLsb' 26 3,
    wait := w.extractLsb' 19 7 }
/-- The word of an opcode and AS fields; unnamed spans are zero (R4). -/
def AS.bits (op : BitVec 6) (f : AS) : BitVec 64 :=
  op ++ f.flag ++ f.aa ++ f.ch ++ f.opt ++ 0#12 ++ f.set ++ f.wait ++ 0#19

/-- The MM fields of a word. -/
def MM.of (w : BitVec 128) : MM :=
  { aty := w.extractLsb' 116 4,
    bty := w.extractLsb' 112 4,
    asrc := w.extractLsb' 111 1,
    aidx := w.extractLsb' 106 5,
    bsrc := w.extractLsb' 105 1,
    bidx := w.extractLsb' 100 5,
    cacc := w.extractLsb' 95 5,
    cmode := w.extractLsb' 93 2,
    scl := w.extractLsb' 92 1,
    tsm := w.extractLsb' 91 1,
    btr := w.extractLsb' 90 1,
    flag := w.extractLsb' 84 6 }
/-- The word of an opcode and MM fields; unnamed spans are zero (R4). -/
def MM.bits (op : BitVec 8) (f : MM) : BitVec 128 :=
  op ++ f.aty ++ f.bty ++ f.asrc ++ f.aidx ++ f.bsrc ++ f.bidx ++ f.cacc ++ f.cmode ++ f.scl ++ f.tsm ++ f.btr ++ f.flag ++ 0#84

/-- The MG fields of a word. -/
def MG.of (w : BitVec 128) : MG :=
  { gm := w.extractLsb' 118 2,
    cflag := w.extractLsb' 112 6 }
/-- The word of an opcode and MG fields; unnamed spans are zero (R4). -/
def MG.bits (op : BitVec 8) (f : MG) : BitVec 128 :=
  op ++ f.gm ++ f.cflag ++ 0#112

/-- The MN fields of a word. -/
def MN.of (w : BitVec 128) : MN :=
  { lv := w.extractLsb' 117 3,
    mr := w.extractLsb' 113 4,
    cnt := w.extractLsb' 32 32,
    step := w.extractLsb' 0 32 }
/-- The word of an opcode and MN fields; unnamed spans are zero (R4). -/
def MN.bits (op : BitVec 8) (f : MN) : BitVec 128 :=
  op ++ f.lv ++ f.mr ++ 0#49 ++ f.cnt ++ f.step

/-- The MT fields of a word. -/
def MT.of (w : BitVec 128) : MT :=
  { t := w.extractLsb' 116 4,
    mr := w.extractLsb' 112 4,
    flag := w.extractLsb' 106 6,
    opt := w.extractLsb' 103 3,
    imm := w.extractLsb' 0 48 }
/-- The word of an opcode and MT fields; unnamed spans are zero (R4). -/
def MT.bits (op : BitVec 8) (f : MT) : BitVec 128 :=
  op ++ f.t ++ f.mr ++ f.flag ++ f.opt ++ 0#55 ++ f.imm

/-- The MS fields of a word. -/
def MS.of (w : BitVec 128) : MS :=
  { md := w.extractLsb' 116 4,
    ma := w.extractLsb' 112 4,
    mb := w.extractLsb' 108 4,
    cond := w.extractLsb' 104 4,
    imm := w.extractLsb' 0 64 }
/-- The word of an opcode and MS fields; unnamed spans are zero (R4). -/
def MS.bits (op : BitVec 8) (f : MS) : BitVec 128 :=
  op ++ f.md ++ f.ma ++ f.mb ++ f.cond ++ 0#40 ++ f.imm

/-- The OC fields of a word. -/
def OC.of (w : BitVec 128) : OC :=
  { bus := w.extractLsb' 117 3,
    div := w.extractLsb' 115 2,
    tm1 := w.extractLsb' 105 10 }
/-- The word of an opcode and OC fields; unnamed spans are zero (R4). -/
def OC.bits (op : BitVec 8) (f : OC) : BitVec 128 :=
  op ++ f.bus ++ f.div ++ f.tm1 ++ 0#105

/-- The OW fields of a word. -/
def OW.of (w : BitVec 128) : OW :=
  { bus := w.extractLsb' 117 3,
    seg := w.extractLsb' 112 5,
    wsrc := w.extractLsb' 107 5,
    acc := w.extractLsb' 102 5,
    row0 := w.extractLsb' 96 6,
    nrow := w.extractLsb' 90 6,
    sh := w.extractLsb' 86 4,
    mode := w.extractLsb' 85 1,
    tsm := w.extractLsb' 84 1,
    flag := w.extractLsb' 74 6,
    segoff := w.extractLsb' 32 32 }
/-- The word of an opcode and OW fields; unnamed spans are zero (R4). -/
def OW.bits (op : BitVec 8) (f : OW) : BitVec 128 :=
  op ++ f.bus ++ f.seg ++ f.wsrc ++ f.acc ++ f.row0 ++ f.nrow ++ f.sh ++ f.mode ++ f.tsm ++ 0#4 ++ f.flag ++ 0#10 ++ f.segoff ++ 0#32

/-- The OS fields of a word. -/
def OS.of (w : BitVec 128) : OS :=
  { od := w.extractLsb' 116 4,
    oa := w.extractLsb' 112 4,
    kind := w.extractLsb' 109 3,
    bus := w.extractLsb' 106 3 }
/-- The word of an opcode and OS fields; unnamed spans are zero (R4). -/
def OS.bits (op : BitVec 8) (f : OS) : BitVec 128 :=
  op ++ f.od ++ f.oa ++ f.kind ++ f.bus ++ 0#106

/-- The OX fields of a word. -/
def OX.of (w : BitVec 128) : OX :=
  { od := w.extractLsb' 116 4,
    oa := w.extractLsb' 112 4,
    ob := w.extractLsb' 108 4,
    cond := w.extractLsb' 104 4,
    flag := w.extractLsb' 74 6,
    imm := w.extractLsb' 0 64 }
/-- The word of an opcode and OX fields; unnamed spans are zero (R4). -/
def OX.bits (op : BitVec 8) (f : OX) : BitVec 128 :=
  op ++ f.od ++ f.oa ++ f.ob ++ f.cond ++ 0#24 ++ f.flag ++ 0#10 ++ f.imm

/-- Class K = 0 of the C strand (R157). -/
def rawC0 (w : BitVec 64) : Option Instr :=
  match (w.extractLsb' 54 8).toNat with
  | 0 => some (.add (SR.of w))
  | 1 => some (.sub (SR.of w))
  | 2 => some (.mul (SR.of w))
  | 3 => some (.mulh (SR.of w))
  | 4 => some (.mulhu (SR.of w))
  | 5 => some (.div (SR.of w))
  | 6 => some (.divu (SR.of w))
  | 7 => some (.rem (SR.of w))
  | 8 => some (.remu (SR.of w))
  | 9 => some (.and (SR.of w))
  | 10 => some (.or (SR.of w))
  | 11 => some (.xor (SR.of w))
  | 12 => some (.shl (SR.of w))
  | 13 => some (.shr (SR.of w))
  | 14 => some (.sar (SR.of w))
  | 15 => some (.min (SR.of w))
  | 16 => some (.max (SR.of w))
  | 17 => some (.minu (SR.of w))
  | 18 => some (.maxu (SR.of w))
  | 19 => some (.seq (SR.of w))
  | 20 => some (.sne (SR.of w))
  | 21 => some (.slt (SR.of w))
  | 22 => some (.sltu (SR.of w))
  | 23 => some (.clz (SR.of w))
  | 24 => some (.popc (SR.of w))
  | 25 => some (.bfx (SR.of w))
  | 26 => some (.bfi (SR.of w))
  | 27 => some (.sext (SR.of w))
  | 28 => some (.zext (SR.of w))
  | 32 => some (.addi (SI.of w))
  | 33 => some (.muli (SI.of w))
  | 34 => some (.andi (SI.of w))
  | 35 => some (.ori (SI.of w))
  | 36 => some (.xori (SI.of w))
  | 37 => some (.shli (SI.of w))
  | 38 => some (.shri (SI.of w))
  | 39 => some (.sari (SI.of w))
  | 40 => some (.slti (SI.of w))
  | 41 => some (.sltui (SI.of w))
  | 42 => some (.li (SI.of w))
  | 43 => some (.lih (SI.of w))
  | 48 => some (.fadds (SR.of w))
  | 49 => some (.fsubs (SR.of w))
  | 50 => some (.fmuls (SR.of w))
  | 51 => some (.fmas (SR.of w))
  | 52 => some (.fmins (SR.of w))
  | 53 => some (.fmaxs (SR.of w))
  | 54 => some (.fcmps (SR.of w))
  | 55 => some (.fcvtis (SR.of w))
  | 56 => some (.fcvtsi (SR.of w))
  | _ => none

/-- Class K = 1 of the C strand (R157). -/
def rawC1 (w : BitVec 64) : Option Instr :=
  match (w.extractLsb' 54 8).toNat with
  | 0 => some (.vadd (VR.of w))
  | 1 => some (.vsub (VR.of w))
  | 2 => some (.vmul (VR.of w))
  | 3 => some (.vmulh (VR.of w))
  | 4 => some (.vmad (VR.of w))
  | 5 => some (.vmin (VR.of w))
  | 6 => some (.vmax (VR.of w))
  | 7 => some (.vand (VR.of w))
  | 8 => some (.vor (VR.of w))
  | 9 => some (.vxor (VR.of w))
  | 10 => some (.vshl (VR.of w))
  | 11 => some (.vshr (VR.of w))
  | 12 => some (.vsar (VR.of w))
  | 13 => some (.vabs (VR.of w))
  | 14 => some (.vclz (VR.of w))
  | 15 => some (.vpopc (VR.of w))
  | 16 => some (.vaddi (VI.of w))
  | 32 => some (.vfadd (VR.of w))
  | 33 => some (.vfsub (VR.of w))
  | 34 => some (.vfmul (VR.of w))
  | 35 => some (.vfma (VR.of w))
  | 36 => some (.vfmin (VR.of w))
  | 37 => some (.vfmax (VR.of w))
  | 38 => some (.vfneg (VR.of w))
  | 40 => some (.vcmp (VR.of w))
  | 41 => some (.vfcmp (VR.of w))
  | 42 => some (.pand (VR.of w))
  | 43 => some (.por (VR.of w))
  | 44 => some (.pxor (VR.of w))
  | 45 => some (.pnot (VR.of w))
  | 46 => some (.pmovs (VR.of w))
  | 47 => some (.smovp (VR.of w))
  | 48 => some (.vsel (VR.of w))
  | 49 => if (VR.of w).sub == 1 then some (.vmovStream (VR.of w)) else some (.vmov (VR.of w))
  | 50 => some (.vmvs (VR.of w))
  | 51 => some (.vmvl (VR.of w))
  | 52 => some (.vidx (VR.of w))
  | 53 => some (.vli (VI.of w))
  | 56 => some (.vexp2 (VR.of w))
  | 57 => some (.vlog2 (VR.of w))
  | 58 => some (.vrcp (VR.of w))
  | 59 => some (.vrsqrt (VR.of w))
  | 60 => some (.vtanh (VR.of w))
  | 61 => some (.vsigm (VR.of w))
  | 64 => some (.vcvt (VR.of w))
  | 65 => some (.vpack (VR.of w))
  | 66 => some (.vunpk (VR.of w))
  | 72 => some (.vperm (VR.of w))
  | 73 => some (.vbcl (VR.of w))
  | 74 => some (.vslide (VR.of w))
  | 75 => some (.vred (VR.of w))
  | 76 => some (.vscan (VR.of w))
  | 80 => some (.trd (VR.of w))
  | 81 => some (.twr (VR.of w))
  | 82 => some (.tsetf (VR.of w))
  | 83 => some (.trel (VR.of w))
  | 84 => some (.accrd (VR.of w))
  | 85 => some (.accwr (VR.of w))
  | 86 => some (.accz (VR.of w))
  | _ => none

/-- Class K = 2 of the C strand (R157). -/
def rawC2 (w : BitVec 64) : Option Instr :=
  match (w.extractLsb' 54 8).toNat with
  | 0 => some (.ldv (MV.of w))
  | 1 => some (.stv (MV.of w))
  | 2 => some (.lds (MV.of w))
  | 3 => some (.sts (MV.of w))
  | 4 => some (.ldvx (MV.of w))
  | 5 => some (.stvx (MV.of w))
  | 6 => some (.amov (SY.of w))
  | 7 => some (.casv (SY.of w))
  | 16 => some (.fladd (SY.of w))
  | 17 => some (.flwait (SY.of w))
  | 18 => some (.flset (SY.of w))
  | 19 => some (.flrd (SY.of w))
  | 20 => some (.wait (SY.of w))
  | 21 => some (.tidwait (SY.of w))
  | 24 => some (.rclaim (SY.of w))
  | 25 => some (.rpub (SY.of w))
  | 26 => some (.rwfill (SY.of w))
  | 27 => some (.rwfree (SY.of w))
  | 28 => some (.rcons (SY.of w))
  | 29 => some (.rinfo (SY.of w))
  | 32 => some (.gbar (SY.of w))
  | 33 => some (.garr (SY.of w))
  | 34 => some (.gwait (SY.of w))
  | 40 => some (.ljoin (SY.of w))
  | 41 => some (.ljoinv (SY.of w))
  | 42 => if (SY.of w).opt.toNat ≥ 4 then some (.lldtV (SY.of w)) else some (.lldt (SY.of w))
  | 43 => if (SY.of w).opt.toNat ≥ 4 then some (.lldV (SY.of w)) else some (.lld (SY.of w))
  | 48 => some (.fence (SY.of w))
  | 49 => some (.qfence (SY.of w))
  | 56 => some (.evsig (SY.of w))
  | _ => none

/-- Class K = 3 of the C strand (R157). -/
def rawC3 (w : BitVec 64) : Option Instr :=
  match (w.extractLsb' 54 8).toNat with
  | 0 => some (.br (BR.of w))
  | 1 => some (.brz (BR.of w))
  | 2 => some (.brp (BR.of w))
  | 3 => some (.jmp (BR.of w))
  | 4 => some (.jal (BR.of w))
  | 5 => some (.jr (BR.of w))
  | 6 => some (.loop (BR.of w))
  | 7 => some (.nop (CT.of w))
  | 16 => some (.fork (CT.of w))
  | 17 => some (.join (CT.of w))
  | 18 => some (.endC (CT.of w))
  | 19 => some (.region (CT.of w))
  | 24 => some (.csrrd (CT.of w))
  | 25 => some (.csrwr (CT.of w))
  | 26 => some (.csrset (CT.of w))
  | 27 => some (.csrclr (CT.of w))
  | 32 => some (.trap (CT.of w))
  | 33 => some (.bkpt (CT.of w))
  | 34 => some (.syscall (CT.of w))
  | _ => none

/-- A C word by its class (R155). -/
def rawC (w : BitVec 64) : Option Instr :=
  match (w.extractLsb' 62 2).toNat with
  | 0 => rawC0 w
  | 1 => rawC1 w
  | 2 => rawC2 w
  | _ => rawC3 w

/-- An A word by its opcode (R160). -/
def rawA (w : BitVec 64) : Option Instr :=
  match (w.extractLsb' 58 6).toNat with
  | 0 => some (.aadd (AR.of w))
  | 1 => some (.asub (AR.of w))
  | 2 => some (.amul (AR.of w))
  | 3 => some (.aand (AR.of w))
  | 4 => some (.aor (AR.of w))
  | 5 => some (.axor (AR.of w))
  | 6 => some (.ashl (AR.of w))
  | 7 => some (.ashr (AR.of w))
  | 8 => some (.amin (AR.of w))
  | 9 => some (.amax (AR.of w))
  | 10 => some (.aaddi (AI.of w))
  | 11 => some (.ali (AI.of w))
  | 12 => some (.alih (AI.of w))
  | 16 => some (.abr (AB.of w))
  | 17 => some (.ajmp (AB.of w))
  | 18 => some (.aloop (AB.of w))
  | 19 => some (.aend (AB.of w))
  | 20 => some (.anop (AB.of w))
  | 24 => some (.dld (AT.of w))
  | 25 => some (.dset (AT.of w))
  | 26 => if (AT.of w).dx.toNat ≥ 32 then some (.aldsStatus (AT.of w)) else some (.alds (AT.of w))
  | 32 => some (.tld (AT.of w))
  | 33 => some (.tst (AT.of w))
  | 34 => some (.tgath (AT.of w))
  | 35 => some (.tscat (AT.of w))
  | 36 => some (.tpref (AT.of w))
  | 37 => some (.scld (AT.of w))
  | 40 => some (.copy (AT.of w))
  | 41 => some (.xsend (AT.of w))
  | 42 => some (.xcoll (AT.of w))
  | 43 => some (.xrtsw (AT.of w))
  | 44 => some (.xcirc (AT.of w))
  | 48 => some (.amo (AT.of w))
  | 49 => some (.acas (AT.of w))
  | 50 => some (.dispatch (AT.of w))
  | 51 => some (.bcast (AT.of w))
  | 56 => some (.await (AS.of w))
  | 57 => some (.aflwait (AS.of w))
  | 58 => some (.afladd (AS.of w))
  | 59 => some (.atidwait (AS.of w))
  | _ => none

/-- An M word by its opcode (R162). -/
def rawM (w : BitVec 128) : Option Instr :=
  match (w.extractLsb' 120 8).toNat with
  | 0 => some (.mma (MM.of w))
  | 2 => some (.bmma (MM.of w))
  | 8 => some (.mgang (MG.of w))
  | 16 => some (.mnest (MN.of w))
  | 17 => some (.mgo (MN.of w))
  | 24 => some (.mtz (MT.of w))
  | 25 => some (.maccz (MT.of w))
  | 26 => some (.mtacc (MT.of w))
  | 27 => some (.msetf (MT.of w))
  | 28 => some (.mtrel (MT.of w))
  | 29 => some (.mfladd (MT.of w))
  | 30 => some (.mflwait (MT.of w))
  | 32 => some (.mli (MS.of w))
  | 33 => some (.madd (MS.of w))
  | 34 => some (.mbr (MS.of w))
  | 35 => some (.mloop (MS.of w))
  | 36 => some (.mend (MS.of w))
  | 37 => some (.mscq (MS.of w))
  | _ => none

/-- An O word by its opcode (R164). -/
def rawO (w : BitVec 128) : Option Instr :=
  match (w.extractLsb' 120 8).toNat with
  | 0 => some (.ocfg (OC.of w))
  | 1 => some (.owin (OW.of w))
  | 3 => some (.owait (OS.of w))
  | 4 => some (.ostat (OS.of w))
  | 5 => some (.ocal (OS.of w))
  | 6 => some (.oref (OS.of w))
  | 8 => some (.oli (OX.of w))
  | 9 => some (.oadd (OX.of w))
  | 10 => some (.obr (OX.of w))
  | 11 => some (.oloop (OX.of w))
  | 12 => some (.oend (OX.of w))
  | 13 => some (.ofladd (OX.of w))
  | 14 => some (.oflwait (OX.of w))
  | _ => none

/-- A word of one strand's code: 64 bits for C and A, 128 bits for M and O (R150). -/
inductive Code where
  | c (w : BitVec 64)
  | a (w : BitVec 64)
  | m (w : BitVec 128)
  | o (w : BitVec 128)
  deriving DecidableEq, Repr

/-- The word of a strand instruction by the opcode maps and formats; an event has no word. -/
def encode : Instr → Option Code
  | .add f => some (.c (f.bits 0#10))
  | .sub f => some (.c (f.bits 1#10))
  | .mul f => some (.c (f.bits 2#10))
  | .mulh f => some (.c (f.bits 3#10))
  | .mulhu f => some (.c (f.bits 4#10))
  | .div f => some (.c (f.bits 5#10))
  | .divu f => some (.c (f.bits 6#10))
  | .rem f => some (.c (f.bits 7#10))
  | .remu f => some (.c (f.bits 8#10))
  | .and f => some (.c (f.bits 9#10))
  | .or f => some (.c (f.bits 10#10))
  | .xor f => some (.c (f.bits 11#10))
  | .shl f => some (.c (f.bits 12#10))
  | .shr f => some (.c (f.bits 13#10))
  | .sar f => some (.c (f.bits 14#10))
  | .min f => some (.c (f.bits 15#10))
  | .max f => some (.c (f.bits 16#10))
  | .minu f => some (.c (f.bits 17#10))
  | .maxu f => some (.c (f.bits 18#10))
  | .seq f => some (.c (f.bits 19#10))
  | .sne f => some (.c (f.bits 20#10))
  | .slt f => some (.c (f.bits 21#10))
  | .sltu f => some (.c (f.bits 22#10))
  | .clz f => some (.c (f.bits 23#10))
  | .popc f => some (.c (f.bits 24#10))
  | .bfx f => some (.c (f.bits 25#10))
  | .bfi f => some (.c (f.bits 26#10))
  | .sext f => some (.c (f.bits 27#10))
  | .zext f => some (.c (f.bits 28#10))
  | .addi f => some (.c (f.bits 32#10))
  | .muli f => some (.c (f.bits 33#10))
  | .andi f => some (.c (f.bits 34#10))
  | .ori f => some (.c (f.bits 35#10))
  | .xori f => some (.c (f.bits 36#10))
  | .shli f => some (.c (f.bits 37#10))
  | .shri f => some (.c (f.bits 38#10))
  | .sari f => some (.c (f.bits 39#10))
  | .slti f => some (.c (f.bits 40#10))
  | .sltui f => some (.c (f.bits 41#10))
  | .li f => some (.c (f.bits 42#10))
  | .lih f => some (.c (f.bits 43#10))
  | .fadds f => some (.c (f.bits 48#10))
  | .fsubs f => some (.c (f.bits 49#10))
  | .fmuls f => some (.c (f.bits 50#10))
  | .fmas f => some (.c (f.bits 51#10))
  | .fmins f => some (.c (f.bits 52#10))
  | .fmaxs f => some (.c (f.bits 53#10))
  | .fcmps f => some (.c (f.bits 54#10))
  | .fcvtis f => some (.c (f.bits 55#10))
  | .fcvtsi f => some (.c (f.bits 56#10))
  | .vadd f => some (.c (f.bits 256#10))
  | .vsub f => some (.c (f.bits 257#10))
  | .vmul f => some (.c (f.bits 258#10))
  | .vmulh f => some (.c (f.bits 259#10))
  | .vmad f => some (.c (f.bits 260#10))
  | .vmin f => some (.c (f.bits 261#10))
  | .vmax f => some (.c (f.bits 262#10))
  | .vand f => some (.c (f.bits 263#10))
  | .vor f => some (.c (f.bits 264#10))
  | .vxor f => some (.c (f.bits 265#10))
  | .vshl f => some (.c (f.bits 266#10))
  | .vshr f => some (.c (f.bits 267#10))
  | .vsar f => some (.c (f.bits 268#10))
  | .vabs f => some (.c (f.bits 269#10))
  | .vclz f => some (.c (f.bits 270#10))
  | .vpopc f => some (.c (f.bits 271#10))
  | .vaddi f => some (.c (f.bits 272#10))
  | .vfadd f => some (.c (f.bits 288#10))
  | .vfsub f => some (.c (f.bits 289#10))
  | .vfmul f => some (.c (f.bits 290#10))
  | .vfma f => some (.c (f.bits 291#10))
  | .vfmin f => some (.c (f.bits 292#10))
  | .vfmax f => some (.c (f.bits 293#10))
  | .vfneg f => some (.c (f.bits 294#10))
  | .vcmp f => some (.c (f.bits 296#10))
  | .vfcmp f => some (.c (f.bits 297#10))
  | .pand f => some (.c (f.bits 298#10))
  | .por f => some (.c (f.bits 299#10))
  | .pxor f => some (.c (f.bits 300#10))
  | .pnot f => some (.c (f.bits 301#10))
  | .pmovs f => some (.c (f.bits 302#10))
  | .smovp f => some (.c (f.bits 303#10))
  | .vsel f => some (.c (f.bits 304#10))
  | .vmov f => some (.c (f.bits 305#10))
  | .vmovStream f => some (.c (f.bits 305#10))
  | .vmvs f => some (.c (f.bits 306#10))
  | .vmvl f => some (.c (f.bits 307#10))
  | .vidx f => some (.c (f.bits 308#10))
  | .vli f => some (.c (f.bits 309#10))
  | .vexp2 f => some (.c (f.bits 312#10))
  | .vlog2 f => some (.c (f.bits 313#10))
  | .vrcp f => some (.c (f.bits 314#10))
  | .vrsqrt f => some (.c (f.bits 315#10))
  | .vtanh f => some (.c (f.bits 316#10))
  | .vsigm f => some (.c (f.bits 317#10))
  | .vcvt f => some (.c (f.bits 320#10))
  | .vpack f => some (.c (f.bits 321#10))
  | .vunpk f => some (.c (f.bits 322#10))
  | .vperm f => some (.c (f.bits 328#10))
  | .vbcl f => some (.c (f.bits 329#10))
  | .vslide f => some (.c (f.bits 330#10))
  | .vred f => some (.c (f.bits 331#10))
  | .vscan f => some (.c (f.bits 332#10))
  | .trd f => some (.c (f.bits 336#10))
  | .twr f => some (.c (f.bits 337#10))
  | .tsetf f => some (.c (f.bits 338#10))
  | .trel f => some (.c (f.bits 339#10))
  | .accrd f => some (.c (f.bits 340#10))
  | .accwr f => some (.c (f.bits 341#10))
  | .accz f => some (.c (f.bits 342#10))
  | .ldv f => some (.c (f.bits 512#10))
  | .stv f => some (.c (f.bits 513#10))
  | .lds f => some (.c (f.bits 514#10))
  | .sts f => some (.c (f.bits 515#10))
  | .ldvx f => some (.c (f.bits 516#10))
  | .stvx f => some (.c (f.bits 517#10))
  | .amov f => some (.c (f.bits 518#10))
  | .casv f => some (.c (f.bits 519#10))
  | .fladd f => some (.c (f.bits 528#10))
  | .flwait f => some (.c (f.bits 529#10))
  | .flset f => some (.c (f.bits 530#10))
  | .flrd f => some (.c (f.bits 531#10))
  | .wait f => some (.c (f.bits 532#10))
  | .tidwait f => some (.c (f.bits 533#10))
  | .rclaim f => some (.c (f.bits 536#10))
  | .rpub f => some (.c (f.bits 537#10))
  | .rwfill f => some (.c (f.bits 538#10))
  | .rwfree f => some (.c (f.bits 539#10))
  | .rcons f => some (.c (f.bits 540#10))
  | .rinfo f => some (.c (f.bits 541#10))
  | .gbar f => some (.c (f.bits 544#10))
  | .garr f => some (.c (f.bits 545#10))
  | .gwait f => some (.c (f.bits 546#10))
  | .ljoin f => some (.c (f.bits 552#10))
  | .ljoinv f => some (.c (f.bits 553#10))
  | .lldt f => some (.c (f.bits 554#10))
  | .lldtV f => some (.c (f.bits 554#10))
  | .lld f => some (.c (f.bits 555#10))
  | .lldV f => some (.c (f.bits 555#10))
  | .fence f => some (.c (f.bits 560#10))
  | .qfence f => some (.c (f.bits 561#10))
  | .evsig f => some (.c (f.bits 568#10))
  | .br f => some (.c (f.bits 768#10))
  | .brz f => some (.c (f.bits 769#10))
  | .brp f => some (.c (f.bits 770#10))
  | .jmp f => some (.c (f.bits 771#10))
  | .jal f => some (.c (f.bits 772#10))
  | .jr f => some (.c (f.bits 773#10))
  | .loop f => some (.c (f.bits 774#10))
  | .nop f => some (.c (f.bits 775#10))
  | .fork f => some (.c (f.bits 784#10))
  | .join f => some (.c (f.bits 785#10))
  | .endC f => some (.c (f.bits 786#10))
  | .region f => some (.c (f.bits 787#10))
  | .csrrd f => some (.c (f.bits 792#10))
  | .csrwr f => some (.c (f.bits 793#10))
  | .csrset f => some (.c (f.bits 794#10))
  | .csrclr f => some (.c (f.bits 795#10))
  | .trap f => some (.c (f.bits 800#10))
  | .bkpt f => some (.c (f.bits 801#10))
  | .syscall f => some (.c (f.bits 802#10))
  | .syscallReply => none
  | .aadd f => some (.a (f.bits 0#6))
  | .asub f => some (.a (f.bits 1#6))
  | .amul f => some (.a (f.bits 2#6))
  | .aand f => some (.a (f.bits 3#6))
  | .aor f => some (.a (f.bits 4#6))
  | .axor f => some (.a (f.bits 5#6))
  | .ashl f => some (.a (f.bits 6#6))
  | .ashr f => some (.a (f.bits 7#6))
  | .amin f => some (.a (f.bits 8#6))
  | .amax f => some (.a (f.bits 9#6))
  | .aaddi f => some (.a (f.bits 10#6))
  | .ali f => some (.a (f.bits 11#6))
  | .alih f => some (.a (f.bits 12#6))
  | .abr f => some (.a (f.bits 16#6))
  | .ajmp f => some (.a (f.bits 17#6))
  | .aloop f => some (.a (f.bits 18#6))
  | .aend f => some (.a (f.bits 19#6))
  | .anop f => some (.a (f.bits 20#6))
  | .dld f => some (.a (f.bits 24#6))
  | .dset f => some (.a (f.bits 25#6))
  | .alds f => some (.a (f.bits 26#6))
  | .aldsStatus f => some (.a (f.bits 26#6))
  | .tld f => some (.a (f.bits 32#6))
  | .tst f => some (.a (f.bits 33#6))
  | .tgath f => some (.a (f.bits 34#6))
  | .tscat f => some (.a (f.bits 35#6))
  | .tpref f => some (.a (f.bits 36#6))
  | .scld f => some (.a (f.bits 37#6))
  | .transferEntryPerform => none
  | .copy f => some (.a (f.bits 40#6))
  | .copyTimeRelease => none
  | .copyEntryPerform => none
  | .xsend f => some (.a (f.bits 41#6))
  | .sendStart => none
  | .sendLocalCompletion => none
  | .sendAck => none
  | .sendDelivery => none
  | .xcoll f => some (.a (f.bits 42#6))
  | .xrtsw f => some (.a (f.bits 43#6))
  | .xcirc f => some (.a (f.bits 44#6))
  | .amo f => some (.a (f.bits 48#6))
  | .acas f => some (.a (f.bits 49#6))
  | .dispatch f => some (.a (f.bits 50#6))
  | .dispatchPerform => none
  | .bcast f => some (.a (f.bits 51#6))
  | .bcastAccept => none
  | .await f => some (.a (f.bits 56#6))
  | .aflwait f => some (.a (f.bits 57#6))
  | .afladd f => some (.a (f.bits 58#6))
  | .atidwait f => some (.a (f.bits 59#6))
  | .mma f => some (.m (f.bits 0#8))
  | .bmma f => some (.m (f.bits 2#8))
  | .matrixEntryPerform => none
  | .mgang f => some (.m (f.bits 8#8))
  | .gangEntryStart => none
  | .mnest f => some (.m (f.bits 16#8))
  | .mgo f => some (.m (f.bits 17#8))
  | .mtz f => some (.m (f.bits 24#8))
  | .maccz f => some (.m (f.bits 25#8))
  | .mtacc f => some (.m (f.bits 26#8))
  | .msetf f => some (.m (f.bits 27#8))
  | .mtrel f => some (.m (f.bits 28#8))
  | .mfladd f => some (.m (f.bits 29#8))
  | .mscq f => some (.m (f.bits 37#8))
  | .mCommandPerform => none
  | .mflwait f => some (.m (f.bits 30#8))
  | .mli f => some (.m (f.bits 32#8))
  | .madd f => some (.m (f.bits 33#8))
  | .mbr f => some (.m (f.bits 34#8))
  | .mloop f => some (.m (f.bits 35#8))
  | .mend f => some (.m (f.bits 36#8))
  | .ocfg f => some (.o (f.bits 0#8))
  | .oref f => some (.o (f.bits 6#8))
  | .ocal f => some (.o (f.bits 5#8))
  | .calibrationRun => none
  | .calibrationComplete => none
  | .owin f => some (.o (f.bits 1#8))
  | .windowHeadReady => none
  | .segmentEmissionCommit => none
  | .markerFrameArrival => none
  | .segmentSent => none
  | .windowCompletion => none
  | .reEmission => none
  | .remoteArmFlit => none
  | .armFlitResend => none
  | .owait f => some (.o (f.bits 3#8))
  | .ostat f => some (.o (f.bits 4#8))
  | .oli f => some (.o (f.bits 8#8))
  | .oadd f => some (.o (f.bits 9#8))
  | .obr f => some (.o (f.bits 10#8))
  | .oloop f => some (.o (f.bits 11#8))
  | .oend f => some (.o (f.bits 12#8))
  | .ofladd f => some (.o (f.bits 13#8))
  | .oflwait f => some (.o (f.bits 14#8))
  | .strandUnblock => none
  | .memoryAccessCompletion => none
  | .atomicExecute => none
  | .qfencePass => none
  | .quaPendingFlush => none
  | .pageInComplete => none
  | .pageMigration => none
  | .latticeTypeChange => none
  | .ttinvWrite => none
  | .preemptionRequest => none
  | .discardComplete => none
  | .regionBoundOverrun => none
  | .taskStart => none
  | .taskEnd => none
  | .launchCompletion => none
  | .schedulerPeriod => none
  | .stallLimit => none
  | .gangPartnerTimeout => none
  | .parkedLoadTimeout => none
  | .dieExchangeSlot => none
  | .immediateExchange => none
  | .granuleFetch => none
  | .podExchangePhase => none
  | .podExchangeLost => none
  | .home0Writeback => none
  | .counterDecay => none
  | .msnapWrite => none
  | .cairnPublish => none
  | .cairnIbusyClear => none
  | .mrepgoWrite => none
  | .replicationCompleted => none
  | .replicaDrained => none
  | .itemRedirection => none
  | .gradientMerge => none
  | .weightReturnCopy => none
  | .launch => none
  | .launchAccept => none
  | .circuit => none
  | .drainPort => none
  | .retrainPort => none
  | .checkpoint => none
  | .checkpointCompletion => none
  | .fenceCommand => none
  | .signal => none
  | .lqtailWrite => none
  | .lqcfgWrite => none
  | .eventRecordEntry => none
  | .elcfgWrite => none
  | .elbaseWrite => none
  | .elrdWrite => none
  | .eventLogRetry => none
  | .atomicStatusPoll => none
  | .correctedErrorReport => none
  | .hbmErrorCountPoll => none
  | .l2CheckModeSwitch => none
  | .strataCommit => none
  | .timeConversionCommit => none
  | .powerGood => none
  | .powerWindow => none
  | .dieTemperatureThreshold => none
  | .laserPowerChange => none
  | .laserPowerLostExpiry => none
  | .firmwareVersion => none
  | .presentMask => none
  | .readStrataPage => none
  | .debugHalt => none
  | .debugResume => none
  | .debugSetDbg => none
  | .restoreCheckpoint => none
  | .firmwareUpdateBlock => none
  | .hostBar2Access => none
  | .registerWrite => none
  | .packetHop => none
  | .routeCarryingHop => none
  | .flitUncorrectable => none
  | .requestAtHome => none
  | .responseArrival => none
  | .requesterTimerExpiry => none
  | .routeBroken => none
  | .busyReply => none
  | .busyReissue => none
  | .targetHalted => none
  | .haltedRequestExpiry => none
  | .controlPacketArrival => none
  | .collectivePlanRun => none
  | .drainPacketArrival => none
  | .portDrained => none
  | .drainTimeout => none
  | .trainingPass => none
  | .trainingTimeout => none
  | .circuitSetupHop => none
  | .circuitAck => none
  | .circuitBusy => none
  | .circuitBackoffEnd => none
  | .setupReplyTimeout => none
  | .circuitFecLock => none
  | .circuitLockTimeout => none
  | .teardownAck => none
  | .pcieError => none
  | .pcieLinkDown => none
  | .secondTierFailure => none
  | .powerLoss => none
  | .dieBelow100C => none
  | .skewDriftMeasured => none
  | .pcieLinkUp => none

/-- Accept a reading of a word when it is well formed and encodes to the word (R151, R396). -/
def accept (c : Code) (r : Option Instr) : Option Instr :=
  match r with
  | some i => if i.wf && (encode i == some c) then some i else none
  | none => none

/-- The instruction of a C word. -/
def decodeC (w : BitVec 64) : Option Instr := accept (.c w) (rawC w)
/-- The instruction of an A word. -/
def decodeA (w : BitVec 64) : Option Instr := accept (.a w) (rawA w)
/-- The instruction of an M word. -/
def decodeM (w : BitVec 128) : Option Instr := accept (.m w) (rawM w)
/-- The instruction of an O word. -/
def decodeO (w : BitVec 128) : Option Instr := accept (.o w) (rawO w)

/-- The instruction of a strand's word. -/
def decode : Code → Option Instr
  | .c w => decodeC w
  | .a w => decodeA w
  | .m w => decodeM w
  | .o w => decodeO w

/-- The reading of `nbits` opcode-table bits: 64-bit words are C words where a C instruction reads so, else A words;
longer ones are M words where an M instruction reads so, else O words. The table gives no row any bits. -/
def tableCode (nbits w : Nat) : Code :=
  if nbits ≤ 64 then
    match decodeC (BitVec.ofNat 64 w) with
    | some _ => .c (BitVec.ofNat 64 w)
    | none => .a (BitVec.ofNat 64 w)
  else
    match decodeM (BitVec.ofNat 128 w) with
    | some _ => .m (BitVec.ofNat 128 w)
    | none => .o (BitVec.ofNat 128 w)

/-- The instruction that the decoder reads from an instruction whose bits are `w`. -/
def decodeTableWord (nbits w : Nat) : Option Instr := decode (tableCode nbits w)

end Sys2Proof
end

