-- ==== Sys2Proof/Machine/State.lean ====
section
/-! DEFINITION. The whole state of the module as plain data: every register, queue, table and memory the spec gives it, the
outcome reasons, and the state right after reset. Chapters are cited by rule. -/

namespace Sys2Proof.Machine

/-- A map from numbers to values kept in one canonical form: keys strictly rising, no value equal to the default that an
unlisted key reads as. -/
abbrev Sparse (α : Type) := List (Nat × α)

/-- Reasons a step stops with a fault: none. Every fault of the DX9 is taken as an event record and a recovery (R384 to
R388), which is a next state. -/
inductive Fault where
  deriving DecidableEq, Repr

/-- Reasons a step has no meaning. -/
inductive Refusal where
  /-- The instruction has no meaning yet; raised by `exec`'s refused arms only. Safe: nothing is proved of such a step. -/
  | notModelled (mnemonic : String)
  deriving DecidableEq, Repr

/-! ### Strands -/

/-- The four states of a strand (R25). -/
inductive Status where
  | unstarted | running | blocked | ended
  deriving DecidableEq, Repr

/-- One level of a hardware loop stack (R185). -/
structure LoopLevel where
  start : Word
  stop : Word
  count : Word
  deriving DecidableEq, Repr

/-- Where an access's value goes. -/
inductive Dest where
  | none
  | s (n : Nat)
  | sPair (n : Nat)
  | a (n : Nat)
  /-- Lanes of a v-register, each taking an equal share of the bytes. -/
  | lanes (v : Nat) (which : List Nat)
  | slot (d : Nat)
  deriving DecidableEq, Repr

/-- What a strand waits on, and what the instruction at a blocked strand's PC has already done, so that its retry does it
once (R24, R25, R224, R405). -/
inductive Hold where
  | fresh
  /-- A scoreboard slot, an unperformed access, time, a ring, a strand: nothing the stall monitor judges (R405). -/
  | other
  /-- A counting flag and the value it must reach; whether it is taken off, and where the old value goes (R232, R233). -/
  | flag (f theta : Nat) (sub : Bool) (dest : Dest)
  | tile (t : Nat)
  | stream (n : Nat)
  | scale
  | pool
  /-- GBAR has arrived for this episode (R238). -/
  | arrived (group : Nat) (episode : BitVec 32)
  /-- FENCE or REGION has asked for what it waits on (R241, R327). -/
  | fenced
  /-- SYSCALL is with firmware (R198). -/
  | requested (sd : Nat) (code : BitVec 16) (arg : Word)
  /-- A threshold load is parked at a die (R242). -/
  | parked
  | pageIn (ctx tensor page : Nat)
  deriving DecidableEq, Repr

/-- The issue state of one strand (R23, R25, R185). -/
structure Strand where
  status : Status := .unstarted
  pc : Word := 0
  /-- Innermost level first. -/
  loops : List LoopLevel := []
  hold : Hold := .fresh
  deriving DecidableEq, Repr

/-! ### Translation data -/

/-- A decoded tensor descriptor (R58). -/
structure Desc where
  tbase : Word := 0
  pad : BitVec 32 := 0
  home : BitVec 2 := 0
  pois : BitVec 2 := 0
  etype : BitVec 4 := 0
  rank : Nat := 1
  tid : Nat := 0
  dim : List Nat := []
  tdim : List Nat := []
  deriving DecidableEq, Repr

/-- A descriptor slot of the A strand (R250): valid in the region that loaded it; `busy` while its DLD is outstanding. -/
structure Slot where
  valid : Bool := false
  busy : Bool := false
  desc : Desc := {}
  deriving DecidableEq, Repr

/-- A decoded page entry (R63). -/
structure Page where
  frame : Nat := 0
  fmt : Nat := 0
  lat : Nat := 0
  sgeo : Nat := 0
  pr : Bool := false
  pw : Bool := false
  pa : Bool := false
  cmp : Bool := false
  v : Bool := false
  scale : Nat := 0
  pin : Bool := false
  mig : Nat := 0
  reserved : Bool := false
  deriving DecidableEq, Repr

/-- Where an access goes once translated: bytes of this chip or its host, the replica of a lattice page, a register
(SPACE 6), another chip, or nowhere (a poison-marked SPC read, R141). -/
inductive Route where
  | plain
  | replica (die : Nat) (lat : Nat)
  | register
  | remote (chip : Nat)
  | nowhere
  deriving DecidableEq, Repr

/-! ### Outstanding accesses of the C and A strands (R129 to R131) -/

/-- What an outstanding access does when it is performed. -/
inductive AccessKind where
  | load
  | store (bytes : List (BitVec 8))
  | atomic (op : Nat) (ty : Nat) (cas : Bool) (operand expected : BitVec 128) (use : Nat)
  | join (lat : Nat) (value : BitVec 256) (die : Nat)
  | latticeLoad (lat : Nat) (die : Nat)
  | descriptor (tensor : Nat)
  | flag (f : Nat) (set : Bool) (v : BitVec 48)
  | publish (ring slot : Nat)
  | arrive (group : Nat)
  | event (code : BitVec 14) (value : Word)
  /-- A CSR instruction: 0 read, 1 write, 2 set, 3 clear; the CSR and s[sa] (R193, R194). -/
  | csr (op addr : Nat) (x : Word)
  /-- FLRD (R232). -/
  | flagRead (f : Nat)
  /-- RINFO (R237). -/
  | ringInfo (ring : Nat)
  /-- ALDS status of a stream (R253). -/
  | streamStatus (n : Nat)
  deriving DecidableEq, Repr

/-- How far an access has come: issued; executed at its unit with a result; a join applied at its die, then merged by
Keystone and awaited by the listed dies; a HOME 2 join then waits for pod periods, from Keystone's TIME at its
merge and with the loss epoch of that moment, and again for the dies from Keystone's TIME at their end (R331). A load whose value has arrived in some elements of its
destination only still lands in the others (R132). -/
inductive Phase where
  | issued
  | answered (result : BitVec 256)
  | failed
  | applied
  | merged (awaiting : List Nat)
  | podWait (since : Nat) (epoch : Word) (awaiting : List Nat)
  | podDone (since : Nat) (awaiting dev : List Nat)
  | landing (n : Nat) (v : BitVec 1024)
  deriving DecidableEq, Repr

/-- An access that has issued and is not yet performed. -/
structure Access where
  id : Nat
  /-- Accesses of one instruction share it; the slot clears with the last of them. -/
  grp : Nat
  pc : Word
  slot : Nat := 0
  kind : AccessKind := .load
  dest : Dest := .none
  /-- Physical addresses, in order; a register access names register offsets. -/
  addrs : List Nat := []
  /-- Bits each address stands for: 8 for bytes, 4 or 1 where narrow elements do not lie in whole bytes (R61). -/
  unit : Nat := 8
  /-- Element width of the tensor in bits, descriptor policy and pad, for poisoned units (R413, R418). -/
  eb : Nat := 8
  pois : BitVec 2 := 0
  pad : BitVec 32 := 0
  vaddr : Word := 0
  virtual : Bool := false
  home : BitVec 2 := 0
  route : Route := .plain
  acquire : Bool := false
  release : Bool := false
  /-- Its acquire and release order at DIE scope only (R134). -/
  narrow : Bool := false
  /-- COM, QUA and NOR accesses stand outside same-location order (R130). -/
  loose : Bool := false
  /-- An SPC read completes only after these slots clear (R141). -/
  waits : BitVec 7 := 0
  spc : Bool := false
  /-- The completion flag of AMO and ACAS, 63 for none (R267). -/
  flag : Nat := 63
  /-- The slot is already clear; only a FENCE still waits for the access (R224, R331). -/
  slotDone : Bool := false
  /-- Elements that earlier accesses of this instruction had substituted, with the access number and address of the first
  (R418). -/
  subs : Nat := 0
  subId : Nat := 0
  subAddr : Word := 0
  /-- Flags that a returning FADD accrues when it completes (R230). -/
  flags : BitVec 5 := 0
  /-- What its destination register held at issue, so that a later write of it can be told (R404). -/
  was : Vec := 0
  /-- Keystone's TIME at issue, for the bound of a NOR read (R138). -/
  issuedAt : Nat := 0
  phase : Phase := .issued
  deriving DecidableEq, Repr

/-! ### Engine queues (R142) -/

inductive TransferOp where
  | tld | tst | tgath | tscat | tpref | scld
  deriving DecidableEq, Repr

/-- An entry of the transfer queue (R254 to R259): everything it read at issue, and the tiles already moved. -/
structure Transfer where
  op : TransferOp
  desc : Desc
  coords : List Nat
  tiles : Nat
  done : Nat := 0
  /-- Stream elements of the current tile already moved. -/
  part : Nat := 0
  kind : Nat
  target : Nat
  lane : Nat
  indices : List Int := []
  flag : Nat
  slot : Nat
  pc : Word
  clip : Bool := false
  ctx : Nat
  /-- Elements substituted so far, and the address of the first byte (R418). -/
  subs : Nat := 0
  subAddr : Word := 0
  /-- Its number among the core's accesses and entries. -/
  num : Nat := 0
  deriving DecidableEq, Repr

/-- An entry of a queue: work, or a fence of QFENCE number `id` (R143). -/
inductive Entry (α : Type) where
  | work (x : α)
  | fence (id : Nat)
  deriving DecidableEq, Repr

/-- A copy (R260 to R262). -/
structure Copy where
  tid : Nat
  src : Word
  dst : Word
  count : Nat
  /-- Bytes already moved. -/
  pos : Nat := 0
  time : Word
  flag : Nat
  slot : Nat
  pc : Word
  ctx : Nat
  deriving DecidableEq, Repr

/-- An XSEND (R263 to R265), or a collective (R266). -/
structure Send where
  id : Nat
  coll : Bool := false
  src : Word
  dst : Word
  chip : Nat := 0
  gcore : Nat := 0
  rflag : Nat := 63
  zc : Bool := false
  mc : Bool := false
  count : Nat
  wire : Nat := 0
  plan : Word := 0
  trigger : Nat := 63
  theta : BitVec 48 := 0
  flag : Nat
  slot : Nat
  pc : Word
  ctx : Nat
  launch : Nat
  /-- Its trigger has fired, and it still waits for room in the send queue (R264, R319). -/
  fired : Bool := false
  /-- It has started; it keeps its place at the head of the queue until it is performed (R142). -/
  begun : Bool := false
  deriving DecidableEq, Repr

/-- A send whose source has been read (R265): the bytes it carries and how many destinations still owe an acknowledgement. -/
structure Flying where
  send : Send
  core : Nat
  owed : Nat
  localDone : Bool
  /-- What staging still holds for another chip and no request carries yet: its offset, its bytes, its marked positions (R358, R440). -/
  leftAt : Nat := 0
  left : List (BitVec 8) := []
  leftMarks : List Nat := []
  deriving DecidableEq, Repr

/-- An operand of a queued MMA or BMMA (R274, R275). -/
inductive Operand where
  | tile (t : Nat)
  | vault (lo hi : Word)
  deriving DecidableEq, Repr

/-- A queued MMA or BMMA (R278, R285). -/
structure Mma where
  binary : Bool
  aty : Nat
  bty : Nat
  a : Operand
  b : Operand
  c : Nat
  cmode : Nat
  scl : Bool
  tsm : Bool
  btr : Bool
  flag : Nat
  pc : Word
  /-- Membership index, completion flag and gang counter of a ganged entry (R285, R286). -/
  gang : Option (Nat × Nat × Nat) := none
  /-- Already met its partners; the supplier's operand stands here (R286). -/
  started : Option (BitVec 32768) := none
  /-- Scales taken for A and B, with their geometry codes (R282). -/
  scales : Option (Nat × List (BitVec 8) × Nat × List (BitVec 8)) := none
  deriving DecidableEq, Repr

/-- Entries of the M queue (R273). -/
inductive MEntry where
  | mma (x : Mma)
  | mtz (t flag : Nat)
  | maccz (a n flag : Nat) (pc : Word)
  | mtacc (t a ty : Nat) (z : Bool) (flag : Nat) (pc : Word)
  | msetf (t : Nat)
  | mtrel (t : Nat)
  | mfladd (f : Nat) (v : BitVec 48)
  | mscq (ga gb drop : Nat)
  deriving DecidableEq, Repr

/-- A marker frame with the codes of its segment (R98, R99). -/
structure Frame where
  seg : BitVec 32
  t : Nat
  div : BitVec 2
  mask : BitVec 32
  /-- ea[b] for b = 0 to 31. -/
  ea : List Int
  re : Option Nat
  ref : Nat
  rs : List Int
  crcOk : Bool := true
  /-- a[b,t]: 32 lists of T codes. -/
  codes : List (List Int)
  deriving DecidableEq, Repr

/-- A captured window (R296). -/
structure Window where
  bus : Nat
  seg : BitVec 32
  weights : Nat
  acc : Nat
  row0 : Nat
  rows : Nat
  t : Nat
  div : BitVec 2
  ref : Nat
  number : Nat
  sh : Nat
  accumulate : Bool
  tsm : Bool
  flag : Nat
  pc : Word
  ready : Bool := false
  /-- Begun: an emission counted it as armed, or it receives its segment (R112, R113). -/
  begun : Bool := false
  frame : Option Frame := none
  /-- The core's SKW as the emission of its segment was committed (R121). -/
  skw : BitVec 2 := 3
  /-- TRIM was owed for its commit already: SKW 2 delays the commit once (R431). -/
  trimmed : Bool := false
  /-- The modulator buffer: the ew bytes, and for each symbol the code bytes of the rows, as far as they have been fetched (R104,
  R298). -/
  ew : List Byte := []
  cols : List (List Byte) := []
  deriving DecidableEq, Repr

/-- Entries of the window queue (R111, R122). -/
inductive OEntry where
  | window (w : Window)
  | cal (skew : Bool)
  deriving DecidableEq, Repr

/-- A BCAST's captured block (R269). -/
structure Bcast where
  bus : Nat
  tensor : Nat
  n0 : BitVec 32
  k0 : Nat
  group : Nat
  div : BitVec 2
  t : Nat
  n : Nat
  ref : Nat
  mask : BitVec 32
  flag : Nat
  slot : Nat
  pc : Word
  core : Nat
  launch : Nat
  ctx : Nat
  /-- Its task in the launch. -/
  stage : Nat := 0
  tidx : Nat := 0
  deriving DecidableEq, Repr

/-- A queued DISPATCH (R268). -/
structure Item where
  /-- The version read and the replica slot chosen, once it waits for a Free ring slot. -/
  chosen : Option (BitVec 32 × Nat) := none
  /-- Its number among the core's accesses (R342), and what its destination held at issue (R404). -/
  num : Nat := 0
  was : Word := 0
  expert : Nat
  gate : BitVec 32
  token : Word
  src : Word
  bytes : Nat
  dest : Nat
  flag : Nat
  slot : Nat
  pc : Word
  ctx : Nat
  deriving DecidableEq, Repr

/-- A QFENCE that waits for its queues (R143): queue numbers as imm14 bits, and its slot. -/
structure QFence where
  id : Nat
  queues : List Nat
  slot : Nat
  deriving DecidableEq, Repr

/-- A command window of the M queue or the O window queue (R389 to R391). -/
structure CommandWindow (α : Type) where
  isOpen : Bool := false
  replayable : Bool := true
  entries : List α := []
  /-- Prior values of accumulator words, by element index. -/
  prior : List (Nat × BitVec 32) := []
  replays : Nat := 0
  /-- Entries at the head that a replay performs again: they add no flag a second time (R391). -/
  quiet : Nat := 0
  /-- Tile releases held until the window closes (R390). -/
  releases : List Nat := []
  deriving DecidableEq, Repr

/-! ### Registers of a core -/

/-- FPST (R85). -/
structure Fpst where
  fz : Bool := false
  rm : BitVec 3 := 0
  nv : Bool := false
  dz : Bool := false
  ovf : Bool := false
  unf : Bool := false
  nx : Bool := false
  deriving DecidableEq, Repr

/-- A tile register (R30): its full/empty bit, its 4 KiB and the poisoned 8-byte units (R412). -/
structure Tile where
  full : Bool := false
  data : BitVec 32768 := 0
  poison : List Nat := []
  deriving DecidableEq, Repr

/-- An element of a stream register: lane type and 128 bytes (R256). -/
structure StreamElem where
  lane : Nat
  data : Vec
  deriving DecidableEq, Repr

/-- A stream register with its CLIP bit (R253, R256). -/
structure Stream where
  elems : List StreamElem := []
  clip : Bool := false
  deriving DecidableEq, Repr

/-- A copy channel (R142, R261). -/
structure Channel where
  queue : List (Entry Copy) := []
  next : Nat := 0
  live : List Nat := []
  deriving DecidableEq, Repr

/-- A level of the M nest (R283). -/
structure Nest where
  reg : Nat := 0
  cnt : Nat := 1
  step : BitVec 32 := 0
  deriving DecidableEq, Repr

/-- A bus table entry of the O strand (R292, R294). -/
structure BusConf where
  t : Nat
  div : BitVec 2
  deriving DecidableEq, Repr

/-- Shares of the buffer pool (R319): QPOOLx.MIN and CAP. -/
structure Pool where
  min : Nat
  cap : Nat
  deriving DecidableEq, Repr

/-- An XRTSW that waits for its episode to pass (R266). -/
structure RouteWait where
  launch : Nat
  group : Nat
  episode : BitVec 32
  flag : Nat
  slot : Nat
  deriving DecidableEq, Repr

/-- Which core a task ran on, and its place in the launch (R28, R29). -/
structure Member where
  gnum : Nat
  rank : Nat
  deriving DecidableEq, Repr

/-- The states of the region that a task is in (R44). -/
inductive RegionState where
  | opened | sealed | sealedPending | discarding
  deriving DecidableEq, Repr

/-- A region's entry state (R40). -/
structure Snapshot where
  start : Bool := true
  pc : Word := 0
  s : Sparse Word := []
  a : Sparse Word := []
  f : Sparse (BitVec 48) := []
  deriving DecidableEq, Repr

/-- A task: one instance of a stage's code (R28 to R30, R40 to R47). -/
structure Task where
  launch : Nat
  stage : Nat
  tidx : Nat
  slot : Word
  ctx : Nat
  code : Word
  entries : List (BitVec 32)
  start : BitVec 4
  bound : Nat
  params : List Word
  members : List (Option Member) := [none, none, none, none]
  ringSlot : Option (Nat × Nat) := none
  region : RegionState := .opened
  entry : Snapshot := {}
  /-- ccy of the region bound counted since it began to count (R44). -/
  boundCount : Nat := 0
  /-- Restarts by cause 0x2C, 0x45, 0x46 in this region (R420), and Plumb mismatches (R393). -/
  restarts : Nat := 0
  mismatches : Nat := 0
  /-- The C strand has ended; the task ends when its entries are performed (R27). -/
  ending : Bool := false
  /-- Every strand has stopped issue for a fault or a discard (R385). -/
  stopped : Bool := false
  /-- The gang's discard waits for this member (R46). -/
  gangWait : Bool := false
  /-- An immediate exchange of the die that begins after the discard or the restart is still to come (R334). -/
  awaitExchange : Bool := false
  /-- Not yet started once: a staged task that goes back returns its index and slot (R317). -/
  fresh : Bool := true
  /-- Its restart record in the save area while it is re-queued (R45, R314). -/
  record : Nat := 0
  deriving DecidableEq, Repr

/-- A page that the pager did not make resident for a task: the cause of the access's fault and its DATA (R421, R422, R448). -/
structure Denied where
  ctx : Nat
  tensor : Nat
  page : Nat
  cause : Nat
  data : Word
  deriving DecidableEq, Repr

/-- Everything one core holds (R23, R28, R142, R292, R272). -/
structure Core where
  present : Bool := false
  strandC : Strand := {}
  strandA : Strand := {}
  strandM : Strand := {}
  strandO : Strand := {}
  s : Sparse Word := []
  a : Sparse Word := []
  m : Sparse Word := []
  o : Sparse Word := []
  v : Sparse Vec := []
  p : Sparse (BitVec 32) := []
  f : Sparse (BitVec 48) := []
  t : Sparse Tile := []
  q : Sparse Stream := []
  d : Sparse Slot := []
  /-- Pending scoreboard slots, bit k - 1 for sbk. -/
  sbC : BitVec 7 := 0
  sbA : BitVec 7 := 0
  fpst : Fpst := {}
  spcp : BitVec 7 := 0
  aspcp : BitVec 7 := 0
  ccnt : Word := 0
  dbgBe : Bool := false
  dbgHz : Bool := false
  halted : Bool := false
  outC : List Access := []
  outA : List Access := []
  nextId : Nat := 0
  tq : List (Entry Transfer) := []
  ch : Sparse Channel := []
  sq : List (Entry Send) := []
  bq : List (Entry Bcast) := []
  mq : List (Entry MEntry) := []
  oq : List (Entry OEntry) := []
  triggers : List Send := []
  timed : List (Nat × Copy) := []
  flying : List Flying := []
  items : List Item := []
  fences : List QFence := []
  switches : List RouteWait := []
  /-- The access unit is halted for a page: context, tensor, page (R72). -/
  unitHalt : Option (Nat × Nat × Nat) := none
  /-- Strands that stopped issue at a fault of RCL 2, 4 or 5 whose record is not yet in the log, once per record (R385). -/
  heldStrands : List StrandKind := []
  denied : List Denied := []
  pool : Sparse Pool := []
  scales : List (BitVec 8) := []
  nest : Sparse Nest := []
  geoA : Nat := 0
  geoB : Nat := 0
  gangCount : Nat := 0
  /-- The marker that MGANG leaves for the word after it: membership and completion flag (R285). -/
  gangNext : Option (Nat × Nat) := none
  /-- Progress of an MGO held by a full queue: how many points have entered (R284). -/
  mgoDone : Nat := 0
  buses : Sparse (Option BusConf) := []
  refMode : Nat := 0
  winCount : Nat := 0
  statuses : List (Nat × Word) := []
  skw : BitVec 2 := 3
  /-- The die's TIME when a calibration last brought SKW to 0 (R121). -/
  trimmedAt : Nat := 0
  calibrating : Option Bool := none
  /-- The calibration that runs is the OCAL at the head of the window queue (R122). -/
  calHead : Bool := false
  /-- TRIM or SKEW that the core runs ahead of its next head window (R431). -/
  owedCal : Option Bool := none
  devx : Bool := false
  tuned : Option Nat := none
  rowMap : Sparse Nat := []
  badRows : List Nat := []
  /-- The scheduler grants the core to no new task until a calibration succeeds (R431). -/
  resting : Bool := false
  task : Option Task := none
  staged : Option Task := none
  mwin : CommandWindow MEntry := {}
  owin : CommandWindow OEntry := {}
  stall : Nat := 0
  gangStall : Nat := 0
  /-- Ganged entries whose completion flag waits for other members: counter, flag, written here since any replay (R287). -/
  gangOwed : List (Nat × Nat × Bool) := []
  /-- The tile bits, streams, scales and pool shares that the stall monitor last saw (R405). -/
  stallSeen : List Nat := []
  /-- Pool entries that each queue held when the ccy under way began (R319). -/
  usedAt : List Nat := []
  reserve : Nat := 16
  /-- Pages that the pager made resident for an instruction or an entry: its queue and PC, then context, tensor and page. Those of a C
  instruction are held until it completes (R73). -/
  footprint : List ((Nat × Word) × Nat × Nat × Nat) := []
  /-- The last kind of flag change of the current ccy in the order of R233: 0 none, 1 hardware additions, 2 to 5 strands C to O,
  6 a waiting instruction. -/
  flagRank : Nat := 0
  /-- The stage that the core goes to when its pre-empted task leaves it: launch, stage (R313). -/
  promised : Option (Nat × Nat) := none
  deriving DecidableEq, Repr

/-! ### Dies -/

/-- A replica of a 64-byte granule (R322, R324). -/
structure Granule where
  lat : Nat
  value : BitVec 512
  /-- Joined into since the last exchange. -/
  dirty : Bool := false
  /-- Changed at Keystone since the die's last exchange. -/
  stale : Bool := false
  home0 : Bool := false
  /-- TIME of its die at the last write-back of a HOME 0 copy (R426). -/
  wroteAt : Option Nat := none
  pod : Bool := false
  poison : List Nat := []
  deriving DecidableEq, Repr

/-- A threshold load parked at a die (R332). -/
structure Parked where
  core : Nat
  cell : Nat
  lat : Nat
  theta : BitVec 256
  dest : Dest
  slot : Nat
  pc : Word
  vaddr : Word
  acquire : Bool
  home : BitVec 2 := 0
  /-- TIME of its die at which it is withdrawn, from the limit that stood when it parked (R429). -/
  limit : Option Nat := none
  deriving DecidableEq, Repr

/-- A pending sum of QUA increments (R140): the unit's cell, its width, and who added. -/
structure Qua where
  addrs : List Nat
  ty : Nat
  sum : Nat
  home : BitVec 2
  /-- Core, strand and launch of each held increment, the first at the head. -/
  from_ : List (Nat × StrandKind × Nat)
  route : Route := .plain
  /-- The sum is on its way to another chip. -/
  flying : Bool := false
  /-- An expert load counter instead of a cell (R336). -/
  counter : Option Nat := none
  /-- Bits each address stands for (R61). -/
  unit : Nat := 8
  /-- TIME of the die at the first increment held (R140). -/
  since : Nat := 0
  /-- The instruction of the first increment held, and its address context (R75, R381). -/
  pc : Word := 0
  ctx : Nat := 0
  deriving DecidableEq, Repr

/-- One die: time, conversion registers, synchronisation engine (R20, R21, R330, R405). -/
structure Die where
  time : Word := 0
  tofs : Sparse Word := []
  trate : Sparse Word := []
  tgen : BitVec 32 := 0
  dlk : BitVec 16 := 0x400
  granules : Sparse Granule := []
  parked : List Parked := []
  /-- Granules that reads of engines wait for: granule, lattice type, HOME (R67, R324). -/
  wanted : List (Nat × Nat × BitVec 2) := []
  qua : List Qua := []
  exg : BitVec 32 := 0
  immediate : Bool := false
  /-- Temperature band: 0 below 95, 1 at or above 95, 2 forced (at or above 105 until below 100), 3 tripped (R378). -/
  hot : Nat := 0
  deriving DecidableEq, Repr

/-! ### Launches -/

/-- The states of a ring slot (R33); owners are core numbers, or none while re-queued. -/
inductive SlotState where
  | free
  | claimed (launch stage tidx : Nat)
  | published
  | taken (stage tidx : Nat)
  deriving DecidableEq, Repr

/-- A ring (R33, R309). -/
structure Ring where
  area : Word
  tref : Nat
  size : Nat
  logs : Nat
  producer : Nat
  consumer : Nat
  slots : Sparse SlotState := []
  /-- Published slots in publish order. -/
  order : List Nat := []
  /-- LOC 1 slots that wait for a core of their die: slot, and the kcy since which they wait (R315). -/
  waits : Sparse Nat := []
  closed : Bool := false
  /-- No further task starts on it: a forced retirement (R346). -/
  retired : Bool := false
  deriving DecidableEq, Repr

/-- An entry of the group table (R37 to R39, R238). -/
structure Group where
  kind : Nat
  members : List (Nat × Nat)
  stage : Nat := 0
  episode : BitVec 32 := 0
  arrived : List Nat := []
  bank : Option Nat := none
  deriving DecidableEq, Repr

/-- A task that was discarded and waits to start again (R45). -/
structure Restart where
  task : Task
  deriving DecidableEq, Repr

/-- A running stage (R31, R309, R311). -/
structure Stage where
  record : Word
  sring : Option Nat
  ldie : Nat
  loc : Nat
  gang : Bool
  prio : Nat
  maxc : Nat
  minc : Nat
  bound : Nat
  n : Nat
  outm : BitVec 32
  nextIdx : Nat := 0
  live : Nat := 0
  requeued : List Restart := []
  completed : Bool := false
  waitKcy : Nat := 0
  /-- A ready task of the stage was denied a core, so WaitKcy counts (R49). -/
  waiting : Bool := false
  /-- Fresh tasks that cores hold staged (R317). -/
  staged : Nat := 0
  /-- Indices returned by withdrawn staged tasks, rising (R317); of a ring stage, those of its first Published slots. -/
  returned : List Nat := []
  cores : List Nat := []
  target : Nat := 0
  weight : Nat := 16
  deriving DecidableEq, Repr

inductive LaunchState where
  | running
  | failing (cause : BitVec 8)
  | failed
  | completed
  deriving DecidableEq, Repr

/-- A launch (R304 to R309, R320). -/
structure Launch where
  id : Nat
  queue : Nat
  head : BitVec 32
  tag : BitVec 32
  irq : Bool
  ctx : Nat
  pod : Bool
  save : Word
  saveBytes : Nat
  stages : List Stage
  rings : List Ring
  groups : Sparse Group
  state : LaunchState := .running
  /-- Joins of ended or discarded tasks that are not yet performed at their page's scope (R27, R320, R331). -/
  left : List Access := []
  deriving DecidableEq, Repr

/-- A launch queue (R304, R305, R307). -/
structure Queue where
  base : Word := 0
  log2n : BitVec 5 := 0
  head : BitVec 32 := 0
  tail : BitVec 32 := 0
  stopped : Bool := false
  /-- A LAUNCH that passed its checks and waits for cores (R308). -/
  waiting : Option Launch := none
  /-- Commands accepted and not yet complete: command index, tag, IRQ, and for SIGNAL its value. -/
  pending : List (BitVec 32 × BitVec 32 × Bool × Option Word) := []
  deriving DecidableEq, Repr

/-! ### Optics -/

/-- A BCAST at its sequencer with the next segment to emit (R102, R116). -/
structure Job where
  cmd : Bcast
  next : Nat := 0
  deriving DecidableEq, Repr

/-- A segment on the light path: its frame, the cores its marker has reached, and whether its last symbol is sent (R114). -/
structure Flight where
  frame : Frame
  reached : List Nat := []
  sent : Bool := false
  cmd : Option Bcast := none
  /-- SKW of each core as the emission was committed (R121). -/
  skws : Sparse (BitVec 2) := []
  deriving DecidableEq, Repr

/-- A broadcast bus (R97, R102, R112, R116, R117). -/
structure Bus where
  lastQueued : Option (BitVec 32) := none
  lastEmitted : Option (BitVec 32) := none
  jobs : List Job := []
  kept : List Job := []
  flights : List Flight := []
  /-- Subscribed modules, one above the chip ID, by entry of the extension table (R117). -/
  subs : Sparse Nat := []
  arms : List (BitVec 32 × Nat) := []
  /-- The local arm set of a remote bus: context and HEAD of its launch, the group, the source chip, and the bus there whose outbound
  fibre enters this inbound one (R117). -/
  armSet : Option (Nat × BitVec 32 × Nat × Nat × Nat) := none
  /-- The last arm flit sent for this remote bus: its segment and Keystone's TIME then (R443). -/
  armSent : Option (BitVec 32 × Nat) := none
  /-- Re-emissions asked for: core and segment number (R116). -/
  wanted : List (Nat × BitVec 32) := []
  lpc : BitVec 2 := 0
  /-- Keystone's TIME when LPC last changed (R118, R432). -/
  since : Nat := 0
  /-- Keystone's TIME when the monitor's reading last went into LPC 0 or 1, or out of them (R118). -/
  steadySince : Nat := 0
  /-- Power was lost, and LPC has read neither 0 nor 1 since (R432). -/
  dark : Bool := false
  lost : Bool := false
  deriving DecidableEq, Repr

/-! ### Cairn and Mason -/

/-- A Cairn slot entry (R340). -/
structure CairnSlot where
  wtid : Nat := 0
  gtid : Nat := 0
  die : Nat := 0
  ring : Nat := 0
  frc : Bool := false
  st : BitVec 2 := 0
  sent : Word := 0
  cons : Word := 0
  dver : BitVec 32 := 0
  /-- A reserved bit of word 0, and of word 3, is set (R340). -/
  reserved : Bool := false
  reserved3 : Bool := false
  deriving DecidableEq, Repr

/-- A replication that Keystone has accepted (R344). -/
structure Replication where
  e : Nat
  k : Nat
  src : Nat
  /-- Weight tensor of the source slot when the command was accepted. -/
  srcTid : Nat
  die : Nat
  wtid : Nat
  gtid : Nat
  frames : Nat
  status : BitVec 2
  live : Bool
  deriving DecidableEq, Repr

/-- Keystone's expert placement (R336 to R347, R372, R434). -/
structure Mason where
  half : BitVec 6 := 0
  mcnt : Sparse (BitVec 32) := []
  msn : Sparse (BitVec 32) := []
  ctx : Nat := 0
  lhead : BitVec 32 := 0
  ver0 : BitVec 32 := 0
  ver1 : BitVec 32 := 0
  load0 : Bool := false
  load1 : Bool := false
  slots0 : Sparse CairnSlot := []
  slots1 : Sparse CairnSlot := []
  cver : BitVec 32 := 0
  ibusy : Bool := false
  cur : Bool := false
  vcell : Word := 0
  cmd : Word := 0
  reps : List Replication := []
  full : Bool := false
  /-- Replications completed since the last publication: expert, slot, die, weight and gradient tensor (R342). -/
  repDone : List (Nat × Nat × Nat × Nat × Nat) := []
  sgrp : Nat := 0
  wgrp : Nat := 0
  en : Bool := false
  mdone : Word := 0
  mbud : Sparse (BitVec 32) := []
  muse : Sparse (BitVec 32) := []
  /-- Slots whose drain has completed (R345), as 8 e + k. -/
  drained : List Nat := []
  /-- Force-retired slots, as 8 e + k, with their last entry, whose DVER is here the version that retired it: their items are still to
  move and their frames to free (R346). -/
  forced : List (Nat × CairnSlot) := []
  /-- Step episodes passed and not yet merged, weight episodes not yet copied (R347). -/
  mergeDue : List (BitVec 32) := []
  copyDue : List (BitVec 32) := []
  /-- Step episodes passed since each drain completed its count (R345). -/
  passes : Nat := 0
  /-- Slots that consumed all they were sent, with the pass count they wait past. -/
  settled : List (Nat × Nat) := []
  /-- The kcy whose decay is made, and the kcy of the last publication (R337, R342). -/
  decayed : Option Word := none
  published : Option Word := none
  /-- The new version is still to be joined into the version cell: after the publication's kcy, in which DISPATCH reads the older one
  (R268, R372). -/
  joinOwed : Bool := false
  /-- Draining slots that stopped waiting as their launch ended, as 8 e + k: their frames are firmware's (R436). -/
  halted : List Nat := []
  /-- Joins of Mason into HOME 2 cells that this chip has yet to obtain: cell, lattice type, slot, operand (R324). -/
  owed : List (Nat × Nat × Nat × Nat) := []
  deriving DecidableEq, Repr

/-! ### Event log -/

/-- What goes on once a record is in the log: the recovery that it reports (R385, R395). -/
inductive Sequel where
  | none
  /-- RCL 2, 4 and 5: the strand of a core that stopped issue goes on. -/
  | go (g : Nat) (k : StrandKind)
  /-- RCL 2: the command windows of these cores replay, of the M queue or of the O window queue. -/
  | replay (cores : List Nat) (optic : Bool)
  /-- RCL 3: the task of a core is discarded, with its gang; `counts` where R420 counts the restart. -/
  | discard (g launch stage tidx : Nat) (counts : Bool)
  /-- RCL 6: these launches fail. -/
  | fail (launches : List Nat) (cause : Nat)
  deriving DecidableEq, Repr

/-- An event record without its sequence number (R381). -/
structure Record where
  tag : BitVec 32 := 0
  seald : Bool := false
  lfail : Bool := false
  prc : Bool := false
  ctx : Nat := 0
  src : Nat := 8
  rcl : Nat := 0
  cls : Nat := 0
  cause : BitVec 8 := 0
  time : Word := 0
  tv : Bool := false
  strand : Nat := 0
  stg : Nat := 0
  gcore : Nat := 0
  tidx : Nat := 0
  pc : Word := 0
  addr : Word := 0
  data : Word := 0
  irq : Bool := false
  /-- The launch whose cores this record releases when it enters (R388, R395). -/
  ends : Option Nat := none
  /-- The command that counts as done for R307 when this record enters: queue and command index. -/
  done : Option (Nat × BitVec 32) := none
  /-- The slot of the EVSIG that completes when the record is in the log: core, access number (R224). -/
  evsig : Option (Nat × Nat) := none
  /-- The kcy in which the source made it (R321). -/
  made : Word := 0
  /-- The recovery that runs when this record enters. -/
  sequel : Sequel := .none
  deriving DecidableEq, Repr

/-- The event log and its interrupts (R352, R353, R395). -/
structure EventLog where
  base : Word := 0
  log2n : BitVec 5 := 0
  wr : Word := 0
  rd : Word := 0
  /-- Records held at each source die, oldest first. -/
  held : Sparse (List Record) := []
  /-- Notices beyond the 16 a source keeps, counted by cause: (die × 256 + cause, count) (R395). -/
  dropped : Sparse Nat := []
  msix : Sparse (BitVec 9) := []
  msixTable : Sparse (BitVec 128) := []
  /-- Messages sent, oldest first: vector, sequence number. -/
  sent : List (Nat × Nat) := []
  /-- Vectors pending behind their mask. -/
  pendingBits : List Nat := []
  unwritable : Bool := false
  /-- Keystone's TIME when the held record was last tried (R352). -/
  triedAt : Nat := 0
  /-- The MSI-X Enable and Function Mask bits of PCI Express (R353). -/
  msixOn : Bool := false
  msixMask : Bool := false
  /-- The kcy in which the last record entered (R321). -/
  entered : Option Word := none
  deriving DecidableEq, Repr

/-! ### Fabric -/

/-- Port states (R367). -/
inductive PortState where
  | up | draining | drained | training | failed
  deriving DecidableEq, Repr

/-- Circuit states (R368) with the peer chip. -/
inductive CircuitState where
  | idle | setup | locking | up | wait | tearing
  deriving DecidableEq, Repr

/-- Who asked for a circuit (R445): an XCIRC, a command, or a plan. -/
inductive Asker where
  | none
  | xcirc (g : Nat) (flag slot launch : Nat) (pc : Word)
  | command (q : Nat) (index tag : BitVec 32) (irq : Bool)
  | plan (g send : Nat)
  deriving DecidableEq, Repr

/-- A DRAIN_PORT or RETRAIN_PORT command of a port (R367). -/
structure PortCommand where
  queue : Nat
  index : BitVec 32
  tag : BitVec 32
  irq : Bool
  drain : Bool
  deriving DecidableEq, Repr

/-- A request or release of a circuit that the circuit's state does not yet take (R368). -/
structure CircuitAsk where
  peer : Nat
  release : Bool
  asker : Asker
  deriving DecidableEq, Repr

/-- One port with its circuit and its commands (R357, R367, R368). -/
structure Port where
  state : PortState := .up
  /-- TIME of its die when the state was last entered. -/
  since : Nat := 0
  /-- The peer's DRAIN_ACK has arrived. -/
  acked : Bool := false
  /-- Uncorrectable flits of the ms that began then (R444). -/
  errors : Nat := 0
  errorsSince : Nat := 0
  /-- The command that waits for the port's final state, and those that wait for their turn (R367). -/
  active : Option PortCommand := none
  waiting : List PortCommand := []
  circuit : CircuitState := .idle
  circuitSince : Nat := 0
  peer : Nat := 0
  tries : Nat := 0
  asker : Asker := .none
  asks : List CircuitAsk := []
  /-- The circuit that another chip's SETUP has joined to this port: IDLE, LOCKING or UP, its requester, the requester's port, and since
  when (R368; log entry 65). -/
  far : CircuitState := .idle
  farPeer : Nat := 0
  farPort : Nat := 0
  farSince : Nat := 0
  /-- Flits that have left and whose credit has not come back (R367). -/
  credits : Nat := 0
  deriving DecidableEq, Repr

/-- Packet classes of this model (R358). -/
inductive PacketKind where
  | request
  | response
  | send
  /-- A granule of a pod exchange; a fetch of a granule at its home chip, and its answer (R324, R328). -/
  | control
  | fetch
  | granule
  | collective
  | setup | ack | busy | teardown | drain | drainAck | arm
  | routeBroken | targetHalted | busyReply
  deriving DecidableEq, Repr

/-- What a request asks its home to do (R360). -/
inductive RequestKind where
  /-- Read, or write, units of so many bits at addresses; `marks` are the bytes whose unit takes a mark with the data (R413). -/
  | load (unit : Nat) (addrs : List Nat)
  | store (unit : Nat) (addrs : List Nat) (bytes : List (BitVec 8)) (marks : List Nat)
  /-- An atomic on the units at addresses of a page of a HOME, for a context; `returns` where its flags go back with the value
  (R228, R230). -/
  | atomic (op ty : Nat) (cas : Bool) (operand expected : BitVec 128) (unit : Nat) (addrs : List Nat) (home : BitVec 2) (ctx : Nat) (returns : Bool)
  /-- Send bytes; `marks` are the positions whose unit was poisoned at the source (R413). -/
  | send (dst : Word) (gcore rflag ctx : Nat) (bytes : List (BitVec 8)) (marks : List Nat)
  deriving DecidableEq, Repr

/-- A packet in this chip's routers (R358, R364, R438). -/
structure Packet where
  kind : PacketKind
  src : Nat
  dst : Nat
  bank : Bool := false
  alt : Bool := false
  ovf : Bool := false
  seq : Nat := 0
  /-- The requester's TIME at issue, its low 32 bits (R438). -/
  issued : Nat := 0
  addr : Nat := 0
  what : Option RequestKind := none
  route : List (BitVec 16) := []
  payload : List (BitVec 8) := []
  /-- Marked units of a granule's payload (R324); of a response, the positions of marked units (R413). -/
  marks : List Nat := []
  /-- The wire format of a collective; the lattice type of a granule. -/
  wire : Nat := 0
  tag : BitVec 32 := 0
  step : Nat := 0
  offset : Nat := 0
  pathB : Bool := false
  /-- A request that its home holds while halted for debug (R369). -/
  held : Bool := false
  deriving DecidableEq, Repr

/-- A cross-point that a circuit's set-up reserved (R368): its output port, the chip whose SETUP reserved it and that SETUP's end, and
the requester's port, which tells the circuits of one pair apart; committed once ACK has passed. -/
structure CrossPoint where
  out : Nat
  src : Nat
  dst : Nat
  port : Nat
  committed : Bool := false
  deriving DecidableEq, Repr

/-- What a home keeps of a request that it does not perform again: its SEQ and, once performed, its response (R360). -/
structure Kept where
  seq : Nat
  cause : Option Nat := none
  bytes : List (BitVec 8) := []
  marks : List Nat := []
  deriving DecidableEq, Repr

/-- An outstanding request of this chip (R359, R440). -/
structure Request where
  id : Nat
  chip : Nat
  seq : Nat
  issued : Nat
  expiries : Nat := 0
  alt : Bool := false
  reissued : Bool := false
  timing : Bool := true
  busy : Bool := false
  /-- When its BUSY reply came (R446). -/
  busyAt : Nat := 0
  brokenBy : Option Nat := none
  core : Nat
  strand : StrandKind
  access : Nat
  isSend : Bool := false
  /-- The launch and the instruction that it serves (R442). -/
  launch : Nat := 0
  pc : Word := 0
  addr : Nat := 0
  what : RequestKind
  answered : Option (List (BitVec 8)) := none
  /-- Positions of the units that stood marked at the home (R413). -/
  marks : List Nat := []
  /-- The home answered with an error of this cause, at this physical address where the cause names one. -/
  refused : Option Nat := none
  errorAt : Nat := 0
  deriving DecidableEq, Repr

/-- Send bytes on their way to a core of this chip (R263, R265, R371). -/
structure Piece where
  id : Nat
  core : Nat
  /-- A multicast member in place of a core: launch, stage, task index. -/
  member : Option (Nat × Nat × Nat) := none
  ctx : Nat
  dst : Word
  bytes : List (BitVec 8)
  /-- Positions of bytes that stood in poisoned units (R413). -/
  marks : List Nat
  rflag : Nat
  /-- A send of this chip: core and send number. -/
  sender : Option (Nat × Nat)
  /-- A send of another chip: source chip and SEQ of the request to answer. -/
  reply : Option (Nat × Nat) := none
  deriving DecidableEq, Repr

/-- A collective plan that a port processor runs (R366). -/
structure Plan where
  core : Nat
  send : Send
  tag : BitVec 32
  /-- Its circuits, peer and local port, and those asked for, set up, and let go again. -/
  circuits : List (Nat × Nat)
  asked : Bool := false
  up : List Nat := []
  released : Bool := false
  down : List Nat := []
  steps : Nat
  next : Nat := 0
  /-- Steps and offsets whose local write is performed. -/
  written : List (Nat × Nat) := []
  ovf : Bool := false
  failed : Bool := false
  /-- Its status is being written: whether it failed. `mute` where the status cannot be written (R366, R445). -/
  closing : Option Bool := none
  mute : Bool := false
  deriving DecidableEq, Repr

/-- The fabric side of the module (R357 to R369, R438 to R446). -/
structure Fabric where
  ports : Sparse Port := []
  cur : Bool := false
  def0 : BitVec 24 := 0
  def1 : BitVec 24 := 0
  ovr0 : Sparse (BitVec 6) := []
  ovr1 : Sparse (BitVec 6) := []
  ftout : BitVec 16 := 0x14
  fretry : BitVec 4 := 3
  flife : BitVec 16 := 0x10
  ferrlim : BitVec 32 := 0x40
  packets : List Packet := []
  requests : List Request := []
  nextReq : Nat := 0
  nextSeq : Sparse Nat := []
  /-- SEQ values seen per source chip with their responses, cause 0 for success; none while one is performed (R360). -/
  windows : Sparse (List Kept) := []
  /-- Control sequence numbers delivered per source chip (R361). -/
  control : Sparse (List Nat) := []
  /-- Packets that arrived by one path only, in a row: (source × 2 + silent path) (R443). -/
  silent : Sparse Nat := []
  /-- Packets delivered here and not yet served, with the time from which they are held. -/
  ingress : List (Nat × Packet) := []
  adders : List Packet := []
  pieces : List Piece := []
  nextPiece : Nat := 0
  plans : List Plan := []
  /-- Packets routed to a port and still in its outbound queue. -/
  outbound : List (Nat × Packet) := []
  /-- Packets that have left through a port, oldest first. -/
  sent : List (Nat × Packet) := []
  /-- ROUTE_BROKEN replies of this chip since its last record of cause 0x61, and Keystone's TIME at that record (R441). -/
  brokenCount : Nat := 0
  brokenAt : Option Nat := none
  /-- Cross-points reserved by circuits (R368). -/
  reserved : List CrossPoint := []
  /-- The port processors' offset and rate for every chip of the pod (R366). -/
  conv : Sparse (Word × Word) := []
  deriving DecidableEq, Repr

/-! ### Module-wide registers -/

/-- An exchange of Keystone with a neighbour in one phase (R328, R428): the phase since pod time 0, the side, the pod time at which
it began here, whether the other's request or ack has come, how many granules came and how many are due, what was sent with the sides
it was owed to, and whether this chip's answer has gone. -/
structure PodExchange where
  phase : Nat
  side : Nat
  began : Nat
  heard : Bool := false
  got : Nat := 0
  need : Nat := 0
  sent : List Nat := []
  replied : Bool := false
  deriving DecidableEq, Repr

/-- Flowstone registers and Keystone's part (R324, R330, R428). -/
structure Flow where
  dper : BitVec 20 := 0x3E8
  /-- The die period in use; the boundary from which the register's value applies, where that is still to come (R326). -/
  period : Nat := 1000
  switchAt : Option Nat := none
  /-- The next rotation slot, counted from TIME 0 (R325). -/
  slot : Nat := 0
  /-- Keystone's TIME in sixteenths of a ns until which the last rotation exchange runs, and its die (R326). -/
  runs : Nat := 0
  runDie : Nat := 8
  /-- One above the last phase whose exchange has begun, and the exchanges that are not complete (R328). -/
  phase : Nat := 0
  pods : List PodExchange := []
  pper : BitVec 24 := 0x1388
  limit : BitVec 32 := 0
  epoch : Word := 0
  /-- Chip-level replicas of HOME 2 granules whose home is another chip (R324). -/
  shadow : Sparse Granule := []
  /-- Lattice granules of this chip's frames that a die or a partner has obtained: lattice type (R324). -/
  known : Sparse Nat := []
  /-- Granules that this chip has asked their home chip for (R324). -/
  asked : List Nat := []
  /-- HOME 2 granules changed since the last exchange in each direction (R328). -/
  podDirty : List (Nat × Nat) := []
  /-- Keystone's TIME such that every holding die of the pod's other chips has completed an exchange that began after it, as they have
  told (R331). -/
  othersAt : Nat := 0
  /-- Chips that have merged what they held of a frame into its home chip's copy, for a change of its type (R322). -/
  merged : List (Nat × Nat) := []
  deriving DecidableEq, Repr

/-- A checkpoint in progress (R355, R356). -/
structure Checkpoint where
  queue : Nat
  index : BitVec 32
  tag : BitVec 32
  irq : Bool
  base : Nat
  hold : Bool
  deriving DecidableEq, Repr

/-- What the private parts of a complete image hold: its place, its header's bytes, the queue heads, and the launches that its
restart records describe (R355, R356, R379). -/
structure Image where
  base : Nat
  header : List (BitVec 8)
  tag : BitVec 32
  time : Word
  seq : Word
  heads : Sparse (BitVec 32)
  launches : List Launch
  /-- Shadow replicas of HOME 2 granules: their backing is firmware's area of this module's memory (R324, R335). -/
  shadow : Sparse Granule := []
  deriving DecidableEq, Repr

/-- Bring-up, power, thermal, mailbox, lifetime record (R375 to R380, R415). -/
structure Mgmt where
  powered : Bool := false
  grade : BitVec 8 := 0
  step : BitVec 3 := 0
  fail : Bool := false
  fuse : Bool := false
  ready : Bool := false
  pcap : BitVec 12 := 3000
  clk : BitVec 8 := 0
  hwStep : Nat := 0
  /-- Firmware's own step (R377). -/
  fwStep : Nat := 0
  pwr : BitVec 12 := 0
  calm : Nat := 0
  /-- The cap that the power window in progress is judged by, the windows that have ended, and the kcy of the last end (R377). -/
  capNow : BitVec 12 := 3000
  /-- PCAP as it stood at the end of a window that is over and not yet judged, once it has been written since (R377). -/
  capEnd : Option (BitVec 12) := none
  windows : Nat := 0
  windowKcy : Option Word := none
  /-- The module has stopped: only the mailbox answers until reset (R384). -/
  down : Bool := false
  /-- The lasers are unlit: until step 4 of bring-up, and after a trip (R375, R378). -/
  lasersOff : Bool := true
  mbTag : BitVec 16 := 0
  mbOvr : Bool := false
  mbBusy : Bool := false
  /-- The command that MBCMD started. -/
  mbOp : Nat := 0
  mbRc : BitVec 8 := 0
  mbdata : Sparse Word := []
  /-- Strata counters by page, item and bin, live and as last committed (R380). -/
  strata : Sparse Word := []
  committed : Sparse Word := []
  /-- The two flash copies, 2^64 × copy + offset; the copy that runs and its release; the copy that the boot ROM tries first (R376). -/
  flash : Sparse Byte := []
  copy : Nat := 0
  release : Nat := 0
  first : Nat := 0
  /-- The fused key hash and rollback counter, as step 0 of bring-up read them (R376). -/
  fusedKey : Nat := 0
  rollback : Nat := 0
  /-- The image that update blocks have brought so far (R376), and the release of the schedule firmware that was accepted. -/
  update : Sparse Byte := []
  schedule : Option Nat := none
  /-- HBM stacks that bring-up has marked failed (R375). -/
  badStacks : List Nat := []
  /-- One above Keystone's TIME at the last commit of each die's conversion pairs (R22). -/
  commits : Sparse Nat := []
  decTed : Bool := false
  hyst : BitVec 8 := 4
  corrected : Sparse (Nat × Nat) := []
  /-- One above Keystone's TIME at the last record of each array (R414). -/
  reported : Sparse Nat := []
  /-- Error counts of the HBM stacks as last read (R416). -/
  hbmCounts : Sparse Nat := []
  /-- One above Keystone's TIME at the last poll of each atomic unit, and of each stack (R394, R416). -/
  polled : Sparse Nat := []
  hbmPolled : Sparse Nat := []
  kcy : Word := 0
  /-- The kcy whose period of the stage scheduler is done (R311). -/
  period : Option Word := none
  deriving DecidableEq, Repr

/-- The host and second-tier side (R350, R351, R354, R447, R448). -/
structure HostSide where
  hwin : BitVec 23 := 0
  requester : Bool := false
  /-- The size of BAR2 as a power of two, 64 MiB to 64 GiB (R348). -/
  bar2 : Nat := 26
  linkUp : Bool := false
  tierUp : Bool := false
  /-- Accesses that a checkpoint holds, oldest first: the BAR, the offset, and the access (R351, R356). -/
  waiting : List (Nat × Nat × HostOp) := []
  /-- What BAR accesses have returned, oldest first: the bytes read, or none for Unsupported Request. -/
  replies : List (Option (List (BitVec 8))) := []
  /-- Correctable errors since the last record of them, and when that was (R447). -/
  correctables : Nat := 0
  correctedAt : Option Nat := none
  checkpoint : Option Checkpoint := none
  hold : Bool := false
  /-- Complete images whose restart records and header are private to the device (R355, R356; log entry 49). -/
  images : List Image := []
  deriving DecidableEq, Repr

/-- A pre-emption request on its way to a task, and the stage that the core goes to then (R313). -/
structure Preempt where
  core : Nat
  launch : Nat
  stage : Nat
  tidx : Nat
  dest : Option (Nat × Nat) := none
  deriving DecidableEq, Repr

/-- Who asks the pager for a page: a core, the queue of R319's order (0 and 1 stand for an instruction of C or A, 255 for a module unit),
the instruction and the launch (R73). -/
structure PageAsker where
  core : Nat := 0
  queue : Nat := 255
  pc : Word := 0
  launch : Nat := 0
  deriving DecidableEq, Repr

/-- A page that the pager made resident, and the launch it did so for (R73). -/
structure Resident where
  ctx : Nat
  tensor : Nat
  page : Nat
  launch : Nat
  deriving DecidableEq, Repr

/-- A page-in that the pager works on (R72, R74). -/
structure PageReq where
  ctx : Nat
  tensor : Nat
  page : Nat
  /-- The instruction or entry that asked first (R73). -/
  who : PageAsker := {}
  deriving DecidableEq, Repr

/-- Errors and inputs that the outside world puts into the machine without a row of its own (log entry 6). -/
inductive Upset where
  /-- A physical check unit becomes uncorrectable (R412). -/
  | poison (addr : Nat)
  /-- A unit of a core's tile register becomes uncorrectable: core, tile, unit. -/
  | poisonTile (g t u : Nat)
  /-- The M strand's next read of that tile unit fails once; `times` counts failing reads (R451). -/
  | transient (g t u times : Nat)
  /-- The M strand's next read of the vault unit at this address fails, as for `transient` (R451). -/
  | transientWord (addr times : Nat)
  /-- Plumb's copy of the strand's next effect will not match (R393). -/
  | mismatch (g : Nat) (k : StrandKind)
  /-- The marker frame of this segment fails its check (R433). -/
  | badMarker (bus : Nat) (seg : BitVec 32)
  /-- The receivers of a core deviate in its next window (R430). -/
  | deviation (g : Nat)
  /-- A corrected error of an array at an address (R414). -/
  | corrected (array addr : Nat)
  /-- A granule transfer of this die's exchange fails four times (R427). -/
  | badExchange (die : Nat)
  /-- A granule of a die's replica is found uncorrectable (R426). -/
  | badGranule (die addr : Nat)
  /-- A Keystone replica line of a lattice page is found uncorrectable (R426). -/
  | badLine (addr : Nat)
  /-- A remote module's segment arrives on an inbound fibre (R117). -/
  | remoteSegment (bus : Nat) (f : Frame)
  /-- The oldest packet of a port's outbound queue leaves. -/
  | transmit (port : Nat)
  /-- A packet arrives at a port (R358). -/
  | packet (p : Packet)
  /-- The host writes its own memory (SPACE 2). -/
  | hostWrite (addr : Nat) (b : Byte)
  /-- The host resizes BAR2 (R348). -/
  | bar2Size (log2n : Nat)
  /-- The host accesses BAR0 at an offset (R348 to R350). -/
  | bar0 (offset : Nat) (op : HostOp)
  /-- Firmware gives the port processors a chip's offset and rate (R366). -/
  | chipTime (chip : Nat) (offset rate : Word)
  /-- Credits of a port come back (R367). -/
  | credit (port n : Nat)
  /-- The pod's other chips tell that their holding dies have exchanged since a moment (R331). -/
  | othersExchanged (t : Nat)
  /-- Firmware gives an HBM stack's page frames to the pager (R73). -/
  | frames (stack n : Nat)
  /-- The host sets the MSI-X Enable and Function Mask bits (R353). -/
  | msixControl (on mask : Bool)
  /-- A compression metadata entry becomes uncorrectable (R417): first line of its 16. -/
  | metadata (addr : Nat)
  /-- Firmware rewrites a page entry, its TTINV still to come (R69). -/
  | rewriteEntry (ctx tensor page : Nat) (w0 w1 : Word)
  /-- The next request to this address of host memory ends with an error of this PCI Express status (R447). -/
  | hostError (addr : Nat) (status : Word)
  /-- The read of queue `q` of a core, in R319's numbers with 32 to 35 for the broadcast sequencers, ends with a poisoned TLP for this
  address of host memory (R447). -/
  | poisonTlp (g q addr : Nat)
  /-- Firmware's own policy sets its clock step, in units of 100 MHz (R377, R378). -/
  | firmwareStep (n : Nat)
  /-- Firmware counts what it samples in a bin of a page of the lifetime record (R380). -/
  | strata (page item bin n : Nat)
  /-- Firmware loads schedule firmware for the port processors (R366, R376). -/
  | loadSchedule (i : FwImage)
  /-- Firmware enters a notice of its own (R383, cause 0x87). -/
  | firmwareNotice (addr data : Word)
  deriving DecidableEq, Repr

/-- Which agent moves next: a strand issues, an event is taken with what comes from outside, time passes, or the outside
world acts. -/
inductive Agent where
  | issue (core : Nat) (k : StrandKind)
  | event (i : Instr) (a : Args)
  | ns (die n : Nat)
  | ccy (core n : Nat)
  | kcy (n : Nat)
  | upset (u : Upset)
  deriving DecidableEq, Repr, Inhabited

/-- The bytes that a store replaced: their keys, the old bytes, Keystone's TIME, and the strands that have since observed one of
them. The model's own record, read by NOR reads only (R138). -/
structure Past where
  keys : List Nat
  old : List Byte
  time : Nat
  seen : List (Nat × StrandKind) := []
  deriving DecidableEq, Repr

/-- When a page moved last: context, address of its entry, and Keystone's TIME at its latest moves, four at most, rising (R71). -/
structure Moves where
  ctx : Nat
  entry : Nat
  times : List Nat
  deriving DecidableEq, Repr

/-- The whole module. -/
structure State where
  /-- The core whose strand issues (the model's own). -/
  cur : Nat := 0
  /-- What comes with the event being taken (the model's own). -/
  ev : Args := {}
  /-- Which agents move next (the model's own). -/
  agenda : List Agent := []
  /-- Index of the next free value (the model's own). -/
  freeCtr : Nat := 0
  cores : Sparse Core := []
  dies : Sparse Die := []
  mem : List Host.Cell := []
  /-- Base addresses of poisoned units, rising (R412). -/
  poison : List Nat := []
  /-- What stores replaced, newest first (the model's own). -/
  past : List Past := []
  upsets : List Upset := []
  ttbase : Sparse Word := []
  /-- Old entries that a translation cache may still hold after a rewrite, until TTINV: context, address of the entry, the
  entry (R68, R69). -/
  stale : List (Nat × Nat × Page) := []
  pageReqs : List PageReq := []
  /-- The pages that the pager has made resident, with the launch of each, and those that code 0x0003 pinned for a launch (R73, R198). -/
  residents : List Resident := []
  pins : List Resident := []
  /-- Bytes of descriptors and page entries on other chips that the translation caches hold, by whole physical address (R55, R69). -/
  walked : Sparse Byte := []
  /-- Free page frames of each HBM stack, as the pager counts them (R73, R198). -/
  frames : Sparse Nat := []
  moves : List Moves := []
  launches : List Launch := []
  nextLaunch : Nat := 0
  queues : Sparse Queue := []
  rot : Sparse Nat := []
  preempts : List Preempt := []
  buses : Sparse Bus := []
  xfcon : BitVec 4 := 0
  mason : Mason := {}
  log : EventLog := {}
  fabric : Fabric := {}
  flow : Flow := {}
  host : HostSide := {}
  mgmt : Mgmt := {}
  atst : Sparse (BitVec 12) := []
  deriving DecidableEq, Repr

/-- The module right after reset, before power-good's bring-up (R375): every register at the value its map states, and the
values of log entry 3 where the map states none. -/
def State.reset : State := {}

end Sys2Proof.Machine
end

