-- ==== Sys2Proof/Config.lean ====
section
/-! DEFINITION. What the spec leaves open: constants with no body, so that no proof can see a value of them (log entry 5). -/

namespace Sys2Proof.Config

/-- Free value number `i`: a fresh value each time, indexed by `State.freeCtr`. -/
opaque free (i : Nat) : Nat

/-- Which agent moves when the agenda names none: choice number `i`, indexed by `State.freeCtr` (log entry 2). -/
opaque agent (i : Nat) : Machine.Agent

/-- What the special function unit delivers for function `f` (0 to 5, the order of R209) on FP32 bits `x`, before the bound
of R94 is applied: a fixed function of the input bits. -/
opaque sfu (f : Nat) (x : BitVec 32) : BitVec 32

/-- The version word of a firmware release (R198, R379). -/
opaque firmwareVersion (release : Nat) : BitVec 64

/-- Which register stands at an offset of the register BAR that R349 leaves to the firmware release. -/
opaque registerAt (offset : Nat) : Option RegName

/-- Where bank `b` of the Cairn table begins in the register BAR, which R349 leaves to the firmware release. -/
opaque cairnBank (b : Nat) : Nat

/-- The register BAR offset of a register whose offset R349 leaves to the firmware release. -/
opaque registerOffset (r : RegName) : Nat

/-- Which item and bin of its Strata page a record counts in, where R380 leaves it open: class, cause, source, ADDR (R382). -/
opaque strataBin (cls cause src : Nat) (addr : BitVec 64) : Nat

/-- Word `i` of the 64-byte reply for a Strata page, whose layout R380 leaves open: the page's counters, each
with its item and bin. -/
opaque strataReply (page i : Nat) (counters : List ((Nat × Nat) × BitVec 64)) : BitVec 64

/-- Whether access number `i` of core `g` uses the old page entry at `a` that a cache still holds (R69). -/
opaque usesOld (i g : Nat) (a : BitVec 64) : Bool

/-- Whether the die translation caches hold the page of an address of a context at a kcy, as LOC 1 looks it up (R315). -/
opaque cached (ctx kcy : Nat) (a : BitVec 64) : Bool

/-- Whether the unit at an address stands in L2 at choice number `i`, for the array that R437 names. -/
opaque inL2 (i a : Nat) : Bool

/-- TYPE of a packet's header for a kind of packet, which R358 leaves open. -/
opaque packetType (kind : Nat) : BitVec 8

/-- The fused threshold L2ECC.THR (R415). -/
opaque l2Threshold : BitVec 8

end Sys2Proof.Config
end

