-- ==== Sys2Proof/Machine/Ops.lean ====
section
/-! DEFINITION. Named operations over the state: maps, registers, memory bytes, launches, records, and taking a fault
(R381 to R388). -/

namespace Sys2Proof.Machine

/-! ### Maps -/

/-- The value at a key; `d` where none is listed. -/
def look {α : Type} (d : α) : Sparse α → Nat → α
  | [], _ => d
  | (k, v) :: m, n => if n = k then v else look d m n

/-- Drop a key. -/
def drop {α : Type} (n : Nat) (m : Sparse α) : Sparse α := m.filter (fun e => decide (e.1 ≠ n))

/-- List a value at its place. -/
def place {α : Type} (n : Nat) (x : α) : Sparse α → Sparse α
  | [] => [(n, x)]
  | (k, v) :: m =>
    if n < k then (n, x) :: (k, v) :: m
    else if n = k then (n, x) :: m
    else (k, v) :: place n x m

/-- Give a key a value, keeping the canonical form. -/
def put {α : Type} [DecidableEq α] (d : α) (m : Sparse α) (n : Nat) (x : α) : Sparse α :=
  if x = d then drop n m else place n x m

/-- Keys strictly rising, each above `lo`, and no value equal to `d`. -/
def Sparse.wfFrom {α : Type} [DecidableEq α] (d : α) : Option Nat → Sparse α → Bool
  | _, [] => true
  | lo, (k, v) :: m => (match lo with | none => true | some l => decide (l < k)) && decide (v ≠ d) && Sparse.wfFrom d (some k) m

/-- The canonical form of a map with default `d`. -/
def Sparse.wf {α : Type} [DecidableEq α] (d : α) (m : Sparse α) : Bool := Sparse.wfFrom d none m

/-- The canonical form of memory: an unlisted byte reads 0 (log entry 4). -/
def Memory.wf (m : List Host.Cell) : Bool := Sparse.wf (0 : Byte) m

/-! ### Bytes -/

/-- The little-endian number of a byte list (R3). -/
def leNat : List Byte → Nat
  | [] => 0
  | b :: bs => b.toNat + 256 * leNat bs

/-- The low `n` bytes of a number, low byte first. -/
def leBytes : Nat → Nat → List Byte
  | 0, _ => []
  | n + 1, x => BitVec.ofNat 8 x :: leBytes n (x / 256)

/-- Consecutive numbers from `a`. -/
def span (a : Nat) : Nat → List Nat
  | 0 => []
  | n + 1 => a :: span (a + 1) n

/-! ### Cores, dies, registers -/

/-- The core of a global number. -/
def State.core (s : State) (g : Nat) : Core := look {} s.cores g
/-- Replace a core. -/
def State.setCore (s : State) (g : Nat) (c : Core) : State := { s with cores := put {} s.cores g c }
/-- Change a core. -/
def State.onCore (s : State) (g : Nat) (f : Core → Core) : State := s.setCore g (f (s.core g))
/-- The die of a number. -/
def State.die (s : State) (d : Nat) : Die := look {} s.dies d
/-- Change a die. -/
def State.onDie (s : State) (d : Nat) (f : Die → Die) : State := { s with dies := put {} s.dies d (f (s.die d)) }

/-- Change every listed core. -/
def State.mapCores (s : State) (f : Nat → Core → Core) : State := { s with cores := s.cores.map (fun e => (e.1, f e.1 e.2)) }
/-- Change every listed bus. -/
def State.mapBuses (s : State) (f : Nat → Bus → Bus) : State := { s with buses := s.buses.map (fun e => (e.1, f e.1 e.2)) }
/-- Change every listed die. -/
def State.mapDies (s : State) (f : Nat → Die → Die) : State := { s with dies := s.dies.map (fun e => (e.1, f e.1 e.2)) }
/-- A launch queue. -/
def State.queue (s : State) (q : Nat) : Queue := look {} s.queues q
/-- Change a launch queue. -/
def State.onQueue (s : State) (q : Nat) (f : Queue → Queue) : State := { s with queues := put {} s.queues q (f (s.queue q)) }
/-- A bus. -/
def State.bus (s : State) (b : Nat) : Bus := look {} s.buses b
/-- Change a bus. -/
def State.onBus (s : State) (b : Nat) (f : Bus → Bus) : State := { s with buses := put {} s.buses b (f (s.bus b)) }

/-- The compute die of a global core (R19). -/
def dieOf (g : Nat) : Nat := g / 96
/-- The local number of a global core (R19). -/
def localOf (g : Nat) : Nat := g % 96
/-- The four cores of a core's quad (R19). -/
def quadOf (g : Nat) : List Nat := span (g / 4 * 4) 4

/-- Read an s-register; s0 reads 0 (R152). -/
def Core.getS (c : Core) (n : Nat) : Word := if n = 0 then 0 else look 0 c.s n
/-- Write an s-register; a write of s0 is discarded (R152). -/
def Core.setS (c : Core) (n : Nat) (x : Word) : Core := if n = 0 then c else { c with s := put 0 c.s n x }
/-- Read an a-register; a0 reads 0 (R152). -/
def Core.getA (c : Core) (n : Nat) : Word := if n = 0 then 0 else look 0 c.a n
/-- Write an a-register; a write of a0 is discarded (R152). -/
def Core.setA (c : Core) (n : Nat) (x : Word) : Core := if n = 0 then c else { c with a := put 0 c.a n x }
/-- Read an m-register. -/
def Core.getM (c : Core) (n : Nat) : Word := look 0 c.m n
/-- Write an m-register. -/
def Core.setM (c : Core) (n : Nat) (x : Word) : Core := { c with m := put 0 c.m n x }
/-- Read an o-register. -/
def Core.getO (c : Core) (n : Nat) : Word := look 0 c.o n
/-- Write an o-register. -/
def Core.setO (c : Core) (n : Nat) (x : Word) : Core := { c with o := put 0 c.o n x }
/-- Read a v-register. -/
def Core.getV (c : Core) (n : Nat) : Vec := look 0 c.v n
/-- Write a v-register. -/
def Core.setV (c : Core) (n : Nat) (x : Vec) : Core := { c with v := put 0 c.v n x }
/-- Read a p-register; p0 reads all ones (R152). -/
def Core.getP (c : Core) (n : Nat) : BitVec 32 := if n = 0 then BitVec.allOnes 32 else look 0 c.p n
/-- Write a p-register; a write of p0 is discarded (R152). -/
def Core.setP (c : Core) (n : Nat) (x : BitVec 32) : Core := if n = 0 then c else { c with p := put 0 c.p n x }
/-- Read a counting flag. -/
def Core.getF (c : Core) (n : Nat) : BitVec 48 := look 0 c.f n
/-- Write a counting flag. -/
def Core.setF (c : Core) (n : Nat) (x : BitVec 48) : Core := { c with f := put 0 c.f n x }
/-- Read a tile register. -/
def Core.tile (c : Core) (n : Nat) : Tile := look {} c.t n
/-- Write a tile register. -/
def Core.setTile (c : Core) (n : Nat) (x : Tile) : Core := { c with t := put {} c.t n x }
/-- Read a stream register. -/
def Core.stream (c : Core) (n : Nat) : Stream := look {} c.q n
/-- Write a stream register. -/
def Core.setStream (c : Core) (n : Nat) (x : Stream) : Core := { c with q := put {} c.q n x }
/-- Read a descriptor slot. -/
def Core.slot (c : Core) (n : Nat) : Slot := look {} c.d n
/-- Write a descriptor slot. -/
def Core.setSlot (c : Core) (n : Nat) (x : Slot) : Core := { c with d := put {} c.d n x }
/-- A copy channel. -/
def Core.channel (c : Core) (n : Nat) : Channel := look {} c.ch n
/-- Change a copy channel. -/
def Core.setChannel (c : Core) (n : Nat) (x : Channel) : Core := { c with ch := put {} c.ch n x }

/-- One of the four strands. -/
def Core.strand (c : Core) : StrandKind → Strand
  | .c => c.strandC
  | .a => c.strandA
  | .m => c.strandM
  | .o => c.strandO
/-- Replace one of the four strands. -/
def Core.setStrand (c : Core) (k : StrandKind) (x : Strand) : Core :=
  match k with
  | .c => { c with strandC := x }
  | .a => { c with strandA := x }
  | .m => { c with strandM := x }
  | .o => { c with strandO := x }
/-- Change one of the four strands. -/
def Core.onStrand (c : Core) (k : StrandKind) (f : Strand → Strand) : Core := c.setStrand k (f (c.strand k))

/-- Bytes in a word of a strand (R150). -/
def wordBytes : StrandKind → Nat
  | .c => 8
  | .a => 8
  | .m => 16
  | .o => 16

/-- The strand's number in an event record (R381). -/
def strandNum : StrandKind → Nat
  | .c => 0
  | .a => 1
  | .m => 2
  | .o => 3

/-- The outstanding accesses of C or A; M and O have none. -/
def Core.out (c : Core) : StrandKind → List Access
  | .c => c.outC
  | .a => c.outA
  | _ => []
/-- Replace the outstanding accesses of C or A. -/
def Core.setOut (c : Core) (k : StrandKind) (l : List Access) : Core :=
  match k with
  | .c => { c with outC := l }
  | .a => { c with outA := l }
  | _ => c
/-- The pending scoreboard slots of C or A; M and O have none (R131). -/
def Core.sb (c : Core) : StrandKind → BitVec 7
  | .c => c.sbC
  | .a => c.sbA
  | _ => 0
/-- Replace the pending slots of C or A. -/
def Core.setSb (c : Core) (k : StrandKind) (x : BitVec 7) : Core :=
  match k with
  | .c => { c with sbC := x }
  | .a => { c with sbA := x }
  | _ => c
/-- The bit of slot sb`n`; slot 0 has none (R131). -/
def slotBit (n : Nat) : BitVec 7 := if n = 0 then 0 else BitVec.ofNat 7 (2 ^ (n - 1))
/-- Mark a slot pending (R131). -/
def Core.markSlot (c : Core) (k : StrandKind) (n : Nat) : Core := c.setSb k (c.sb k ||| slotBit n)
/-- Clear a slot (R131). -/
def Core.clearSlot (c : Core) (k : StrandKind) (n : Nat) : Core := c.setSb k (c.sb k &&& ~~~ slotBit n)

/-- The core whose strand issues. -/
def State.me (s : State) : Core := s.core s.cur
/-- Change the core whose strand issues. -/
def State.onMe (s : State) (f : Core → Core) : State := s.onCore s.cur f

/-- The host gets no answer but from the mailbox: its link is down (R447), or the module has stopped (R384). -/
def State.deaf (s : State) : Bool := !s.host.linkUp || s.mgmt.down

/-- What a register write that comes in as an event does: one written over the host link is lost while the host gets no answer. -/
def State.written (s t : State) : State := if s.ev.flag && s.deaf then s else t

/-- Take a fresh free value (log entry 5). -/
def State.takeFree (s : State) : Nat × State := (Config.free s.freeCtr, { s with freeCtr := s.freeCtr + 1 })

/-! ### Physical addresses (R55, R56) -/

def paChip (pa : Nat) : Nat := pa / 2 ^ 52 % 4096
def paSpace (pa : Nat) : Nat := pa / 2 ^ 48 % 16
def paOffset (pa : Nat) : Nat := pa % 2 ^ 48

/-- The chip ID of this module: SELF of the current route bank (R362; log entry 7). -/
def State.chip (s : State) : Nat :=
  if s.fabric.cur then s.fabric.def1.toNat % 4096 else s.fabric.def0.toNat % 4096

/-- The key under which `mem` holds a byte of this module: the address without its chip (log entry 7). -/
def memKey (pa : Nat) : Nat := pa % 2 ^ 52

/-- The vault window address of a byte of a core's vault (R56). -/
def vaultAt (g ofs : Nat) : Nat := 4 * 2 ^ 48 + dieOf g * 2 ^ 29 + localOf g * 2 ^ 22 + ofs
/-- The accumulator window address of an accumulator word (R56). -/
def accAt (g i : Nat) : Nat := 5 * 2 ^ 48 + dieOf g * 2 ^ 29 + localOf g * 2 ^ 22 + 4 * i

/-- The offset lies in its space's layout (R56); the second tier must be there (R354). -/
def State.mapped (s : State) (pa : Nat) : Bool :=
  let o := paOffset pa
  match paSpace pa with
  | 0 => o < 2 ^ 39 && o % 2 ^ 36 < 64000000000
  | 1 => o < 1536000000000 && s.host.tierUp
  | 2 => true
  | 4 => o < 2 ^ 32 && o / 2 ^ 22 % 128 < 96
  | 5 => o < 2 ^ 32 && o / 2 ^ 22 % 128 < 96 && o % 2 ^ 22 / 4 < 786432
  | 6 => o < 2 ^ 26
  | _ => false

/-- Base of the check unit that holds a byte: 8 bytes in vaults and accumulator stores, 32 in L2 and HBM (R412). -/
def unitOf (pa : Nat) : Nat := if paSpace pa = 4 ∨ paSpace pa = 5 then memKey pa / 8 * 8 else memKey pa / 32 * 32
/-- Bytes of the check unit (R412). -/
def unitSize (pa : Nat) : Nat := if paSpace pa = 4 ∨ paSpace pa = 5 then 8 else 32

/-- The array number of R437. A unit of HBM is found uncorrectable in L2 or in its stack: what L2 holds is left open, so which of
the two is a free value (log entry 130). -/
def State.arrayOf (s : State) (pa : Nat) : Nat :=
  match paSpace pa with
  | 4 => 0
  | 5 => 1
  | 0 => if Config.inL2 s.freeCtr pa then 2 else 3
  | _ => 2

/-- The physical address of the check unit of a byte of this module, its CHIP included (R55, R437). -/
def State.unitAddr (s : State) (pa : Nat) : Nat := s.chip * 2 ^ 52 + unitOf pa

/-! ### Memory bytes -/

/-- Read one byte of this module's memory; an unlisted byte reads 0 (log entry 4). -/
def State.byte (s : State) (pa : Nat) : Byte := look 0 s.mem (memKey pa)
/-- Write one byte of this module's memory. -/
def State.setByte (s : State) (pa : Nat) (b : Byte) : State := { s with mem := put 0 s.mem (memKey pa) b }

/-- Write bytes at addresses, in order. -/
def State.setBytes (s : State) : List Nat → List Byte → State
  | a :: as, b :: bs => (s.setByte a b).setBytes as bs
  | _, _ => s

/-- The unit at `u` is covered whole by the written addresses (R412). -/
def covers (u : Nat) (addrs : List Nat) : Bool :=
  (span u (unitSize u)).all (fun x => addrs.any (fun a => memKey a = x))

/-- Read the bytes at addresses. -/
def State.load (s : State) (addrs : List Nat) : List Byte := addrs.map s.byte

/-- The record of what a store replaces (R138); atomics reach no accumulator words. -/
def State.replaced (s : State) (addrs : List Nat) : List Past :=
  if addrs.isEmpty || decide (paSpace (addrs.headD 0) = 5) then s.past
  else { keys := addrs.map memKey, old := s.load addrs, time := (s.die 8).time.toNat } :: s.past

/-- Store bytes as one write: units that it covers whole lose their poison mark (R412). -/
def State.store (s : State) (addrs : List Nat) (bytes : List Byte) : State :=
  { s.setBytes addrs bytes with poison := s.poison.filter (fun u => !covers u addrs), past := s.replaced addrs }

/-- A strand has observed the present values of bytes: what they held before is too old for its NOR reads (R138). -/
def State.observe (s : State) (g : Nat) (k : StrandKind) (addrs : List Nat) : State :=
  { s with past := s.past.map (fun p =>
      if p.keys.any (fun a => addrs.any (fun b => decide (memKey b = a))) && !p.seen.contains (g, k) then { p with seen := (g, k) :: p.seen } else p) }

/-- The bytes at addresses before the last `n` stores to some of them; none where one of these is older than `from_` or the strand
has observed what it wrote (R138). -/
def pastBytes (g : Nat) (k : StrandKind) (from_ : Nat) (addrs : List Nat) : Nat → List Past → List Byte → Option (List Byte)
  | 0, _, l => some l
  | _ + 1, [], _ => none
  | n + 1, p :: ps, l =>
    if addrs.any (fun a => p.keys.contains (memKey a)) then
      if decide (p.time < from_) || p.seen.contains (g, k) then none
      else pastBytes g k from_ addrs n ps ((addrs.zip l).map (fun e => match (p.keys.zip p.old).find? (fun x => decide (x.1 = memKey e.1)) with
        | some x => x.2
        | none => e.2))
    else pastBytes g k from_ addrs (n + 1) ps l
/-- Read a little-endian number of `n` bytes at `pa`. -/
def State.loadLE (s : State) (pa n : Nat) : Nat := leNat (s.load (span pa n))
/-- Store a little-endian number of `n` bytes at `pa`. -/
def State.storeLE (s : State) (pa n x : Nat) : State := s.store (span pa n) (leBytes n x)

/-- The byte lies in a poisoned unit (R412). -/
def State.poisoned (s : State) (pa : Nat) : Bool := s.poison.any (fun u => u = unitOf pa)
/-- The first address of a list that lies in a poisoned unit. -/
def State.firstPoison (s : State) (addrs : List Nat) : Option Nat := addrs.find? s.poisoned
/-- Mark the unit of a byte as poisoned (R412). -/
def State.markPoison (s : State) (pa : Nat) : State :=
  let u := unitOf pa
  if s.poison.any (fun x => x = u) then s
  else { s with poison := (s.poison.filter (fun x => x < u)) ++ u :: s.poison.filter (fun x => u < x) }
/-- Mark the units of a list of bytes. -/
def State.markAll (s : State) (l : List Nat) : State := l.foldl State.markPoison s

/-- Read an accumulator word of a core (R53). -/
def State.acc (s : State) (g i : Nat) : BitVec 32 := BitVec.ofNat 32 (s.loadLE (accAt g i) 4)
/-- Write an accumulator word of a core (R53). -/
def State.setAcc (s : State) (g i : Nat) (x : BitVec 32) : State := s.storeLE (accAt g i) 4 x.toNat

/-! ### Launches and tasks -/

/-- The launch of an identifier. -/
def State.launch? (s : State) (l : Nat) : Option Launch := s.launches.find? (fun x => x.id = l)
/-- Change a launch. -/
def State.onLaunch (s : State) (l : Nat) (f : Launch → Launch) : State :=
  { s with launches := s.launches.map (fun x => if x.id = l then f x else x) }
/-- Change an element of a list by position. -/
def modifyNth {α : Type} (f : α → α) : Nat → List α → List α
  | _, [] => []
  | 0, x :: xs => f x :: xs
  | n + 1, x :: xs => x :: modifyNth f n xs
/-- Change a stage of a launch. -/
def Launch.onStage (l : Launch) (i : Nat) (f : Stage → Stage) : Launch := { l with stages := modifyNth f i l.stages }
/-- Change a ring of a launch. -/
def Launch.onRing (l : Launch) (i : Nat) (f : Ring → Ring) : Launch := { l with rings := modifyNth f i l.rings }
/-- Change a group of a launch. -/
def Launch.onGroup (l : Launch) (i : Nat) (f : Group → Group) : Launch :=
  match (l.groups.find? (fun e => e.1 = i)) with
  | some e => { l with groups := place i (f e.2) l.groups }
  | none => l
/-- A group of a launch. -/
def Launch.group? (l : Launch) (i : Nat) : Option Group := (l.groups.find? (fun e => e.1 = i)).map (·.2)

/-- Change the task of a core. -/
def Core.onTask (c : Core) (f : Task → Task) : Core := { c with task := c.task.map f }

/-- The region is sealed (R44). -/
def RegionState.isSealed : RegionState → Bool
  | .sealed => true
  | .sealedPending => true
  | _ => false

/-- A core's running task has a sealed region (R44). -/
def Core.isSealed (c : Core) : Bool := match c.task with | some t => t.region.isSealed | none => false

/-- A sealing effect issues: the region of the core's task becomes sealed (R42, R44); while a gang waits, the member is
sealed-pending and its bound counts from this point (R46). -/
def Core.seal (c : Core) : Core :=
  c.onTask (fun t => match t.region with
    | .opened => { t with region := if t.gangWait then .sealedPending else .sealed, boundCount := 0 }
    | _ => t)

/-- The task belongs to a gang stage (R37). -/
def State.isGang (s : State) (t : Task) : Bool :=
  match s.launch? t.launch with
  | some l => (match l.stages[t.stage]? with | some st => st.gang | none => false)
  | none => false

/-- Cores that still run the tasks of a core's quad gang; the core alone where its stage is no gang (R37, R46). -/
def State.gangCores (s : State) (g : Nat) : List Nat :=
  match (s.core g).task with
  | some t =>
    if s.isGang t then
      (quadOf g).filter (fun x => match (s.core x).task with
        | some y => decide ((y.launch, y.stage, y.tidx / 4) = (t.launch, t.stage, t.tidx / 4))
        | none => false)
    else [g]
  | none => [g]

/-! ### Causes (R383) -/

/-- The event class of a cause (R383). -/
def causeClass (c : Nat) : Nat :=
  if c = 0x08 then 12
  else if c ≤ 0x1D then 3
  else if c ≤ 0x29 then 4
  else if c ≤ 0x2D then 10
  else if c ≤ 0x4A then 5
  else if c ≤ 0x5A then 6
  else if c = 0x63 then 8
  else if c ≤ 0x69 then 7
  else if c ≤ 0x6B then 8
  else if c = 0x6C then 13
  else if c = 0x70 ∨ c = 0x73 ∨ c = 0x74 ∨ c = 0x78 then 9
  else if c = 0x71 ∨ c = 0x72 ∨ c = 0x79 then 10
  else if c ≤ 0x77 then 11
  else if c ≤ 0x83 then 0
  else if c = 0x84 then 1
  else if c ≤ 0x86 then 2
  else 14

/-- The recovery class of a cause before the escalation of R387 (R383). -/
def causeRcl (c : Nat) : Nat :=
  if c = 0x18 ∨ c = 0x56 ∨ c = 0x57 ∨ c = 0x58 ∨ c = 0x59 ∨ c = 0x65 ∨ c = 0x6C then 5
  else if c = 0x19 then 7
  else if c = 0x79 then 8
  else if c = 0x2A then 2
  else if c = 0x2B then 4
  else if c = 0x2C ∨ c = 0x45 ∨ c = 0x46 ∨ c = 0x71 then 3
  else if c = 0x54 ∨ c = 0x61 ∨ c = 0x69 ∨ c = 0x70 then 1
  else if c = 0x08 ∨ (0x47 ≤ c ∧ c ≤ 0x4A) ∨ c = 0x5A ∨ c = 0x67 ∨ c = 0x68 ∨ c = 0x6A ∨ (0x73 ≤ c ∧ c ≤ 0x78)
    ∨ c = 0x80 ∨ (0x82 ≤ c ∧ c ≤ 0x87) then 0
  else 6

/-- Causes that R383 gives as precise, or as precise or imprecise by where the fault is found. -/
def mayBePrecise (c : Nat) : Bool :=
  decide (c ≤ 0x0C) || c = 0x0E || (decide (0x10 ≤ c) && decide (c ≤ 0x13)) || (decide (0x20 ≤ c) && decide (c ≤ 0x25)) || c = 0x27 || c = 0x28
    || c = 0x40 || c = 0x41 || c = 0x44 || c = 0x50 || c = 0x52 || c = 0x63 || c = 0x64

/-- Causes of a task for which no instruction is at fault and R405 names none: their records have no PC (R381, R383). -/
def faultless (c : Nat) : Bool := c = 0x15 || c = 0x47 || c = 0x84 || c = 0x1D || c = 0x29 || c = 0x6B || c = 0x71 || c = 0x72

/-- Causes whose DATA is a count, merged while their source is held (R395). -/
def countCause (c : Nat) : Bool := c = 0x61 || c = 0x6A || c = 0x70 || c = 0x74

/-! ### Records (R381, R395) -/

/-- The log enters no record now: disabled, full or unwritable (R352). -/
def EventLog.blocked (e : EventLog) : Bool :=
  e.log2n = 0 || decide ((e.wr - e.rd).toNat = 2 ^ e.log2n.toNat) || e.unwritable

/-- Queue a record at its source die. While the log is blocked the source keeps its notices by R395. -/
def State.enter (s : State) (r : Record) : State :=
  let r := { r with made := s.mgmt.kcy }
  let q := look [] s.log.held r.src
  let c := r.cause.toNat
  let notices := (q.filter (fun x => decide (x.rcl ≤ 1) && !countCause x.cause.toNat)).length
  if s.log.blocked && countCause c && q.any (fun x => x.cause = r.cause) then
    let old := (q.filter (fun x => x.cause = r.cause)).foldl (fun n x => n + x.data.toNat) 0
    let q' := q.filter (fun x => x.cause ≠ r.cause) ++ [{ r with data := r.data + BitVec.ofNat 64 old }]
    { s with log := { s.log with held := put [] s.log.held r.src q' } }
  else if s.log.blocked && decide (r.rcl ≤ 1) && !countCause c && decide (16 ≤ notices) then
    let k := r.src * 256 + c
    { s with log := { s.log with dropped := put 0 s.log.dropped k (look 0 s.log.dropped k + 1) } }
  else
    { s with log := { s.log with held := put [] s.log.held r.src (q ++ [r]) } }

/-- A record of a source die that concerns no task. -/
def State.deviceRecord (s : State) (src cause : Nat) (addr data : Word) : Record :=
  { src := src, rcl := causeRcl cause, cls := causeClass cause, cause := BitVec.ofNat 8 cause,
    time := (s.die src).time, addr := addr, data := data }

/-- Enter a record of a source die that concerns no task. -/
def State.notice (s : State) (src cause : Nat) (addr data : Word) : State := s.enter (s.deviceRecord src cause addr data)

/-- The completion record of a command (R381). -/
def State.commandRecord (s : State) (n cause : Nat) (index tag : BitVec 32) (irq : Bool) (addr data : Word) : Record :=
  { s.deviceRecord 8 cause addr data with tag := tag, ctx := n, irq := irq, done := some (n, index) }

/-- A command completes with its record. -/
def State.completeCommand (s : State) (n : Nat) (index tag : BitVec 32) (irq : Bool) : State :=
  s.enter (s.commandRecord n 0x82 index tag irq 0 0)

/-- The tag of a launch's command. -/
def State.tagOf (s : State) (l : Nat) : BitVec 32 := match s.launch? l with | some x => x.tag | none => 0

/-- A record that names the task of a core (R381); PRC and PC as far as the cause has them (R383). SEALD also tells that a partner's
sealed region made the fault of RCL 6 (R411). -/
def State.taskRecord (s : State) (g : Nat) (k : StrandKind) (found : Bool) (cause rcl : Nat) (at' addr data : Word) : Record :=
  let precise := found && mayBePrecise cause
  let pc := if faultless cause then 0 else at'
  match (s.core g).task with
  | some t =>
    { tag := s.tagOf t.launch, seald := t.region.isSealed || (decide (rcl = 6) && decide (causeRcl cause = 3) && (s.gangCores g).any (fun x => (s.core x).isSealed)), lfail := rcl = 6, prc := precise, ctx := t.ctx, src := dieOf g,
      rcl := rcl, cls := causeClass cause, cause := BitVec.ofNat 8 cause, time := (s.die (dieOf g)).time, tv := true,
      strand := strandNum k, stg := t.stage, gcore := g, tidx := t.tidx, pc := pc, addr := addr, data := data,
      ends := if rcl = 6 then some t.launch else none }
  | none =>
    { prc := precise, src := dieOf g, rcl := rcl, cls := causeClass cause, cause := BitVec.ofNat 8 cause,
      time := (s.die (dieOf g)).time, strand := strandNum k, gcore := g, pc := pc, addr := addr, data := data }

/-! ### Failing and discarding (R45, R385, R388) -/

/-- A transfer that has started to move data has begun (R409). -/
def Transfer.begun (t : Transfer) : Bool := t.done ≠ 0 || t.part ≠ 0
/-- A copy that has moved bytes has begun (R409). -/
def Copy.begun (x : Copy) : Bool := x.pos ≠ 0
/-- The identifier of a queued copy. -/
def Entry.tid : Entry Copy → Option Nat
  | .work x => some x.tid
  | .fence _ => none
/-- A matrix entry that met its partners has begun (R286, R409). -/
def MEntry.begun : MEntry → Bool
  | .mma x => x.started.isSome
  | _ => false
/-- A window counted as armed, or receiving, has begun (R112, R113). -/
def OEntry.begun : OEntry → Bool
  | .window w => w.begun
  | .cal _ => false
/-- Entries of a queue that have begun; the rest, fences included, are cancelled (R45). -/
def keepBegun {α : Type} (p : α → Bool) (q : List (Entry α)) : List (Entry α) :=
  q.filter (fun e => match e with | .work x => p x | .fence _ => false)

/-- Cancel every entry that has not begun to be performed (R45, R388, R409). Sends not yet started, triggered sends that
have not fired, copies and unfinished fences go; an issued transfer identifier counts as completed, so that no wait on it
stays (R261). -/
def Core.cancelEntries (c : Core) : Core :=
  { c with
    tq := keepBegun Transfer.begun c.tq,
    ch := c.ch.map (fun e =>
      let q := keepBegun Copy.begun e.2.queue
      (e.1, { e.2 with queue := q, live := q.filterMap Entry.tid })),
    sq := keepBegun Send.begun c.sq, bq := [], mq := keepBegun MEntry.begun c.mq, oq := keepBegun OEntry.begun c.oq,
    triggers := [], timed := [], items := [], fences := [], switches := [], unitHalt := none, calHead := false }

/-- Stop issue on every strand of a core's task (R385). -/
def Core.stop (c : Core) : Core := c.onTask (fun t => { t with stopped := true })

/-- Change the fabric. -/
def State.onFabric (s : State) (f : Fabric → Fabric) : State := { s with fabric := f s.fabric }

/-- The access number of an engine's requests: queue `q` of R319's order, reading or writing part `i` of its bytes at a chip. -/
def engineAccess (q chip i : Nat) (write : Bool) : Nat := 2 ^ 65 + q * 2 ^ 30 + chip * 2 ^ 18 + i * 2 + (if write then 1 else 0)
/-- The queue of an engine's access number. -/
def engineQueue (a : Nat) : Nat := (a - 2 ^ 65) / 2 ^ 30

/-- The requests of an engine are done with, those to the host too. -/
def State.dropEngine (s : State) (g q : Nat) : State :=
  ({ s with upsets := s.upsets.filter (fun u => match u with | .poisonTlp h p _ => decide (h ≠ g ∨ p ≠ q) | _ => true) }).onFabric (fun f => { f with requests := f.requests.filter (fun r =>
    !(!r.isSend && decide (r.core = g) && decide (2 ^ 65 ≤ r.access) && decide (engineQueue r.access = q))) })

/-- Reads that entries cancelled before they began had asked of other chips: their answers must meet no later entry (R45, R370). -/
def State.dropCancelled (s : State) (g : Nat) : State :=
  let c := s.core g
  let gone (q : Nat) : Bool :=
    if q = 16 then c.tq.isEmpty
    else if q < 25 then (c.channel (q - 17)).queue.isEmpty
    else if q < 32 then decide (q = 25) || decide (q = 29) || decide (q = 30)
    else if q < 36 then !(s.bus (q - 32)).jobs.any (fun j => decide (j.cmd.core = g))
    else false
  ((span 16 20).filter gone).foldl (fun s q => s.dropEngine g q) s

/-- Parked threshold loads of a core are withdrawn (R224, R333). -/
def State.withdrawParked (s : State) (g : Nat) : State :=
  { s with dies := s.dies.map (fun e => (e.1, { e.2 with parked := e.2.parked.filter (fun p => decide (p.core ≠ g)) })) }

/-- A fresh staged task goes back: its index or slot returns to the stage, the slot ahead of every slot published after it
(R317). -/
def Launch.returnStaged (l : Launch) (t : Task) : Launch :=
  let p := match l.stages[t.stage]? with | some st => (st.returned.filter (fun i => decide (i < t.tidx))).length | none => 0
  let l := l.onStage t.stage (fun st => { st with staged := st.staged - 1, returned := st.returned.take p ++ t.tidx :: st.returned.drop p })
  match t.ringSlot with
  | some (r, i) => l.onRing r (fun x => { x with slots := put .free x.slots i .published, order := x.order.take p ++ i :: x.order.drop p })
  | none => l

/-- Withdraw the staged task of a core (R317). -/
def State.withdrawStaged (s : State) (g : Nat) : State :=
  match (s.core g).staged with
  | some t =>
    (if t.fresh then s.onLaunch t.launch (fun l => l.returnStaged t)
     else s.onLaunch t.launch (fun l => l.onStage t.stage (fun st => { st with requeued := ⟨t⟩ :: st.requeued }))).onCore g
      (fun c => { c with staged := none })
  | none => s

/-- Steps 1 and 2 of R388 on one core. -/
def State.failCore (s : State) (l g : Nat) : State :=
  let c := s.core g
  let s := match c.staged with
    | some t => if t.launch = l then s.onCore g (fun c => { c with staged := none }) else s
    | none => s
  match c.task with
  | some t => if t.launch = l then ((s.onCore g (fun c => (c.stop).cancelEntries)).withdrawParked g).dropCancelled g else s
  | none => s

/-- A launch begins to fail with its first cause: every task stops, unbegun entries are cancelled, and so is a broadcast of which no
segment has been emitted (R388). The faulting record is in the log by then; the rest follows when the record of cause 0x81 is too
(R385, R395). -/
def State.failLaunch (s : State) (l cause : Nat) : State :=
  match s.launch? l with
  | some x =>
    match x.state with
    | .running =>
      let s := s.onLaunch l (fun x => { x with state := .failing (BitVec.ofNat 8 cause) })
      let s := s.mapBuses (fun _ b => { b with jobs := b.jobs.filter (fun j => decide (j.cmd.launch ≠ l) || decide (j.next ≠ 0)) })
      (s.cores.map (·.1)).foldl (fun s g => s.failCore l g) s
    | _ => s
  | none => s

/-- Ask for an immediate exchange of a die (R327). -/
def State.askExchange (s : State) (d : Nat) : State := s.onDie d (fun x => { x with immediate := true })

/-- The task of a core enters Discarding: every strand stops, unbegun entries are cancelled (R44, R45), and an immediate
exchange of its die is asked for (R334). -/
def State.beginDiscard (s : State) (g : Nat) : State :=
  (((s.onCore g (fun c => (c.onTask (fun t => { t with region := .discarding, stopped := true, awaitExchange := true })).cancelEntries)).withdrawParked g).dropCancelled g).askExchange (dieOf g)

/-- A fault of one member discards its whole gang together (R46, R411). -/
def State.beginDiscardAll (s : State) (g : Nat) : State := (s.gangCores g).foldl State.beginDiscard s

/-- Restarts by these causes are counted in a region (R420). -/
def restartCause (c : Nat) : Bool := c = 0x2C || c = 0x45 || c = 0x46

/-- The recovery class that a fault of a core's task takes: RCL 3 becomes 6 in a sealed region (R387), in a gang with a
sealed member (R411) and on the third restart by 0x2C, 0x45 or 0x46 (R420). -/
def State.rclOf (s : State) (g cause : Nat) : Nat :=
  if causeRcl cause = 3 then
    if (s.gangCores g).any (fun x => (s.core x).isSealed) then 6
    else match (s.core g).task with
      | some t => if restartCause cause && decide (2 ≤ t.restarts) then 6 else 3
      | none => 3
  else causeRcl cause

/-- The task's launch has begun to fail, or is over: the highest class of its faults governs it already (R385). -/
def State.launchFailing (s : State) (l : Nat) : Bool := match s.launch? l with | some x => decide (x.state ≠ .running) | none => false

/-- A record that ends the launch waits to enter the log (R385). -/
def State.failQueued (s : State) (l : Nat) : Bool := s.log.held.any (fun q => q.2.any (fun r => decide (r.ends = some l)))

/-- Which tasks and strands a class stops when its fault is detected (R385, R411). -/
def State.stopFor (s : State) (g : Nat) (k : StrandKind) (rcl : Nat) : State :=
  if rcl = 3 ∨ rcl = 6 then (s.gangCores g).foldl (fun s x => s.onCore x Core.stop) s
  else if rcl = 2 ∨ rcl = 4 ∨ rcl = 5 then s.onCore g (fun c => { c with heldStrands := k :: c.heldStrands })
  else s

/-- The recovery of a class for a task of a core (R384). -/
def sequelOf (g : Nat) (k : StrandKind) (t : Task) (cause rcl : Nat) : Sequel :=
  if rcl = 6 then .fail [t.launch] cause
  else if rcl = 3 then .discard g t.launch t.stage t.tidx (restartCause cause)
  else if rcl = 2 ∨ rcl = 4 ∨ rcl = 5 then .go g k
  else .none

/-- Take a fault of a core's task as of a class (R385): what the class stops stops, and the record is queued; its recovery runs when
the record is in the log. -/
def State.faultAs (s : State) (g : Nat) (k : StrandKind) (precise : Bool) (cause rcl : Nat) (pc addr data : Word) : State :=
  let data := if cause = 0x29 then (match (s.core g).denied.find? (fun e => e.cause = 0x29) with | some e => e.data | none => data) else data
  let r := s.taskRecord g k precise cause rcl pc addr data
  match (s.core g).task with
  | none => s.enter r
  | some t => (s.stopFor g k rcl).enter { r with sequel := sequelOf g k t cause rcl }

/-- Take a fault of a core's task (R385, R387). Used for precise and imprecise faults of every strand. -/
def State.taskFault (s : State) (g : Nat) (k : StrandKind) (precise : Bool) (cause : Nat) (pc addr data : Word) : State :=
  s.faultAs g k precise cause (s.rclOf g cause) pc addr data

/-- A task is discarded by its fault once the record is in the log: not where its launch fails, whose class is the highest, and where
its discard already runs one serves both (R385). Restarts that R420 counts are counted once. -/
def State.discardFor (s : State) (g launch stage tidx : Nat) (counts : Bool) : State :=
  match (s.core g).task with
  | none => s
  | some t =>
    let failing := s.launchFailing launch || s.failQueued launch
    if (t.launch, t.stage, t.tidx) ≠ (launch, stage, tidx) ∨ failing ∨ t.region = .discarding then s
    else ((s.gangCores g).foldl (fun s x => s.onCore x (fun c => c.onTask (fun t => { t with restarts := if counts then t.restarts + 1 else t.restarts }))) s).beginDiscardAll g

/-- A precise fault of the issuing strand: the record names the instruction's address (R386). -/
def State.raise (s : State) (k : StrandKind) (cause : Nat) (addr data : Word) : State :=
  s.taskFault s.cur k true cause ((s.me.strand k).pc) addr data

/-- Return from the breakpoint halt: the core issues again where it stopped (R197, R379). -/
def State.resume (s : State) (g : Nat) : State := s.onCore g (fun c => { c with halted := false })

/-- A cause of RCL 8 stops every queue, and leaves only the mailbox answering, until reset (R384). -/
def State.moduleStop (s : State) : State :=
  { s with queues := s.queues.map (fun e => (e.1, { e.2 with stopped := true })), mgmt := { s.mgmt with down := true } }

/-! ### The program counter (R186) -/

/-- NextPc of R186 from the address after the word: the next PC and the loop stack, innermost level first. -/
def nextPc (npc : Word) : List LoopLevel → Word × List LoopLevel
  | [] => (npc, [])
  | l :: ls =>
    if npc = l.stop then
      if 1 < l.count.toNat then (l.start, { l with count := l.count - 1 } :: ls) else nextPc npc ls
    else (npc, l :: ls)

/-- The word completes in line (R186). -/
def Strand.advance (k : StrandKind) (x : Strand) : Strand :=
  let r := nextPc (x.pc + BitVec.ofNat 64 (wordBytes k)) x.loops
  { x with status := .running, pc := r.1, loops := r.2, hold := .fresh }

/-! ### Accesses of C and A (R129 to R134) -/

/-- A strand of a core may issue now: its task runs, the core is not halted, the strand is Running or Blocked. -/
def Core.issues (c : Core) (k : StrandKind) : Bool :=
  (match c.task with | some t => !t.stopped | none => false) && !c.halted && !c.heldStrands.contains k
    && (decide ((c.strand k).status = .running) || decide ((c.strand k).status = .blocked))

/-- The access is performed at a scope: 0 CORE, 1 DIE, 2 DEV, 3 POD (R129). Only a join goes through several (R331). -/
def Access.performedAt (x : Access) (scope : Nat) : Bool :=
  match x.phase with
  | .issued => false
  | .answered _ => true
  | .failed => true
  | .applied => decide (scope ≤ 1)
  | .merged l => decide (scope ≤ 1) || l.isEmpty
  | .podWait _ _ l => decide (scope ≤ 1) || (decide (scope = 2) && l.isEmpty)
  | .podDone _ _ l => decide (scope ≤ 1) || (decide (scope = 2) && l.isEmpty)
  | .landing _ _ => true

/-- It accesses a location (R125); publications, arrivals and event signals only wait on others, and CSR instructions and readings of
a ring or a stream's status order nothing. -/
def Access.located (x : Access) : Bool :=
  match x.kind with
  | .publish _ _ => false
  | .arrive _ => false
  | .event _ _ => false
  | .csr _ _ _ => false
  | .ringInfo _ => false
  | .streamStatus _ => false
  | _ => true

/-- Every earlier access of the strand is performed at a scope (R134). -/
def Core.allDone (c : Core) (k : StrandKind) (scope : Nat) : Bool :=
  (c.out k).all (fun x => !x.located || x.performedAt scope)

/-- Write a value to a destination of C or A. Lanes take equal shares of `n` bytes. -/
def Core.deliverTo (c : Core) (d : Dest) (n x : Nat) : Core :=
  match d with
  | .none => c
  | .s r => c.setS r (BitVec.ofNat 64 x)
  | .sPair r => (c.setS r (BitVec.ofNat 64 x)).setS (r + 1) (BitVec.ofNat 64 (x / 2 ^ 64))
  | .a r => c.setA r (BitVec.ofNat 64 x)
  | .lanes v which =>
    let w := n / which.length
    let old := c.getV v
    c.setV v (BitVec.ofNat 1024 ((which.foldl (fun (p : Nat × Nat) i =>
      (p.1 - p.1 / 2 ^ (32 * i) % 2 ^ 32 * 2 ^ (32 * i) + p.2 % 2 ^ (8 * w) * 2 ^ (32 * i), p.2 / 2 ^ (8 * w))) (old.toNat, x)).1))
  | .slot d => c.setSlot d { c.slot d with busy := false }

/-! ### The buffer pool of a core (R319)

Queue numbers follow the table of R319: streams 0 to 15, TQ 16, c0 to c7 17 to 24, SQ 25, BQ 26, MQ 27, OQ 28, trigger table 29,
time buffer 30. -/

/-- MIN at reset (R319). -/
def poolMin (q : Nat) : Nat :=
  if q < 16 then 8 else if q = 16 then 32 else if q < 25 then 8 else if q = 25 then 16 else if q = 26 then 8
  else if q = 27 then 16 else if q = 28 then 8 else if q = 29 then 16 else 64
/-- CAP at reset (R319). -/
def poolCap (q : Nat) : Nat :=
  if q = 27 then 16 else if q = 28 then 8 else if q = 29 then 16 else if q = 30 then 64 else 512
/-- Structural limit (R319). -/
def poolLimit (q : Nat) : Nat :=
  if q = 27 then 16 else if q = 28 then 8 else if q = 29 then 16 else if q = 30 then 64 else 512

/-- The share of a queue: QPOOLx as written, or as reset leaves it. -/
def Core.share (c : Core) (q : Nat) : Pool :=
  match c.pool.find? (fun e => e.1 = q) with
  | some e => e.2
  | none => ⟨poolMin q, poolCap q⟩

/-- Entries a queue holds now, USED (R319). -/
def Core.used (c : Core) (q : Nat) : Nat :=
  if q < 16 then (c.stream q).elems.length
  else if q = 16 then c.tq.length
  else if q < 25 then (c.channel (q - 17)).queue.length
  else if q = 25 then c.sq.length
  else if q = 26 then c.bq.length
  else if q = 27 then c.mq.length
  else if q = 28 then c.oq.length
  else if q = 29 then c.triggers.length
  else c.timed.length

/-- Sum over every queue. -/
def sumQueues (g : Nat → Nat) : Nat := (span 0 31).foldl (fun n q => n + g q) 0

/-- Shared entries still free: 512 less every MIN, less what queues hold above their MIN. -/
def Core.sharedFree (c : Core) : Nat :=
  512 - sumQueues (fun q => (c.share q).min) - sumQueues (fun q => c.used q - (c.share q).min)

/-- A queue holds shared entries that it took in the ccy under way. -/
def Core.tookShared (c : Core) (q : Nat) : Bool := decide (max (c.share q).min (c.usedAt.getD q 0) < c.used q)

/-- A queue can take one more entry (R319). In one ccy the shared entries go in the order of the table: once a later queue has taken one,
the request of an earlier one is of the next ccy. -/
def Core.room (c : Core) (q : Nat) : Bool :=
  let u := c.used q
  decide (u < poolLimit q) && (decide (u < (c.share q).min) ||
    (decide (u < (c.share q).cap) && decide (0 < c.sharedFree) && !(span (q + 1) (30 - q)).any c.tookShared))

/-! ### Flags of a core (R232, R264) -/

/-- Add to a counting flag; a flag field of 63 names none (R152). -/
def Core.addFlag (c : Core) (f : Nat) (x : BitVec 48) : Core := if f = 63 then c else c.setF f (c.getF f + x)

/-- Sends that have fired move to the send queue in the order they were armed, while it has room (R264, R319). -/
def Core.moveFired (c : Core) : Core :=
  (c.triggers.filter (fun t => t.fired)).foldl (fun c t =>
    let d : Core := { c with triggers := c.triggers.erase t }
    if d.room 25 then { d with sq := d.sq ++ [.work t] } else c) c

/-- Armed sends whose trigger flag has reached its threshold fire (R264). -/
def Core.fireTriggers (c : Core) : Core :=
  ({ c with triggers := c.triggers.map (fun t => if t.theta.toNat ≤ (c.getF t.trigger).toNat then { t with fired := true } else t) } : Core).moveFired

/-- The send queue's head is performed or goes: fired sends may take its place. -/
def Core.popSend (c : Core) : Core := ({ c with sq := c.sq.tail } : Core).moveFired

/-- A started send is performed or fails: it leaves the send queue (R142, R265). -/
def Core.endSend (c : Core) (id : Nat) : Core :=
  ({ c with flying := c.flying.filter (fun f => decide (f.send.id ≠ id)),
            sq := c.sq.filter (fun e => match e with | .work x => !(x.begun && decide (x.id = id)) | .fence _ => true) } : Core).moveFired

/-- The strand's own change or reading of a flag is still to be made (R130). -/
def Core.flagPending (c : Core) (k : StrandKind) (f : Nat) : Bool :=
  (c.out k).any (fun x => match x.kind with
    | .flag g _ _ => g = f && x.phase = .issued
    | .flagRead g => g = f && x.phase = .issued
    | _ => false)

/-- An acquire of the strand is still to be performed (R134). -/
def Core.acquiring (c : Core) (k : StrandKind) : Bool := (c.out k).any (fun x => x.acquire && !x.performedAt 0)

/-- Strands in the order of R233. -/
def strandOrder : List StrandKind := [.c, .a, .m, .o]

/-- A waiting instruction whose flag has reached its value completes, with its subtraction (R232, R233). It waits on while an earlier
access of its strand comes first (R130, R134). -/
def Core.testWaiter (c : Core) (k : StrandKind) : Core :=
  match (c.strand k).hold with
  | .flag f theta sub dest =>
    let v := c.getF f
    if c.issues k && decide (theta ≤ v.toNat) && !c.flagPending k f && !c.acquiring k then
      ((if sub then c.setF f (v - BitVec.ofNat 48 theta) else c).deliverTo dest 8 v.toNat).onStrand k (Strand.advance k)
    else c
  | _ => c

/-- Every waiting instruction is tested, in the order of R233; a new ccy begins. -/
def Core.testWaiters (c : Core) : Core := { strandOrder.foldl Core.testWaiter c with flagRank := 0 }

/-- A flag change of a kind of R233's order comes next: one that the order puts before what the ccy already holds falls in a later
ccy, and the waiting instructions are tested before it. -/
def Core.flagTurn (c : Core) (rank : Nat) : Core :=
  { (if decide (rank < c.flagRank) || (decide (rank = c.flagRank) && decide (1 < rank)) then c.testWaiters else c) with flagRank := rank }

/-- A ccy ends: instructions waiting on flags that changed in it have been tested (R233), and the requests for pool entries that it
collected are served (R319). -/
def Core.endCcy (c : Core) : Core :=
  let c := if c.flagRank = 0 then c else c.testWaiters
  { c with usedAt := (span 0 31).map c.used }

/-- A strand changes a flag in its turn, with the sends that the change triggers (R232, R233, R264). -/
def Core.changeFlag (c : Core) (f : Nat) (set : Bool) (v : BitVec 48) : Core :=
  (c.setF f (if set then v else c.getF f + v)).fireTriggers

/-- FLADD of a strand in its place in R233's order; flag 63 is none. -/
def Core.strandAdd (c : Core) (k : StrandKind) (f : Nat) (x : BitVec 48) : Core :=
  if f = 63 then c else (c.flagTurn (2 + strandNum k)).changeFlag f false x

/-- A hardware addition to a flag, with the sends it triggers (R144, R233, R264). -/
def Core.hwAdd (c : Core) (f : Nat) (x : BitVec 48) : Core := if f = 63 then c else ((c.flagTurn 1).addFlag f x).fireTriggers

/-- A hardware addition to a flag of a core. -/
def State.hwAdd (s : State) (g f : Nat) (x : BitVec 48) : State := s.onCore g (fun c => c.hwAdd f x)

/-! ### Requests to other chips (R359, R440) -/

/-- TIME of the die of a core. -/
def State.timeOf (s : State) (g : Nat) : Nat := (s.die (dieOf g)).time.toNat

/-- The port of a number. -/
def Fabric.port (f : Fabric) (p : Nat) : Port := look {} f.ports p
/-- Replace a port. -/
def Fabric.setPort (f : Fabric) (p : Nat) (x : Port) : Fabric := { f with ports := put {} f.ports p x }
/-- Change a port. -/
def State.onPort (s : State) (p : Nat) (f : Port → Port) : State := s.onFabric (fun x => x.setPort p (f (x.port p)))

/-- Put a packet into this chip's routers, tagged with the selected bank (R362). -/
def State.inject (s : State) (p : Packet) : State :=
  s.onFabric (fun f => { f with packets := f.packets ++ [{ p with src := s.chip, bank := f.cur }] })

/-- The next SEQ to a destination (R358). -/
def Fabric.seqTo (f : Fabric) (chip : Nat) : Nat := look 0 f.nextSeq chip
/-- A SEQ to a destination is used. -/
def Fabric.useSeq (f : Fabric) (chip : Nat) : Fabric := { f with nextSeq := put 0 f.nextSeq chip ((f.seqTo chip + 1) % 2 ^ 32) }

/-- Requests outstanding to a destination (R440). -/
def Fabric.outstanding (f : Fabric) (chip : Nat) : Nat := (f.requests.filter (fun r => decide (r.chip = chip))).length

/-- The scheduler's period of this kcy is still to come (R311). -/
def State.periodDue (s : State) : Bool :=
  decide (s.mgmt.kcy ≠ 0) && decide (s.mgmt.kcy.toNat % 4096 = 0) && decide (s.mgmt.period ≠ some s.mgmt.kcy)

/-! ### Page frames (R73, R198) -/

/-- Frames of a die's HBM stack that the pager can give: the free ones, less those held for core reserves and for Mason's budget
(R73, R198, R344). -/
def State.spareFrames (s : State) (d : Nat) : Nat :=
  look 0 s.frames d - s.cores.foldl (fun n c => if dieOf c.1 = d ∧ c.2.present then n + c.2.reserve else n) 0
    - ((look 0 s.mason.mbud d).toNat - (look 0 s.mason.muse d).toNat)

/-! ### The pod's time (R328, R366, R438) -/

/-- Keystone's TIME in ns, the TIME that other chips know this one by (R328; log entry 60). -/
def State.keystoneTime (s : State) : Nat := (s.die 8).time.toNat

/-- Offset and rate of a chip's TIME against this one's, in the form of R21 (R366). -/
def Fabric.pair (f : Fabric) (chip : Nat) : Int × Nat :=
  let e := look (0, BitVec.ofNat 64 (2 ^ 40)) f.conv chip
  (e.1.toInt, e.2.toNat)

/-- A chip's TIME at this moment, by the port processors' table: the inverse of R22's conversion (R328, R438). -/
def State.timeAt (s : State) (chip : Nat) : Nat :=
  let (ofs, rate) := s.fabric.pair chip
  (((s.keystoneTime : Int) - ofs) * 2 ^ 40 / (rate : Int)).toNat

/-- Age in local ns of a packet whose issue time is the low 32 bits of its chip's TIME; one from the future has none (R438). -/
def State.ageOf (s : State) (chip issued : Nat) : Nat :=
  let d := (s.timeAt chip % 2 ^ 32 + 2 ^ 32 - issued % 2 ^ 32) % 2 ^ 32
  if d < 2 ^ 31 then d * (s.fabric.pair chip).2 / 2 ^ 40 else 0

/-- The issue time that a request packet carries: the low 32 bits of this chip's TIME (R438). -/
def State.stamp (s : State) : Nat := s.keystoneTime % 2 ^ 32

/-- A copy of a request is older than FLIFE (R438). -/
def State.expired (s : State) (p : Packet) : Bool := decide (1000 * s.fabric.flife.toNat < s.ageOf p.src p.issued)

/-- A core halts for debug: what the chip's ingress now holds of other chips' requests is held from now (R197, R369). -/
def State.haltCore (s : State) (g : Nat) : State :=
  let now := s.keystoneTime
  (s.onCore g (fun c => { c with halted := true })).onFabric (fun f => { f with
    ingress := f.ingress.map (fun e => if e.2.what.isSome && !e.2.held && !s.expired e.2 then (now, { e.2 with held := true }) else e) })

/-- Issue a request of a core; none while 1,024 are outstanding to the chip (R440). -/
def State.request (s : State) (g : Nat) (k : StrandKind) (access chip addr : Nat) (what : RequestKind) (isSend : Bool)
    (launch : Nat) (pc : Word) : Option State :=
  let f := s.fabric
  if 1024 ≤ f.outstanding chip then none
  else
    let seq := f.seqTo chip
    let now := s.timeOf g
    let r : Request := { id := f.nextReq, chip := chip, seq := seq, issued := now, core := g, strand := k, access := access,
                         isSend := isSend, launch := launch, pc := pc, addr := addr, what := what }
    let s := s.onFabric (fun f => { f.useSeq chip with requests := f.requests ++ [r], nextReq := f.nextReq + 1 })
    some (s.inject { kind := .request, src := 0, dst := chip, seq := seq, issued := s.stamp, addr := addr, what := some what })

/-- Bytes that one request or response of an engine moves, so that its packet stays within 256 flits (R358). -/
def requestBytes : Nat := 32768

/-- An outstanding request of a strand of a core by its access number. -/
def State.requestOf (s : State) (g : Nat) (k : StrandKind) (id : Nat) : Option Request :=
  s.fabric.requests.find? (fun r => !r.isSend && decide (r.core = g) && decide (r.strand = k) && decide (r.access = id))

/-! ### Lost compression metadata (R417) -/

/-- A metadata entry of the line group of some byte is uncorrectable: the first line's physical address (R417). -/
def State.badMetadata (s : State) (bytes : List Nat) : Option Nat :=
  bytes.findSome? (fun a => if s.upsets.any (fun u => u = .metadata (memKey a / 4096 * 4096)) then some (s.chip * 2 ^ 52 + memKey a / 4096 * 4096) else none)

/-- Keystone writes the sixteen lines as poisoned, with a fresh entry (R417). -/
def State.spoilLines (s : State) (a : Nat) : State :=
  { s.markAll ((span 0 128).map (fun i => a + 32 * i)) with upsets := s.upsets.erase (.metadata (memKey a)) }

/-- Lost metadata of the line groups that some bytes lie in poisons their lines (R417). -/
def State.spoilAt (s : State) (bytes : List Nat) : State :=
  s.upsets.foldl (fun s u => match u with
    | .metadata m => if bytes.any (fun a => decide (memKey a / 4096 * 4096 = m)) then s.spoilLines (s.chip * 2 ^ 52 + m) else s
    | _ => s) s

end Sys2Proof.Machine
end

