-- ==== Sys2Proof/Machine/Flags.lean ====
section
/-! DEFINITION. The floating-point status register FPST and the accrual of flags (R84 to R87). -/

namespace Sys2Proof.Machine

/-- The five exception flags of R85, in FPST's places: NV bit 4, DZ 3, OF 2, UF 1, NX 0. -/
abbrev Flags := BitVec 5

def fNV : Flags := 16
def fDZ : Flags := 8
def fOF : Flags := 4
def fUF : Flags := 2
def fNX : Flags := 1
/-- One flag when a condition holds. -/
def flagIf (b : Bool) (f : Flags) : Flags := if b then f else 0

/-- FPST as a word (R85). -/
def Fpst.word (f : Fpst) : Word :=
  BitVec.ofNat 64 ((if f.fz then 256 else 0) + f.rm.toNat * 32 + (if f.nv then 16 else 0) + (if f.dz then 8 else 0)
    + (if f.ovf then 4 else 0) + (if f.unf then 2 else 0) + (if f.nx then 1 else 0))

/-- Write every RW field of FPST; a reserved rounding code leaves RM unchanged (R85). -/
def Fpst.write (f : Fpst) (w : Word) : Fpst :=
  { fz := w.getLsbD 8, rm := if (w.extractLsb' 5 3).toNat ≤ 4 then w.extractLsb' 5 3 else f.rm,
    nv := w.getLsbD 4, dz := w.getLsbD 3, ovf := w.getLsbD 2, unf := w.getLsbD 1, nx := w.getLsbD 0 }

/-- OR flags into FPST (R86). -/
def Fpst.accrue (f : Fpst) (x : Flags) : Fpst :=
  { f with
    nv := f.nv || x.getLsbD 4, dz := f.dz || x.getLsbD 3, ovf := f.ovf || x.getLsbD 2,
    unf := f.unf || x.getLsbD 1, nx := f.nx || x.getLsbD 0 }

/-- Accrue flags into a core's FPST (R77, R86). -/
def Core.accrue (c : Core) (x : Flags) : Core := { c with fpst := c.fpst.accrue x }

/-- The rounding code an instruction uses: 0b111 takes FPST.RM (R84). -/
def rmCode (rm : BitVec 3) (f : Fpst) : Nat := if rm = 7 then f.rm.toNat else rm.toNat

end Sys2Proof.Machine
end

