-- ==== Sys2Proof/Machine/Numbers.lean ====
section
/-! DEFINITION. The number formats and their exact arithmetic (chapter 04, R76 to R96): values as exact dyadic numbers,
rounding once at the end, conversions, the matrix sums and the special functions' bound. -/

namespace Sys2Proof.Machine

/-- A number read from a format: a NaN (signalling or not), an infinity, or (-1)^neg * m * 2^e. -/
inductive Num where
  | nan (signalling : Bool)
  | inf (neg : Bool)
  | fin (neg : Bool) (m : Nat) (e : Int)
  deriving DecidableEq, Repr

/-- A binary floating-point format (R78). -/
structure Fmt where
  E : Nat
  M : Nat
  bias : Nat
  hasInf : Bool := true
  deriving DecidableEq, Repr

def fp32 : Fmt := ⟨8, 23, 127, true⟩
def bf16 : Fmt := ⟨8, 7, 127, true⟩
def fp16 : Fmt := ⟨5, 10, 15, true⟩
def e4m3 : Fmt := ⟨4, 3, 7, false⟩
def e5m2 : Fmt := ⟨5, 2, 15, true⟩

/-- The floating-point format of a type code 0 to 4 (R76). -/
def fmtOf (t : Nat) : Fmt :=
  match t with
  | 0 => fp32
  | 1 => bf16
  | 2 => fp16
  | 3 => e4m3
  | _ => e5m2

/-- Width in bits of a type code's element in memory (R58, R76). -/
def elemBits (t : Nat) : Nat :=
  match t with
  | 0 => 32
  | 5 => 32
  | 1 => 16
  | 2 => 16
  | 6 => 16
  | 9 => 4
  | 12 => 1
  | _ => 8

/-! ### Reading -/

/-- FloatValue of R78; with `fz` a subnormal reads as zero of its sign (R87). -/
def readFloat (F : Fmt) (fz : Bool) (x : Nat) : Num :=
  let s := decide (x / 2 ^ (F.E + F.M) % 2 = 1)
  let e := x / 2 ^ F.M % 2 ^ F.E
  let f := x % 2 ^ F.M
  if e = 0 then .fin s (if fz then 0 else f) (1 - (F.bias : Int) - F.M)
  else if e = 2 ^ F.E - 1 && F.hasInf then
    if f = 0 then .inf s else .nan (decide (f < 2 ^ (F.M - 1)))
  else if e = 2 ^ F.E - 1 && decide (f = 2 ^ F.M - 1) then .nan false
  else .fin s (2 ^ F.M + f) ((e : Int) - F.bias - F.M)

/-- Two's complement value of the low `w` bits. -/
def sInt (w x : Nat) : Int :=
  let y := x % 2 ^ w
  if 2 ^ (w - 1) ≤ y then (y : Int) - 2 ^ w else y

/-- The low `w` bits of an integer. -/
def wrap (w : Nat) (i : Int) : Nat := (i % 2 ^ w).toNat

/-- An integer as a number. -/
def ofInt (i : Int) : Num := .fin (decide (i < 0)) i.natAbs 0

/-- T[f] * 2^22 of R82. -/
def lnsTable (f : Nat) : Nat :=
  match f with
  | 0 => 4194304
  | 1 => 4987896
  | 2 => 5931642
  | _ => 7053950

/-- LnsValue of R82. -/
def lnsValue (x : Nat) : Num :=
  let m := x % 32
  let s := decide (x / 32 % 2 = 1)
  if m = 0 then .fin s 0 0 else .fin s (lnsTable (m % 4)) ((m / 4 : Nat) - 4 - 22)

/-- LnsProduct of R82. -/
def lnsProduct (a b : Nat) : Num :=
  let s := decide (a / 32 % 2 ≠ b / 32 % 2)
  if a % 32 = 0 ∨ b % 32 = 0 then .fin s 0 0
  else
    let k := a % 32 + b % 32
    .fin s (lnsTable (k % 4)) ((k / 4 : Nat) - 8 - 22)

/-- The value of an OSC6 pattern; 0b100000 reads as -31 (R83). -/
def oscValue (x : Nat) : Int := if x % 64 = 32 then -31 else sInt 6 x

/-- The integer types with their value (R80, R83). -/
def readInt (t x : Nat) : Int :=
  match t with
  | 5 => sInt 32 x
  | 6 => sInt 16 x
  | 7 => sInt 8 x
  | 9 => sInt 4 x
  | 11 => oscValue x
  | 12 => (x % 2 : Nat)
  | _ => (x % 256 : Nat)

/-- The type is read as an integer: INT32 to INT4, OSC6, BIN1 and raw bytes, which read as UINT8 (R66). -/
def isIntType (t : Nat) : Bool := (5 ≤ t && t ≤ 9) || t = 11 || t = 12 || t = 14

/-- The number that an element of a type stands for (R76 to R83). -/
def readNum (t : Nat) (fz : Bool) (x : Nat) : Num :=
  if t ≤ 4 then readFloat (fmtOf t) fz (x % 2 ^ elemBits t)
  else if t = 10 then lnsValue x
  else if t = 13 then (if x % 256 = 255 then .nan false else .fin false 1 ((x % 256 : Nat) - 127))
  else ofInt (readInt t x)

/-! ### Rounding -/

/-- m / 2^k rounded to an integer by code `rm` (R84) for a magnitude of sign `neg`; whether it was inexact. -/
def roundShift (rm : Nat) (neg : Bool) (m k : Nat) : Nat × Bool :=
  let q := m / 2 ^ k
  let r := m % 2 ^ k
  let half := 2 ^ k / 2
  let up := match rm with
    | 0 => decide (half < r) || (decide (r = half) && decide (q % 2 = 1))
    | 1 => false
    | 2 => neg
    | 3 => !neg
    | _ => decide (half ≤ r)
  if r = 0 then (q, false) else (if up then q + 1 else q, true)

/-- m * 2^e rounded to a multiple of 2^q: the multiple, and whether it was inexact. -/
def roundAt (rm : Nat) (neg : Bool) (m : Nat) (e q : Int) : Nat × Bool :=
  if q ≤ e then (m * 2 ^ (e - q).toNat, false) else roundShift rm neg m (q - e).toNat

/-- Floor(Log2(m * 2^e)) of a non-zero magnitude. -/
def floorLog2 (m : Nat) (e : Int) : Int := (Nat.log2 m : Int) + e

/-- Compare magnitudes: m * 2^e < n * 2^f. -/
def magLt (m : Nat) (e : Int) (n : Nat) (f : Int) : Bool :=
  if e ≤ f then decide (m < n * 2 ^ (f - e).toNat) else decide (m * 2 ^ (e - f).toNat < n)

/-- Bits of the largest finite value, without sign. -/
def Fmt.maxBits (F : Fmt) : Nat := if F.hasInf then (2 ^ F.E - 1) * 2 ^ F.M - 1 else 2 ^ (F.E + F.M) - 2
/-- Bits of infinity, without sign. -/
def Fmt.infBits (F : Fmt) : Nat := (2 ^ F.E - 1) * 2 ^ F.M
/-- The canonical NaN (R78). -/
def Fmt.nanBits (F : Fmt) : Nat := if F.hasInf then (2 ^ F.E - 1) * 2 ^ F.M + 2 ^ (F.M - 1) else 2 ^ (F.E + F.M) - 1
/-- A sign in front of bits. -/
def Fmt.signed (F : Fmt) (neg : Bool) (x : Nat) : Nat := if neg then 2 ^ (F.E + F.M) + x else x

/-- The overflow rule of R84. -/
def overflow (F : Fmt) (rm : Nat) (sat neg : Bool) : Nat × Flags :=
  if sat then (F.signed neg F.maxBits, fOF ||| fNX)
  else if !F.hasInf then (F.nanBits, fOF ||| fNX ||| fNV)
  else
    let toMax := rm = 1 || (rm = 2 && !neg) || (rm = 3 && neg)
    (F.signed neg (if toMax then F.maxBits else F.infBits), fOF ||| fNX)

/-- RoundFP of R84 for a magnitude m * 2^e, with the tininess of R87. -/
def roundFin (F : Fmt) (rm : Nat) (sat neg : Bool) (m : Nat) (e : Int) : Nat × Flags :=
  if m = 0 then (F.signed neg 0, 0)
  else
    let l := floorLog2 m e
    let emin : Int := 1 - F.bias
    let q := (if l < emin then emin else l) - F.M
    let (n, inx) := roundAt rm neg m e q
    let (n', _) := roundAt rm neg m e (l - F.M)
    let tiny := magLt n' (l - F.M) 1 emin
    -- The bits of n * 2^q: at or above 2^M they carry into the exponent field by themselves.
    let bits := if n < 2 ^ F.M then n
      else if n = 2 ^ (F.M + 1) then ((q + 1) + F.M + F.bias).toNat * 2 ^ F.M
      else (q + F.M + F.bias).toNat * 2 ^ F.M + (n - 2 ^ F.M)
    if F.maxBits < bits then overflow F rm sat neg
    else (F.signed neg bits, flagIf inx fNX ||| flagIf (tiny && inx) fUF)

/-- The sign of an exact zero (R84). -/
def zeroNeg (rm : Nat) (terms : List (Bool × Nat)) : Bool :=
  if terms.all (fun t => t.2 = 0) && terms.all (fun t => t.1) then true
  else if terms.all (fun t => t.2 = 0) && terms.all (fun t => !t.1) then false
  else rm = 2

/-- Deliver a number in a format: RoundFP, NaN canonical, infinity kept. -/
def deliver (F : Fmt) (rm : Nat) (sat : Bool) : Num → Nat × Flags
  | .nan _ => (F.nanBits, 0)
  | .inf n => if F.hasInf then (F.signed n F.infBits, 0) else if sat then (F.signed n F.maxBits, fOF ||| fNX) else (F.nanBits, fNV)
  | .fin n m e => roundFin F rm sat n m e

/-- With FPST.FZ a subnormal result is written as zero of its sign with UF and NX (R87). -/
def flush (F : Fmt) (fz : Bool) (r : Nat × Flags) : Nat × Flags :=
  let mag := r.1 % 2 ^ (F.E + F.M)
  if fz && decide (0 < mag) && decide (mag < 2 ^ F.M) then (r.1 - mag, r.2 ||| fUF ||| fNX) else r

/-! ### Arithmetic -/

def Num.isSnan : Num → Bool
  | .nan s => s
  | _ => false
def Num.isNan : Num → Bool
  | .nan _ => true
  | _ => false
def Num.isZero : Num → Bool
  | .fin _ m _ => m = 0
  | _ => false

/-- The signed integer of a finite number at the scale 2^q, q at or below its exponent. -/
def Num.at (q : Int) : Num → Int
  | .fin n m e => if n then -((m * 2 ^ (e - q).toNat : Nat) : Int) else ((m * 2 ^ (e - q).toNat : Nat) : Int)
  | _ => 0

/-- Exact sum of two finite numbers with the zero sign of R84. -/
def addFin (rm : Nat) (an : Bool) (am : Nat) (ae : Int) (bn : Bool) (bm : Nat) (be : Int) : Num :=
  let q := if ae ≤ be then ae else be
  let v := Num.at q (.fin an am ae) + Num.at q (.fin bn bm be)
  if v = 0 then .fin (zeroNeg rm [(an, am), (bn, bm)]) 0 0 else .fin (decide (v < 0)) v.natAbs q

/-- IEEE 754 sum before rounding (R84). -/
def addNum (rm : Nat) (a b : Num) : Num × Flags :=
  let nv := flagIf (a.isSnan || b.isSnan) fNV
  match a, b with
  | .nan _, _ => (.nan false, nv)
  | _, .nan _ => (.nan false, nv)
  | .inf x, .inf y => if x = y then (.inf x, 0) else (.nan false, fNV)
  | .inf x, .fin _ _ _ => (.inf x, 0)
  | .fin _ _ _, .inf y => (.inf y, 0)
  | .fin an am ae, .fin bn bm be => (addFin rm an am ae bn bm be, 0)

/-- Negation. -/
def Num.neg : Num → Num
  | .nan s => .nan s
  | .inf n => .inf (!n)
  | .fin n m e => .fin (!n) m e

/-- IEEE 754 product before rounding. -/
def mulNum (a b : Num) : Num × Flags :=
  let nv := flagIf (a.isSnan || b.isSnan) fNV
  match a, b with
  | .nan _, _ => (.nan false, nv)
  | _, .nan _ => (.nan false, nv)
  | .inf x, .inf y => (.inf (x != y), 0)
  | .inf x, .fin y m _ => if m = 0 then (.nan false, fNV) else (.inf (x != y), 0)
  | .fin x m _, .inf y => if m = 0 then (.nan false, fNV) else (.inf (x != y), 0)
  | .fin x m e, .fin y n f => (.fin (x != y) (m * n) (e + f), 0)

/-- Fused multiply-add before rounding: infinity times zero raises NV whatever the addend is (R180). -/
def fmaNum (rm : Nat) (a b c : Num) : Num × Flags :=
  let (p, f) := mulNum a b
  let (r, g) := addNum rm p c
  (r, f ||| g)

/-- Round a result with its flags in a format, honouring FZ (R84, R87). -/
def finish (F : Fmt) (rm : Nat) (fz : Bool) (r : Num × Flags) : Nat × Flags :=
  let d := flush F fz (deliver F rm false r.1)
  (d.1, d.2 ||| r.2)

def fAdd (F : Fmt) (rm : Nat) (fz : Bool) (a b : Nat) : Nat × Flags :=
  finish F rm fz (addNum rm (readFloat F fz a) (readFloat F fz b))
def fSub (F : Fmt) (rm : Nat) (fz : Bool) (a b : Nat) : Nat × Flags :=
  finish F rm fz (addNum rm (readFloat F fz a) (readFloat F fz b).neg)
def fMul (F : Fmt) (rm : Nat) (fz : Bool) (a b : Nat) : Nat × Flags :=
  finish F rm fz (mulNum (readFloat F fz a) (readFloat F fz b))
def fMa (F : Fmt) (rm : Nat) (fz : Bool) (a b c : Nat) : Nat × Flags :=
  finish F rm fz (fmaNum rm (readFloat F fz a) (readFloat F fz b) (readFloat F fz c))

/-- a < b of two numbers that are not NaN; zeros compare equal. -/
def Num.lt : Num → Num → Bool
  | .inf x, .inf y => x && !y
  | .inf x, .fin _ _ _ => x
  | .fin _ _ _, .inf y => !y
  | .fin an am ae, .fin bn bm be =>
    let q := if ae ≤ be then ae else be
    decide (Num.at q (.fin an am ae) < Num.at q (.fin bn bm be))
  | _, _ => false

/-- The sign of a number that is not NaN. -/
def Num.isNeg : Num → Bool
  | .inf n => n
  | .fin n _ _ => n
  | .nan _ => false

/-- a before b in the order of R181, where -0 counts as less than +0. -/
def Num.before (a b : Num) : Bool := a.lt b || (!(b.lt a) && a.isNeg && !b.isNeg)

/-- FMINS and FMAXS of R181 on bits. DEDUCED (log entry 101), unsafe: with FZ a subnormal operand that is the result is returned as
the zero that R87 reads it as, with no flag, since R181 raises none. -/
def fPick (F : Fmt) (greater fz : Bool) (a b : Nat) : Nat × Flags :=
  let x := readFloat F fz a
  let y := readFloat F fz b
  let a := if fz && x.isZero then F.signed x.isNeg 0 else a
  let b := if fz && y.isZero then F.signed y.isNeg 0 else b
  let nv := flagIf (x.isSnan || y.isSnan) fNV
  if x.isNan && y.isNan then (F.nanBits, nv)
  else if x.isNan then (b, nv)
  else if y.isNan then (a, nv)
  else if greater then (if x.before y then b else a, 0) else (if y.before x then b else a, 0)

/-- FCMPS and VFCMP of R181: the result and the flags. -/
def fCompare (fz : Bool) (code a b : Nat) : Bool × Flags :=
  let x := readFloat fp32 fz a
  let y := readFloat fp32 fz b
  let anyNan := x.isNan || y.isNan
  let snan := flagIf (x.isSnan || y.isSnan) fNV
  let eq := !anyNan && !(x.lt y) && !(y.lt x)
  match code with
  | 0 => (eq, snan)
  | 1 => (!eq, snan)
  | 2 => (!anyNan && x.lt y, flagIf anyNan fNV)
  | 3 => (!anyNan && !(y.lt x), flagIf anyNan fNV)
  | 4 => (!anyNan && y.lt x, flagIf anyNan fNV)
  | 5 => (!anyNan && !(x.lt y), flagIf anyNan fNV)
  | 6 => (anyNan, snan)
  | _ => (!anyNan, snan)

/-! ### Conversions (R88, R89) -/

/-- Range of an integer type or OSC6. -/
def intRange (t : Nat) : Int × Int :=
  match t with
  | 5 => (-2147483648, 2147483647)
  | 6 => (-32768, 32767)
  | 7 => (-128, 127)
  | 9 => (-8, 7)
  | 11 => (-31, 31)
  | _ => (0, 255)

/-- Saturate of R84. -/
def saturate (x lo hi : Int) : Int := if x < lo then lo else if hi < x then hi else x

/-- RoundInt of R84: the integer and whether it was inexact. -/
def roundInt (rm : Nat) (n : Bool) (m : Nat) (e : Int) : Int × Bool :=
  let (q, i) := roundAt rm n m e 0
  (if n then -(q : Int) else q, i)

/-- A number to an integer in [lo, hi] (R88): NaN gives 0 with NV, saturation raises NV, else NX if inexact. -/
def toIntRange (rm : Nat) (lo hi : Int) : Num → Int × Flags
  | .nan _ => (0, fNV)
  | .inf n => (if n then lo else hi, fNV)
  | .fin n m e =>
    let (i, inx) := roundInt rm n m e
    if i < lo ∨ hi < i then (saturate i lo hi, fNV) else (i, flagIf inx fNX)

/-- Counts the k from 1 to 31 with |v|^8 > 2^(2k - 33): RoundHalfEven(4 Log2 |v| + 16) saturated to 0 to 31 (R88). -/
def lnsMag (m : Nat) (e : Int) : Nat :=
  ((span 1 31).filter (fun (k : Nat) => magLt 1 (2 * (k : Int) - 33) (m ^ 8) (8 * e))).length

/-- Conversion to LNS6 (R88). DEDUCED (log entry 102), unsafe: it is exact, for NX, where the value equals `lnsValue` of the result,
the value that R82 gives the code. -/
def toLns : Num → Nat × Flags
  | .nan _ => (0, fNV)
  | .inf n => ((if n then 32 else 0) + 31, fOF)
  | .fin n m e =>
    let s := if n then 32 else 0
    if m = 0 then (s, 0)
    else
      let k := lnsMag m e
      if k = 0 then (s, fUF ||| fNX)
      else if magLt 1 31 (m ^ 8) (8 * e) then (s + k, fOF ||| fNX)
      else
        let exact := match lnsValue (s + k) with
          | .fin _ a b => !(magLt m e a b) && !(magLt a b m e)
          | _ => false
        (s + k, flagIf (!exact) fNX)

/-- The destination float holds every value of the source type (R88's wider or equal; log entry 8). -/
def holdsAll (src dst : Nat) : Bool :=
  if src ≤ 4 && dst ≤ 4 then
    decide ((fmtOf src).E ≤ (fmtOf dst).E) && decide ((fmtOf src).M ≤ (fmtOf dst).M) && (!(fmtOf src).hasInf || (fmtOf dst).hasInf)
  else false

/-- Bits that hold the value of an integer type; OSC6 has six (R76). -/
def intBits (t : Nat) : Nat := if t = 11 then 6 else elemBits t

/-- One integer type into another (R88): a wider one takes the value, any other saturates or keeps the low bits; OSC6 always saturates. -/
def intToInt (src dst : Nat) (sat : Bool) (i : Int) : Nat :=
  let (lo, hi) := intRange dst
  wrap (intBits dst) (if dst = 11 || (sat && decide (intBits dst ≤ intBits src)) then saturate i lo hi else i)

/-- One conversion of R88 on element bits: the destination bits and the flags. DEDUCED (log entry 102), unsafe: R88 has no row for
INT8 and UINT8 into each other (taken as the row for a narrower integer), for an OSC6 source, which R210 admits (taken as an integer
of six bits), nor for E8 into an integer or OSC6 (taken as the row for a float source, 0xFF as a NaN). -/
def convert (src dst rm : Nat) (sat fz : Bool) (x : Nat) : Nat × Flags :=
  let v := readNum src fz x
  let snan := flagIf (v.isSnan || (src = 13 && v.isNan)) fNV
  if dst ≤ 4 then
    let d := match v with
      | .inf n => if sat && !holdsAll src dst then ((fmtOf dst).signed n (fmtOf dst).maxBits, fOF ||| fNX)
                  else deliver (fmtOf dst) rm sat v
      | _ => deliver (fmtOf dst) rm sat v
    let d := flush (fmtOf dst) fz d
    (d.1, d.2 ||| snan)
  else if dst = 10 then toLns v
  else if dst = 12 then
    match v with
    | .nan _ => (0, fNV)
    | .inf n => (if n then 0 else 1, 0)
    | .fin n m _ => (if !n && decide (0 < m) then 1 else 0, 0)
  else if isIntType src then (intToInt src dst sat (readInt src x), 0)
  else
    let (lo, hi) := intRange dst
    let (i, f) := toIntRange rm lo hi v
    (wrap (intBits dst) i, f)

/-- Conversions of the A strand and the layout unit: nearest-even, saturating, no flags, NaN canonical or 0 (R89). `scale`
is the E8 byte multiplied in first, none where no scale applies. -/
def streamConvert (src dst : Nat) (scale : Option Nat) (x : Nat) : Nat :=
  match scale with
  | none => (convert src dst 0 true false x).1
  | some g =>
    let v := match readNum src false x with
      | .fin n m e => Num.fin n m (e + (g : Int) - 127)
      | r => r
    if dst ≤ 4 then (match v with
      | .inf n => if holdsAll src dst then (deliver (fmtOf dst) 0 true v).1 else (fmtOf dst).signed n (fmtOf dst).maxBits
      | _ => (deliver (fmtOf dst) 0 true v).1)
    else if dst = 10 then (toLns v).1
    else if dst = 12 then (match v with
      | .fin n m _ => if !n && decide (0 < m) then 1 else 0
      | .inf n => if n then 0 else 1
      | .nan _ => 0)
    else
      let (lo, hi) := intRange dst
      wrap (intBits dst) (toIntRange 0 lo hi v).1

/-! ### Matrix arithmetic (R90 to R92) -/

/-- A number times the E8 scale 2^(g - 127), exactly (R90). -/
def Num.scaled (g : Nat) : Num → Num
  | .fin n m e => .fin n m (e + (g : Int) - 127)
  | r => r

/-- The special results of R91: a NaN term, opposite infinities, one infinity, or none of these. -/
def specialSum (terms : List Num) : Option (BitVec 32) :=
  let pos := terms.any (fun t => t = Num.inf false)
  let neg := terms.any (fun t => t = Num.inf true)
  if terms.any Num.isNan then some 0x7FC00000
  else if pos && neg then some 0x7FC00000
  else if pos then some 0x7F800000
  else if neg then some 0xFF800000
  else none

/-- Every term is a zero (R91). -/
def zeroSum (terms : List Num) : Option (BitVec 32) :=
  if terms.all Num.isZero then some (if terms.all Num.isNeg then 0x80000000 else 0) else none

/-- Floor(Log2(|x|)) of the largest non-zero term. -/
def maxLog2 : List Num → Option Int
  | [] => none
  | .fin _ m e :: ts =>
    let r := maxLog2 ts
    if m = 0 then r
    else
      let l := floorLog2 m e
      match r with
      | some x => some (if x < l then l else x)
      | none => some l
  | _ :: ts => maxLog2 ts

/-- Sign(x) * Floor(|x| / 2^q) (R91). -/
def truncAt (q : Int) : Num → Int
  | .fin n m e =>
    let k : Nat := if q ≤ e then m * 2 ^ (e - q).toNat else m / 2 ^ (q - e).toNat
    if n then -(k : Int) else k
  | _ => 0

/-- The sum of R91 over its terms, the accumulator input among them. -/
def mmaSum (terms : List Num) : BitVec 32 :=
  match specialSum terms with
  | some r => r
  | none =>
    match zeroSum terms with
    | some r => r
    | none =>
      match maxLog2 terms with
      | none => 0
      | some em =>
        let q := em - 63
        let v := (terms.map (truncAt q)).foldl (· + ·) 0
        if v = 0 then 0 else BitVec.ofNat 32 (roundFin fp32 0 false (decide (v < 0)) v.natAbs q).1

/-- The smallest exponent of a list of finite numbers. -/
def minExp : List Num → Int
  | [] => 0
  | [.fin _ _ e] => e
  | .fin _ _ e :: ts => let r := minExp ts; if e ≤ r then e else r
  | _ :: ts => minExp ts

/-- The sum of R92: exact, rounded once. -/
def lnsSum (terms : List Num) : BitVec 32 :=
  match specialSum terms with
  | some r => r
  | none =>
    match zeroSum terms with
    | some r => r
    | none =>
      let q := minExp terms
      let v := (terms.map (Num.at q)).foldl (· + ·) 0
      if v = 0 then 0 else BitVec.ofNat 32 (roundFin fp32 0 false (decide (v < 0)) v.natAbs q).1

/-- One exact product of a matrix element: R82 for LNS6 by LNS6, else exact with infinity times zero a NaN (R91). Operands
come with the E8 scale of their block, 127 where none applies (R90). DEDUCED (log entry 103), unsafe: a zero product takes the XOR
of its operands' signs also where an operand is an integer. -/
def mmaProduct (aty bty a b ga gb : Nat) : Num :=
  if aty = 10 && bty = 10 then ((lnsProduct a b).scaled ga).scaled gb
  else (mulNum ((readNum aty false a).scaled ga) ((readNum bty false b).scaled gb)).1

/-- An output element of an MMA or BMMA (R91, R92). -/
def mmaElement (aty bty : Nat) (products : List Num) (c : BitVec 32) : BitVec 32 :=
  let terms := products ++ [readFloat fp32 false c.toNat]
  if aty = 10 && bty = 10 then lnsSum terms else mmaSum terms

/-! ### Special functions (R94)

The reference value is computed as a fixed-point number far finer than an FP32 ulp. The delivered bits are `Config.sfu`'s
where these meet the bound, else the nearest FP32 number: whatever the hardware delivers within the bound is allowed. -/

/-- Fraction bits of the reference computation. -/
def fixP : Nat := 320

/-- Sum over k < n of z^(2k+1)/(2k+1): atanh z for z scaled by 2^fixP; `z2` is z^2. -/
def atanhSum (z2 : Nat) : Nat → Nat → Nat → Nat
  | 0, _, _ => 0
  | n + 1, k, p => p / (2 * k + 1) + atanhSum z2 n (k + 1) (p * z2 / 2 ^ fixP)
def atanhFix (z : Nat) : Nat := atanhSum (z * z / 2 ^ fixP) 110 0 z
/-- ln 2, scaled: 2 atanh(1/3). -/
def ln2Fix : Nat := 2 * atanhFix (2 ^ fixP / 3)
/-- Sum over k < n of t^k / k!, scaled. -/
def expSum (t : Nat) : Nat → Nat → Nat → Nat
  | 0, _, _ => 0
  | n + 1, k, p => p + expSum t n (k + 1) (p * t / 2 ^ fixP / (k + 1))
/-- 2^x for the fixed-point magnitude t of x: a mantissa scaled by 2^fixP and an exponent. -/
def exp2Fix (neg : Bool) (t : Nat) : Nat × Int :=
  let i : Int := if neg then -((t / 2 ^ fixP : Nat) : Int) - (if t % 2 ^ fixP = 0 then 0 else 1) else (t / 2 ^ fixP : Nat)
  let f := if neg then (2 ^ fixP - t % 2 ^ fixP) % 2 ^ fixP else t % 2 ^ fixP
  (expSum (f * ln2Fix / 2 ^ fixP) 90 0 (2 ^ fixP), i - fixP)
/-- log2 of m * 2^e, m not 0, as a fixed-point integer. -/
def log2Fix (m : Nat) (e : Int) : Int :=
  let l := Nat.log2 m
  let x := m * 2 ^ fixP / 2 ^ l
  let z := (x - 2 ^ fixP) * 2 ^ fixP / (x + 2 ^ fixP)
  ((l : Int) + e) * 2 ^ fixP + ((2 * atanhFix z * 2 ^ fixP / ln2Fix : Nat) : Int)

/-- |x| as a fixed-point number, cut at `cap`. -/
def fixMag (m : Nat) (e : Int) (cap : Nat) : Nat :=
  if magLt (cap * 1) 0 m e then cap * 2 ^ fixP
  else if 0 ≤ e then m * 2 ^ e.toNat * 2 ^ fixP else m * 2 ^ fixP / 2 ^ (-e).toNat

/-- e^|x| or e^-|x|: 2^(x / ln 2). -/
def expFix (neg : Bool) (t : Nat) : Nat × Int := exp2Fix neg (t * 2 ^ fixP / ln2Fix)

/-- The reference value of a finite argument that is no special case: sign, mantissa, exponent. -/
def sfuRef (f : Nat) (n : Bool) (m : Nat) (e : Int) : Num :=
  match f with
  | 0 => let (a, b) := exp2Fix n (fixMag m e 400); .fin false a b
  | 1 => let v := log2Fix m e; .fin (decide (v < 0)) v.natAbs (-(fixP : Int))
  | 2 => .fin n (2 ^ (2 * fixP) / m) (-(e + 2 * fixP))
  | 3 =>
    -- 1/sqrt(m 2^e) with e made even: 2^(-e/2) * sqrt(2^(2p) / m)
    let m' := if e % 2 = 0 then m else 2 * m
    let e' := if e % 2 = 0 then e else e - 1
    .fin false (Nat.sqrt (2 ^ (4 * fixP) / m')) (-(e' / 2) - 2 * fixP)
  | 4 =>
    let (a, b) := expFix false (2 * fixMag m e 100)
    -- (E - 1) / (E + 1) with E = a 2^b, b between -fixP and 0 or above
    let E := if 0 ≤ b then a * 2 ^ b.toNat * 2 ^ fixP else a * 2 ^ fixP / 2 ^ (-b).toNat
    .fin n ((E - 2 ^ fixP) * 2 ^ fixP / (E + 2 ^ fixP)) (-(fixP : Int))
  | _ =>
    let (a, b) := expFix true (fixMag m e 400)
    -- with g = e^-|x| = a 2^b: 1/(1+g) for x above 0, g/(1+g) below
    let s := (-b).toNat
    if n then .fin false (a * 2 ^ (s + fixP) / (2 ^ s + a)) (b - fixP)
    else .fin false (2 ^ (s + fixP) / (2 ^ s + a)) (-(fixP : Int))

/-- The bound N of R94. -/
def sfuUlps (f : Nat) : Nat :=
  match f with
  | 0 => 2
  | 1 => 2
  | 2 => 1
  | 3 => 1
  | _ => 4

/-- r lies within N ulp of y (R94), with a slack of 2^-100 ulp for the reference's own error. -/
def withinUlps (N : Nat) (y r : Num) : Bool :=
  match y, r with
  | .fin yn ym ye, .fin rn rm re =>
    let l := floorLog2 ym ye
    let u : Int := (if l < -126 then -126 else l) - 23
    let q : Int := (if ye ≤ re then (if ye ≤ u - 100 then ye else u - 100) else if re ≤ u - 100 then re else u - 100)
    let d := (Num.at q (.fin yn ym ye) - Num.at q (.fin rn rm re)).natAbs
    decide (d ≤ N * 2 ^ (u - q).toNat + 2 ^ (u - 100 - q).toNat)
  | _, _ => false

/-- FP32 bits of a power of two, exact where it has one. -/
def pow2Bits (n : Bool) (k : Int) : Nat := (roundFin fp32 0 false n 1 k).1

/-- The exact special cases of R94: bits and flags, none where the bound applies. A subnormal power of two raises UF. -/
def sfuSpecial (f : Nat) (v : Num) : Option (Nat × Flags) :=
  let isPow2 (m : Nat) : Bool := 2 ^ Nat.log2 m = m
  match f, v with
  | _, .nan s => some (fp32.nanBits, flagIf s fNV)
  | 0, .inf n => some (if n then 0 else fp32.infBits, 0)
  | 0, .fin n m e =>
    if m = 0 then some (0x3F800000, 0)
    else
      let (i, inx) := roundInt 1 n m e
      if !inx && decide (-149 ≤ i) && decide (i ≤ 127) then some (pow2Bits false i, flagIf (decide (i < -126)) fUF) else none
  | 1, .inf n => if n then some (fp32.nanBits, fNV) else some (fp32.infBits, 0)
  | 1, .fin n m e =>
    if m = 0 then some (fp32.signed true fp32.infBits, fDZ)
    else if n then some (fp32.nanBits, fNV)
    else if isPow2 m then
      let k := floorLog2 m e
      some ((roundFin fp32 0 false (decide (k < 0)) k.natAbs 0).1, 0)
    else none
  | 2, .inf n => some (fp32.signed n 0, 0)
  | 2, .fin n m e =>
    if m = 0 then some (fp32.signed n fp32.infBits, fDZ)
    else if isPow2 m && decide (-126 ≤ -(floorLog2 m e)) && decide (-(floorLog2 m e) ≤ 127) then some (pow2Bits n (-(floorLog2 m e)), 0)
    else none
  | 3, .inf n => if n then some (fp32.nanBits, fNV) else some (0, 0)
  | 3, .fin n m e =>
    if m = 0 then some (fp32.signed n fp32.infBits, fDZ)
    else if n then some (fp32.nanBits, fNV)
    else if isPow2 m && decide (floorLog2 m e % 2 = 0) then some (pow2Bits false (-(floorLog2 m e / 2)), 0)
    else none
  | 4, .inf n => some (fp32.signed n 0x3F800000, 0)
  | 4, .fin n m _ => if m = 0 then some (fp32.signed n 0, 0) else none
  | _, .inf n => some (if n then 0 else 0x3F800000, 0)
  | _, .fin _ m _ => if m = 0 then some (0x3F000000, 0) else none

/-- An SFU function on FP32 bits (R94). -/
def sfu32 (f : Nat) (fz : Bool) (x : Nat) : Nat × Flags :=
  let v := readFloat fp32 fz x
  match sfuSpecial f v with
  | some r => flush fp32 fz r
  | none =>
    match v with
    | .fin n m e =>
      let y := sfuRef f n m e
      let big := match y with
        | .fin _ a b => magLt (2 ^ 24 - 1) 104 a b
        | _ => false
      if big then (fp32.signed y.isNeg fp32.infBits, fOF ||| fNX)
      else
        let cand := (Config.sfu f (BitVec.ofNat 32 x)).toNat
        let r := if withinUlps (sfuUlps f) y (readFloat fp32 false cand) then cand else (deliver fp32 0 true y).1
        let mag := r % 2 ^ 31
        let unf := decide (mag < 2 ^ 23)
        flush fp32 fz (r, fNX ||| flagIf unf fUF)
    | _ => (fp32.nanBits, 0)

/-- An SFU function on an element of ty FP32, BF16 or FP16: widened, computed, rounded nearest-even (R94). -/
def sfuElem (f ty : Nat) (fz : Bool) (x : Nat) : Nat × Flags :=
  if ty = 0 then sfu32 f fz x
  else
    let w := readFloat (fmtOf ty) fz x
    let wide := (deliver fp32 0 false w).1
    let (r, fl) := sfu32 f fz wide
    let d := flush (fmtOf ty) fz (deliver (fmtOf ty) 0 false (readFloat fp32 false r))
    (d.1, d.2 ||| fl ||| flagIf w.isSnan fNV)

end Sys2Proof.Machine
end

