-- ==== Sys2Proof/Machine/Translate.lean ====
section
/-! DEFINITION. Address forms, descriptors, the layout unit, page entries and the checks of a program's access
(chapter 03, R51 to R67; order of checks R398). -/

namespace Sys2Proof.Machine

/-! ### Descriptors (R58) -/

/-- Sum of powers-of-two test. -/
def isPow2 (n : Nat) : Bool := decide (n ≠ 0) && decide (2 ^ Nat.log2 n = n)

/-- Product of a list. -/
def prod : List Nat → Nat
  | [] => 1
  | x :: xs => x * prod xs

/-- Tile size in bits; TB of R58 is an eighth of it. -/
def Desc.tileBits (d : Desc) : Nat := prod d.tdim * elemBits d.etype.toNat
/-- Tile size in bytes, TB (R58). -/
def Desc.tb (d : Desc) : Nat := d.tileBits / 8
/-- Element width in bits (R58). -/
def Desc.eb (d : Desc) : Nat := elemBits d.etype.toNat
/-- Number of elements. -/
def Desc.elems (d : Desc) : Nat := prod d.dim

/-- A field of a descriptor or page entry: read in this module, or in what the translation caches hold of another chip's table
(R55). -/
def State.tableLE (s : State) (pa n : Nat) : Nat :=
  if paChip pa = s.chip then s.loadLE pa n else leNat ((span pa n).map (look 0 s.walked))

/-- The bytes of a table can be read now: they stand in this module, or the caches hold them. -/
def State.tableHeld (s : State) (pa n : Nat) : Bool :=
  decide (paChip pa = s.chip) || (span pa n).all (fun a => s.walked.any (fun e => decide (e.1 = a)))

/-- The access number of a walk's request: the table address stands above every other number (log entry 109). -/
def walkAccess (pa : Nat) : Nat := 2 ^ 80 + pa

/-- Ask the chip that holds a table for `n` bytes at `pa`; walks of one core share a request (R55, R74). -/
def State.askTable (s : State) (g : Nat) (k : StrandKind) (pa n : Nat) : State :=
  if s.fabric.requests.any (fun r => decide (r.access = walkAccess pa)) then s
  else
    let l := match (s.core g).task with | some t => t.launch | none => 0
    (s.request g k (walkAccess pa) (paChip pa) pa (.load 8 (span pa n)) false l ((s.core g).strand k).pc).getD s

/-- The bytes of a table that a walk brought from another chip. -/
def State.holdTable (s : State) (pa : Nat) (bytes : List Byte) : State :=
  { s with walked := ((span pa bytes.length).zip bytes).foldl (fun m e => place e.1 e.2 m) s.walked }

/-- Write a little-endian number into a table: in this module's memory, or in what its caches hold of another chip's table (log entry
109). -/
def State.writeTable (s : State) (pa n x : Nat) : State :=
  if paChip pa = s.chip then s.storeLE pa n x else s.holdTable pa (leBytes n x)

/-- The descriptor stored at `pa` (R58). -/
def State.readDesc (s : State) (pa : Nat) : Desc :=
  let h := s.tableLE (pa + 8) 8
  { tbase := BitVec.ofNat 64 (s.tableLE pa 8), pad := BitVec.ofNat 32 (h / 2 ^ 32), home := BitVec.ofNat 2 (h / 2 ^ 30),
    pois := BitVec.ofNat 2 (h / 2 ^ 28), etype := BitVec.ofNat 4 (h / 2 ^ 24), rank := h / 2 ^ 20 % 8, tid := h % 2 ^ 20,
    dim := (span 0 5).map (fun k => s.tableLE (pa + 0x10 + 4 * k) 4),
    tdim := (span 0 5).map (fun k => s.tableLE (pa + 0x24 + 2 * k) 2) }

/-- Every requirement of R58 that the descriptor of tensor `n` at `pa` must meet. -/
def State.descOk (s : State) (pa n : Nat) : Bool :=
  let d := s.readDesc pa
  let h := s.tableLE (pa + 8) 8
  d.tbase.toNat % 256 = 0 && d.home ≠ 3 && d.etype ≠ 15 && h / 2 ^ 23 % 2 = 0 && decide (1 ≤ d.rank) && decide (d.rank ≤ 5)
    && d.tid = n && d.dim.all (fun x => decide (1 ≤ x)) && d.tdim.all (fun x => isPow2 x && decide (x ≤ 4096))
    && (d.dim.drop d.rank).all (fun x => x = 1) && (d.tdim.drop d.rank).all (fun x => x = 1)
    && decide (256 ≤ d.tb) && decide (d.tb ≤ 65536) && decide (d.elems * d.eb / 8 < 2 ^ 44)
    && decide (d.pad.toNat < 2 ^ d.eb) && s.tableLE (pa + 0x2E) 18 = 0

/-- Physical address of the descriptor of tensor `n` in a context (R58). -/
def State.descAddr (s : State) (ctx n : Nat) : Nat := (look 0 s.ttbase ctx).toNat + 64 * n

/-- The checked descriptor of a tensor; none raises the descriptor fault (R58). Descriptor 0 is never read. -/
def State.desc? (s : State) (ctx n : Nat) : Option Desc :=
  if n = 0 then none
  else if s.descOk (s.descAddr ctx n) n then some (s.readDesc (s.descAddr ctx n)) else none

/-! ### The layout unit (R60) -/

/-- Tile number and element number within the tile of a coordinate (R60). -/
def layoutGo : List Nat → List Nat → List Nat → Nat → Nat → Nat × Nat
  | c :: cs, d :: ds, t :: ts, gm, tm =>
    let r := layoutGo cs ds ts (gm * ((d + t - 1) / t)) (tm * t)
    (c / t * gm + r.1, c % t * tm + r.2)
  | _, _, _, _, _ => (0, 0)

/-- Tile number and element number within the tile. -/
def Desc.place (d : Desc) (c : List Nat) : Nat × Nat := layoutGo c d.dim d.tdim 1 1

/-- Coordinates of a flat element index (R60). -/
def coordsOf (e : Nat) : List Nat → List Nat
  | [] => []
  | d :: ds => e % d :: coordsOf (e / d) ds

/-- Bit position in the tensor's storage of a flat element (R60). -/
def Desc.bitPos (d : Desc) (e : Nat) : Nat :=
  let (tn, te) := d.place (coordsOf e d.dim)
  tn * d.tileBits + te * d.eb

/-- Tile number of a flat element. -/
def Desc.tileOf (d : Desc) (e : Nat) : Nat := (d.place (coordsOf e d.dim)).1

/-- Tile numbers of the elements in the byte at a tensor offset (R61). -/
def Desc.tilesAt (d : Desc) (o : Nat) : List Nat :=
  if 8 ≤ d.eb then [d.tileOf (8 * o / d.eb)]
  else ((span (8 * o / d.eb) (8 / d.eb)).filter (fun e => decide (e < d.elems))).map d.tileOf

/-! ### Page entries (R63, R64) -/

/-- The page entry at `pa` (R63). `frame` is the whole physical address of the frame. -/
def State.readPage (s : State) (pa : Nat) : Page :=
  let w := s.tableLE pa 8
  let x := s.tableLE (pa + 8) 8
  { frame := w / 2 ^ 16 * 2 ^ 16, fmt := w / 2 ^ 12 % 16, lat := w / 2 ^ 8 % 16, sgeo := w / 2 ^ 5 % 8,
    pr := w / 16 % 2 = 1, pw := w / 8 % 2 = 1, pa := w / 4 % 2 = 1, cmp := w / 2 % 2 = 1, v := w % 2 = 1,
    scale := x / 256 * 256, pin := x / 128 % 2 = 1, mig := x / 16 % 8, reserved := x % 16 ≠ 0 }

/-- The entry at `pa` that access number `i` of a core uses: the one in the table, or an old one that a cache still holds, one of the two
for every byte of the access in the page (R69). -/
def State.entryFor (s : State) (i g ctx : Nat) (pa : Nat) : Page :=
  match s.stale.find? (fun e => e.1 = ctx && e.2.1 = pa) with
  | some e => if Config.usesOld i g (BitVec.ofNat 64 pa) then e.2.2 else s.readPage pa
  | none => s.readPage pa

/-- A table of this module stands at an offset that its space does not have (R56). -/
def State.tableLost (s : State) (pa n : Nat) : Bool := decide (paChip pa = s.chip) && (span pa n).any (fun a => !s.mapped a)

/-- A valid entry is malformed (R64); SPACE 1 while the second tier is unavailable (R354, R448). -/
def State.malformed (s : State) (d : Desc) (p : Page) : Bool :=
  let sp := paSpace p.frame
  elemBits p.fmt ≠ d.eb || p.fmt = 15 || decide (10 ≤ p.lat) || (p.lat ≠ 0 && p.fmt ≠ 14) || decide (5 ≤ p.sgeo)
    || (p.sgeo ≠ 0 && p.fmt ≠ 7 && p.fmt ≠ 9 && p.fmt ≠ 10) || !(sp = 0 || sp = 1 || sp = 2 || sp = 6)
    || (sp = 6 && (p.cmp || p.lat ≠ 0)) || p.reserved || (sp = 1 && !s.host.tierUp)

/-- Address of the page entry of a storage page (R63). -/
def Desc.entryAddr (d : Desc) (page : Nat) : Nat := d.tbase.toNat + 16 * page

/-- Elements per E8 scale of an SGEO code (R63). -/
def sgeoElems (g : Nat) : Nat := if g = 0 then 0 else 8 * 2 ^ g

/-- The home die of a frame (R125). -/
def homeDie (frame : Nat) : Nat := if paSpace frame = 0 then paOffset frame / 2 ^ 36 % 8 else 0

/-! ### Checked accesses -/

/-- The permission an access needs (R64). -/
inductive Need where
  | load
  | store
  /-- AMOV, CASV, AMO, ACAS; `read` for the LOAD operation (R231). -/
  | atomic (read : Bool)
  | join
  /-- A lattice load; `threshold` for LLDT. -/
  | latticeLoad (threshold : Bool)
  deriving DecidableEq, Repr

/-- Where a checked access goes. -/
structure Target where
  addrs : List Nat
  unit : Nat := 8
  eb : Nat := 8
  route : Route := .plain
  home : BitVec 2 := 0
  pois : BitVec 2 := 0
  pad : BitVec 32 := 0
  virtual : Bool := false
  lat : Nat := 0
  space : Nat := 4
  deriving DecidableEq, Repr

/-- The outcome of translating and checking an access. -/
inductive Checked where
  | ok (t : Target)
  | fault (cause : Nat) (addr : Word)
  | pageIn (tensor page : Nat)
  /-- A descriptor or a page entry stands on another chip and must be fetched first (R55). -/
  | walk (pa n : Nat)
  deriving DecidableEq, Repr

/-- The TENSOR field of a virtual address (R54). -/
def tensorOf (a : Word) : Nat := a.toNat / 2 ^ 44
/-- The OFFSET field of a virtual address (R54). -/
def offsetOf (a : Word) : Nat := a.toNat % 2 ^ 44

/-- The core that a vault space address names, and the byte offset (R52). -/
def vaultCore (g : Nat) (a : Word) : Nat := dieOf g * 96 + a.toNat / 2 ^ 22 % 128
def vaultOfs (a : Word) : Nat := a.toNat % 2 ^ 22

/-- A core runs or holds staged a task of a context (R52). -/
def Core.serves (c : Core) (ctx : Nat) : Bool :=
  (match c.task with | some t => t.ctx = ctx | none => false) || (match c.staged with | some t => t.ctx = ctx | none => false)

/-- The form and protection of a vault space address (R51, R52): the cause of its fault, if it has one. -/
def State.vaultFault (s : State) (g ctx : Nat) (a : Word) : Option Nat :=
  let h := vaultCore g a
  if a.toNat / 2 ^ 32 ≠ 0 ∨ a.toNat / 2 ^ 29 % 8 ≠ 0 ∨ 96 ≤ a.toNat / 2 ^ 22 % 128 then some 0x20
  else if !(s.core h).present then some 0x20
  else if h ≠ g && !(s.core h).serves ctx then some 0x21
  else none

/-- Check a vault space access of the bytes at `offs` from `a`, `a` aligned to `align` (R51, R52). -/
def State.checkVault (s : State) (g ctx : Nat) (a : Word) (align : Nat) (offs : List Nat) : Checked :=
  match s.vaultFault g ctx a with
  | some c => .fault c a
  | none =>
    if a.toNat % align ≠ 0 then .fault 0x22 a
    else if offs.any (fun o => decide (2 ^ 22 ≤ vaultOfs a + o)) then .fault 0x22 a
    else .ok { addrs := offs.map (fun o => vaultAt (vaultCore g a) (vaultOfs a + o)) }

/-- Where a page's access goes for a core (R67, R125, R324). -/
def State.routeOf (s : State) (g : Nat) (d : Desc) (p : Page) : Route :=
  if p.lat ≠ 0 then .replica (if d.home = 0 then homeDie p.frame else dieOf g) p.lat
  else if paChip p.frame ≠ s.chip then .remote (paChip p.frame)
  else if paSpace p.frame = 6 then .register
  else .plain

/-- The checks of R64 and R67 on a page that an access reaches, in the order of R398: the cause of the first that fails. -/
def State.pageFault (s : State) (d : Desc) (p : Page) (need : Need) : Option Nat :=
  let scope := p.lat ≠ 0 && d.home ≠ 2 && paChip p.frame ≠ s.chip
  let allowed := match need with
    | .load => p.pr
    | .latticeLoad _ => p.pr
    | .store => p.pw
    | .join => p.pw
    | .atomic _ => p.pa && p.pr && paSpace p.frame ≠ 6
  if s.malformed d p then some 0x24
  else if !allowed then some 0x25
  else if scope && need ≠ .store && need ≠ .atomic false then some 0x52
  else match need with
    | .store => if p.lat ≠ 0 then some 0x28 else none
    | .atomic false => if p.lat ≠ 0 then some 0x50 else none
    | .join => if p.lat = 0 then some 0x50 else none
    | .latticeLoad _ => if p.lat = 0 then some 0x50 else none
    | _ => none

/-- Bytes of a flat access lie in whole bytes of storage: every element boundary of a tile row is a byte boundary. -/
def Desc.wholeBytes (d : Desc) : Bool :=
  decide (8 ≤ d.eb) || (decide ((d.dim.headD 1) * d.eb % 8 = 0) && decide ((d.tdim.headD 1) * d.eb % 8 = 0))

/-- Storage units of the bytes at tensor offsets `os`: bit positions divided by the unit. DESIGN CHOICE (log entry 137), unsafe: where a
count of INT4 or BIN1 elements fills no whole byte, the bits of the last byte past the last element stand, modulo the dimensions, for
elements from number 0 on; the spec is silent about them. -/
def Desc.units (d : Desc) (os : List Nat) : Nat × List Nat :=
  if decide (8 ≤ d.eb) then (8, os.map (fun o => d.bitPos (8 * o / d.eb) / 8 + o % (d.eb / 8)))
  else if d.wholeBytes then (8, os.map (fun o => d.bitPos (8 * o / d.eb) / 8))
  else (d.eb, os.flatMap (fun o => (span (8 * o / d.eb) (8 / d.eb)).map (fun e => d.bitPos e / d.eb)))

/-- The addresses lie contiguously, rising by one (R61, for atomics, joins and threshold loads). -/
def contiguous : List Nat → Bool
  | [] => true
  | [_] => true
  | a :: b :: l => decide (b = a + 1) && contiguous (b :: l)

/-- The cell of an atomic, a join or a threshold load lies in one piece (R61). -/
def Need.oneCell : Need → Bool
  | .load => false
  | .store => false
  | .latticeLoad threshold => threshold
  | _ => true

/-- The fault of an access to a page that the pager did not make resident for the core's task (R421). -/
def State.denial (s : State) (g ctx tensor page : Nat) : Option Nat :=
  ((s.core g).denied.find? (fun e => e.ctx = ctx && e.tensor = tensor && e.page = page)).map (fun e => e.cause)

/-- Check a flat virtual access of the bytes at `offs` from `a`, `a` aligned to `align`; `lead` names the offset of the first byte of
the instruction's whole access where this is only a lane of it, since all its bytes lie in one tile (R54, R58, R61 to R64). -/
def State.checkFlat (s : State) (g ctx : Nat) (a : Word) (align : Nat) (offs : List Nat) (need : Need) (lead : Option Nat := none) :
    Checked :=
  if !s.tableHeld (s.descAddr ctx (tensorOf a)) 64 then .walk (s.descAddr ctx (tensorOf a)) 64
  else if s.tableLost (s.descAddr ctx (tensorOf a)) 64 then .fault 0x26 a
  else match s.desc? ctx (tensorOf a) with
  | none => .fault 0x11 a
  | some d =>
    let os := offs.map (fun o => offsetOf a + o)
    let within (o : Nat) : Bool := decide (8 * o < d.elems * d.eb)
    let inside := os.filter within
    let tiles := (((lead.map (fun o => offsetOf a + o)).toList ++ os).filter within).flatMap d.tilesAt
    if offsetOf a % align ≠ 0 || tiles.any (fun t => decide (t ≠ tiles.headD 0)) || (need.oneCell && !contiguous (d.units inside).2) then .fault 0x22 a
    else if inside.length ≠ os.length then .fault 0x23 a
    else
      let (u, us) := d.units os
      let page := us.headD 0 * u / 8 / 65536
      let p := s.entryFor s.freeCtr g ctx (d.entryAddr page)
      if !s.tableHeld (d.entryAddr page) 16 then .walk (d.entryAddr page) 16
      else if s.tableLost (d.entryAddr page) 16 then .fault 0x26 a
      else if !p.v then (match s.denial g ctx (tensorOf a) page with | some c => .fault c a | none => .pageIn (tensorOf a) page)
      else match s.pageFault d p need with
        | some c => .fault c a
        | none =>
          .ok { addrs := us.map (fun x => p.frame * 8 / u + x % (65536 * 8 / u)), unit := u, eb := d.eb, route := s.routeOf g d p, home := d.home,
                pois := d.pois, pad := d.pad, virtual := true, lat := p.lat, space := paSpace p.frame }

/-- Translate and check an access by the address form (R51): vault alignment `av`, flat alignment `af`. -/
def State.check (s : State) (g ctx : Nat) (a : Word) (av af : Nat) (offs : List Nat) (need : Need) (lead : Option Nat := none) : Checked :=
  if tensorOf a = 0 then s.checkVault g ctx a av offs else s.checkFlat g ctx a af offs need lead

/-- The launch and the context of the task on a core. -/
def State.launchOn (s : State) (g : Nat) : Nat := match (s.core g).task with | some t => t.launch | none => 0
def State.ctxOn (s : State) (g : Nat) : Nat := match (s.core g).task with | some t => t.ctx | none => 0

/-- An entry with V = 0 that a walk brought from another chip is not kept: the caches hold only valid entries (R68). -/
def State.dropInvalid (s : State) (ctx tensor page : Nat) : State :=
  match s.desc? ctx tensor with
  | none => s
  | some d =>
    let a := d.entryAddr page
    if paChip a = s.chip then s else { s with walked := s.walked.filter (fun e => !(decide (a ≤ e.1) && decide (e.1 < a + 16))) }

/-- Ask the pager for a page; requests for one page are shared (R72, R74). -/
def State.requestPage (s : State) (who : PageAsker) (ctx tensor page : Nat) : State :=
  if s.pageReqs.any (fun r => r.ctx = ctx && r.tensor = tensor && r.page = page) then s
  else (({ s with pageReqs := s.pageReqs ++ [{ ctx := ctx, tensor := tensor, page := page, who := who }] } : State)).dropInvalid ctx tensor page

/-- The issuing instruction of a strand as an asker (R73). -/
def State.asker (s : State) (k : StrandKind) : PageAsker :=
  { core := s.cur, queue := strandNum k, pc := (s.me.strand k).pc, launch := match s.me.task with | some t => t.launch | none => 0 }

/-- The fault of an access at an address is that of a page which the pager did not make resident: on the A strand it is imprecise
(R421). -/
def State.wasDenied (s : State) (g ctx : Nat) (a : Word) (cause : Nat) : Bool :=
  [0x24, 0x29, 0x6B].contains cause && match s.desc? ctx (tensorOf a) with
  | none => false
  | some d => decide (s.denial g ctx (tensorOf a) (d.bitPos (8 * offsetOf a / d.eb) / 8 / 65536) = some cause)

/-! ### Bits narrower than bytes (R61) -/

/-- Read a unit of `u` bits, 8, 4 or 1, at a unit address. -/
def State.readUnit (s : State) (u a : Nat) : Nat :=
  if u = 8 then (s.byte a).toNat else (s.byte (a * u / 8)).toNat / 2 ^ (a * u % 8) % 2 ^ u
/-- Write a unit of `u` bits, 4 or 1, at a unit address. -/
def State.writeUnit (s : State) (u a x : Nat) : State :=
  let b := (s.byte (a * u / 8)).toNat
  let sh := a * u % 8
  s.store [a * u / 8] [BitVec.ofNat 8 (b - b / 2 ^ sh % 2 ^ u * 2 ^ sh + x % 2 ^ u * 2 ^ sh)]

/-- Join `n` units of `u` bits into bytes, low first. -/
def joinUnits (u : Nat) (l : List Nat) : Nat :=
  match l with
  | [] => 0
  | x :: xs => x + 2 ^ u * joinUnits u xs

/-- The number read at a target's units, low unit first. -/
def State.loadUnits (s : State) (u : Nat) (addrs : List Nat) : Nat :=
  if u = 8 then leNat (s.load addrs) else joinUnits u (addrs.map (s.readUnit u))

/-- Store the low bits of a number at a target's units. -/
def State.storeUnits (s : State) (u : Nat) (addrs : List Nat) (x : Nat) : State :=
  if u = 8 then s.store addrs (leBytes addrs.length x)
  else match addrs with
    | [] => s
    | a :: as => (s.writeUnit u a x).storeUnits u as (x / 2 ^ u)

/-- Byte addresses that units lie in. -/
def unitBytes (u : Nat) (addrs : List Nat) : List Nat := if u = 8 then addrs else addrs.map (fun a => a * u / 8)

end Sys2Proof.Machine
end

