-- ==== Sys2Proof/Machine/Issue.lean ====
section
/-! DEFINITION. Issuing a word of a strand: slots, hazards, the loop stack, blocking, precise faults, the Plumb checker
(R24, R25, R131, R132, R153, R185 to R187, R393, R396, R402). -/

namespace Sys2Proof.Machine

/-- What every strand instruction answers: a step always has a next state. -/
abbrev Result := Host.Outcome State Fault Refusal

/-- What an instruction does at issue. -/
inductive Did where
  /-- It completes, or has issued; the next word follows in line (R186). -/
  | done (s : State)
  /-- A taken branch or jump that pops loop levels (R187). -/
  | jump (target : Word) (s : State)
  /-- It has set the strand's PC, loops and status itself. -/
  | goto (s : State)
  /-- It blocks its strand and is tried again (R24). -/
  | wait (h : Hold) (s : State)
  /-- A precise fault: no effect (R386). -/
  | trap (cause : Nat) (addr data : Word)

/-! ### The loop stack (R185 to R187) -/

/-- The levels that BranchTo keeps (R187). -/
def keepLoops (target : Word) : List LoopLevel → List LoopLevel
  | [] => []
  | l :: ls => if l.start.toNat ≤ target.toNat ∧ target.toNat < l.stop.toNat then l :: ls else keepLoops target ls

/-- The word at `pc` is the last of the innermost body. DEDUCED (log entry 104), unsafe: R187 says "a body"; the model tests the level
that R186 looks at, the innermost. -/
def lastOfBody (k : StrandKind) (x : Strand) : Bool :=
  match x.loops with
  | [] => false
  | l :: _ => l.stop = x.pc + BitVec.ofNat 64 (wordBytes k)

/-- A taken branch (R187). -/
def Strand.branchTo (target : Word) (x : Strand) : Strand :=
  { x with status := .running, pc := target, loops := keepLoops target x.loops, hold := .fresh }

/-- The strand is Running or Blocked (R25). -/
def Strand.live (x : Strand) : Bool := x.status = .running || x.status = .blocked
/-- The strand blocks (R25). -/
def Strand.block (h : Hold) (x : Strand) : Strand := { x with status := .blocked, hold := h }

/-! ### Hazards (R402 to R404) -/

/-- A register element that an instruction reads or writes. -/
inductive Ref where
  | s (n : Nat)
  | a (n : Nat)
  | p (n : Nat)
  /-- The lanes of a v-register whose bits are 1. -/
  | v (n : Nat) (lanes : BitVec 32)
  deriving DecidableEq, Repr

/-- The pending access will write an element of the reference. -/
def Access.writes (x : Access) : Ref → Bool
  | .s n => match x.dest with
    | .s m => n = m && n ≠ 0
    | .sPair m => (n = m || n = m + 1) && n ≠ 0
    | _ => false
  | .a n => match x.dest with
    | .a m => n = m && n ≠ 0
    | _ => false
  | .p _ => false
  | .v n lanes => match x.dest with
    | .lanes m which => n = m && which.any lanes.getLsbD
    | _ => false

/-- The register file number and register number of R403. -/
def Ref.number : Ref → Nat
  | .s n => n
  | .v n _ => 2 ^ 10 + n
  | .p n => 2 * 2 ^ 10 + n
  | .a n => 3 * 2 ^ 10 + n

/-- The first hazard among an instruction's references: the record's ADDR and DATA (R402, R403). -/
def Core.hazard (c : Core) (k : StrandKind) : List Ref → Option (Word × Word)
  | [] => none
  | r :: rs =>
    match (c.out k).find? (fun x => !x.slotDone && x.writes r) with
    | some x => some (BitVec.ofNat 64 r.number, x.pc)
    | none => match (if k = .a then c.items.find? (fun x => r = .a x.dest && x.dest ≠ 0) else none) with
      | some x => some (BitVec.ofNat 64 r.number, x.pc)
      | none => c.hazard k rs

/-! ### Issue -/

/-- The task of the issuing core. -/
def State.myTask (s : State) : Option Task := s.me.task
/-- The address context of the issuing core's task. -/
def State.myCtx (s : State) : Nat := match s.me.task with | some t => t.ctx | none => 0
/-- The launch of the issuing core's task. -/
def State.myLaunch (s : State) : Option Launch := match s.me.task with | some t => s.launch? t.launch | none => none

/-- What issue needs to know of an instruction. -/
structure Form where
  k : StrandKind
  wait : BitVec 7 := 0
  set : Nat := 0
  /-- It must not be the last word of a loop body (R187, R249, R290, R302). -/
  notLast : Bool := false
  /-- Registers it reads or writes (R402). -/
  refs : List Ref := []
  /-- Its encoding is reserved by what a descriptor slot holds: the word (R254, R398). -/
  reservedWord : Option Word := none
  /-- It has an effect that Plumb holds until its copy matches (R393). -/
  effect : Bool := false
  /-- It reads or writes tiles, streams, accumulators or queues at issue: it follows every earlier acquire (R134, R142). -/
  access : Bool := false
  /-- It releases at CORE scope at issue: it follows every earlier access of the strand (R134, R144). -/
  release : Bool := false

/-- The named slots, or the slot to set, are pending (R131), or an access that orders the instruction is not yet performed
(R134). -/
def Core.slotsBusy (c : Core) (f : Form) : Bool :=
  (c.sb f.k &&& f.wait) ≠ 0 || (c.sb f.k &&& slotBit f.set) ≠ 0
    || (f.access && ((c.out f.k).any (fun x => x.acquire && !x.performedAt 0) || (decide (f.k = .a) && c.items.any (fun x => x.chosen.isNone))))

/-- A strand's QUA increments that its die still holds: they are not yet performed (R140). -/
def State.quaHeld (s : State) (g : Nat) (k : StrandKind) : Bool :=
  (s.die (dieOf g)).qua.any (fun q => q.counter.isNone && q.from_.any (fun e => decide (e.1 = g) && decide (e.2.1 = k)))

/-- Every earlier access of the issuing strand is performed at a scope, QUA increments included (R134, R140). -/
def State.settled (s : State) (k : StrandKind) (scope : Nat) : Bool := s.me.allDone k scope && !s.quaHeld s.cur k

/-- A Plumb mismatch: the task is discarded to its region start, or its launch fails when the region is sealed or this is
the third mismatch in the region (R393). -/
def State.plumbMismatch (s : State) (k : StrandKind) : State :=
  let c := s.me
  let third := match c.task with | some t => decide (2 ≤ t.mismatches) | none => false
  let s' := { s with upsets := s.upsets.erase (.mismatch s.cur k) }
  let s' := s'.onMe (fun c => c.onTask (fun t => { t with mismatches := t.mismatches + 1 }))
  if third || (s.gangCores s.cur).any (fun x => (s.core x).isSealed) then s'.raise k 0x72 0 0 else s'.raise k 0x71 0 0

/-- Loop depth, the DATA of the control faults (R401). -/
def Core.ldep (c : Core) (k : StrandKind) : Word := BitVec.ofNat 64 (c.strand k).loops.length

/-- Settle what an instruction did: PC, status and precise faults. -/
def State.settle (s : State) (k : StrandKind) : Did → State
  | .done t => t.onMe (fun c => c.onStrand k (Strand.advance k))
  | .jump a t => t.onMe (fun c => c.onStrand k (Strand.branchTo a))
  | .goto t => t
  | .wait h t => t.onMe (fun c => c.onStrand k (Strand.block h))
  | .trap cause addr data => if k = .a ∧ s.wasDenied s.cur s.myCtx addr cause then s.taskFault s.cur k false cause s.me.strandA.pc addr data else s.raise k cause addr data

/-- Issue one instruction of the strand of core `cur`: nothing happens where the strand cannot issue (R12); a pending slot
blocks (R131); a reserved encoding and a hazard trap (R398, R402); a forbidden last word of a loop body traps (R187); a mismatch that the checker finds
keeps the effect from issuing (R393); else `body` acts. -/
def issue (f : Form) (body : State → Did) (s : State) : Result :=
  let c := s.me
  .next <|
    if !c.issues f.k then s
    else if c.slotsBusy f || (f.release && !s.settled f.k 0) || (f.k = .a && c.unitHalt.isSome) then s.onMe (fun c => c.onStrand f.k (Strand.block (c.strand f.k |>.hold |> fun h => if h = .fresh then .other else h)))
    else match f.reservedWord, (if c.dbgHz then c.hazard f.k f.refs else none) with
      | some w, _ => s.raise f.k 0x00 w 0
      | none, some (a, d) => s.raise f.k 0x09 a d
      | none, none =>
        if f.notLast && lastOfBody f.k (c.strand f.k) then s.raise f.k 0x03 0 (c.ldep f.k)
        else if f.effect && s.upsets.any (fun u => u = .mismatch s.cur f.k) then s.plumbMismatch f.k
        else s.settle f.k (body s)

/-- Issue an instruction that only changes the core and completes at once. -/
def issueCore (f : Form) (body : Core → Core) (s : State) : Result :=
  issue f (fun s => .done (s.onMe body)) s


/-- A pending pre-emption never meets a sealing issue here: the request is an event of its own, taken before or after the
word (R43). Sealing of the issuing task's region (R42). -/
def State.sealMine (s : State) : State := s.onMe Core.seal

/-- The instruction blocks until the pager has the page (R72). -/
def State.waitPage (s : State) (k : StrandKind) (tensor page : Nat) : Did :=
  .wait (.pageIn s.myCtx tensor page) (s.requestPage (s.asker k) s.myCtx tensor page)

/-- The instruction blocks until the table that its translation reads has come from its chip (R55). -/
def State.waitTable (s : State) (k : StrandKind) (pa n : Nat) : Did := .wait .other (s.askTable s.cur k pa n)

/-! ### Outstanding accesses -/

/-- What the destination of an access holds. -/
def Core.destNow (c : Core) : Dest → Vec
  | .s n => (c.getS n).setWidth 1024
  | .sPair n => BitVec.ofNat 1024 ((c.getS n).toNat + 2 ^ 64 * (c.getS (n + 1)).toNat)
  | .a n => (c.getA n).setWidth 1024
  | .lanes v _ => c.getV v
  | .slot _ => 0
  | .none => 0

/-- Add one access of the issuing instruction and mark its slot (R131). -/
def State.addAccess (s : State) (k : StrandKind) (x : Access) : State :=
  s.onMe (fun c =>
    let y := { x with id := c.nextId, pc := (c.strand k).pc, was := c.destNow x.dest, issuedAt := (s.die 8).time.toNat }
    ({ c.setOut k (c.out k ++ [y]) with nextId := c.nextId + 1 }).markSlot k x.slot)

/-- Add the accesses of one instruction; they share a group, so that the slot clears with the last (R131). -/
def State.addAccesses (s : State) (k : StrandKind) (l : List Access) : State :=
  let grp := s.me.nextId
  l.foldl (fun s x => s.addAccess k { x with grp := grp }) s

/-- An access from a checked target. -/
def Target.access (t : Target) (a : Word) : Access :=
  { id := 0, grp := 0, pc := 0, addrs := t.addrs, unit := t.unit, eb := t.eb, pois := t.pois, pad := t.pad, vaddr := a, virtual := t.virtual,
    home := t.home, route := t.route }

end Sys2Proof.Machine
end

