-- ==== Sys2Proof/Machine/Fetch.lean ====
section
/-! DEFINITION. Fetching a strand's word and detecting a reserved encoding (R150, R184, R396). -/

namespace Sys2Proof.Machine

/-- The outcome of fetching a word. -/
inductive Fetched where
  | word (w : Nat)
  | fault
  | pageIn (tensor page : Nat)
  | walk (pa n : Nat)
  deriving DecidableEq, Repr

/-- Fetch the word of strand `k` of core `g` at an address of its task's code section: a flat access that needs loads
permitted (R150, R184). -/
def State.fetchAt (s : State) (g : Nat) (k : StrandKind) (pc : Word) : Fetched :=
  match (s.core g).task with
  | none => .fault
  | some t =>
    let n := wordBytes k
    if tensorOf pc ≠ tensorOf t.code ∨ tensorOf pc = 0 then .fault
    else match s.checkFlat g t.ctx pc n (span 0 n) .load with
      | .ok x => .word (s.loadUnits x.unit x.addrs)
      | .fault _ _ => .fault
      | .pageIn te p => .pageIn te p
      | .walk pa n => .walk pa n

/-- The code word of a strand. -/
def codeOf (k : StrandKind) (w : Nat) : Code :=
  match k with
  | .c => .c (BitVec.ofNat 64 w)
  | .a => .a (BitVec.ofNat 64 w)
  | .m => .m (BitVec.ofNat 128 w)
  | .o => .o (BitVec.ofNat 128 w)

/-- What the next word of a strand is: an instruction, or what the strand does instead. -/
inductive Next where
  | run (i : Instr)
  | other (s : State)

/-- Fetch and decode the word at a strand's PC. A fetch fault raises 0x06 with the address (R184, R401), a page-in blocks
the strand (R72), a reserved encoding raises 0x00 with the word (R396). -/
def State.nextWord (s : State) (k : StrandKind) : Next :=
  let x := s.me.strand k
  match s.fetchAt s.cur k x.pc with
  | .fault => .other (s.raise k 0x06 x.pc (s.me.ldep k))
  | .walk pa n => .other ((s.askTable s.cur k pa n).onMe (fun c => c.onStrand k (Strand.block .other)))
  | .pageIn te p =>
    .other ((s.requestPage (s.asker k) s.myCtx te p).onMe (fun c => c.onStrand k (Strand.block (.pageIn s.myCtx te p))))
  | .word w =>
    match decode (codeOf k w) with
    | some i => .run i
    | none => .other (s.raise k 0x00 (BitVec.ofNat 64 w) (match k with
        | .c => 0
        | .a => 0
        | .m => BitVec.ofNat 64 (w / 2 ^ 64)
        | .o => BitVec.ofNat 64 (w / 2 ^ 64)))

end Sys2Proof.Machine
end

