-- ==== Sys2Proof/Machine/Lattice.lean ====
section
/-! DEFINITION. Lattice cells: joins, merges, thresholds, replicas in granules of 64 bytes, and parked loads tested at each
change (R239, R322 to R324, R332). -/

namespace Sys2Proof.Machine

/-! ### Cells (R239) -/

/-- Bytes of a cell. -/
def cellBytes (lat : Nat) : Nat :=
  match lat with
  | 1 => 4
  | 3 => 4
  | 9 => 4
  | 2 => 8
  | 4 => 8
  | 7 => 8
  | _ => 32

/-- The vector forms serve BITS256 and VCLK8 (R240). -/
def vectorCell (lat : Nat) : Bool := lat = 5 || lat = 8

/-- Word `k` of a 32-byte cell. -/
def slotOf (c k : Nat) : Nat := c / 2 ^ (32 * k) % 2 ^ 32
/-- A 32-byte cell from its eight words. -/
def ofSlots (g : Nat → Nat) : Nat := (span 0 8).foldl (fun n k => n + g k % 2 ^ 32 * 2 ^ (32 * k)) 0
/-- A NaN of FP32. -/
def isNan32 (b : Nat) : Bool := decide (0x7F800000 < b % 2 ^ 31)
/-- A key that orders FP32 bits by value, −0 below +0. -/
def f32Key (b : Nat) : Int := if b < 2 ^ 31 then (b : Int) else -((b : Int) - 2 ^ 31) - 1
/-- The MAXF32 join (R239). -/
def maxF32 (x c : Nat) : Nat :=
  if isNan32 x then c else if isNan32 c then x else if f32Key c < f32Key x then x else c

/-- The merge of value `v` into cell `c` (R239, R323). -/
def mergeCell (lat v c : Nat) : Nat :=
  match lat with
  | 1 => max v c
  | 2 => max v c
  | 3 => min v c
  | 4 => v ||| c
  | 5 => v ||| c
  | 6 => ofSlots (fun k => max (slotOf v k) (slotOf c k))
  | 7 => max v c
  | 8 => ofSlots (fun k => max (slotOf v k) (slotOf c k))
  | _ => maxF32 v c

/-- A local join of operand `x` at die `d`: for GCNT the die's slot grows by x and saturates (R239). -/
def joinCell (lat d x c : Nat) : Nat :=
  if lat = 6 then ofSlots (fun k => if k = d then min (slotOf c k + x) (2 ^ 32 - 1) else slotOf c k) else mergeCell lat x c
/-- The join would carry the die's GCNT slot past its end (R239). -/
def joinSaturates (lat d x c : Nat) : Bool := lat = 6 && decide (2 ^ 32 ≤ slotOf c d + x)

/-- The value that LLD and LLDT return: for GCNT the sum of its slots (R240). -/
def cellValue (lat c : Nat) : Nat :=
  if lat = 6 then (span 0 8).foldl (fun n k => n + slotOf c k) 0 else c

/-- The threshold test (R239). -/
def thresholdMet (lat theta c : Nat) : Bool :=
  match lat with
  | 1 => decide (theta ≤ c)
  | 2 => decide (theta ≤ c)
  | 3 => decide (c ≤ theta)
  | 4 => decide (theta &&& c = theta)
  | 5 => decide (theta &&& c = theta)
  | 6 => decide (theta ≤ cellValue 6 c)
  | 7 => decide (theta ≤ c)
  | 8 => (span 0 8).all (fun k => decide (slotOf theta k ≤ slotOf c k))
  | _ => !isNan32 c && (isNan32 theta || decide (f32Key theta ≤ f32Key c))

/-! ### Granules (R322, R324) -/

/-- The granule of a physical address. -/
def granuleOf (pa : Nat) : Nat := pa / 64

/-- Bits of a granule at a byte offset. -/
def granuleBits (v : BitVec 512) (off n : Nat) : Nat := v.toNat / 2 ^ (8 * off) % 2 ^ (8 * n)
/-- Replace `n` bytes of a granule. -/
def setGranuleBits (v : BitVec 512) (off n x : Nat) : BitVec 512 :=
  let w := v.toNat
  BitVec.ofNat 512 (w - granuleBits v off n * 2 ^ (8 * off) + x % 2 ^ (8 * n) * 2 ^ (8 * off))

/-- The replica of a granule at a die. -/
def Die.granule? (d : Die) (k : Nat) : Option Granule := (d.granules.find? (fun e => e.1 = k)).map (·.2)
/-- Give a die a granule. -/
def Die.setGranule (d : Die) (k : Nat) (x : Granule) : Die := { d with granules := place k x d.granules }

/-- Merge of a whole granule, cell by cell (R323). -/
def mergeGranule (lat : Nat) (v c : BitVec 512) : BitVec 512 :=
  let n := cellBytes lat
  (span 0 (64 / n)).foldl (fun c i => setGranuleBits c (n * i) n (mergeCell lat (granuleBits v (n * i) n) (granuleBits c (n * i) n))) c

/-- Keystone's value of a granule: the frame, or on a chip that is not its home the shadow (R324). -/
def State.keystone? (s : State) (k : Nat) : Option (BitVec 512) :=
  if paChip (64 * k) = s.chip then some (BitVec.ofNat 512 (s.loadLE (64 * k) 64))
  else match s.flow.shadow.find? (fun e => e.1 = k) with
    | some e => some e.2.value
    | none => none

/-- Byte offsets of poisoned 8-byte units of a granule's frame. -/
def State.granulePoison (s : State) (k : Nat) : List Nat := (span 0 8).filter (fun u => s.poisoned (64 * k + 8 * u))

/-- Marked units of Keystone's copy of a granule: the frame's, or the shadow's. -/
def State.keystoneMarks (s : State) (k : Nat) : List Nat :=
  if paChip (64 * k) = s.chip then s.granulePoison k
  else match s.flow.shadow.find? (fun e => e.1 = k) with
    | some e => e.2.poison
    | none => []

/-! ### Parked loads (R242, R332) -/

/-- A parked load completes with a value: the destination is written and C goes on (R242). -/
def State.completeParked (s : State) (p : Parked) (c : Nat) : State :=
  s.onCore p.core (fun x => (x.deliverTo p.dest 32 (cellValue p.lat c)).onStrand .c (Strand.advance .c))

/-- The value of a cell in a die's replica. -/
def Die.cell? (d : Die) (lat pa : Nat) : Option Nat :=
  (d.granule? (granuleOf pa)).map (fun g => granuleBits g.value (pa % 64) (cellBytes lat))

/-- The first marked unit of a cell in a die's replica. -/
def Die.markedUnit (d : Die) (lat pa : Nat) : Option Nat :=
  match d.granule? (granuleOf pa) with
  | some g => ((span 0 (cellBytes lat)).map (fun i => (pa + i) / 8 * 8)).find? (fun u => g.poison.contains (u % 64 / 8))
  | none => none

/-- What becomes of a parked load at its die now. -/
inductive ParkedTest where
  | waits
  | value (c : Nat)
  | marked (u : Nat)
  deriving DecidableEq, Repr

/-- The test of a parked load: a marked unit of its cell is consumed, else the cell is compared (R324, R332, R413). -/
def Die.testOf (d : Die) (p : Parked) : ParkedTest :=
  match d.markedUnit p.lat p.cell, d.cell? p.lat p.cell with
  | some u, _ => .marked u
  | none, some c => if thresholdMet p.lat p.theta.toNat c then .value c else .waits
  | none, none => .waits

/-- Test every load parked at a die after a change; all that are satisfied complete, and one that meets a marked unit is withdrawn
with a fault (R332, R413). -/
def State.testParked (s : State) (d : Nat) : State :=
  let x := s.die d
  let s' := s.onDie d (fun x => { x with parked := x.parked.filter (fun p => decide (x.testOf p = .waits)) })
  x.parked.foldl (fun s p => match x.testOf p with
    | .value c => s.completeParked p c
    | .marked u => s.taskFault p.core .c false 0x2C p.pc (BitVec.ofNat 64 u) 4
    | .waits => s) s'

/-- Merge a granule value into a die's replica, and test what is parked there (R323, R332). -/
def State.mergeAtDie (s : State) (d k : Nat) (v : BitVec 512) : State :=
  (s.onDie d (fun x => match x.granule? k with
    | some g => x.setGranule k { g with value := mergeGranule g.lat v g.value }
    | none => x)).testParked d

/-- Other dies that hold a granule owe it a change at Keystone (R325). -/
def State.markStale (s : State) (k : Nat) : State :=
  { s with dies := s.dies.map (fun e => (e.1, match e.2.granule? k with
    | some g => e.2.setGranule k { g with stale := true }
    | none => e.2)) }

/-- Keystone takes a granule's new value: the frame, or the shadow, with the pod's directions owed it (R324, R328). -/
def State.setKeystone (s : State) (k : Nat) (lat : Nat) (pod : Bool) (v : BitVec 512) : State :=
  let s := if paChip (64 * k) = s.chip then { s with mem := (s.setBytes (span (64 * k) 64) (leBytes 64 v.toNat)).mem }
    else { s with flow := { s.flow with shadow := place k { lat := lat, value := v, pod := true, poison := s.keystoneMarks k } s.flow.shadow } }
  let s := s.markStale k
  if pod then
    { s with flow := { s.flow with podDirty := s.flow.podDirty ++ ((span 0 6).map (fun j => (k, j))).filter (fun e => !s.flow.podDirty.contains e) } }
  else s

/-- A granule of this chip's frames is obtained by a die or a chip: Keystone knows its lattice type. -/
def State.know (s : State) (k lat : Nat) : State :=
  if paChip (64 * k) = s.chip then { s with flow := { s.flow with known := place k lat s.flow.known } } else s

/-- Merge a value into Keystone's replica of a granule (R325). -/
def State.mergeAtKeystone (s : State) (k lat : Nat) (pod : Bool) (v : BitVec 512) : State :=
  match s.keystone? k with
  | some old =>
    let n := mergeGranule lat v old
    if n = old then s else s.setKeystone k lat pod n
  | none => s

/-- Apply a local join at a die that holds the granule (R241, R323). -/
def State.joinAtDie (s : State) (d lat pa x : Nat) (slot : Nat) : State :=
  (s.onDie d (fun y => match y.granule? (granuleOf pa) with
    | some g =>
      let n := cellBytes lat
      let c := granuleBits g.value (pa % 64) n
      y.setGranule (granuleOf pa) { g with value := setGranuleBits g.value (pa % 64) n (joinCell lat slot x c), dirty := true }
    | none => y)).testParked d

end Sys2Proof.Machine
end

