-- ==== Sys2Proof/Machine/Fabric.lean ====
section
/-! DEFINITION. The requester's side of the fabric: requests, reissues and their ends, and packets placed in this chip's
routers (R359, R360, R438 to R442, R446). -/

namespace Sys2Proof.Machine

/-- The default and override parts of a bank (R362). -/
def Fabric.def_ (f : Fabric) (bank : Bool) : BitVec 24 := if bank then f.def1 else f.def0
def Fabric.ovr (f : Fabric) (bank : Bool) : Sparse (BitVec 6) := if bank then f.ovr1 else f.ovr0

/-- Inject both copies of a control packet, under one SEQ (R361). -/
def State.injectControl (s : State) (p : Packet) : State :=
  let p := { p with seq := s.fabric.seqTo p.dst }
  ((s.onFabric (fun f => f.useSeq p.dst)).inject { p with pathB := false }).inject { p with pathB := true }

/-- Ask a granule's home chip for it, once, with the lattice type of its page (R324). -/
def State.askHome (s : State) (k lat : Nat) : State :=
  if s.flow.asked.contains k then s
  else ({ s with flow := { s.flow with asked := s.flow.asked ++ [k] } }).injectControl
    { kind := .fetch, src := 0, dst := paChip (64 * k), addr := 64 * k, wire := lat }

/-! ### The pod's chips and times (R328, R362, R366) -/

/-- Extents of the torus (R362). -/
def State.extents (s : State) : Nat × Nat × Nat :=
  let d := (s.fabric.def_ s.fabric.cur).toNat / 4096
  (d % 16 + 1, d / 16 % 16 + 1, d / 256 % 16 + 1)

/-- Coordinate and extent along the axis of a direction. -/
def State.axis (s : State) (dir : Nat) : Nat × Nat :=
  let (x, y, z) := s.extents
  let c := s.chip
  match dir / 2 with
  | 0 => (c % 16, x)
  | 1 => (c / 16 % 16, y)
  | _ => (c / 256, z)

/-- The chip next to this one in a direction. -/
def State.neighbour (s : State) (dir : Nat) : Nat :=
  let (c, n) := s.axis dir
  let w := 16 ^ (dir / 2)
  s.chip - c * w + (if dir % 2 = 0 then (c + 1) % n else (c + n - 1) % n) * w

/-- The chip at the other end of a port: a torus port's neighbour, the peer of the circuit that an express port is joined to, or was last
joined to by another chip (R357, R368). -/
def State.portPeer (s : State) (p : Nat) : Nat :=
  let x := s.fabric.port p
  if p < 24 then s.neighbour (p / 4)
  else if x.far ≠ .idle ∨ x.circuit = .idle ∨ x.circuit = .setup ∨ x.circuit = .wait then x.farPeer else x.peer
/-- The port at the other end, where a torus port meets the same lane of the opposite direction, an express port the same
number (R357; log entry 69). -/
def portEnd (p : Nat) : Nat := if p < 24 then 4 * (p / 4 + 1 - 2 * (p / 4 % 2)) + p % 4 else p

/-- TIME of the optical die that a port lies on (R16, R357). -/
def State.portTime (s : State) (p : Nat) : Nat := (s.die (9 + p / 8)).time.toNat

/-- Change a request. -/
def State.onRequest (s : State) (id : Nat) (f : Request → Request) : State :=
  s.onFabric (fun x => { x with requests := x.requests.map (fun r => if r.id = id then f r else r) })

/-- Reissue a request with the same SEQ and its own issue time, with ALT set where asked (R359, R438, R446). -/
def State.reissue (s : State) (r : Request) (alt : Bool) : State :=
  let now := s.timeOf r.core
  (s.onRequest r.id (fun r => { r with issued := now, reissued := true, alt := r.alt || alt, timing := true, busy := false })).inject
    { kind := .request, src := 0, dst := r.chip, seq := r.seq, alt := r.alt || alt, issued := s.stamp, addr := r.addr, what := some r.what }

/-- A fault of a launch found after its issue, of a core that may already run another task (R442, R140). -/
def State.lateFault (s : State) (g : Nat) (k : StrandKind) (launch cause : Nat) (pc addr data : Word) : State :=
  match (s.core g).task with
  | some t =>
    if t.launch = launch then s.taskFault g k false cause pc addr data
    else
      s.enter { s.deviceRecord (dieOf g) cause addr data with
        tag := s.tagOf launch, lfail := true, rcl := 6, pc := pc, gcore := g, strand := strandNum k, ends := some launch, sequel := .fail [launch] cause }
  | none =>
    s.enter { s.deviceRecord (dieOf g) cause addr data with
      tag := s.tagOf launch, lfail := true, rcl := 6, pc := pc, gcore := g, strand := strandNum k, ends := some launch, sequel := .fail [launch] cause }

/-- The entry at the head of an engine queue goes (R442). -/
def Core.dropHead (c : Core) (q : Nat) : Core :=
  if q = 16 then { c with tq := c.tq.tail }
  else if q < 25 then c.setChannel (q - 17) (let x := c.channel (q - 17); { x with queue := x.queue.tail, live := x.live.filter (fun i => decide (x.queue.head?.bind Entry.tid ≠ some i)) })
  else if q = 25 then c.popSend
  else if q = 29 ∨ q = 30 then { c with items := c.items.tail }
  else c

/-! ### Sends on this chip (R263, R265, R371) -/

/-- Change a plan of a core (R366). -/
def State.onPlan (s : State) (g send : Nat) (f : Plan → Plan) : State :=
  s.onFabric (fun x => { x with plans := x.plans.map (fun p => if p.core = g ∧ p.send.id = send then f p else p) })

/-- The home answers a request: the response goes back, cause 0 for success, and is kept with a SEQ that is in the window
(R360). -/
def State.respond (s : State) (chip seq cause : Nat) (bytes : List Byte) (marks : List Nat := []) : State :=
  (s.onFabric (fun f => { f with windows := put [] f.windows chip ((look [] f.windows chip).map (fun e =>
    if e.seq = seq then { e with cause := some cause, bytes := bytes, marks := marks } else e)) })).inject
    { kind := .response, src := 0, dst := chip, seq := seq, payload := bytes, marks := marks, tag := BitVec.ofNat 32 cause }

/-- The home answers a request with an error: its cause and, in the payload, the physical address that it names. -/
def State.respondError (s : State) (chip seq cause addr : Nat) : State := s.respond chip seq cause (leBytes 8 addr)

/-- Pieces that satisfy a condition go. -/
def State.dropPieces (s : State) (p : Piece → Bool) : State :=
  s.onFabric (fun f => { f with pieces := f.pieces.filter (fun x => !p x) })

/-- One destination of a send has acknowledged what it was sent (R265). -/
def State.ackSend (s : State) (g id : Nat) : State :=
  s.onCore g (fun c => { c with flying := c.flying.map (fun f => if f.send.id = id then { f with owed := f.owed - 1 } else f) })

/-- A piece has been performed, or its member receives nothing (R263). -/
def State.donePiece (s : State) (p : Piece) : State :=
  let s := s.dropPieces (fun x => decide (x.id = p.id))
  let s := match p.sender with
    | some (g, id) => s.ackSend g id
    | none => s
  match p.reply with
  | some (chip, seq) => if s.fabric.pieces.any (fun x => decide (x.reply = p.reply)) then s else s.respond chip seq 0 []
  | none => s

/-- The destination refuses a piece, or its way there fails: its send ends, and the requester takes the fault (R263, R442). -/
def State.failPiece (s : State) (p : Piece) (cause : Nat) (addr : Word) (data : Word := 0) : State :=
  let s := s.dropPieces (fun x => decide (x.id = p.id) || (p.sender.isSome && decide (x.sender = p.sender)) || (p.reply.isSome && decide (x.reply = p.reply)))
  let s := match p.sender with
    | some (g, id) => (match (s.core g).flying.find? (fun f => f.send.id = id) with
      | some f => (s.onCore g (fun c => c.endSend id)).lateFault g .a f.send.launch cause f.send.pc addr data
      | none => s)
    | none => s
  match p.reply with
  | some (chip, seq) => s.respondError chip seq cause addr.toNat
  | none => s

/-! ### Circuits (R368, R445) -/

/-- A circuit request or release has ended (R266, R368, R445). -/
def State.circuitEnds (s : State) (p : Nat) (a : Asker) (ok : Bool) (release : Bool) : State :=
  match a with
  | .none => s
  | .xcirc g flag slot launch _ =>
    (match (s.core g).task with
     | some t => if t.launch = launch then s.onCore g (fun c => (if ok then c.hwAdd flag 1 else c).clearSlot .a slot) else s
     | none => s)
  | .command q index tag irq => if ok then s.completeCommand q index tag irq else s
  | .plan g id => s.onPlan g id (fun x =>
      if !ok then { x with failed := true } else if release then { x with down := x.down ++ [p] } else { x with up := x.up ++ [p] })

/-- A port sends SETUP for its circuit (R368). A port that another chip's circuit holds is a reserved cross-point of this chip's own hop,
which answers BUSY. -/
def State.sendSetup (s : State) (p : Nat) : State :=
  (s.onPort p (fun y => { y with circuit := .setup, circuitSince := s.portTime p })).injectControl
    (if (s.fabric.port p).far = .idle then { kind := .setup, src := 0, dst := (s.fabric.port p).peer, addr := p }
     else { kind := .busy, src := 0, dst := s.chip, addr := p })

/-- A port begins to drain (R367): DRAIN goes to its peer, naming the peer's port. -/
def State.beginDrain (s : State) (p : Nat) (active : Option PortCommand) : State :=
  (s.onPort p (fun x => { x with state := .draining, since := s.portTime p, acked := false, active := active })).injectControl
    { kind := .drain, src := 0, dst := s.portPeer p, addr := portEnd p }

/-- The port takes the waiting requests and releases that its circuit's state allows, in order (R368). A release also drains the port by
R367, where it is UP. DESIGN CHOICE (log entry 131), unsafe: a release asked of a circuit that is IDLE, and a request for the peer that
the port is already joined to, complete at once with success; R368's table, R266 and R445 name neither pair. -/
def State.pumpCircuit (s : State) (p : Nat) : Nat → State
  | 0 => s
  | fuel + 1 =>
    let x := s.fabric.port p
    match x.asks with
    | [] => s
    | a :: rest =>
      let t := s.onPort p (fun y => { y with asks := rest })
      match x.circuit, a.release with
      | .idle, false =>
        if x.far = .up ∧ x.farPeer = a.peer then (t.circuitEnds p a.asker true false).pumpCircuit p fuel
        else (t.onPort p (fun y => { y with peer := a.peer, tries := 0, asker := a.asker })).sendSetup p
      | .idle, true => (t.circuitEnds p a.asker true true).pumpCircuit p fuel
      | .up, true =>
        let t := (t.onPort p (fun y => { y with circuit := .tearing, circuitSince := s.portTime p, asker := a.asker })).injectControl
          { kind := .teardown, src := 0, dst := x.peer, addr := p }
        if x.state = .up then t.beginDrain p Option.none else t
      | .up, false => if x.peer = a.peer then (t.circuitEnds p a.asker true false).pumpCircuit p fuel else s
      | _, _ => s

/-- The port takes what waits there. -/
def State.pumpPortCircuit (s : State) (p : Nat) : State := s.pumpCircuit p ((s.fabric.port p).asks.length)

/-- Ask for or release a circuit at a port. -/
def State.askCircuit (s : State) (p peer : Nat) (release : Bool) (a : Asker) : State :=
  (s.onPort p (fun x => { x with asks := x.asks ++ [⟨peer, release, a⟩] })).pumpPortCircuit p

/-! ### Ends of requests -/

/-- Access number of a pending sum on its way to another chip (R140). -/
def quaAccess : Nat := 2 ^ 64

/-- A pending sum that was on its way leaves its die's list. -/
def State.landQua (s : State) (r : Request) : State :=
  s.onDie (dieOf r.core) (fun x => match x.qua.find? (fun q => q.flying && decide (q.addrs.head? = some r.addr)) with
    | some q => { x with qua := x.qua.erase q }
    | none => x)

/-- The pending sum that a request carries. -/
def State.quaOf (s : State) (r : Request) : Option Qua :=
  (s.die (dieOf r.core)).qua.find? (fun q => q.flying && decide (q.addrs.head? = some r.addr))

/-- A pending sum is lost: one record of RCL 6 against the task that made its first increment, and every launch that added to it fails
with it (R140). -/
def State.loseSum (s : State) (q : Qua) (cause : Nat) (addr data : Word) : State :=
  match q.from_ with
  | [] => s
  | (g, k, l) :: _ =>
    let ls := (q.from_.map (fun e => e.2.2)).eraseDups
    let mine := match (s.core g).task with | some t => decide (t.launch = l) | none => false
    let r := if mine then { s.taskRecord g k false cause 6 q.pc addr data with sequel := .fail ls cause }
      else { s.deviceRecord (dieOf g) cause addr data with
        tag := s.tagOf l, lfail := true, rcl := 6, pc := q.pc, gcore := g, strand := strandNum k, ends := some l, sequel := .fail ls cause }
    (if mine then s.stopFor g k 6 else s).enter r

/-- The plan that a core runs fails (R366, R442, R445). -/
def State.breakPlan (s : State) (g : Nat) : State :=
  s.onFabric (fun f => { f with plans := f.plans.map (fun p => if p.core = g then { p with failed := true, mute := p.closing.isSome } else p) })

/-- A request ends without success: no value is written, its destination and slot stay as they are, and the launch of the instruction
that it serves fails (R442): for a piece of a send that is its sender's. -/
def State.endRequest (s : State) (r : Request) (cause : Nat) (addr data : Word) : State :=
  let s := s.onFabric (fun f => { f with requests := f.requests.filter (fun x => decide (x.id ≠ r.id)) })
  let q := engineQueue r.access
  if r.access = quaAccess then (match s.quaOf r with | some x => s.loseSum x cause addr data | none => s).landQua r
  else if r.isSend then (s.onCore r.core (fun c => c.endSend r.access)).lateFault r.core r.strand r.launch cause r.pc addr data
  else if r.access = walkAccess r.addr then s.lateFault r.core r.strand r.launch cause r.pc addr data
  else if 2 ^ 65 ≤ r.access && decide (64 ≤ q) then
    (match s.fabric.pieces.find? (fun p => decide (p.id = q - 64)) with | some p => s.failPiece p cause addr data | none => s)
  else
    let s := if 2 ^ 65 ≤ r.access then
        (if q = 26 ∨ q = 27 ∨ q = 31 then s.breakPlan r.core else s.onCore r.core (fun c => c.dropHead q))
      else s.onCore r.core (fun c => c.setOut r.strand ((c.out r.strand).filter (fun x => decide (x.id ≠ r.access))))
    s.lateFault r.core r.strand r.launch cause r.pc addr data

/-- A reissued request may complete only FLIFE after its latest issue (R440). -/
def State.rests (s : State) (r : Request) : Bool :=
  r.reissued && decide (s.timeOf r.core < r.issued + 1000 * s.fabric.flife.toNat)

/-- A response that may complete its request (R440). -/
def State.response (s : State) (r : Request) : Option (List Byte) := if s.rests r then none else r.answered

/-- An error reply that may complete its request (R440). -/
def State.failure (s : State) (r : Request) : Option Nat := if s.rests r then none else r.refused

/-- The address and the data of the record of an error reply: the unit or line that the home names, else the target (R417, R437). -/
def State.errorWords (s : State) (r : Request) (cause : Nat) (target : Word) : Word × Word :=
  if cause = 0x2C then (BitVec.ofNat 64 r.errorAt, BitVec.ofNat 64 (s.arrayOf r.errorAt))
  else if cause = 0x2D then (BitVec.ofNat 64 r.errorAt, 16)
  else (target, 0)

/-- Remove a request. -/
def State.dropRequest (s : State) (r : Request) : State :=
  s.onFabric (fun f => { f with requests := f.requests.filter (fun x => decide (x.id ≠ r.id)) })

/-- A walk's request that has its response: the caches take the bytes of the table (R55). -/
def State.settleWalk (s : State) (r : Request) : State :=
  match s.failure r, s.response r with
  | some c, _ => let w := s.errorWords r c (BitVec.ofNat 64 r.addr); s.endRequest r c w.1 w.2
  | none, some b => (s.dropRequest r).holdTable r.addr b
  | none, none => s

/-- A send's, a pending sum's or a walk's request that has its response ends here; others end with their access. -/
def State.settleRequest (s : State) (r : Request) : State :=
  if r.access = walkAccess r.addr then s.settleWalk r
  else if !r.isSend && decide (r.access ≠ quaAccess) then s
  else match s.failure r, s.response r with
    | some c, _ =>
      if r.isSend then s.endRequest r c (match r.what with | .send dst _ _ _ _ _ => dst | _ => BitVec.ofNat 64 r.addr) 0
      else s.endRequest r 0x2C (BitVec.ofNat 64 r.addr) (BitVec.ofNat 64 (s.arrayOf r.addr))
    | none, some _ => if r.isSend then (s.dropRequest r).ackSend r.core r.access else (s.dropRequest r).landQua r
    | none, none => s

/-- Settle every request that can be. -/
def State.settleRequests (s : State) : State := s.fabric.requests.foldl (fun s r => s.settleRequest r) s

/-- One expiry of a request: a reissue with ALT while reissues remain, else REMOTE_TIMEOUT (R359, R441). `broken` names the
chip that last replied ROUTE_BROKEN. -/
def State.expire (s : State) (r : Request) (broken : Option Nat) : State :=
  if r.expiries < s.fabric.fretry.toNat then
    (s.onRequest r.id (fun r => { r with expiries := r.expiries + 1, brokenBy := broken })).reissue { r with expiries := r.expiries + 1 } true
  else s.endRequest r 0x60 (BitVec.ofNat 64 r.addr) (BitVec.ofNat 64 (match broken with | some c => c | none => r.chip))

end Sys2Proof.Machine
end

