-- ==== Sys2Proof/Machine/Atomics.lean ====
section
/-! DEFINITION. Atomic operations: what each stores, the units that execute them, merging, pending QUA sums, and the
request that AMOV, CASV, AMO and ACAS make at issue (R137 to R141, R226 to R231, R267, R394). -/

namespace Sys2Proof.Machine

/-- Bytes of an atomic type (R226). -/
def atomicBytes (ty : Nat) : Nat :=
  match ty with
  | 1 => 8
  | 4 => 16
  | _ => 4

/-- The value that an operation stores over `m`, with the flags of FADD (R227, R230). -/
def atomicStored (op ty m v : Nat) : Nat × Flags :=
  let w := 8 * atomicBytes ty
  match op with
  | 1 => ((m + v) % 2 ^ w, 0)
  | 2 => (m &&& v, 0)
  | 3 => (m ||| v, 0)
  | 4 => (m ^^^ v, 0)
  | 5 => (if sInt w v < sInt w m then v else m, 0)
  | 6 => (if sInt w m < sInt w v then v else m, 0)
  | 7 => (min m v, 0)
  | 8 => (max m v, 0)
  | 9 =>
    if ty = 2 then fAdd fp32 0 false m v
    else
      let lo := fAdd bf16 0 false (m % 2 ^ 16) (v % 2 ^ 16)
      let hi := fAdd bf16 0 false (m / 2 ^ 16) (v / 2 ^ 16)
      (lo.1 + 2 ^ 16 * hi.1, lo.2 ||| hi.2)
  | 10 => (m, 0)
  | _ => (v, 0)

/-- What host memory supports (R229). -/
def hostAtomicOk (op ty use : Nat) (cas : Bool) : Bool :=
  if cas then ty = 0 || ty = 1 || ty = 4
  else if op = 0 || op = 1 then (ty = 0 || ty = 1) && use ≠ 3
  else if op = 10 || op = 11 then ty ≠ 4
  else false

/-! ### Units and their status (R228, R394) -/

/-- The home L2 slice of an address (R57). -/
def sliceOf (pa : Nat) : Nat :=
  let f (sh : Nat) : Nat := pa / 2 ^ sh % 512
  f 8 ^^^ f 17 ^^^ f 26 ^^^ f 35 ^^^ (pa / 2 ^ 44 % 16)

/-- The number of an atomic unit among vaults, engines and slices. -/
def unitNumber : AtomicUnit → Nat
  | .vault g => g
  | .engine d => 768 + d
  | .slice n => 776 + n

/-- The unit at which an atomic of an address and HOME executes (R228). -/
def unitFor (pa : Nat) (home : BitVec 2) : AtomicUnit :=
  if paSpace pa = 4 then .vault (paOffset pa / 2 ^ 29 * 96 + paOffset pa / 2 ^ 22 % 128)
  else if home = 0 then .engine (homeDie pa)
  else .slice (sliceOf pa)

/-- Accrue flags of a non-returning FADD into a unit's status (R230, R394). -/
def State.accrueUnit (s : State) (u : AtomicUnit) (ctx : Nat) (x : Flags) : State :=
  if x = 0 then s
  else
    let old := look 0 s.atst (unitNumber u)
    { s with atst := put 0 s.atst (unitNumber u) (BitVec.ofNat 12 (ctx % 16 * 256 + (old.extractLsb' 0 5 ||| x).toNat)) }

/-! ### Pending sums (R140, R336) -/

/-- The scope of a location: 0 CORE, 1 DIE, 2 DEV, 3 POD (R125), seen from core `g`. -/
def scopeOfAddr (g : Nat) (pa : Nat) (virtual : Bool) (home : BitVec 2) : Nat :=
  if !virtual then (if paOffset pa / 2 ^ 29 * 96 + paOffset pa / 2 ^ 22 % 128 = g then 0 else 1)
  else if paSpace pa = 2 then 2
  else home.toNat + 1

/-- The scope of an access's location (R125). -/
def Access.scope (x : Access) (g : Nat) : Nat :=
  match x.addrs with
  | a :: _ => scopeOfAddr g (a * x.unit / 8) x.virtual x.home
  | [] => 0

/-- The scope of a pending sum's location. -/
def Qua.scope (q : Qua) : Nat :=
  match q.addrs, q.from_ with
  | a :: _, (g, _, _) :: _ => scopeOfAddr g (a * q.unit / 8) (paSpace (a * q.unit / 8) ≠ 4) q.home
  | _, _ => 2

/-- A flush meets an error: the sum is lost with cause 0x2C, its ADDR the location and its DATA the array (R140). -/
def State.loseQua (s : State) (q : Qua) (a : Nat) : State := s.loseSum q 0x2C (BitVec.ofNat 64 a) (BitVec.ofNat 64 (s.arrayOf a))

/-- A sum's location lies in the vault of another core that neither runs nor holds staged a task of the adding context (R52, R75). -/
def State.quaClosed (s : State) (q : Qua) : Bool :=
  match q.addrs, q.from_ with
  | a :: _, (g, _, _) :: _ =>
    let pa := a * q.unit / 8
    let h := paOffset pa / 2 ^ 29 * 96 + paOffset pa / 2 ^ 22 % 128
    decide (q.route = .plain) && decide (paSpace pa = 4) && decide (h ≠ g) && !(s.core h).serves q.ctx
  | _, _ => false

/-- Why a sum cannot be added: the address of its location (R52, R56, R140, R412, R417, R448). -/
def State.quaError (s : State) (q : Qua) : Option Nat :=
  let bytes := unitBytes q.unit q.addrs
  if s.quaClosed q || bytes.any (fun a => !s.mapped a) || (s.firstPoison bytes).isSome
      || bytes.any (fun a => s.upsets.any (fun u => u = .metadata (memKey a / 4096 * 4096))) then
    some (s.chip * 2 ^ 52 + memKey (bytes.headD 0))
  else none

/-- Decay of this kcy is due: MCTL.HALF is k and the cycle count is a multiple of 2^k (R337). -/
def State.decayDue (s : State) : Bool :=
  let k := s.mason.half.toNat
  decide (k ≠ 0) && decide (s.mgmt.kcy.toNat % 2 ^ k = 0) && decide (s.mason.decayed ≠ some s.mgmt.kcy)

/-- Every counter is halved in one step, once in its kcy (R337). -/
def State.decay (s : State) : State :=
  if s.decayDue then
    { s with mason := { s.mason with
        decayed := some s.mgmt.kcy
        mcnt := s.mason.mcnt.filterMap (fun (e : Nat × BitVec 32) => if e.2.toNat / 2 = 0 then none else some (e.1, BitVec.ofNat 32 (e.2.toNat / 2))) } }
  else s

/-- A pending sum is added to its location in one step (R140), or to the expert load counter, after
the halving of its kcy, where it saturates (R336, R337). A
location on another chip takes it by a request. The die's list keeps the sum only while it is on its way. -/
def State.flushQua (s : State) (d : Nat) (q : Qua) : State :=
  let rest := (s.die d).qua.filter (fun x => decide (x ≠ q))
  match q.counter with
  | some e =>
    let s := (s.onDie d (fun x => { x with qua := rest })).decay
    let k := 8 * e + d
    { s with mason := { s.mason with mcnt := put 0 s.mason.mcnt k (BitVec.ofNat 32 (min ((look 0 s.mason.mcnt k).toNat + q.sum) (2 ^ 32 - 1))) } }
  | none =>
    match q.route, q.addrs, q.from_ with
    | .remote chip, a :: _, (g, k, l) :: _ =>
      match s.request g k quaAccess chip a (.atomic 1 q.ty false (BitVec.ofNat 128 q.sum) 0 q.unit q.addrs q.home q.ctx false) false l q.pc with
      | some t => t.onDie d (fun x => { x with qua := rest ++ [{ q with flying := true }] })
      | none => s
    | _, _ :: _, _ =>
      let s := s.onDie d (fun x => { x with qua := rest })
      match s.quaError q with
      | some a => s.loseQua q a
      | none => s.storeUnits q.unit q.addrs ((s.loadUnits q.unit q.addrs + q.sum) % 2 ^ (8 * atomicBytes q.ty))
    | _, [], _ => s.onDie d (fun x => { x with qua := rest })

/-- Hold an increment in its die's pending sum, one for each address context that adds (R75); at 256 the sum is added (R140). -/
def State.holdQua (s : State) (d : Nat) (q : Qua) : State :=
  let old := (s.die d).qua
  let q := { q with since := (s.die d).time.toNat }
  match old.find? (fun x => !x.flying && decide (x.addrs = q.addrs) && decide (x.ty = q.ty) && decide (x.counter = q.counter) && decide (x.ctx = q.ctx)) with
  | some x =>
    let y := { x with sum := x.sum + q.sum, from_ := x.from_ ++ q.from_ }
    let s := s.onDie d (fun z => { z with qua := z.qua.map (fun e => if e = x then y else e) })
    if 256 ≤ y.sum then s.flushQua d y else s
  | none =>
    let s := s.onDie d (fun z => { z with qua := z.qua ++ [q] })
    if 256 ≤ q.sum then s.flushQua d q else s

/-- A fence of a scope flushes the sums of locations of that scope or narrower to which the strand added; an expert load counter of
Keystone is a location of the module, DEV (R140, R243, R336). -/
def State.fenceQua (s : State) (g : Nat) (k : StrandKind) (scope : Nat) : State :=
  ((s.die (dieOf g)).qua.filter (fun q => !q.flying && decide (q.scope ≤ scope)
      && q.from_.any (fun e => decide (e.1 = g) && decide (e.2.1 = k)))).foldl (fun s q => s.flushQua (dieOf g) q) s

/-! ### Issue of an atomic (R226 to R231, R267) -/

/-- What the four atomic instructions ask for. -/
structure AtomicAsk where
  k : StrandKind
  opcode : Nat
  addr : Word
  op : Nat
  ty : Nat
  order : Nat
  use : Nat
  narrow : Bool
  cas : Bool
  operand : BitVec 128
  expected : BitVec 128
  dest : Dest
  slot : Nat
  wait : BitVec 7
  flag : Nat

/-- The access of an atomic. -/
def AtomicAsk.access (q : AtomicAsk) (x : Access) : Access :=
  { x with
    kind := .atomic q.op q.ty q.cas q.operand q.expected q.use, dest := q.dest, slot := q.slot, flag := q.flag,
    acquire := q.order = 1 || q.order = 3, release := q.order = 2 || q.order = 3, narrow := q.narrow,
    loose := q.use = 1 || q.use = 2 || q.use = 3, spc := q.use = 4, waits := if q.use = 4 then q.wait else 0 }

/-- Faults of translation, protection, bounds and page-in, which an SPC read never raises (R141): vault protection 0x21, bounds 0x23,
translation 0x24, protection 0x25, and a page-in that failed, 0x29 and 0x6B. -/
def sparedCause (c : Nat) : Bool := c = 0x21 || c = 0x23 || c = 0x24 || c = 0x25 || c = 0x29 || c = 0x6B

/-- An atomic at issue: the operand check, the address checks, the host's limits; then it seals and goes out. An SPC read
goes on without translation, protection, bounds and page-in faults (R141). -/
def atomicIssue (q : AtomicAsk) (s : State) : Did :=
  let n := atomicBytes q.ty
  let go (s : State) (x : Access) : Did := .done (s.sealMine.addAccesses q.k [q.access x])
  let nowhere : Access := { id := 0, grp := 0, pc := 0, vaddr := q.addr, route := .nowhere }
  if q.use = 3 && decide (sInt (8 * n) q.operand.toNat ≤ 0) then .trap 0x0A q.addr (BitVec.ofNat 64 q.opcode)
  else match s.check s.cur s.myCtx q.addr n n (span 0 n) (.atomic (!q.cas && q.op = 10)) with
    | .fault c a => if q.use = 4 && sparedCause c then go s nowhere else .trap c a 0
    | .pageIn t p => if q.use = 4 then go s nowhere else s.waitPage q.k t p
    | .walk pa m => s.waitTable q.k pa m
    | .ok t =>
      if t.virtual && t.space = 2 && !(s.host.requester && hostAtomicOk q.op q.ty q.use q.cas) then
        .trap 0x63 q.addr (BitVec.ofNat 64 (8 * q.op + q.ty))
      else go s (t.access q.addr)

end Sys2Proof.Machine
end

