-- ==== Sys2Proof/Machine/Frames.lean ====
section
/-! DEFINITION. Page frames: what the pager has free, the order in which it takes one, pages made resident, and live page entries
(R69, R71, R73, R198, R421, R422). -/

namespace Sys2Proof.Machine

/-- Bytes of a page. -/
def pageBytes : Nat := 65536

/-- Copy a page frame with its poison marks (R412). -/
def State.copyFrame (s : State) (src dst : Nat) : State :=
  let bad := (span 0 2048).filter (fun i => s.poisoned (src + 32 * i))
  (s.store (span dst pageBytes) (s.load (span src pageBytes))).markAll (bad.map (fun i => dst + 32 * i))

/-- TTINV completes for an entry: no cache of the context holds an old one, nor what a walk brought from another chip (R69). -/
def State.dropStale (s : State) (ctx entry : Nat) : State :=
  { s with walked := [], stale := s.stale.filter (fun e => !(decide (e.1 = ctx) && decide (e.2.1 = entry))) }

/-- Write the two words of a page entry; no cache keeps the old one afterwards (R69). -/
def State.writeEntry (s : State) (ctx entry : Nat) (w0 w1 : Word) : State :=
  ((s.dropStale ctx entry).writeTable entry 8 w0.toNat).writeTable (entry + 8) 8 w1.toNat

/-- Bytes that a request reads or writes at its home. -/
def RequestKind.bytes : RequestKind → List Nat
  | .load u l => unitBytes u l
  | .store u l _ _ => unitBytes u l
  | .atomic _ _ _ _ _ u l _ _ _ => unitBytes u l
  | .send _ _ _ _ _ _ => []

/-- The storage page that a tile transfer has begun to move and not yet moved whole. -/
def Transfer.midPage (x : Transfer) : Option Nat :=
  if x.part = 0 then none
  else
    let start := match x.coords with | [] => [] | c :: cs => (c + x.done * x.desc.tdim.headD 1) :: cs
    some ((x.desc.place start).1 * x.desc.tileBits / 8 / 65536)

/-- A core is in the middle of a tile in a page. -/
def State.midTile (s : State) (ctx tensor page : Nat) : Bool :=
  s.cores.any (fun c => match c.2.tq with
    | .work x :: _ => decide (x.ctx = ctx) && decide (x.desc.tid = tensor) && decide (x.midPage = some page)
    | _ => false)

/-- Something that has begun and not been performed names a byte of the frame: an access, a QUA sum that a die holds, a request of
another chip, a tile half moved (R71). -/
def State.frameBusy (s : State) (frame : Nat) : Bool :=
  let inside (l : List Nat) : Bool := l.any (fun a => decide (frame ≤ a) && decide (a < frame + pageBytes))
  let mine (x : Access) : Bool := x.virtual && inside (unitBytes x.unit x.addrs)
  let asks (p : Packet) : Bool := match p.what with | some w => inside w.bytes | none => false
  s.cores.any (fun c => c.2.outC.any mine || c.2.outA.any mine || (match c.2.tq with
      | .work x :: _ => (match x.midPage with | some p => decide ((s.readPage (x.desc.entryAddr p)).frame = frame) | none => false)
      | _ => false))
    || s.dies.any (fun d => d.2.qua.any (fun q => q.counter.isNone && inside (unitBytes q.unit q.addrs)))
    || s.fabric.ingress.any (fun e => asks e.2) || s.fabric.packets.any (fun p => decide (p.dst = s.chip) && asks p)

/-- A frame of this module's HBM. -/
def State.ownFrame (s : State) (frame : Nat) : Bool := decide (paChip frame = s.chip) && decide (paSpace frame = 0)

/-- Count frames of a frame's stack as free, or as taken. -/
def State.countFrames (s : State) (frame : Nat) (f : Nat → Nat) : State :=
  let d := homeDie frame
  if s.ownFrame frame then { s with frames := put 0 s.frames d (f (look 0 s.frames d)) } else s

/-- A page-in holds the page for the C instruction that it was made resident for (R73). -/
def State.heldPage (s : State) (ctx tensor page : Nat) : Bool :=
  s.cores.any (fun c => c.2.footprint.any (fun e => decide (e = ((0, c.2.strandC.pc), ctx, tensor, page))))

/-- The pages made resident for an instruction or entry (R73). -/
def Core.footprintOf (c : Core) (who : PageAsker) : List ((Nat × Word) × Nat × Nat × Nat) := c.footprint.filter (fun e => decide (e.1 = (who.queue, who.pc)))

/-- The pages of an entry that has ended are no longer its own. -/
def Core.leavePages (c : Core) (q : Nat) : Core := { c with footprint := c.footprint.filter (fun e => decide (e.1.1 ≠ q)) }

/-- The launch is over. -/
def State.released (s : State) (l : Nat) : Bool :=
  match s.launch? l with
  | none => true
  | some x => decide (x.state = .completed) || decide (x.state = .failed)

/-- The pager may evict a page: a valid entry, unpinned, no lattice page, no access begun, not held for a C instruction (R71, R73). -/
def State.evictable (s : State) (ctx tensor page : Nat) : Bool :=
  match s.desc? ctx tensor with
  | none => false
  | some d =>
    let p := s.readPage (d.entryAddr page)
    p.v && !p.pin && decide (p.lat = 0) && !s.frameBusy p.frame && !s.heldPage ctx tensor page

/-- The frame of a page. -/
def State.frameOf (s : State) (ctx tensor page : Nat) : Nat := match s.desc? ctx tensor with | some d => (s.readPage (d.entryAddr page)).frame | none => 0

/-- A page that the pager made resident could give its frame of a die's stack. -/
def State.canGive (s : State) (d : Nat) (r : Resident) : Bool :=
  let f := s.frameOf r.ctx r.tensor r.page
  s.ownFrame f && decide (homeDie f = d) && s.evictable r.ctx r.tensor r.page

/-- A page counts as a launch's: the pager made it resident for it, or recorded no launch and the launch has the page's context. -/
def State.ofLaunch (s : State) (l ctx tensor page : Nat) : Bool :=
  match s.residents.find? (fun r => decide ((r.ctx, r.tensor, r.page) = (ctx, tensor, page))) with
  | some r => decide (r.launch = l)
  | none => match s.launch? l with | some x => decide (x.ctx = ctx) | none => false

/-- Evict a page: its content goes to the frame that firmware keeps for it, and its entry becomes invalid. -/
def State.evict (s : State) (ctx tensor page : Nat) (back : Option Nat) (frame : Nat) : Option State :=
  match s.desc? ctx tensor with
  | none => none
  | some d =>
    let entry := d.entryAddr page
    if !s.evictable ctx tensor page || decide ((s.readPage entry).frame ≠ frame) then none
    else
      let w0 := s.tableLE entry 8
      let s := match back with | some b => s.copyFrame frame (b / pageBytes * pageBytes) | none => s
      let s := { s with residents := s.residents.filter (fun r => decide ((r.ctx, r.tensor, r.page) ≠ (ctx, tensor, page))) }
      some (s.writeEntry ctx entry (BitVec.ofNat 64 (w0 / 2 * 2)) (BitVec.ofNat 64 (s.tableLE (entry + 8) 8)))

/-- The pager refills a core's reserve of 16 from free frames before it serves a fault of another instruction (R73). -/
def State.refill (s : State) (who : PageAsker) : State :=
  let c := s.core who.core
  if who.queue ≠ 255 && (c.footprintOf who).isEmpty then
    s.onCore who.core (fun c => { c with reserve := c.reserve + min (16 - c.reserve) (s.spareFrames (dieOf who.core)) })
  else s

/-- The reserve of an instruction's core could still be refilled from a launch that is over (R73, R422). -/
def State.refillOwed (s : State) (who : PageAsker) : Bool :=
  decide (who.queue ≠ 255) && ((s.core who.core).footprintOf who).isEmpty && decide ((s.core who.core).reserve < 16)
    && s.residents.any (fun r => s.released r.launch && s.canGive (dieOf who.core) r)

/-- A page of a launch that is over gives its frame to a core's reserve (R422). -/
def State.refillFrom (s : State) (g ctx tensor page : Nat) (back : Option Nat) : Option State :=
  let f := s.frameOf ctx tensor page
  if s.residents.any (fun r => decide ((r.ctx, r.tensor, r.page) = (ctx, tensor, page)) && s.released r.launch && s.canGive (dieOf g) r)
      && decide ((s.core g).reserve < 16) && decide (s.spareFrames (dieOf g) = 0) then
    (s.evict ctx tensor page back f).map (fun s => (s.onCore g (fun c => { c with reserve := c.reserve + 1 })).countFrames f (fun n => n + 1))
  else none

/-- The pager takes a frame for an instruction, in the order of R73: a free one while one is spare, else one of the same launch's
pages, the reserve, and last a page of another launch. Frames outside this module's HBM are firmware's own. -/
def State.takeFrame (s : State) (who : PageAsker) (frame : Nat) (took : FrameFrom) : Option State :=
  let d := homeDie frame
  let spare := decide (0 < s.spareFrames d)
  let mine := s.residents.any (fun r => decide (r.launch = who.launch) && s.canGive d r)
  let reserve := decide (who.queue ≠ 255) && decide (0 < (s.core who.core).reserve)
  if !s.ownFrame frame then some s
  else match took with
    | .free => if spare then some (s.countFrames frame (fun n => n - 1)) else none
    | .reserve =>
      if spare || mine || !reserve then none
      else some ((s.onCore who.core (fun c => { c with reserve := c.reserve - 1 })).countFrames frame (fun n => n - 1))
    | .page c t p back =>
      if spare || (!s.ofLaunch who.launch c t p && (mine || reserve)) then none else s.evict c t p back frame

/-- The entry of a page is valid in a table that this module can read. -/
def State.isValid (s : State) (d : Desc) (page : Nat) : Bool := s.tableHeld (d.entryAddr page) 16 && (s.readPage (d.entryAddr page)).v

/-- Pages of ended instructions leave a core's list: those of C and A whose PC has moved on. -/
def Core.livePages (c : Core) : List ((Nat × Word) × Nat × Nat × Nat) :=
  c.footprint.filter (fun e => decide (e.1 = (0, c.strandC.pc)) || decide (e.1 = (1, c.strandA.pc)) || decide (2 ≤ e.1.1))

/-- Make a page resident for an instruction or an entry (R73, R421): the frame, the data or zeros, and the entry. None where the pager
cannot have done so. -/
def State.makeResident (s : State) (who : PageAsker) (ctx tensor page : Nat) (w0 w1 : Word) (src : Option Nat) (took : FrameFrom) : Option State :=
  match s.desc? ctx tensor with
  | none => none
  | some d =>
    let frame := w0.toNat / 2 ^ 16 * 2 ^ 16
    let lost := match src with | some a => decide (paSpace a = 1) && !s.host.tierUp | none => false
    let s := s.refill who
    if w0.toNat % 2 = 0 || lost || s.refillOwed who || s.isValid d page then none
    else match s.takeFrame who frame took with
      | none => none
      | some s =>
        let s := if paChip frame ≠ s.chip || paSpace frame = 6 then s
          else match src with
            | some a => s.copyFrame (a / pageBytes * pageBytes) frame
            | none => s.store (span frame pageBytes) (List.replicate pageBytes 0)
        let s := { s with residents := s.residents.filter (fun (r : Resident) => decide ((r.ctx, r.tensor, r.page) ≠ (ctx, tensor, page)))
                                                 ++ [({ ctx := ctx, tensor := tensor, page := page, launch := who.launch } : Resident)] }
        some ((s.writeEntry ctx (d.entryAddr page) w0 w1).onCore who.core (fun c => { c with footprint := c.livePages ++ [((who.queue, who.pc), ctx, tensor, page)] }))

/-- The frames obtained for an instruction that cannot be made resident go back (R422). -/
def State.returnFrames (s : State) (who : PageAsker) : State :=
  (((s.core who.core).footprintOf who).foldl (fun s e =>
    match s.desc? e.2.1 e.2.2.1 with
    | none => s
    | some d =>
      let entry := d.entryAddr e.2.2.2
      let p := s.readPage entry
      if p.v then
        (({ s with residents := s.residents.filter (fun r => decide ((r.ctx, r.tensor, r.page) ≠ (e.2.1, e.2.2.1, e.2.2.2))) } : State).writeEntry e.2.1 entry
          (BitVec.ofNat 64 (s.tableLE entry 8 / 2 * 2)) (BitVec.ofNat 64 (s.tableLE (entry + 8) 8))).countFrames p.frame (fun n => n + 1)
      else s) s).onCore who.core (fun c => { c with footprint := c.footprint.filter (fun e => decide (e.1 ≠ (who.queue, who.pc))) })

/-! ### Pins of a launch (R198) -/

/-- Set or clear PIN in the entry of a valid page. -/
def State.setPin (s : State) (ctx tensor page : Nat) (pin : Bool) : State :=
  match s.desc? ctx tensor with
  | none => s
  | some d =>
    let a := d.entryAddr page
    let p := s.readPage a
    if p.v then s.writeTable (a + 8) 8 (p.scale + (if pin then 128 else 0) + p.mig * 16) else s

/-- Code 0x0003 pins a page for a launch; one that its table pins already is not the launch's to release (R198). -/
def State.pinFor (s : State) (l ctx tensor page : Nat) : State :=
  let pinned := match s.desc? ctx tensor with | some d => (s.readPage (d.entryAddr page)).pin | none => false
  let ours := s.pins.any (fun r => decide ((r.ctx, r.tensor, r.page) = (ctx, tensor, page)))
  let s := if (!pinned || ours) && !s.pins.contains ⟨ctx, tensor, page, l⟩ then { s with pins := s.pins ++ [⟨ctx, tensor, page, l⟩] } else s
  s.setPin ctx tensor page true

/-- The pins of a launch end with it, but for pages that another launch pinned too (R198). -/
def State.endPins (s : State) (l : Nat) : State :=
  let kept := s.pins.filter (fun r => decide (r.launch ≠ l))
  (s.pins.filter (fun r => decide (r.launch = l))).foldl (fun s r =>
    if kept.any (fun e => decide ((e.ctx, e.tensor, e.page) = (r.ctx, r.tensor, r.page))) then s else s.setPin r.ctx r.tensor r.page false) { s with pins := kept }

end Sys2Proof.Machine
end

