-- ==== Sys2Proof/Machine/Regions.lean ====
section
/-! DEFINITION. Regions and the state of a task on its core: entry state, opening a region, starting and restarting
(R30, R40, R41, R44, R46, R191, R272, R292). -/

namespace Sys2Proof.Machine

/-- The keys from `lo` to `hi` of a map. -/
def between {α : Type} (lo hi : Nat) (m : Sparse α) : Sparse α := m.filter (fun e => decide (lo ≤ e.1) && decide (e.1 ≤ hi))

/-- The entry state of a region that opens at a REGION word (R40): s1 to s18, a1 to a16, every flag and the PC. -/
def Core.snapshot (c : Core) (pc : Word) : Snapshot :=
  { start := false, pc := pc, s := between 1 18 c.s, a := between 1 16 c.a, f := c.f }

/-- M and O strand state that REGION and a restart put back to its task-start values (R272, R292, R406). -/
def Core.resetEngines (c : Core) : Core :=
  { c with
    heldStrands := [], scales := [], nest := [], geoA := 0, geoB := 0, gangCount := 0, gangNext := none, gangOwed := [], mgoDone := 0, gangStall := 0,
    buses := [], refMode := 0, winCount := 0, statuses := [], o := [], d := [] }

/-- Command windows close: kept words are forgotten and held tile releases are made (R389, R390). -/
def Core.closeMwin (c : Core) : Core :=
  let c' := { c with mwin := {} }
  c.mwin.releases.foldl (fun c t => let x := c.tile t; c.setTile t { x with full := false }) c'
/-- The window queue's command window closes (R389). -/
def Core.closeOwin (c : Core) : Core := { c with owin := {} }

/-- A command window closes when its queue is empty and its strand has ended (R389). -/
def Core.closeIdle (c : Core) : Core :=
  let c := if c.mq.isEmpty ∧ c.strandM.status = .ended then c.closeMwin else c
  if c.oq.isEmpty ∧ c.strandO.status = .ended then c.closeOwin else c

/-! ### Replays (R391) -/

/-- Prior values return to the accumulator store (R391). -/
def State.restorePrior {α : Type} (s : State) (g : Nat) (w : CommandWindow α) : State :=
  s.store (w.prior.flatMap (fun e => span (accAt g e.1) 4)) (w.prior.flatMap (fun e => leBytes 4 e.2.toNat))

/-- Step 2 and 3 of R391 on one core: prior values return, and the window's entries stand at the head again. -/
def State.replayCore (s : State) (g : Nat) : State :=
  let w := (s.core g).mwin
  let s := s.restorePrior g w
  let idle : MEntry → MEntry := fun e => match e with | .mma x => .mma { x with started := none } | e => e
  let reset : Entry MEntry → Entry MEntry := fun e => match e with | .work e => .work (idle e) | e => e
  s.onCore g (fun c =>
    { c with gangOwed := c.gangOwed.map (fun e => (e.1, e.2.1, false)),
             mq := w.entries.map (fun e => .work (idle e)) ++ c.mq.map reset,
             mwin := { w with entries := [], replays := w.replays + 1, quiet := w.entries.length + w.quiet } })

/-- Replay of the window queue's command window: its windows stand at the head again and receive their segments by re-emission
(R391). -/
def State.replayO (s : State) (g : Nat) : State :=
  let w := (s.core g).owin
  let idle : OEntry → OEntry := fun e => match e with | .window x => .window { x with ready := false, begun := false, frame := none, ew := [], cols := [] } | e => e
  (s.restorePrior g w).onCore g (fun c =>
    { c with oq := w.entries.map (fun e => .work (idle e)) ++ c.oq.map (fun e => match e with | .work e => .work (idle e) | e => e),
             owin := { w with entries := [], replays := w.replays + 1, quiet := w.entries.length + w.quiet } })

/-- The replay that a record of RCL 2 reports: the open command windows of the cores whose tasks still run (R391, R392). -/
def State.replayWindows (s : State) (cores : List Nat) (optic : Bool) : State :=
  cores.foldl (fun s g =>
    let runs := match (s.core g).task with | some t => !t.stopped | none => false
    let s := if !runs then s else if optic then (if (s.core g).owin.isOpen then s.replayO g else s) else if (s.core g).mwin.isOpen then s.replayCore g else s
    s.onCore g (fun c => { c with heldStrands := c.heldStrands.erase (if optic then .o else .m) })) s

/-- Every strand but C becomes Unstarted (R40). -/
def Core.unstart (c : Core) : Core := { c with strandA := {}, strandM := {}, strandO := {} }

/-- The BCASTs of a core are done: none queued at their sequencers and none on the light path (R142, R269). -/
def State.bcastsDone (s : State) (g : Nat) : Bool :=
  s.buses.all (fun e => e.2.jobs.all (fun j => decide (j.cmd.core ≠ g))
    && e.2.flights.all (fun f => f.sent || (match f.cmd with | some b => decide (b.core ≠ g) | none => true)))

/-- Nothing of a core's task is in an engine queue of the core; local completion suffices for sends (R27, R45). -/
def State.queuesDone (s : State) (g : Nat) : Bool :=
  let c := s.core g
  c.tq.isEmpty && c.ch.all (fun e => e.2.queue.isEmpty) && c.sq.all (fun e => match e with | .work x => x.begun | .fence _ => false) && c.bq.isEmpty && c.mq.isEmpty && c.oq.isEmpty
    && c.triggers.isEmpty && c.timed.isEmpty && c.items.isEmpty && c.fences.isEmpty && c.flying.all (fun f => f.localDone)
    && s.fabric.plans.all (fun p => decide (p.core ≠ g))

/-- Every engine queue entry that the core's task issued is performed, its BCASTs to their last segment, so that none adds to a
flag any more (R27, R190). -/
def State.entriesDone (s : State) (g : Nat) : Bool := s.queuesDone g && s.bcastsDone g

/-- The four members of a waiting gang are discarded together when none is sealed (R46). -/
def State.gangDiscard (s : State) (g : Nat) : State :=
  if (s.gangCores g).any (fun x => (s.core x).isSealed || (s.core x).halted) then s else (s.gangCores g).foldl State.beginDiscard s

/-- Sixteen tiles whose bits and contents the spec leaves open, from free value `n` (R41, R217). -/
def freeTiles (n : Nat) : Sparse Tile :=
  (span 0 16).foldl (fun m i =>
    put {} m i { full := decide (Config.free (n + i) % 2 = 1), data := BitVec.ofNat 32768 (Config.free (n + 20 + i)) }) []

/-- The region is still sealed at its bound, with a request pending (R44). -/
def Task.overrun (t : Task) : Bool := t.region = .sealedPending && !t.stopped && decide (t.bound ≤ t.boundCount)

/-- The region bound overrun fault (R44, R409). -/
def State.boundFault (s : State) (g : Nat) (t : Task) : State :=
  let pc := (s.core g).strandC.pc
  s.taskFault g .c false 0x15 pc pc (BitVec.ofNat 64 t.bound)

/-- C of core `g` has performed the waits of REGION at `pc`: the region closes and a new one opens (R190). A region in
Sealed-pending passes to Discarding as the new one opens (R44); a gang member then waits for its partners (R46). The tiles survive no
region boundary (R217): their bits and contents are free values. -/
def State.openRegion (s : State) (g : Nat) (pc : Word) : State :=
  let c := s.core g
  match c.task with
  | none => s
  | some t =>
    if t.overrun then s.boundFault g t
    else
    let pending := decide (t.region = .sealedPending)
    let t' := { t with entry := c.snapshot pc, region := .opened, restarts := 0, mismatches := 0, boundCount := 0 }
    let c' := ({ (((c.closeMwin).closeOwin).resetEngines.unstart) with
      t := freeTiles s.freeCtr
      task := some t' }).onStrand .c (Strand.advance .c)
    let s' := { s.setCore g c' with freeCtr := s.freeCtr + 40 }
    if !pending then s'
    else if t.gangWait then (s'.onCore g Core.stop).gangDiscard g
    else s'.beginDiscard g

/-- Registers outside the entry state after a restart: the spec gives them no value (R41, R191), so each is free (log
entry 5). -/
def State.deadRegisters (s : State) (g : Nat) : State :=
  let n := s.freeCtr
  let free (lo count at' w : Nat) : Sparse (BitVec w) := (span lo count).foldl (fun m i => put 0 m i (BitVec.ofNat w (Config.free (n + at' + i)))) []
  let c := s.core g
  { s.setCore g { c with s := free 19 45 0 64, a := free 17 15 70 64, m := free 0 16 110 64, p := free 1 7 130 32,
                         v := free 0 768 140 1024, t := freeTiles (n + 1100) } with freeCtr := n + 1200 }

/-- Merge two maps whose keys do not meet, the first below the second. -/
def mergeMaps {α : Type} (x y : Sparse α) : Sparse α := x ++ y

/-- Restart a task on a core from its region's entry state: C alone runs, from its REGION word (R191). DESIGN CHOICE (log entry 105),
unsafe: the stream registers, dead by R41, are empty. -/
def State.restartTask (s : State) (g : Nat) (t : Task) : State :=
  let s := s.deadRegisters g
  let c := s.core g
  let c := { c with s := mergeMaps t.entry.s c.s, a := mergeMaps t.entry.a c.a, f := t.entry.f, fpst := {}, spcp := 0, aspcp := 0,
                    ccnt := 0, sbC := 0, sbA := 0, q := [], stall := 0, denied := [], mwin := {}, owin := {} }
  let c := { c.resetEngines.unstart with
    strandC := { status := .running, pc := t.entry.pc },
    task := some { t with region := .opened, stopped := false, gangWait := false, boundCount := 0, ending := false, awaitExchange := true } }
  (s.setCore g c).askExchange (dieOf g)

/-- The strand state at task start: Running at CODE plus its entry offset where START names it (R25, R29). -/
def startStrand (t : Task) (i : Nat) : Strand :=
  if t.start.getLsbD i then { status := .running, pc := t.code + (t.entries.getD i 0).setWidth 64 } else {}

/-- s1 to s16 or a1 to a16 from the parameters (R30). -/
def paramRegs (l : List Word) : Sparse Word := ((span 1 16).zip l).foldl (fun m e => put 0 m e.1 e.2) []

/-- Start a task on a core from the beginning: the state of R30. What the spec's table does not name (the copy channels'
identifiers, calibration state, the row map) stays with the core. -/
def State.startTask (s : State) (g : Nat) (t : Task) : State :=
  let c := s.core g
  let regs := paramRegs t.params
  let c := { c with
    strandC := startStrand t 0, strandA := startStrand t 1, strandM := startStrand t 2, strandO := startStrand t 3,
    s := put 0 (put 0 regs 17 (BitVec.ofNat 64 t.tidx)) 18 t.slot, a := regs, m := [], v := [], p := [], t := [], q := [], f := [],
    fpst := {}, spcp := 0, aspcp := 0, ccnt := 0, sbC := 0, sbA := 0, stall := 0, denied := [], mwin := {}, owin := {} }
  let t := { t with region := .opened, boundCount := 0, ending := false, stopped := false, gangWait := false,
                    entry := { start := true } }
  s.setCore g { c.resetEngines with task := some t }

end Sys2Proof.Machine
end

