-- ==== Sys2Proof/Machine/Scalar.lean ====
section
/-! DEFINITION. C strand: scalar instructions (R174 to R181). -/

namespace Sys2Proof.Machine

/-- 1 where the condition holds, else 0. -/
def bit (b : Bool) : Word := if b then 1 else 0

/-- Registers of an SR instruction. -/
def srForm (f : SR) : Form := { k := .c, refs := [.s f.sa.toNat, .s f.sb.toNat, .s f.sd.toNat] }
/-- Registers of an SI instruction. -/
def siForm (f : SI) : Form := { k := .c, refs := [.s f.sa.toNat, .s f.sd.toNat] }

/-- s[sd] := g (s[sa], s[sb]) (R176). -/
def scalarOp (f : SR) (g : Word → Word → Word) (s : State) : Result :=
  issueCore (srForm f) (fun c => c.setS f.sd.toNat (g (c.getS f.sa.toNat) (c.getS f.sb.toNat))) s
/-- s[sd] := g (s[sa], SignExtend(imm32)) (R178). -/
def scalarImm (f : SI) (g : Word → Word → Word) (s : State) : Result :=
  issueCore (siForm f) (fun c => c.setS f.sd.toNat (g (c.getS f.sa.toNat) (f.imm.signExtend 64))) s

/-- DIV's quotient (R177). -/
def quotS (a b : Word) : Word := if b = 0 then BitVec.allOnes 64 else BitVec.ofInt 64 (a.toInt.tdiv b.toInt)
/-- DIVU's quotient (R177). -/
def quotU (a b : Word) : Word := if b = 0 then BitVec.allOnes 64 else BitVec.ofNat 64 (a.toNat / b.toNat)
/-- REM's remainder, with the sign of a (R177). -/
def remS (a b : Word) : Word := if b = 0 then a else BitVec.ofInt 64 (a.toInt.tmod b.toInt)
/-- REMU's remainder (R177). -/
def remU (a b : Word) : Word := if b = 0 then a else BitVec.ofNat 64 (a.toNat % b.toNat)

/-- Number of leading zero bits of the low `w` bits. -/
def clzNat (w x : Nat) : Nat := if x = 0 then w else w - 1 - Nat.log2 x
/-- Number of 1 bits of the low `w` bits. -/
def popNat (w x : Nat) : Nat := ((span 0 w).filter (fun i => x.testBit i)).length

/-- pos and len of BFX and BFI (R176). -/
def fieldPos (b : Word) : Nat := b.toNat % 64
def fieldLen (b : Word) : Nat := b.toNat / 256 % 64 + 1
/-- BFX: the field of a, cut at bit 63. -/
def bfxOf (a b : Word) : Word := BitVec.ofNat 64 (a.toNat / 2 ^ fieldPos b % 2 ^ fieldLen b)
/-- BFI: d with the field replaced by the low bits of a, bits at or above 64 dropped. -/
def bfiOf (d a b : Word) : Word :=
  let m := BitVec.ofNat 64 ((2 ^ fieldLen b - 1) * 2 ^ fieldPos b)
  (d &&& ~~~ m) ||| (BitVec.ofNat 64 (a.toNat * 2 ^ fieldPos b) &&& m)
/-- Width of SEXT and ZEXT (R176). -/
def extWidth (f : SR) : Nat := 8 * 2 ^ f.fn.toNat

/-- ADD (R176). -/
def execAdd (f : SR) (s : State) : Result := scalarOp f (fun a b => a + b) s
/-- SUB (R176). -/
def execSub (f : SR) (s : State) : Result := scalarOp f (fun a b => a - b) s
/-- MUL (R176). -/
def execMul (f : SR) (s : State) : Result := scalarOp f (fun a b => a * b) s
/-- MULH (R176). -/
def execMulh (f : SR) (s : State) : Result := scalarOp f (fun a b => BitVec.ofInt 64 (a.toInt * b.toInt / 2 ^ 64)) s
/-- MULHU (R176). -/
def execMulhu (f : SR) (s : State) : Result := scalarOp f (fun a b => BitVec.ofNat 64 (a.toNat * b.toNat / 2 ^ 64)) s
/-- DIV (R176, R177). -/
def execDiv (f : SR) (s : State) : Result := scalarOp f (fun a b => quotS a b) s
/-- DIVU (R176, R177). -/
def execDivu (f : SR) (s : State) : Result := scalarOp f (fun a b => quotU a b) s
/-- REM (R176, R177). -/
def execRem (f : SR) (s : State) : Result := scalarOp f (fun a b => remS a b) s
/-- REMU (R176, R177). -/
def execRemu (f : SR) (s : State) : Result := scalarOp f (fun a b => remU a b) s
/-- AND (R176). -/
def execAnd (f : SR) (s : State) : Result := scalarOp f (fun a b => a &&& b) s
/-- OR (R176). -/
def execOr (f : SR) (s : State) : Result := scalarOp f (fun a b => a ||| b) s
/-- XOR (R176). -/
def execXor (f : SR) (s : State) : Result := scalarOp f (fun a b => a ^^^ b) s
/-- SHL (R176). -/
def execShl (f : SR) (s : State) : Result := scalarOp f (fun a b => a <<< (b.toNat % 64)) s
/-- SHR (R176). -/
def execShr (f : SR) (s : State) : Result := scalarOp f (fun a b => a >>> (b.toNat % 64)) s
/-- SAR (R176). -/
def execSar (f : SR) (s : State) : Result := scalarOp f (fun a b => a.sshiftRight (b.toNat % 64)) s
/-- MIN (R176). -/
def execMin (f : SR) (s : State) : Result := scalarOp f (fun a b => if a.toInt ≤ b.toInt then a else b) s
/-- MAX (R176). -/
def execMax (f : SR) (s : State) : Result := scalarOp f (fun a b => if a.toInt ≤ b.toInt then b else a) s
/-- MINU (R176). -/
def execMinu (f : SR) (s : State) : Result := scalarOp f (fun a b => if a.toNat ≤ b.toNat then a else b) s
/-- MAXU (R176). -/
def execMaxu (f : SR) (s : State) : Result := scalarOp f (fun a b => if a.toNat ≤ b.toNat then b else a) s
/-- SEQ (R176). -/
def execSeq (f : SR) (s : State) : Result := scalarOp f (fun a b => bit (decide (a = b))) s
/-- SNE (R176). -/
def execSne (f : SR) (s : State) : Result := scalarOp f (fun a b => bit (decide (a ≠ b))) s
/-- SLT (R176). -/
def execSlt (f : SR) (s : State) : Result := scalarOp f (fun a b => bit (decide (a.toInt < b.toInt))) s
/-- SLTU (R176). -/
def execSltu (f : SR) (s : State) : Result := scalarOp f (fun a b => bit (decide (a.toNat < b.toNat))) s
/-- CLZ (R176). -/
def execClz (f : SR) (s : State) : Result := scalarOp f (fun a _ => BitVec.ofNat 64 (clzNat 64 a.toNat)) s
/-- POPC (R176). -/
def execPopc (f : SR) (s : State) : Result := scalarOp f (fun a _ => BitVec.ofNat 64 (popNat 64 a.toNat)) s
/-- BFX (R176). -/
def execBfx (f : SR) (s : State) : Result := scalarOp f bfxOf s
/-- BFI (R176): s[sd] is also a source. -/
def execBfi (f : SR) (s : State) : Result :=
  issueCore (srForm f) (fun c => c.setS f.sd.toNat (bfiOf (c.getS f.sd.toNat) (c.getS f.sa.toNat) (c.getS f.sb.toNat))) s
/-- SEXT (R176). -/
def execSext (f : SR) (s : State) : Result := scalarOp f (fun a _ => BitVec.ofInt 64 (sInt (extWidth f) a.toNat)) s
/-- ZEXT (R176). -/
def execZext (f : SR) (s : State) : Result := scalarOp f (fun a _ => BitVec.ofNat 64 (a.toNat % 2 ^ extWidth f)) s
/-- ADDI (R178). -/
def execAddi (f : SI) (s : State) : Result := scalarImm f (fun a i => a + i) s
/-- MULI (R178). -/
def execMuli (f : SI) (s : State) : Result := scalarImm f (fun a i => a * i) s
/-- ANDI (R178). -/
def execAndi (f : SI) (s : State) : Result := scalarImm f (fun a i => a &&& i) s
/-- ORI (R178). -/
def execOri (f : SI) (s : State) : Result := scalarImm f (fun a i => a ||| i) s
/-- XORI (R178). -/
def execXori (f : SI) (s : State) : Result := scalarImm f (fun a i => a ^^^ i) s
/-- SHLI (R178). -/
def execShli (f : SI) (s : State) : Result := scalarImm f (fun a _ => a <<< (f.imm.toNat % 64)) s
/-- SHRI (R178). -/
def execShri (f : SI) (s : State) : Result := scalarImm f (fun a _ => a >>> (f.imm.toNat % 64)) s
/-- SARI (R178). -/
def execSari (f : SI) (s : State) : Result := scalarImm f (fun a _ => a.sshiftRight (f.imm.toNat % 64)) s
/-- SLTI (R178). -/
def execSlti (f : SI) (s : State) : Result := scalarImm f (fun a i => bit (decide (a.toInt < i.toInt))) s
/-- SLTUI (R178). -/
def execSltui (f : SI) (s : State) : Result := scalarImm f (fun a i => bit (decide (a.toNat < i.toNat))) s
/-- LI (R178). -/
def execLi (f : SI) (s : State) : Result := scalarImm f (fun _ i => i) s
/-- LIH (R178). -/
def execLih (f : SI) (s : State) : Result := scalarImm f (fun a _ => f.imm ++ a.setWidth 32) s

/-! ### Scalar FP32 (R179 to R181) -/

/-- An FP instruction: FP32 operands in the low halves of s[sa], s[sb] and s[sd], the result zero-extended, the flags
accrued; `g` gets the rounding code, FZ and the operands (R179, R86, R87). -/
def scalarFp (f : SR) (g : Nat → Bool → Nat → Nat → Nat → Nat × Flags) (s : State) : Result :=
  issueCore (srForm f) (fun c =>
    let r := g (rmCode (f.fn.setWidth 3) c.fpst) c.fpst.fz ((c.getS f.sa.toNat).toNat % 2 ^ 32)
      ((c.getS f.sb.toNat).toNat % 2 ^ 32) ((c.getS f.sd.toNat).toNat % 2 ^ 32)
    (c.setS f.sd.toNat (BitVec.ofNat 64 r.1)).accrue r.2) s

/-- FADDS (R180). -/
def execFadds (f : SR) (s : State) : Result := scalarFp f (fun rm fz a b _ => fAdd fp32 rm fz a b) s
/-- FSUBS (R180). -/
def execFsubs (f : SR) (s : State) : Result := scalarFp f (fun rm fz a b _ => fSub fp32 rm fz a b) s
/-- FMULS (R180). -/
def execFmuls (f : SR) (s : State) : Result := scalarFp f (fun rm fz a b _ => fMul fp32 rm fz a b) s
/-- FMAS (R180). -/
def execFmas (f : SR) (s : State) : Result := scalarFp f (fun rm fz a b c => fMa fp32 rm fz a b c) s
/-- FMINS (R181). -/
def execFmins (f : SR) (s : State) : Result := scalarFp f (fun _ fz a b _ => fPick fp32 false fz a b) s
/-- FMAXS (R181). -/
def execFmaxs (f : SR) (s : State) : Result := scalarFp f (fun _ fz a b _ => fPick fp32 true fz a b) s
/-- FCMPS (R181): the compare code is fn[34:32]. -/
def execFcmps (f : SR) (s : State) : Result :=
  scalarFp f (fun _ fz a b _ => let r := fCompare fz (f.fn.toNat % 8) a b; (if r.1 then 1 else 0, r.2)) s
/-- FCVTIS (R180): to a 64-bit integer. -/
def execFcvtis (f : SR) (s : State) : Result :=
  scalarFp f (fun rm fz a _ _ =>
    let r := toIntRange rm (-2 ^ 63) (2 ^ 63 - 1) (readFloat fp32 fz a)
    (wrap 64 r.1, r.2)) s
/-- FCVTSI (R180): from the 64-bit integer s[sa]. -/
def execFcvtsi (f : SR) (s : State) : Result :=
  issueCore (srForm f) (fun c =>
    let r := deliver fp32 (rmCode (f.fn.setWidth 3) c.fpst) false (ofInt (c.getS f.sa.toNat).toInt)
    (c.setS f.sd.toNat (BitVec.ofNat 64 r.1)).accrue r.2) s

end Sys2Proof.Machine
end

