-- ==== Sys2Proof/Machine/Control.lean ====
section
/-! DEFINITION. C strand: branches, loops, strand control, CSRs and system instructions (R182 to R199), with the control
shapes that the A, M and O strands share. -/

namespace Sys2Proof.Machine

/-- A condition of R154 on two register values. -/
def condHolds (cond : Nat) (a b : Word) : Bool :=
  match cond with
  | 0 => true
  | 1 => decide (a = b)
  | 2 => decide (a ≠ b)
  | 3 => decide (a.toInt < b.toInt)
  | 4 => decide (b.toInt ≤ a.toInt)
  | 5 => decide (a.toNat < b.toNat)
  | 6 => decide (b.toNat ≤ a.toNat)
  | 7 => decide (a = 0)
  | 8 => decide (a ≠ 0)
  | _ => false

/-- PC + scale × SInt(off32) (R182, R249, R290, R302). -/
def relTarget (pc : Word) (scale : Int) (off : BitVec 32) : Word := pc + BitVec.ofInt 64 (scale * off.toInt)

/-- The PC of a strand of the issuing core. -/
def State.pcOf (s : State) (k : StrandKind) : Word := (s.me.strand k).pc

/-- A branch that is taken when `taken` holds of the core (R182, R187). -/
def branchIf (f : Form) (target : Core → Word) (taken : Core → Bool) (s : State) : Result :=
  issue { f with notLast := true } (fun s => if taken s.me then .jump (target s.me) s else .done s) s

/-- LOOP, ALOOP, MLOOP and OLOOP: `n` is the count, `stop` the word after the body (R185). -/
def loopBody (k : StrandKind) (n stop : Core → Word) (s : State) : Did :=
  let c := s.me
  let x := c.strand k
  let e := stop c
  if n c = 0 then
    let r := nextPc e x.loops
    .goto (s.onMe (fun c => c.setStrand k { x with status := .running, pc := r.1, loops := r.2, hold := .fresh }))
  else if decide (4 ≤ x.loops.length) || (match x.loops with | [] => false | l :: _ => decide (l.stop.toNat < e.toNat)) then
    .trap 0x03 e (c.ldep k)
  else
    let npc := x.pc + BitVec.ofNat 64 (wordBytes k)
    .goto (s.onMe (fun c => c.setStrand k
      { x with status := .running, pc := npc, loops := ⟨npc, e, n c⟩ :: x.loops, hold := .fresh }))

/-- An end instruction of A, M or O: the strand is Ended and its loop levels go (R25, R249, R290, R302). -/
def endStrand (k : StrandKind) (s : State) : Did :=
  .goto (s.onMe (fun c => (c.setStrand k { c.strand k with status := .ended, loops := [], hold := .fresh }).closeIdle))

def brForm (f : BR) : Form := { k := .c, refs := [.s f.sa.toNat, .s f.sb.toNat] }
/-- Target of a PC-relative C branch. -/
def brTarget (f : BR) (c : Core) : Word := relTarget c.strandC.pc 8 f.off

/-- BR (R182). -/
def execBr (f : BR) (s : State) : Result :=
  branchIf (brForm f) (brTarget f) (fun c => condHolds f.cond.toNat (c.getS f.sa.toNat) (c.getS f.sb.toNat)) s
/-- BRZ (R182). -/
def execBrz (f : BR) (s : State) : Result :=
  branchIf (brForm f) (brTarget f) (fun c => condHolds f.cond.toNat (c.getS f.sa.toNat) 0) s
/-- BRP: a test of the predicate sb[40:38] over the active lanes of p[pg] (R183). -/
def brpTaken (f : BR) (c : Core) : Bool :=
  let act := c.getP f.pg.toNat
  let x := c.getP (f.sb.toNat % 8)
  match f.cond.toNat with
  | 9 => decide (x &&& act ≠ 0)
  | 10 => decide (x &&& act = act)
  | _ => decide (x &&& act = 0)
/-- BRP (R183). -/
def execBrp (f : BR) (s : State) : Result :=
  branchIf { k := .c, refs := [.p (f.sb.toNat % 8), .p f.pg.toNat] } (brTarget f) (brpTaken f) s
/-- JMP (R182, R187). -/
def execJmp (f : BR) (s : State) : Result := branchIf { k := .c } (brTarget f) (fun _ => true) s
/-- JAL (R182): s[sa] := PC + 8; it pops no loop level (R187). -/
def execJal (f : BR) (s : State) : Result :=
  issue { k := .c, notLast := true, refs := [.s f.sa.toNat] } (fun s =>
    let pc := s.pcOf .c
    .goto (s.onMe (fun c => (c.setS f.sa.toNat (pc + 8)).onStrand .c
      (fun x => { x with status := .running, pc := relTarget pc 8 f.off, hold := .fresh })))) s
/-- JR (R182, R184): s[sa] + 8 × SInt(off32); a misaligned target faults with no effect. -/
def execJr (f : BR) (s : State) : Result :=
  issue { k := .c, notLast := true, refs := [.s f.sa.toNat] } (fun s =>
    let t := relTarget (s.me.getS f.sa.toNat) 8 f.off
    if t.toNat % 8 ≠ 0 then .trap 0x05 t (s.me.ldep .c) else .jump t s) s
/-- LOOP (R185). -/
def execLoop (f : BR) (s : State) : Result :=
  issue { k := .c, notLast := true, refs := [.s f.sa.toNat] } (loopBody .c (fun c => c.getS f.sa.toNat) (brTarget f)) s

/-- NOP (R199). -/
def execNop (_f : CT) (s : State) : Result := issueCore { k := .c } id s

/-! ### Strand control (R188 to R192) -/

/-- The strand of a bit of opt[3:0] (R188). -/
def strandOfBit (i : Nat) : StrandKind :=
  match i with
  | 0 => .c
  | 1 => .a
  | 2 => .m
  | _ => .o
/-- The strands among A, M and O that a mask names. -/
def namedStrands (opt : BitVec 10) : List StrandKind := ((span 1 3).filter (fun i => opt.getLsbD i)).map strandOfBit

/-- FORK (R188). -/
def execFork (f : CT) (s : State) : Result :=
  issue { k := .c, notLast := true, effect := true } (fun s =>
    let target := s.pcOf .c + BitVec.ofInt 64 f.imm.toInt
    match namedStrands f.opt with
    | k :: _ =>
      if (s.me.strand k).live || target.toNat % wordBytes k ≠ 0 then .trap 0x01 target (s.me.ldep .c)
      else .done (s.onMe (fun c => c.onStrand k (fun x => { x with status := .running, pc := target, hold := .fresh })))
    | [] => .done s) s

/-- JOIN (R189). -/
def execJoin (f : CT) (s : State) : Result :=
  issue { k := .c, notLast := true } (fun s =>
    let ks := namedStrands f.opt
    if ks.any (fun k => decide ((s.me.strand k).status = .unstarted)) then .trap 0x02 0 (s.me.ldep .c)
    else if ks.all (fun k => decide ((s.me.strand k).status = .ended)) then .done s
    else .wait .other s) s

/-- REGION (R190, R406). A ganged entry is performed once all four members have written it (R287). -/
def execRegion (_f : CT) (s : State) : Result :=
  issue { k := .c, notLast := true } (fun s =>
    let c := s.me
    let idle (x : Strand) : Bool := x.status = .unstarted || x.status = .ended
    if !c.strandC.loops.isEmpty then .trap 0x04 0 (c.ldep .c)
    else if !(idle c.strandA && idle c.strandM && idle c.strandO) then .wait .other s
    else if c.sbC ≠ 0 then .wait .other s
    else if !s.entriesDone s.cur || !c.gangOwed.isEmpty then .wait .other s
    else if !c.scales.isEmpty then .goto (s.taskFault s.cur .c false 0x1B c.strandC.pc (2 ^ 36 : Nat) 0)
    else .goto (s.openRegion s.cur c.strandC.pc)) s

/-- END (R27, R192): C waits as JOIN does for the strands that run, then ends; the task ends when its entries are
performed (the TASK_END event). -/
def execEndC (_f : CT) (s : State) : Result :=
  issue { k := .c, notLast := true } (fun s =>
    let c := s.me
    let runs (x : Strand) : Bool := x.status = .running || x.status = .blocked
    if runs c.strandA || runs c.strandM || runs c.strandO then .wait .other s
    else .goto (s.onMe (fun c =>
      (c.setStrand .c { c.strandC with status := .ended, loops := [], hold := .fresh }).onTask (fun t => { t with ending := true })))) s

/-! ### CSRs (R193 to R195) -/

/-- The strand state code of STRST (R195). -/
def statusCode : Status → Nat
  | .unstarted => 0
  | .running => 1
  | .blocked => 2
  | .ended => 3

/-- TIDST of a channel: the newest identifier below which every transfer has completed (R195, R261). -/
def Channel.tidst (c : Channel) : Nat := match c.live with | [] => c.next | t :: _ => t

/-- QST of a stream (R253). DESIGN CHOICE (log entry 135), unsafe: LTYPE of a stream that holds no element reads 0, the reset value; R253
names only the head element's type. -/
def Stream.status (q : Stream) : Nat :=
  q.elems.length * 256 + (match q.elems with | [] => 0 | e :: _ => e.lane * 16) + (if q.clip then 1 else 0)

/-- The A status registers (R253). -/
def Core.statusA (c : Core) (n : Nat) : Word :=
  BitVec.ofNat 64 (if n < 16 then (c.stream n).status else if n < 24 then (c.channel (n - 16)).tidst % 2 ^ 48
    else if n = 24 then 2 * c.aspcp.toNat else 0)

/-- GRPM0 to GRPM3 (R195). -/
def groupWord (t : Task) (i : Nat) : Word :=
  match t.members.getD i none with
  | some m => BitVec.ofNat 64 (2 ^ 40 + m.gnum * 2 ^ 32 + m.rank)
  | none => 0

/-- Read a CSR of the C strand of a core (R195, R21). -/
def State.readCsr (s : State) (g a : Nat) : Word :=
  let c := s.core g
  let d := s.die (dieOf g)
  if a = 0 then c.fpst.word
  else if a = 1 then BitVec.ofNat 64 (c.spcp.toNat * 2)
  else if a = 8 then
    BitVec.ofNat 64 (1 + 4 * statusCode c.strandA.status + 16 * statusCode c.strandM.status + 64 * statusCode c.strandO.status)
  else if a = 9 then c.ldep .c
  else if 12 ≤ a ∧ a ≤ 15 then (match (c.strandC.loops.reverse)[a - 12]? with | some l => l.count | none => 0)
  else if a = 16 then BitVec.ofNat 64 (s.chip * 2 ^ 32 + dieOf g * 2 ^ 24 + localOf g * 2 ^ 16 + g)
  else if a = 17 then (match c.task with | some t => BitVec.ofNat 64 (t.ctx * 2 ^ 32 + t.stage) | none => 0)
  else if 0x18 ≤ a ∧ a ≤ 0x1B then (match c.task with | some t => groupWord t (a - 0x18) | none => 0)
  else if a = 0x20 then d.time
  else if a = 0x21 then d.tgen.setWidth 64
  else if 0x30 ≤ a ∧ a ≤ 0x3C then look 0 d.tofs (a - 0x30)
  else if 0x40 ≤ a ∧ a ≤ 0x4C then look 0x10000000000 d.trate (a - 0x40)
  else if a = 0x50 then c.ccnt
  else if 0x60 ≤ a ∧ a ≤ 0x67 then BitVec.ofNat 64 ((c.channel (a - 0x60)).tidst % 2 ^ 48)
  else if a = 0x70 then BitVec.ofNat 64 ((if c.dbgBe then 2 else 0) + (if c.dbgHz then 1 else 0))
  else 0

/-- Write the RW fields of a CSR; RO fields and reserved bits are ignored (R193). -/
def Core.writeCsr (c : Core) (a : Nat) (w : Word) : Core :=
  if a = 0 then { c with fpst := c.fpst.write w } else if a = 1 then { c with spcp := w.extractLsb' 1 7 } else c

/-- The CSR address, set and wait fields (R193). -/
def csrAddr (f : CT) : Nat := f.imm.toNat % 4096
def csrForm (f : CT) (writes : Bool) : Form :=
  { k := .c, wait := f.opt.extractLsb' 0 7, set := (f.opt.extractLsb' 7 3).toNat, refs := [.s f.sa.toNat, .s f.sd.toNat], effect := writes }

/-- What a CSR instruction writes: s[sa], or it joined to or taken from the old value (R193). -/
def csrValue (op : Nat) (old x : Word) : Word := if op = 1 then x else if op = 2 then old ||| x else old &&& ~~~x

/-- A CSR instruction (R193, R194): it waits in the strand's list until it is performed. One that writes FPST is performed at issue, behind
the earlier CSR instructions of FPST (R86). -/
def csrOp (f : CT) (op : Nat) (s : State) : Result :=
  issue (csrForm f (decide (op ≠ 0))) (fun s =>
    let a := csrAddr f
    if op ≠ 0 ∧ a = 0 then
      if s.me.outC.any (fun x => match x.kind with | .csr _ b _ => b = 0 | _ => false) then .wait .other s
      else
        let old := s.readCsr s.cur a
        .done (s.onMe (fun c => (c.writeCsr a (csrValue op old (c.getS f.sa.toNat))).setS f.sd.toNat old))
    else
      .done (s.addAccesses .c
        [{ id := 0, grp := 0, pc := 0, kind := .csr op a (s.me.getS f.sa.toNat), dest := if f.sd = 0 then .none else .s f.sd.toNat,
           slot := (f.opt.extractLsb' 7 3).toNat, loose := true }])) s

/-- CSRRD (R193). -/
def execCsrrd (f : CT) (s : State) : Result := csrOp f 0 s
/-- CSRWR (R193). -/
def execCsrwr (f : CT) (s : State) : Result := csrOp f 1 s
/-- CSRSET (R193). -/
def execCsrset (f : CT) (s : State) : Result := csrOp f 2 s
/-- CSRCLR (R193). -/
def execCsrclr (f : CT) (s : State) : Result := csrOp f 3 s

/-! ### TRAP, BKPT, SYSCALL (R196 to R198) -/

/-- The code in imm32[15:0]. -/
def ctCode (f : CT) : Word := BitVec.ofNat 64 (f.imm.toNat % 65536)

/-- TRAP (R196): a precise fault whose record carries the code. -/
def execTrap (f : CT) (s : State) : Result := issue { k := .c } (fun _ => .trap 0x07 0 (ctCode f)) s

/-- BKPT (R197): with DBG.BE the core halts after the word and a breakpoint record is entered. -/
def execBkpt (f : CT) (s : State) : Result :=
  issue { k := .c } (fun s =>
    if s.me.dbgBe then
      .done ((s.enter (s.taskRecord s.cur .c true 0x08 0 (s.pcOf .c) 0 (ctCode f))).haltCore s.cur)
    else .done s) s

/-- SYSCALL (R198): it seals, waits until the earlier accesses of C are performed at DIE scope, hands the request to
firmware and blocks C; SYSCALL_REPLY ends it. -/
def execSyscall (f : CT) (s : State) : Result :=
  issue { k := .c, refs := [.s f.sa.toNat, .s f.sd.toNat] } (fun s =>
    let s := s.sealMine
    match s.me.strandC.hold with
    | .requested sd code arg => .wait (.requested sd code arg) s
    | _ =>
      if s.settled .c 1 then .wait (.requested f.sd.toNat (f.imm.setWidth 16) (s.me.getS f.sa.toNat)) s
      else .wait .fenced s) s

/-- The storage page of a virtual address. -/
def State.pageOf (s : State) (ctx : Nat) (a : Word) : Nat :=
  match s.desc? ctx (tensorOf a) with
  | none => 0
  | some d => d.bitPos (8 * offsetOf a / d.eb) / 8 / 65536

/-- The reply to code 0x0003: 2 without an entry, 1 for a page without PR; a valid page is pinned or refused, and one that is not
resident is refused or not mapped, as firmware finds (R198). -/
def State.pinReply (s : State) (ctx : Nat) (a word : Word) : Word :=
  match s.desc? ctx (tensorOf a) with
  | none => 2
  | some d =>
    if d.elems * d.eb ≤ 8 * offsetOf a then 2
    else
      let p := s.readPage (d.entryAddr (d.bitPos (8 * offsetOf a / d.eb) / 8 / 65536))
      if p.v then (if p.pr ∧ word = 0 then 0 else 1) else if word = 2 then 2 else 1

/-- For code 0x0003 firmware makes a page that is not resident so, where the pager could: a page that its entry lets be read (R198,
R421). -/
def State.pinResident (s : State) (g ctx : Nat) (a : Word) : State :=
  match s.desc? ctx (tensorOf a), s.ev.page with
  | some d, .resident w0 w1 src took =>
    let page := d.bitPos (8 * offsetOf a / d.eb) / 8 / 65536
    if d.elems * d.eb ≤ 8 * offsetOf a || (s.readPage (d.entryAddr page)).v then s
    else (s.makeResident { core := g, queue := 0, pc := (s.core g).strandC.pc, launch := s.launchOn g } ctx (tensorOf a) page w0 w1 src took).getD s
  | _, _ => s

/-- The reply that firmware gives a code: fixed by the spec for an unknown code, the release's version for 0x0001, the frames that the
pager can give for 0x0002 (R198). -/
def State.syscallReplyWord (s : State) (g ctx : Nat) (code : BitVec 16) (arg word : Word) : Word :=
  match code.toNat with
  | 1 => Config.firmwareVersion s.mgmt.release
  | 2 => BitVec.ofNat 64 (s.spareFrames (dieOf g))
  | 3 => s.pinReply ctx arg word
  | _ => BitVec.allOnes 64

/-- SYSCALL_REPLY (R198): sd := reply, and C goes on. Code 0x0003 pins the page for the launch. -/
def execSyscallReply (s : State) : Result :=
  let g := s.ev.core
  let c := s.core g
  .next <| match c.strandC.hold, c.task with
    | .requested sd code arg, some t =>
      let s := if code = 3 then s.pinResident g t.ctx arg else s
      let r := s.syscallReplyWord g t.ctx code arg s.ev.word
      let s := if code = 3 ∧ r = 0 then s.pinFor t.launch t.ctx (tensorOf arg) (s.pageOf t.ctx arg) else s
      s.onCore g (fun c => (c.setS sd r).onStrand .c (Strand.advance .c))
    | _, _ => s

/-- STRAND_UNBLOCK (R25): a blocked strand runs again; its instruction completes or retries at its next issue. -/
def execStrandUnblock (s : State) : Result :=
  .next (s.onCore s.ev.core (fun c => c.onStrand s.ev.strand (fun x => if x.status = .blocked then { x with status := .running } else x)))

end Sys2Proof.Machine
end

