-- ==== Sys2Proof/Machine/Groups.lean ====
section
/-! DEFINITION. Rings and barrier groups of a launch (R33 to R39, R236 to R238), with what a barrier pass brings about:
the route bank (R266, R363) and Mason's merge and copy (R345, R347). -/

namespace Sys2Proof.Machine

/-! ### Rings -/

/-- Slots of a ring. -/
def Ring.count (r : Ring) : Nat := 2 ^ r.logs
/-- Occupancy: Claimed, Published and Taken (R33). -/
def Ring.occ (r : Ring) : Nat := r.slots.length
/-- Free slots. -/
def Ring.free (r : Ring) : Nat := r.count - r.occ
/-- The slot is Published. -/
def SlotState.isPublished : SlotState → Bool
  | .published => true
  | _ => false
/-- Published slots. -/
def Ring.pub (r : Ring) : Nat := (r.slots.filter (fun e => e.2.isPublished)).length
/-- Three-quarters full or more (R34). -/
def Ring.crowded (r : Ring) : Bool := decide (3 * r.count ≤ 4 * r.occ)
/-- Slot address: area + index × size (R236). -/
def Ring.slotAddr (r : Ring) (i : Nat) : Word := r.area + BitVec.ofNat 64 (i * r.size)
/-- The slot that an address names. -/
def Ring.slotIndex (r : Ring) (a : Word) : Option Nat :=
  let d := (a - r.area).toNat
  if d % r.size = 0 ∧ d / r.size < r.count then some (d / r.size) else none

/-- The lowest number from `i` on that is no key of a map with rising keys. -/
def lowestGap {α : Type} : Nat → Sparse α → Nat
  | i, [] => i
  | i, (k, _) :: m => if k = i then lowestGap (i + 1) m else if k < i then lowestGap i m else i

/-- The lowest-addressed Free slot (R236). -/
def Ring.freeSlot (r : Ring) : Option Nat :=
  let i := lowestGap 0 r.slots
  if i < r.count then some i else none

/-- Set a slot's state. -/
def Ring.setSlot (r : Ring) (i : Nat) (x : SlotState) : Ring := { r with slots := put .free r.slots i x }
/-- Publish a slot: it joins the end of the publish order (R33). -/
def Ring.publish (r : Ring) (i : Nat) : Ring := { r.setSlot i .published with order := r.order ++ [i] }

/-- The RINFO word (R237). -/
def Ring.info (r : Ring) : Word :=
  BitVec.ofNat 64 ((if r.closed then 2 ^ 63 else 0) + r.free * 2 ^ 42 + r.pub * 2 ^ 21 + r.occ)

/-- The scope of a page's accesses by its HOME (R125): 1 DIE, 2 DEV, 3 POD. -/
def homeScope (home : BitVec 2) : Nat := home.toNat + 1

/-- The page scope of a ring's area (R145). -/
def State.ringScope (s : State) (ctx : Nat) (r : Ring) : Nat :=
  match s.desc? ctx (tensorOf r.area) with
  | some d => homeScope d.home
  | none => 2

/-! ### Groups -/

/-- Kinds of the group table (R309). -/
def kindBarrier : Nat := 1
def kindArm : Nat := 2
def kindGang : Nat := 3
def kindMulticast : Nat := 4

/-- The task's rank in a group of a kind, where it is a member (R37, R238). -/
def State.rankIn (s : State) (t : Task) (g kind : Nat) : Option Nat :=
  match s.launch? t.launch with
  | some l => match l.group? g with
    | some x => if x.kind = kind then (t.members.filterMap id).findSome? (fun m => if m.gnum = g then some m.rank else none) else none
    | none => none
  | none => none

/-- A group of the task's launch has a kind (R37). -/
def State.groupKind (s : State) (g kind : Nat) : Bool :=
  match s.myLaunch with
  | some l => (match l.group? g with | some x => x.kind = kind | none => false)
  | none => false

/-- The core that runs a task of a launch. -/
def State.coreOf (s : State) (l stage tidx : Nat) : Option Nat :=
  (s.cores.find? (fun e => match e.2.task with
    | some t => t.launch = l && t.stage = stage && t.tidx = tidx
    | none => false)).map (·.1)

/-- The scope of a group's arrivals and passes: DIE if all members lie on one die, else DEV (R145). -/
def State.groupScope (s : State) (l g : Nat) : Nat :=
  match s.launch? l with
  | some x => match x.group? g with
    | some gr =>
      let dies := gr.members.map (fun m => (s.coreOf l m.1 m.2).map dieOf)
      if dies.all (fun d => d.isSome && decide (d = dies.headD none)) then 1 else 2
    | none => 2
  | none => 2

/-- The launch that Cairn is bound to (R339). -/
def State.boundLaunch (s : State) : Option Launch :=
  s.launches.find? (fun l => l.ctx = s.mason.ctx && l.head = s.mason.lhead && l.state = .running)

/-- What a pass of episode `e` of a group brings about beyond the group: the recorded route bank is selected (R363), Mason
owes a merge or a copy (R347), drains count the pass (R345). -/
def State.passEffects (s : State) (l g : Nat) (e : BitVec 32) (bank : Option Nat) : State :=
  let s := match bank with
    | some b => { s with fabric := { s.fabric with cur := decide (b = 1) } }
    | none => s
  let mine (w : RouteWait) : Bool := decide (w.launch = l) && decide (w.group = g) && decide (w.episode = e)
  let s := (s.cores.map (·.1)).foldl (fun s i => s.onCore i (fun c =>
    (c.switches.filter mine).foldl (fun c w => (c.hwAdd w.flag 1).clearSlot .a w.slot)
      { c with switches := c.switches.filter (fun w => !mine w) })) s
  match s.boundLaunch with
  | some x =>
    if x.id = l && s.mason.en then
      { s with
        mason := { s.mason with
                   passes := if g = s.mason.sgrp then s.mason.passes + 1 else s.mason.passes,
                   mergeDue := if g = s.mason.sgrp then s.mason.mergeDue ++ [e] else s.mason.mergeDue,
                   copyDue := if g = s.mason.wgrp then s.mason.copyDue ++ [e] else s.mason.copyDue } }
    else s
  | none => s

/-- Record the arrival of a rank; when every rank has arrived the episode passes in one step (R39, R238). -/
def State.arrive (s : State) (l g rank : Nat) (bank : Option Nat) : State :=
  match s.launch? l with
  | none => s
  | some x => match x.group? g with
    | none => s
    | some gr =>
      let arrived := if gr.arrived.contains rank then gr.arrived else gr.arrived ++ [rank]
      let b := match bank with | some b => some b | none => gr.bank
      if decide (gr.members.length ≤ arrived.length) then
        (s.onLaunch l (fun x => x.onGroup g (fun gr => { gr with arrived := [], bank := none, episode := gr.episode + 1 }))).passEffects l g gr.episode b
      else s.onLaunch l (fun x => x.onGroup g (fun gr => { gr with arrived := arrived, bank := b }))

/-- After(a, b) of R102: a is later than b by less than half the range. -/
def after (a b : BitVec 32) : Bool := decide ((a - b).toNat ≠ 0) && decide ((a - b).toNat < 2 ^ 31)

/-- The episode that a group's barrier is in. -/
def State.episode (s : State) (l g : Nat) : BitVec 32 :=
  match s.launch? l with
  | some x => (match x.group? g with | some gr => gr.episode | none => 0)
  | none => 0

end Sys2Proof.Machine
end

