-- ==== Sys2Proof/Machine/Operands.lean ====
section
/-! DEFINITION. Operand forms: lanes and packed elements of vectors, predicates, scalar broadcasts, tile rows, accumulator
ranges (R77, R200, R215, R218), and consuming poisoned data at issue (R413). -/

namespace Sys2Proof.Machine

/-! ### Lanes and elements (R77) -/

/-- Width in bits of an element of a type code in a register lane: 6-bit types take a byte (R76, R210). -/
def regWidth (t : Nat) : Nat :=
  match t with
  | 0 => 32
  | 5 => 32
  | 1 => 16
  | 2 => 16
  | 6 => 16
  | _ => 8

/-- Lane `i` of a vector register. -/
def laneOf (v : Vec) (i : Nat) : Nat := v.toNat / 2 ^ (32 * i) % 2 ^ 32
/-- A vector register from its 32 lanes. -/
def vecOf (g : Nat → Nat) : Vec := BitVec.ofNat 1024 (joinUnits 32 ((span 0 32).map (fun i => g i % 2 ^ 32)))
/-- Write the active lanes, keep the others (R200). -/
def writeLanes (mask : BitVec 32) (old : Vec) (g : Nat → Nat) : Vec :=
  vecOf (fun i => if mask.getLsbD i then g i else laneOf old i)
/-- The elements of width `w` of a lane, element 0 first. -/
def elems (w x : Nat) : List Nat := (span 0 (32 / w)).map (fun j => x / 2 ^ (w * j) % 2 ^ w)
/-- A lane with every element equal to `x`. -/
def fill (w x : Nat) : Nat := joinUnits w ((span 0 (32 / w)).map (fun _ => x % 2 ^ w))
/-- OR of a list of flags. -/
def orFlags (l : List Flags) : Flags := l.foldl (· ||| ·) 0

/-- A register number of a 10-bit field that names an s-register when bs = 1 (R200). -/
def sReg (x : BitVec 10) : Nat := x.toNat % 64
/-- Lane `i` of the vb operand: with bs = 1 each element takes the low w bits of the s-register (R200). -/
def vbLane (c : Core) (f : VR) (w i : Nat) : Nat :=
  if f.bs = 1 then fill w (c.getS (sReg f.vb)).toNat else laneOf (c.getV f.vb.toNat) i
/-- The active lanes (R200). -/
def activeOf (c : Core) (pg : BitVec 3) : BitVec 32 := c.getP pg.toNat

/-- Every lane. -/
def allLanes : BitVec 32 := BitVec.allOnes 32
/-- The vb operand as a reference. -/
def vbRef (f : VR) : Ref := if f.bs = 1 then .s (sReg f.vb) else .v f.vb.toNat allLanes

/-- A VR form with destination vd and the given sources (R402). -/
def vrForm (f : VR) (s : State) (srcs : List Ref) : Form := { k := .c, refs := .v f.vd.toNat (activeOf s.me f.pg) :: srcs }

/-! ### Consuming poisoned data (R413, R437) -/

/-- A C access consumes a poisoned unit: cause 0x2C, imprecise, with the unit's address and array (R413, R437). -/
def State.consumeAt (s : State) (k : StrandKind) (addr array : Nat) : Did :=
  .goto (s.taskFault s.cur k false 0x2C ((s.me.strand k).pc) (BitVec.ofNat 64 addr) (BitVec.ofNat 64 array))

/-! ### Tile registers (R215, R412) -/

/-- Row `r` of a tile as one vector register. -/
def Tile.row (t : Tile) (r : Nat) : Vec := t.data.extractLsb' (1024 * r) 1024
/-- Replace row `r`. -/
def Tile.setRow (t : Tile) (r : Nat) (v : Vec) : Tile :=
  let old := t.data.toNat
  let sh := 2 ^ (1024 * r)
  { t with data := BitVec.ofNat 32768 (old - old / sh % 2 ^ 1024 * sh + v.toNat * sh) }
/-- The 8-byte unit that lane `i` of row `r` lies in (R412). -/
def tileUnit (r i : Nat) : Nat := 16 * r + i / 2
/-- The first active lane of a row that lies in a poisoned unit. -/
def Tile.poisonedLane (t : Tile) (r : Nat) (mask : BitVec 32) : Option Nat :=
  (span 0 32).find? (fun i => mask.getLsbD i && t.poison.contains (tileUnit r i))
/-- A tile unit in the ADDR of a record: 0xF, the owning core, the tile, the byte (R452). -/
def tileAddr (g n u : Nat) : Nat := 15 * 2 ^ 60 + g * 2 ^ 32 + n * 4096 + 8 * u
/-- Units of row `r` that a write of these lanes covers whole lose their mark (R412). -/
def Tile.clearRow (t : Tile) (r : Nat) (mask : BitVec 32) : Tile :=
  { t with poison := t.poison.filter (fun u => !(decide (u / 16 = r) && mask.getLsbD (2 * (u % 16)) && mask.getLsbD (2 * (u % 16) + 1))) }

/-- The row operand of TRD and TWR (R215). -/
def rowOf (c : Core) (f : VR) : Nat := if f.bs = 1 then (c.getS (sReg f.vb)).toNat % 32 else f.vc.toNat % 32

/-! ### Accumulator store (R53, R218) -/

/-- Words of the accumulator store (R53). -/
def accWords : Nat := 786432
/-- idx of R218. -/
def accIndex (c : Core) (f : VR) : Nat := (c.getS (sReg f.vb)).toNat % 2 ^ 20
/-- Byte addresses of accumulator words of a core. -/
def accBytes (g : Nat) (is : List Nat) : List Nat := is.flatMap (fun i => span (accAt g i) 4)

end Sys2Proof.Machine
end

