-- ==== Sys2Proof/Machine/Pool.lean ====
section
/-! DEFINITION. Timed copies and the send queue as entries leave their places (R142, R262, R264, R265). -/

namespace Sys2Proof.Machine

/-! ### Timed copies (R262) -/

/-- Timed copies whose time has come enter their channels, by time and then issue order (R262). -/
def Core.releaseCopies (c : Core) (now : Nat) : Core :=
  ((c.timed.filter (fun e => decide (e.2.time.toNat ≤ now))).mergeSort (fun a b => decide (a.2.time.toNat ≤ b.2.time.toNat))).foldl (fun c e =>
    if c.room (17 + e.1) then
      { c with timed := c.timed.filter (fun y => decide (y ≠ e)) }.setChannel e.1 (let q := c.channel e.1; { q with queue := q.queue ++ [Entry.work e.2] })
    else c) c

/-- A timed copy of the channel is due and still waits for room. -/
def Core.copyDue (c : Core) (ch now : Nat) : Bool := c.timed.any (fun e => decide (e.1 = ch) && decide (e.2.time.toNat ≤ now))

end Sys2Proof.Machine
end

