-- ==== Sys2Proof/Machine/Sync.lean ====
section
/-! DEFINITION. C strand: synchronisation, atomics and lattice instructions at issue (chapter 10, R224 to R245), with the
flag and identifier waits that the A, M and O strands share. What does not hold issue waits in the core's list until it is
performed. -/

namespace Sys2Proof.Machine

/-- The form of an SY word (R155, R224). -/
def syForm (f : SY) (refs : List Ref) : Form :=
  { k := .c, wait := f.wait, set := f.set.toNat, refs := refs, effect := true }

/-! ### AMOV and CASV (R226 to R231) -/

/-- The operand of a register or, with I128, a register pair (R226). -/
def pairOf (c : Core) (ty r : Nat) : BitVec 128 :=
  if ty = 4 then BitVec.ofNat 128 ((c.getS r).toNat + (c.getS (r + 1)).toNat * 2 ^ 64)
  else if ty = 1 then (c.getS r).setWidth 128
  else ((c.getS r).setWidth 32).setWidth 128

/-- Fields of imm14 (R226). -/
def amovOp (f : SY) : Nat := f.imm.toNat / 2 ^ 10
def amovTy (f : SY) : Nat := f.imm.toNat / 2 ^ 7 % 8
def amovOrder (f : SY) : Nat := f.imm.toNat / 2 ^ 4 % 8
def amovUse (f : SY) : Nat := f.imm.toNat / 2 % 8

/-- The destination: none for s0 and STORE. DESIGN CHOICE (log entry 140), unsafe: I128 with sd = 0 has no destination and s1 is not
written; R226 and R227 name the pair s0, s1, and R138 says that an atomic with destination s0 returns nothing. -/
def amovDest (f : SY) : Dest :=
  if f.sd = 0 then .none else if amovTy f = 4 then .sPair f.sd.toNat else .s f.sd.toNat

/-- Registers of AMOV and CASV. -/
def amovRefs (f : SY) : List Ref :=
  [.s f.sa.toNat, .s f.sb.toNat, .s f.sd.toNat] ++ (if amovTy f = 4 then [.s (f.sb.toNat + 1), .s (f.sd.toNat + 1)] else [])

/-- AMOV and CASV at issue. An SPC read issues before the slots of its wait field clear (R141). -/
def amovIssue (f : SY) (cas : Bool) (opcode : Nat) (s : State) : Result :=
  let spc := !cas && amovUse f = 4
  issue { syForm f (amovRefs f) with wait := if spc then 0 else f.wait } (fun s =>
    let c := s.me
    atomicIssue { k := .c, opcode := opcode, addr := c.getS f.sa.toNat, op := amovOp f, ty := amovTy f, order := amovOrder f,
                  use := amovUse f, narrow := f.imm.getLsbD 0, cas := cas, operand := pairOf c (amovTy f) f.sb.toNat,
                  expected := pairOf c (amovTy f) f.sd.toNat, dest := amovDest f, slot := f.set.toNat, wait := f.wait, flag := 63 } s) s

/-- AMOV (R226). -/
def execAmov (f : SY) (s : State) : Result := amovIssue f false 0x06 s
/-- CASV (R226): the expected value is s[sd], or its pair. -/
def execCasv (f : SY) (s : State) : Result := amovIssue f true 0x07 s

/-! ### Counting flags (R232, R233) -/

/-- The flag number idx[51:46]. -/
def syFlag (f : SY) : Nat := f.idx.toNat % 64
/-- v of R232. -/
def flagOperand (c : Core) (f : SY) : BitVec 48 := (c.getS f.sa.toNat + BitVec.ofInt 64 f.imm.toInt).setWidth 48

/-- Add to or set a flag as a release at CORE scope: at once when every earlier access of the strand is performed there and no old value
is returned, else as an access of variable latency that is still to be performed (R132, R134, R144, R224, R232). -/
def flagChange (k : StrandKind) (f : Nat) (set : Bool) (v : BitVec 48) (dest : Dest) (slot : Nat) (s : State) : Did :=
  if s.settled k 0 ∧ dest = .none then .done (s.onMe (fun c => (c.flagTurn (2 + strandNum k)).changeFlag f set v))
  else .done (s.addAccesses k
    [{ id := 0, grp := 0, pc := 0, kind := .flag f set v, dest := dest, slot := slot, release := true, loose := true }])

/-- A strand that R233 serves first waits on the flag and is satisfied. -/
def Core.flagTaken (c : Core) (k : StrandKind) (f : Nat) : Bool :=
  (strandOrder.filter (fun x => decide (strandNum x < strandNum k))).any (fun x =>
    match (c.strand x).hold with
    | .flag g th _ _ => g = f && decide (th ≤ (c.getF f).toNat) && !c.flagPending x f && !c.acquiring x
    | _ => false)

/-- Wait for a flag to reach `theta`; with `sub` take it off in the same step (R232, R233). It is tested in the ccy in which it issues,
and from then on by `Core.testWaiters` in each ccy in which a flag changes. -/
def flagWait (k : StrandKind) (f theta : Nat) (sub : Bool) (dest : Dest) (s : State) : Did :=
  let c := s.me
  let v := c.getF f
  if theta ≤ v.toNat && !c.flagPending k f && !c.acquiring k && !c.flagTaken k f then
    .done (s.onMe (fun c => { (if sub then c.setF f (v - BitVec.ofNat 48 theta) else c).deliverTo dest 8 v.toNat with flagRank := 6 }))
  else .wait (.flag f theta sub dest) s

/-- s[sd] as a destination. -/
def syDest (f : SY) : Dest := if f.sd = 0 then .none else .s f.sd.toNat

/-- FLADD (R232). -/
def execFladd (f : SY) (s : State) : Result :=
  issue (syForm f [.s f.sa.toNat, .s f.sd.toNat]) (fun s =>
    flagChange .c (syFlag f) false (flagOperand s.me f) (syDest f) f.set.toNat s) s
/-- FLSET (R232). -/
def execFlset (f : SY) (s : State) : Result :=
  issue (syForm f [.s f.sa.toNat, .s f.sd.toNat]) (fun s =>
    flagChange .c (syFlag f) true (flagOperand s.me f) (syDest f) f.set.toNat s) s
/-- FLWAIT (R232): .SUB is opt[11]. -/
def execFlwait (f : SY) (s : State) : Result :=
  issue (syForm f [.s f.sa.toNat, .s f.sd.toNat]) (fun s =>
    flagWait .c (syFlag f) (flagOperand s.me f).toNat (f.opt.getLsbD 0) (syDest f) s) s
/-- A variable-latency reading of something that is no memory: it stands in the strand's list until its destination is written. -/
def reading (k : StrandKind) (kind : AccessKind) (dest : Dest) (slot : Nat) (s : State) : Did :=
  .done (s.addAccesses k [{ id := 0, grp := 0, pc := 0, kind := kind, dest := dest, slot := slot, loose := true }])

/-- FLRD (R224, R232): it follows the strand's own changes of the flag and earlier acquires. -/
def execFlrd (f : SY) (s : State) : Result :=
  issue (syForm f [.s f.sd.toNat]) (reading .c (.flagRead (syFlag f)) (syDest f) f.set.toNat) s

/-! ### Waits (R234, R235) -/

/-- WAIT (R234). -/
def execWait (f : SY) (s : State) : Result :=
  issue (syForm f [.s f.sa.toNat]) (fun s =>
    if f.opt.getLsbD 0 && decide (s.timeOf s.cur < (s.me.getS f.sa.toNat).toNat) then .wait .other s else .done s) s

/-- Wait for TIDST of a channel (R235, R261, R270). -/
def tidWait (n theta : Nat) (dest : Dest) (s : State) : Did :=
  let v := (s.me.channel n).tidst % 2 ^ 48
  if theta % 2 ^ 48 ≤ v then .done (s.onMe (fun c => c.deliverTo dest 8 v)) else .wait .other s

/-- TIDWAIT (R235). -/
def execTidwait (f : SY) (s : State) : Result :=
  issue (syForm f [.s f.sa.toNat, .s f.sd.toNat]) (fun s =>
    tidWait (f.idx.toNat % 8) (s.me.getS f.sa.toNat).toNat (syDest f) s) s

/-! ### Rings (R236, R237) -/

/-- Who may use a ring instruction. -/
inductive RingUser where
  | producer | consumer | any
  deriving DecidableEq, Repr

/-- A ring instruction: the ring must be declared and usable by the task's stage, else a ring fault (R236). -/
def ringOp (f : SY) (opcode : Nat) (user : RingUser) (body : Launch → Task → Ring → State → Did) (s : State) : Did :=
  let bad : Did := .trap 0x0B (BitVec.ofNat 64 f.idx.toNat) (BitVec.ofNat 64 opcode)
  match s.myTask, s.myLaunch with
  | some t, some l => match l.rings[f.idx.toNat]? with
    | some r =>
      let ok := match user with
        | .producer => decide (r.producer = t.stage)
        | .consumer => decide (r.consumer = t.stage)
        | .any => true
      if ok then body l t r s else bad
    | none => bad
  | _, _ => bad

/-- RCLAIM (R236): a closed ring faults; .TRY is opt[11]. -/
def execRclaim (f : SY) (s : State) : Result :=
  issue (syForm f [.s f.sd.toNat]) (ringOp f 0x18 .producer (fun l t r s =>
    if r.closed then .trap 0x0B (BitVec.ofNat 64 f.idx.toNat) 0x18
    else match r.freeSlot with
      | some i =>
        .done ((s.onLaunch l.id (fun l => l.onRing f.idx.toNat (fun r => r.setSlot i (.claimed l.id t.stage t.tidx)))).onMe
          (fun c => c.setS f.sd.toNat (r.slotAddr i)))
      | none => if f.opt.getLsbD 0 then .done (s.onMe (fun c => c.setS f.sd.toNat 0)) else .wait .other s)) s

/-- A publication of the slot by this strand is still to be performed. -/
def Core.publishing (c : Core) (ring slot : Nat) : Bool :=
  c.outC.any (fun x => match x.kind with | .publish r i => r = ring && i = slot | _ => false)

/-- Publish a slot of a launch's ring (R33). -/
def State.publishSlot (s : State) (l ring slot : Nat) : State :=
  s.onLaunch l (fun l => l.onRing ring (fun r => r.publish slot))

/-- RPUB (R236): it seals, and publishes when the strand's accesses are performed at the ring's page scope (R145). -/
def execRpub (f : SY) (s : State) : Result :=
  issue (syForm f [.s f.sa.toNat]) (ringOp f 0x19 .producer (fun l t r s =>
    let bad : Did := .trap 0x0B (BitVec.ofNat 64 f.idx.toNat) 0x19
    match r.slotIndex (s.me.getS f.sa.toNat) with
    | some i =>
      if look .free r.slots i ≠ .claimed l.id t.stage t.tidx || s.me.publishing f.idx.toNat i then bad
      else
        let s := s.sealMine
        if s.settled .c (s.ringScope t.ctx r) then .done (s.publishSlot l.id f.idx.toNat i)
        else .done (s.addAccesses .c
          [{ id := 0, grp := 0, pc := 0, kind := .publish f.idx.toNat i, slot := f.set.toNat, release := true, loose := true }])
    | none => bad)) s

/-- s[sa] + imm14 of RWFILL and RWFREE. -/
def ringCount (c : Core) (f : SY) : Nat := (c.getS f.sa.toNat).toNat + f.imm.toNat

/-- RWFILL (R236). -/
def execRwfill (f : SY) (s : State) : Result :=
  issue (syForm f [.s f.sa.toNat, .s f.sd.toNat]) (ringOp f 0x1A .any (fun _ _ r s =>
    if ringCount s.me f ≤ r.pub || r.closed then .done (s.onMe (fun c => c.setS f.sd.toNat r.info)) else .wait .other s)) s
/-- RWFREE (R236, R237): on a closed ring it completes at once. -/
def execRwfree (f : SY) (s : State) : Result :=
  issue (syForm f [.s f.sa.toNat, .s f.sd.toNat]) (ringOp f 0x1B .any (fun _ _ r s =>
    if ringCount s.me f ≤ r.free || r.closed then .done (s.onMe (fun c => c.setS f.sd.toNat r.info)) else .wait .other s)) s
/-- RCONS (R236). -/
def execRcons (f : SY) (s : State) : Result :=
  issue (syForm f [.s f.sa.toNat]) (ringOp f 0x1C .consumer (fun l t r s =>
    let bad : Did := .trap 0x0B (BitVec.ofNat 64 f.idx.toNat) 0x1C
    match r.slotIndex (s.me.getS f.sa.toNat) with
    | some i =>
      if look .free r.slots i = .taken t.stage t.tidx && decide (t.ringSlot = some (f.idx.toNat, i)) then
        .done (s.onLaunch l.id (fun l => l.onRing f.idx.toNat (fun r => r.setSlot i .free)))
      else bad
    | none => bad)) s
/-- RINFO (R224, R237). -/
def execRinfo (f : SY) (s : State) : Result :=
  issue (syForm f [.s f.sd.toNat]) (ringOp f 0x1D .any (fun _ _ _ s => reading .c (.ringInfo f.idx.toNat) (syDest f) f.set.toNat s)) s

/-! ### Barriers (R238) -/

/-- A barrier instruction: the entry must be a Barrier and the task a member, else a group fault (R238). -/
def barrierOp (f : SY) (opcode : Nat) (body : Nat → Nat → State → Did) (s : State) : Did :=
  let bad : Did := .trap 0x0C (BitVec.ofNat 64 f.idx.toNat) (BitVec.ofNat 64 opcode)
  match s.myTask with
  | some t => match s.rankIn t f.idx.toNat kindBarrier with
    | some r => body t.launch r s
    | none => bad
  | none => bad

/-- The strand's accesses are performed at the group's scope, QUA adds included (R134, R145). -/
def State.mayArrive (s : State) (l g : Nat) : Bool := s.settled .c (s.groupScope l g)

/-- GARR (R224, R238): the arrival is a release, recorded when what precedes it is performed; one that returns the episode is of variable
latency. -/
def execGarr (f : SY) (s : State) : Result :=
  issue (syForm f [.s f.sd.toNat]) (barrierOp f 0x21 (fun l r s =>
    if s.mayArrive l f.idx.toNat ∧ f.sd = 0 then .done (s.arrive l f.idx.toNat r none)
    else .done (s.addAccesses .c
      [{ id := 0, grp := 0, pc := 0, kind := .arrive f.idx.toNat, dest := syDest f, slot := f.set.toNat, release := true, loose := true }]))) s

/-- GBAR (R238): it arrives once, then holds issue until the episode has passed. -/
def execGbar (f : SY) (s : State) : Result :=
  issue (syForm f [.s f.sd.toNat]) (barrierOp f 0x20 (fun l r s =>
    let g := f.idx.toNat
    match s.me.strandC.hold with
    | .arrived _ e => if after (s.episode l g) e then .done s else .wait (.arrived g e) s
    | _ =>
      if s.mayArrive l g then
        let e := s.episode l g
        let s := (s.onMe (fun c => c.setS f.sd.toNat (e.setWidth 64))).arrive l g r none
        if after (s.episode l g) e then .done s else .wait (.arrived g e) s
      else .wait .fenced s)) s

/-- GWAIT (R238). -/
def execGwait (f : SY) (s : State) : Result :=
  issue (syForm f [.s f.sa.toNat]) (barrierOp f 0x22 (fun l _ s =>
    if after (s.episode l f.idx.toNat) ((s.me.getS f.sa.toNat).setWidth 32) then .done s else .wait .other s)) s

/-! ### Lattice instructions (R239 to R242) -/

/-- The lattice type of the page that a flat address names; 0 where the page cannot be read. -/
def State.latAt (s : State) (ctx : Nat) (a : Word) : Nat :=
  match s.desc? ctx (tensorOf a) with
  | none => 0
  | some d =>
    if 8 * offsetOf a < d.elems * d.eb then
      let p := s.entryFor s.freeCtr s.cur ctx (d.entryAddr (d.bitPos (8 * offsetOf a / d.eb) / 8 / 65536))
      if p.v then p.lat else 0
    else 0

/-- Check a lattice access (R240, R398): a vault address has the lattice type fault after its form and protection, the cell
is aligned to its size, a GCNT cell of a HOME 2 page is joined on its home chip only, the form must fit the cell. -/
def State.checkLattice (s : State) (a : Word) (need : Need) (vector : Bool) : Checked :=
  if tensorOf a = 0 then
    match s.vaultFault s.cur s.myCtx a with
    | some c => .fault c a
    | none => .fault 0x50 a
  else
    let lat := s.latAt s.myCtx a
    let n := if lat = 0 ∨ 9 < lat then 1 else cellBytes lat
    match s.checkFlat s.cur s.myCtx a n (span 0 n) need with
    | .ok t =>
      if need = .join && t.lat = 6 && t.home = 2 && decide (paChip (t.addrs.headD 0) ≠ s.chip) then .fault 0x52 a
      else if decide (vectorCell t.lat ≠ vector) then .fault 0x50 a
      else .ok t
    | r => r

/-- The die whose replica serves a checked lattice access. -/
def Target.die (t : Target) (g : Nat) : Nat :=
  match t.route with
  | .replica d _ => d
  | _ => dieOf g

/-- The v-register of the vector forms: idx and sd[45:44] (R240). -/
def latVec (f : SY) : Nat := f.idx.toNat * 4 + f.sd.toNat / 16
/-- Acquire and release of order[20:18]. -/
def latOrder (f : SY) : Nat := f.imm.toNat / 2 ^ 4 % 8

/-- LJOIN and LJOINV at issue (R240, R241). -/
def joinIssue (f : SY) (vector : Bool) (x : Core → Nat → Nat) (s : State) : Did :=
  let a := s.me.getS f.sa.toNat
  match s.checkLattice a .join vector with
  | .fault c e => .trap c e 0
  | .pageIn t p => s.waitPage .c t p
  | .walk pa n => s.waitTable .c pa n
  | .ok t =>
    let s' := if t.lat = 6 then s.sealMine else s
    .done (s'.addAccesses .c
      [{ t.access a with kind := .join t.lat (BitVec.ofNat 256 (x s.me t.lat)) (dieOf s.cur), slot := f.set.toNat, release := latOrder f = 2 }])

/-- LJOIN (R240): the low 32 bits for 4-byte types and GCNT. -/
def execLjoin (f : SY) (s : State) : Result :=
  issue (syForm f [.s f.sa.toNat, .s f.sb.toNat]) (joinIssue f false (fun c lat =>
    let x := (c.getS f.sb.toNat).toNat
    if cellBytes lat = 8 then x else x % 2 ^ 32)) s
/-- LJOINV (R240): lanes 0 to 7. -/
def execLjoinv (f : SY) (s : State) : Result :=
  issue (syForm f [.s f.sa.toNat, .v (latVec f) (BitVec.ofNat 32 255)]) (joinIssue f true (fun c _ => (c.getV (latVec f)).toNat % 2 ^ 256)) s

/-- An earlier access of the strand must come before a lattice load of a cell: the same cell, or an acquire (R130, R134). -/
def Core.loadHeld (c : Core) (addrs : List Nat) : Bool :=
  c.acquiring .c || c.outC.any (fun x => !x.loose && x.phase = .issued && x.addrs.any (fun a => addrs.contains a))

/-- LLDT (R242): it completes at once where the replica meets the threshold; else it parks at the die, unless 4,096 loads
are parked there. The task's first lattice load after a restart waits for its exchange (R334). -/
def thresholdLoad (f : SY) (vector : Bool) (theta : Core → Nat → Nat) (dest : Nat → Dest) (s : State) : Did :=
  match s.me.strandC.hold with
  | .parked => .wait .parked s
  | _ =>
    let a := s.me.getS f.sa.toNat
    match s.checkLattice a (.latticeLoad true) vector with
    | .fault c e => .trap c e 0
    | .pageIn t p => s.waitPage .c t p
    | .walk pa n => s.waitTable .c pa n
    | .ok t =>
      let d := t.die s.cur
      let th := theta s.me t.lat
      let s := if f.opt.getLsbD 1 then s.askExchange d else s
      let waits := match s.myTask with | some t => t.awaitExchange | none => false
      let pa := t.addrs.headD 0
      let marked := match (s.die d).granule? (granuleOf pa) with
        | some g => (span (pa % 64) (cellBytes t.lat)).find? (fun o => g.poison.contains (o / 8))
        | none => none
      if s.tableLost pa (cellBytes t.lat) then .trap 0x26 a 0
      else if waits || s.me.loadHeld t.addrs then .wait .other s
      else match marked with
        | some o => s.consumeAt .c (pa / 64 * 64 + o / 8 * 8) 4
        | none =>
          let met := match (s.die d).cell? t.lat pa with
            | some c => if thresholdMet t.lat th c then some c else none
            | none => none
          match met with
          | some c => .done (s.onMe (fun x => x.deliverTo (dest t.lat) 32 (cellValue t.lat c)))
          | none =>
            if 4096 ≤ (s.die d).parked.length then .wait .other s
            else .wait .parked (s.onDie d (fun x => { x with parked := x.parked ++
              [{ core := s.cur, cell := pa, lat := t.lat, theta := BitVec.ofNat 256 th, dest := dest t.lat, slot := f.set.toNat,
                 pc := s.pcOf .c, vaddr := a, acquire := latOrder f = 1, home := t.home,
                 limit := if s.flow.limit = 0 then none else some ((s.die d).time.toNat + 1000 * s.flow.limit.toNat) }] }))

/-- LLDT scalar (R240). -/
def execLldt (f : SY) (s : State) : Result :=
  issue (syForm f [.s f.sa.toNat, .s f.sb.toNat, .s f.sd.toNat]) (thresholdLoad f false (fun c lat =>
    let x := (c.getS f.sb.toNat).toNat
    if cellBytes lat = 4 then x % 2 ^ 32 else x) (fun _ => syDest f)) s
/-- LLDT.V (R240). -/
def execLldtV (f : SY) (s : State) : Result :=
  issue (syForm f [.s f.sa.toNat, .v (latVec f) (BitVec.ofNat 32 255)]) (thresholdLoad f true
    (fun c _ => (c.getV (latVec f)).toNat % 2 ^ 256) (fun _ => .lanes (latVec f) (span 0 8))) s

/-- LLD at issue (R240, R242). -/
def latticeLoad (f : SY) (vector : Bool) (dest : Dest) (s : State) : Did :=
  let a := s.me.getS f.sa.toNat
  match s.checkLattice a (.latticeLoad false) vector with
  | .fault c e => .trap c e 0
  | .pageIn t p => s.waitPage .c t p
  | .walk pa n => s.waitTable .c pa n
  | .ok t =>
    .done (s.addAccesses .c
      [{ t.access a with kind := .latticeLoad t.lat (t.die s.cur), dest := dest, slot := f.set.toNat, acquire := latOrder f = 1 }])

/-- LLD scalar (R240). -/
def execLld (f : SY) (s : State) : Result := issue (syForm f [.s f.sa.toNat, .s f.sd.toNat]) (latticeLoad f false (syDest f)) s
/-- LLD.V (R240). -/
def execLldV (f : SY) (s : State) : Result :=
  issue (syForm f [.s f.sa.toNat, .v (latVec f) (BitVec.ofNat 32 255)]) (latticeLoad f true (.lanes (latVec f) (span 0 8))) s

/-! ### Fences and events (R243 to R245) -/

/-- FENCE (R133, R241, R243): it flushes the strand's pending sums, wider than DIE it asks for an immediate exchange, and
it holds issue until every earlier access is performed at its scope. -/
def execFence (f : SY) (s : State) : Result :=
  issue (syForm f []) (fun s =>
    let sc := f.opt.toNat
    let s := if s.me.strandC.hold = .fenced then s
      else (let s := s.fenceQua s.cur .c sc; if 1 < sc then s.askExchange (dieOf s.cur) else s)
    if s.settled .c sc then .done s else .wait .fenced s) s

/-- The pool queue number of a QFENCE queue: TQ, c0 to c7, SQ, BQ, MQ, OQ stand in the order of R319. -/
def fenceQueues (imm : BitVec 14) : List Nat := (span 0 13).filter (fun i => imm.getLsbD i)

/-- Put a fence entry at the tail of a queue (R143). -/
def Core.putFence (id : Nat) (c : Core) (q : Nat) : Core :=
  if q = 0 then { c with tq := c.tq ++ [.fence id] }
  else if q < 9 then c.setChannel (q - 1) (let x := c.channel (q - 1); { x with queue := x.queue ++ [.fence id] })
  else if q = 9 then { c with sq := c.sq ++ [.fence id] }
  else if q = 10 then { c with bq := c.bq ++ [.fence id] }
  else if q = 11 then { c with mq := c.mq ++ [.fence id] }
  else { c with oq := c.oq ++ [.fence id] }

/-- Every named queue has room for its fence entry; entries of one QFENCE take room one after another (R244, R319). -/
def Core.fenceRoom (id : Nat) : List Nat → Core → Bool
  | [], _ => true
  | q :: qs, c => c.room (q + 16) && Core.fenceRoom id qs (c.putFence id q)

/-- QFENCE (R143, R244). -/
def execQfence (f : SY) (s : State) : Result :=
  issue (syForm f []) (fun s =>
    let qs := fenceQueues f.imm
    let id := s.me.nextId
    if Core.fenceRoom id qs s.me then
      .done (s.onMe (fun c =>
        ({ qs.foldl (Core.putFence id) c with nextId := id + 1, fences := c.fences ++ [{ id := id, queues := qs, slot := f.set.toNat }] } : Core).markSlot .c f.set.toNat))
    else .wait .pool s) s

/-- EVSIG (R245): it seals; its record is made when every earlier access is performed at DEV scope. -/
def execEvsig (f : SY) (s : State) : Result :=
  issue (syForm f [.s f.sa.toNat]) (fun s =>
    .done (s.sealMine.addAccesses .c
      [{ id := 0, grp := 0, pc := 0, kind := .event f.imm (s.me.getS f.sa.toNat), slot := f.set.toNat, release := true, loose := true }])) s

end Sys2Proof.Machine
end

