-- ==== Sys2Proof/Machine/AccessStrand.lean ====
section
/-! DEFINITION. The A strand at issue: arithmetic, control, descriptors, scalar reads, tile transfers, copies, sends, fabric
control, atomics, dispatch, broadcast and waits (chapter 11, R246 to R271). -/

namespace Sys2Proof.Machine

/-! ### Arithmetic and control (R248, R249) -/

/-- The form of an AR word. -/
def arForm (f : AR) : Form := { k := .a, refs := [.a f.aa.toNat, .a f.ab.toNat, .a f.ad.toNat] }
/-- a[ad] := g a[aa] a[ab] (R248). -/
def arOp (f : AR) (g : Word → Word → Word) (s : State) : Result :=
  issueCore (arForm f) (fun c => c.setA f.ad.toNat (g (c.getA f.aa.toNat) (c.getA f.ab.toNat))) s

/-- AADD (R248). -/
def execAadd (f : AR) (s : State) : Result := arOp f (· + ·) s
/-- ASUB (R248). -/
def execAsub (f : AR) (s : State) : Result := arOp f (· - ·) s
/-- AMUL (R248). -/
def execAmul (f : AR) (s : State) : Result := arOp f (· * ·) s
/-- AAND (R248). -/
def execAand (f : AR) (s : State) : Result := arOp f (· &&& ·) s
/-- AOR (R248). -/
def execAor (f : AR) (s : State) : Result := arOp f (· ||| ·) s
/-- AXOR (R248). -/
def execAxor (f : AR) (s : State) : Result := arOp f (· ^^^ ·) s
/-- ASHL (R248). -/
def execAshl (f : AR) (s : State) : Result := arOp f (fun a b => a <<< (b.toNat % 64)) s
/-- ASHR (R248). -/
def execAshr (f : AR) (s : State) : Result := arOp f (fun a b => a >>> (b.toNat % 64)) s
/-- AMIN (R248): unsigned. -/
def execAmin (f : AR) (s : State) : Result := arOp f (fun a b => if a.toNat ≤ b.toNat then a else b) s
/-- AMAX (R248): unsigned. -/
def execAmax (f : AR) (s : State) : Result := arOp f (fun a b => if a.toNat ≤ b.toNat then b else a) s

/-- The form of an AI word. -/
def aiForm (f : AI) : Form := { k := .a, refs := [.a f.aa.toNat, .a f.ad.toNat] }
/-- AADDI (R248). -/
def execAaddi (f : AI) (s : State) : Result :=
  issueCore (aiForm f) (fun c => c.setA f.ad.toNat (c.getA f.aa.toNat + BitVec.ofInt 64 f.imm.toInt)) s
/-- ALI (R248). -/
def execAli (f : AI) (s : State) : Result := issueCore (aiForm f) (fun c => c.setA f.ad.toNat (BitVec.ofInt 64 f.imm.toInt)) s
/-- ALIH (R248): imm32 above a[ad][31:0]. -/
def execAlih (f : AI) (s : State) : Result :=
  issueCore (aiForm f) (fun c => c.setA f.ad.toNat (f.imm ++ (c.getA f.ad.toNat).setWidth 32)) s

/-- Target of an A branch (R249). -/
def abTarget (f : AB) (c : Core) : Word := relTarget c.strandA.pc 8 f.off
/-- The form of an AB word. -/
def abForm (f : AB) : Form := { k := .a, refs := [.a f.aa.toNat, .a f.ab.toNat] }
/-- ABR (R249). -/
def execAbr (f : AB) (s : State) : Result :=
  branchIf (abForm f) (abTarget f) (fun c => condHolds f.cond.toNat (c.getA f.aa.toNat) (c.getA f.ab.toNat)) s
/-- AJMP (R249). -/
def execAjmp (f : AB) (s : State) : Result := branchIf { k := .a } (abTarget f) (fun _ => true) s
/-- ALOOP (R249, R185). -/
def execAloop (f : AB) (s : State) : Result :=
  issue { k := .a, notLast := true, refs := [.a f.aa.toNat] } (loopBody .a (fun c => c.getA f.aa.toNat) (abTarget f)) s
/-- AEND (R249). -/
def execAend (_f : AB) (s : State) : Result := issue { k := .a, notLast := true } (endStrand .a) s
/-- ANOP (R249). -/
def execAnop (_f : AB) (s : State) : Result := issueCore { k := .a } id s

/-! ### AT words -/

/-- Registers a[crd] to a[crd + n − 1]. -/
def blockRefs (crd n : Nat) : List Ref := (span crd n).map Ref.a
/-- The form of an AT word that reads `n` registers from crd (R246). -/
def atForm (f : AT) (n : Nat) (more : List Ref) : Form :=
  { k := .a, wait := f.wait, set := f.set.toNat, refs := blockRefs f.crd.toNat n ++ more, effect := true, access := true }

/-- The word of an A instruction, as its reserved encoding's record holds it (R396). -/
def wordOfA (i : Instr) : Word := match encode i with | some (.a w) => w | _ => 0

/-- A reserved value in an operand block: cause 0x00 with the word (R396, R397). -/
def reserved (i : Instr) : Did := .trap 0x00 (wordOfA i) 0

/-- Register `i` of an operand block. -/
def blockReg (f : AT) (c : Core) (i : Nat) : Word := c.getA (f.crd.toNat + i)

/-- Bits hi to lo of a word. -/
def bitsOf (w : Word) (hi lo : Nat) : Nat := w.toNat / 2 ^ lo % 2 ^ (hi + 1 - lo)

/-! ### Descriptors and scalar reads (R250 to R253) -/

/-- Virtual address of a tensor's first byte. -/
def tensorAddr (n : Nat) : Word := BitVec.ofNat 64 (n * 2 ^ 44)

/-- An access of the A strand that is still to be performed names one of these bytes (R127). -/
def State.reachesLate (s : State) (bytes : List Nat) : Bool :=
  s.me.outA.any (fun x => x.phase = .issued && (unitBytes x.unit x.addrs).any (fun a => bytes.any (fun b => memKey a = memKey b)))

/-- DLD (R250): it reads and checks the descriptor at issue, where its fault is precise and leaves the slot invalid (R386, R399); the
slot holds the descriptor when its access completes (log entry 11). -/
def execDld (f : AT) (s : State) : Result :=
  issue (atForm f 1 []) (fun s =>
    let x := blockReg f s.me 0
    let pa := s.descAddr s.myCtx x.toNat
    let bad : Did := .goto ((s.onMe (fun c => c.setSlot f.d.toNat {})).raise .a 0x11 (if x.toNat < 2 ^ 20 then tensorAddr x.toNat else x) 0)
    if (s.me.slot f.d.toNat).busy then .wait .other s
    else if 2 ^ 20 ≤ x.toNat ∨ x.toNat = 0 then bad
    else if !s.tableHeld pa 64 then s.waitTable .a pa 64
    else if s.reachesLate (span pa 64) then .wait .other s
    else match s.desc? s.myCtx x.toNat with
      | none => bad
      | some d => .done ((s.addAccesses .a [{ id := 0, grp := 0, pc := 0, kind := .descriptor x.toNat, dest := .slot f.d.toNat, slot := f.set.toNat }]).onMe
          (fun c => c.setSlot f.d.toNat { valid := true, busy := true, desc := d }))) s

/-- The descriptor of a valid slot; the instruction waits for the slot's DLD (R404), and an invalid slot raises a descriptor fault
(R250). -/
def withSlot (f : AT) (body : Desc → State → Did) (s : State) : Did :=
  let x := s.me.slot f.d.toNat
  if x.busy then .wait .other s else if x.valid then body x.desc s else .trap 0x11 0 0

/-- DSET (R251). -/
def execDset (f : AT) (s : State) : Result :=
  issue (atForm f 1 []) (withSlot f (fun d s =>
    let x := blockReg f s.me 0
    let pad := x.toNat / 2 ^ 32
    if 2 ^ d.eb ≤ pad then .trap 0x11 (tensorAddr d.tid) 0
    else .done (s.onMe (fun c => c.setSlot f.d.toNat
      { valid := true, desc := { d with pad := BitVec.ofNat 32 pad, pois := BitVec.ofNat 2 (bitsOf x 29 28) } })))) s

/-- ALDS (R252). -/
def execAlds (f : AT) (s : State) : Result :=
  issue { atForm f 1 [.a (f.dx.toNat % 32)] with access := false } (fun s =>
    let a := blockReg f s.me 0 + BitVec.ofInt 64 (8 * f.var.toInt)
    match s.check s.cur s.myCtx a 8 8 (span 0 8) .load with
    | .fault c x => .trap c x 0
    | .pageIn t p => s.waitPage .a t p
    | .walk pa n => s.waitTable .a pa n
    | .ok t => .done (s.addAccesses .a [{ t.access a with kind := .load, dest := .a (f.dx.toNat % 32), slot := f.set.toNat }])) s

/-- ALDS of a status register (R252, R253). -/
def execAldsStatus (f : AT) (s : State) : Result :=
  issue { atForm f 0 [.a (f.dx.toNat % 32)] with access := false }
    (reading .a (.streamStatus f.var.toNat) (if f.dx.toNat % 32 = 0 then .none else .a (f.dx.toNat % 32)) f.set.toNat) s

/-! ### Tile transfers (R254 to R259) -/

/-- Row-major flat index of coordinates. -/
def flatIndex : List Nat → List Nat → Nat
  | c :: cs, d :: ds => c + d * flatIndex cs ds
  | _, _ => 0

/-- Virtual address of an element. -/
def Desc.addrOf (d : Desc) (c : List Nat) : Word := BitVec.ofNat 64 (d.tid * 2 ^ 44 + flatIndex c d.dim * d.eb / 8 % 2 ^ 44)

/-- Coordinates of the first element of tile `j` (R254). -/
def tileStart (d : Desc) (coords : List Nat) (j : Nat) : List Nat :=
  match coords with
  | [] => []
  | c :: cs => (c + j * d.tdim.headD 1) :: cs

/-- Every coordinate is a multiple of its tile extent (R62). -/
def alignedTo : List Nat → List Nat → Bool
  | c :: cs, t :: ts => decide (c % t = 0) && alignedTo cs ts
  | _, _ => true
/-- Every coordinate lies below 2^32 and inside the tensor (R62, R254). -/
def insideOf : List Nat → List Nat → Bool
  | c :: cs, d :: ds => decide (c < d) && insideOf cs ds
  | _, _ => true

/-- The checks of each tile's start (R254): cause, address, tile. -/
def tileFault (d : Desc) (coords : List Nat) (tiles : Nat) : Option (Nat × Word × Nat) :=
  if !alignedTo coords d.tdim then some (0x22, d.addrOf coords, 0)
  else ((span 0 tiles).find? (fun j => !insideOf (tileStart d coords j) d.dim)).map (fun j => (0x23, d.addrOf (tileStart d coords j), j))

/-- Bytes `[a, a + n)` of a vault space address: form, protection, alignment and the vault's end (R51, R52). -/
def State.vaultRange (s : State) (g ctx : Nat) (a : Word) (align n : Nat) : Option Nat :=
  if tensorOf a ≠ 0 then some 0x20
  else match s.vaultFault g ctx a with
    | some c => some c
    | none => if a.toNat % align ≠ 0 ∨ 2 ^ 22 < vaultOfs a + n then some 0x22 else none

/-- The index list of TGATH and TSCAT, read at issue (R257). -/
def State.indexList (s : State) (g : Nat) (a : Word) (n : Nat) : List Int :=
  (span 0 n).map (fun i => sInt 32 (s.loadLE (vaultAt (vaultCore g a) (vaultOfs a + 4 * i)) 4))

/-- The storage page of a tile by its tile number. -/
def Desc.pageOfTile (d : Desc) (tn : Nat) : Nat := tn * d.tileBits / 8 / 65536

/-- Pages that a plain store's tiles lie in. -/
def storePages (d : Desc) (coords : List Nat) (tiles : Nat) : List Nat :=
  (span 0 tiles).map (fun j => d.pageOfTile (d.place (tileStart d coords j)).1)
/-- Rows of a gather or scatter, but for pad rows, and the page that each lies in. -/
def scatterRows (d : Desc) (coords : List Nat) (tiles : Nat) (idx : List Int) : List (Nat × Nat) :=
  let h := d.tdim.getD (d.rank - 1) 1
  (span 0 (tiles * h)).filterMap (fun r =>
    let l := idx.getD r (-1)
    if l < 0 then none
    else some (r, d.pageOfTile (d.place ((tileStart d coords (r / h)).take (d.rank - 1) ++ l.toNat :: (List.replicate (5 - d.rank) 0))).1))

/-- The destination of a store is translated before it issues: whether some page of the list lies in SPACE 2 or 6 (R247). A page
that is not valid makes the access unit wait for it (R72), but the rows of a scatter wait one by one when they are written (R73); an
entry on another chip is fetched first (R55). -/
def State.storeSeals (s : State) (d : Desc) (pages : List Nat) (rows : Bool) : Except Did Bool :=
  match pages.find? (fun p => !s.tableHeld (d.entryAddr p) 16) with
  | some p => .error (s.waitTable .a (d.entryAddr p) 16)
  | none => match pages.find? (fun p => !rows && !(s.readPage (d.entryAddr p)).v && (s.denial s.cur s.myCtx d.tid p).isNone) with
    | some p => .error (s.waitPage .a d.tid p)
    | none => .ok (pages.any (fun p => let q := s.readPage (d.entryAddr p); q.v && (paSpace q.frame = 2 || paSpace q.frame = 6)))

/-- Pages of tiles, or of the rows of a gather, with their address and tile number: the first that is valid and that a read may not reach
from this chip (R324). -/
def State.scopeFault (s : State) (d : Desc) (l : List (Nat × Word × Nat)) : Option (Word × Nat) :=
  (l.find? (fun e => s.tableHeld (d.entryAddr e.1) 16 && (let p := s.readPage (d.entryAddr e.1); p.v && decide (s.pageFault d p .load = some 0x52)))).map (·.2)

/-- One instruction of R254: the checks at issue, the seal of a store, and its entry. -/
def transferIssue (i : Instr) (f : AT) (op : TransferOp) (s : State) : Result :=
  let gather := op = .tgath || op = .tscat
  let store := op = .tst || op = .tscat
  let tiles := f.var.toNat + 1
  let slot := s.me.slot f.d.toNat
  let past := slot.valid && !slot.busy && decide (31 < f.crd.toNat + slot.desc.rank - 1)
  issue { atForm f slot.desc.rank (if f.dk = 2 then [.a (f.dx.toNat % 32)] else []) with reservedWord := if past then some (wordOfA i) else none }
    (withSlot f (fun d s =>
    let n := if gather then d.rank - 1 else d.rank
    let c := s.me
    let coords := (span 0 5).map (fun k => if k < n then (c.getA (f.crd.toNat + k)).toNat else 0)
    let list := c.getA (f.crd.toNat + d.rank - 1)
    let h := d.tdim.getD (d.rank - 1) 1
    let vault := c.getA f.dx.toNat
    let listFault := if gather then s.vaultRange s.cur s.myCtx list 4 (4 * tiles * h) else none
    let vaultFault := if f.dk = 2 then s.vaultRange s.cur s.myCtx vault 32 (tiles * d.tb) else none
    let form (x : Option Nat) : Bool := x = some 0x20 || x = some 0x21
    if gather && decide (d.rank < 2) then .trap 0x11 (tensorAddr d.tid) 0
    else if f.dk = 1 && (decide (4096 < d.tb) || decide (15 < f.dx.toNat + f.var.toNat)) then .trap 0x10 (d.addrOf coords) 0
    else if form listFault then .trap (listFault.getD 0) list 0
    else if form vaultFault then .trap (vaultFault.getD 0) vault 0
    else if listFault.isSome then .trap 0x22 list 0
    else if vaultFault.isSome then .trap 0x22 vault 0
    else match tileFault d coords tiles with
      | some (cause, a, j) => .trap cause a (BitVec.ofNat 64 j)
      | none =>
        let idx := if gather then s.indexList s.cur list (tiles * h) else []
        match (span 0 idx.length).find? (fun r => decide (idx.getD r 0 < -1) || decide ((d.dim.getD (d.rank - 1) 1 : Int) ≤ idx.getD r 0)) with
        | some r => .trap 0x23 (list + BitVec.ofNat 64 (4 * r)) (BitVec.ofNat 64 (r / h))
        | none =>
          let reads := if gather then (scatterRows d coords tiles idx).map (fun e => (e.2, d.addrOf (tileStart d coords (e.1 / h)), e.1 / h))
            else ((span 0 tiles).zip (storePages d coords tiles)).map (fun e => (e.2, d.addrOf (tileStart d coords e.1), e.1))
          match (if store || op = .tpref then none else s.scopeFault d reads) with
          | some (a, j) => .trap 0x52 a (BitVec.ofNat 64 j)
          | none =>
          let seals := if store then s.storeSeals d (if gather then (scatterRows d coords tiles idx).map (·.2) else storePages d coords tiles) gather else .ok false
          match seals with
          | .error r => r
          | .ok b =>
            if !c.room 16 then .wait .pool s
            else
              let s := if store && (b || (op = .tst && f.ord.getLsbD 5)) then s.sealMine else s
              let x : Transfer := { op := op, desc := d, coords := coords, tiles := tiles, kind := f.dk.toNat,
                                    target := if f.dk = 2 then vault.toNat else f.dx.toNat, lane := f.ord.toNat % 16, indices := idx,
                                    flag := f.flag.toNat, slot := f.set.toNat, pc := s.pcOf .a, ctx := s.myCtx, num := s.me.nextId }
              .done (s.onMe (fun c => ({ c with tq := c.tq ++ [.work x], nextId := c.nextId + 1 } : Core).markSlot .a f.set.toNat)))) s

/-- TLD (R254). -/
def execTld (f : AT) (s : State) : Result := transferIssue (.tld f) f .tld s
/-- TST (R254). -/
def execTst (f : AT) (s : State) : Result := transferIssue (.tst f) f .tst s
/-- TGATH (R254, R257). -/
def execTgath (f : AT) (s : State) : Result := transferIssue (.tgath f) f .tgath s
/-- TSCAT (R254, R257). -/
def execTscat (f : AT) (s : State) : Result := transferIssue (.tscat f) f .tscat s
/-- TPREF (R254, R258). -/
def execTpref (f : AT) (s : State) : Result := transferIssue (.tpref f) f .tpref s
/-- SCLD (R254, R258). -/
def execScld (f : AT) (s : State) : Result := transferIssue (.scld f) f .scld s

/-! ### Copies (R260 to R262) -/

/-- The descriptor of the tensor that an address names stands on another chip and is not held (R55). -/
def State.walkFor (s : State) (ctx : Nat) (a : Word) : Option Nat :=
  if tensorOf a = 0 || s.tableHeld (s.descAddr ctx (tensorOf a)) 64 then none else some (s.descAddr ctx (tensorOf a))

/-- Bytes from an address lie in the vault, or within the tensor: the cause of the fault (R260, R398). -/
def State.copyRange (s : State) (g ctx : Nat) (a : Word) (n : Nat) : Option Nat :=
  if tensorOf a = 0 then s.vaultRange g ctx a 1 n
  else match s.desc? ctx (tensorOf a) with
    | none => some 0x11
    | some d => if d.elems * d.eb < 8 * (offsetOf a + n) then some 0x23 else none

/-- Place of an address fault in the order of R398. -/
def addressRank (cause : Nat) : Nat :=
  if cause = 0x20 then 0 else if cause = 0x21 then 1 else if cause = 0x11 then 2 else if cause = 0x22 then 3 else if cause = 0x23 then 4 else 5

/-- The first in the order of R398 of two operands' faults; the first operand's where they stand alike. -/
def firstFault (x y : Option Nat) (a b : Word) : Option (Nat × Word) :=
  match x, y with
  | some c, some e => if addressRank e < addressRank c then some (e, b) else some (c, a)
  | some c, none => some (c, a)
  | none, some e => some (e, b)
  | none, none => none

/-- Pages that bytes from a virtual address lie in, by the address of each byte's storage; one per run of a page's size. -/
def State.copyPages (s : State) (ctx : Nat) (a : Word) (n : Nat) : Desc × List Nat :=
  match s.desc? ctx (tensorOf a) with
  | none => ({}, [])
  | some d => (d, ((span 0 n).map (fun i => d.bitPos (8 * (offsetOf a + i) / d.eb) / 8 / 65536)).eraseDups)

/-- Bytes that an instruction's entry will read lie in a lattice page that this chip may not reach: its address, precise at issue (R324). -/
def State.scopeAt (s : State) (a : Word) (n : Nat) : Bool :=
  decide (tensorOf a ≠ 0) && (let (d, l) := s.copyPages s.myCtx a n; (s.scopeFault d (l.map (fun p => (p, a, 0)))).isSome)

/-- COPY (R260): the identifier is handed out at issue; a time after TIME waits in the time buffer (R262). -/
def execCopy (f : AT) (s : State) : Result :=
  issue (atForm f 5 []) (fun s =>
    let c := s.me
    let src := blockReg f c 0
    let dst := blockReg f c 1
    let n := (blockReg f c 2).toNat
    let t := blockReg f c 3
    let ch := f.ch.toNat
    if n = 0 ∨ 2 ^ 32 ≤ n then reserved (.copy f)
    else match (s.walkFor s.myCtx src).orElse (fun _ => s.walkFor s.myCtx dst) with
    | some pa => s.waitTable .a pa 64
    | none => match firstFault (s.copyRange s.cur s.myCtx src n) (s.copyRange s.cur s.myCtx dst n) src dst with
      | some (e, a) => .trap e a 0
      | none =>
        if s.scopeAt src n then .trap 0x52 src 0
        else
        let (d, pages) := if tensorOf dst = 0 then (({} : Desc), []) else s.copyPages s.myCtx dst n
        match s.storeSeals d pages false with
        | .error r => r
        | .ok b =>
          let timed := decide (s.timeOf s.cur < t.toNat)
          if !(if timed then c.room 30 else c.room (17 + ch) && !c.copyDue ch (s.timeOf s.cur)) then .wait .pool s
          else
            let s := if b then s.sealMine else s
            let q := c.channel ch
            let x : Copy := { tid := q.next, src := src, dst := dst, count := n, time := t, flag := f.flag.toNat, slot := f.set.toNat,
                              pc := s.pcOf .a, ctx := s.myCtx }
            let q' := { q with next := (q.next + 1) % 2 ^ 48, live := q.live ++ [q.next], queue := if timed then q.queue else q.queue ++ [.work x] }
            .done (s.onMe (fun c =>
              ((({ c with timed := if timed then c.timed ++ [(ch, x)] else c.timed } : Core).setChannel ch q').setA (f.crd.toNat + 4) (BitVec.ofNat 64 q.next)).markSlot .a f.set.toNat))) s

/-! ### Sends and fabric control (R263 to R266) -/

/-- The chip lies in the torus extents of the selected bank (R263, R362). -/
def State.inTorus (s : State) (chip : Nat) : Bool :=
  let dims := (s.fabric.def_ s.fabric.cur).toNat / 2 ^ 12
  decide (chip % 16 ≤ dims % 16) && decide (chip / 16 % 16 ≤ dims / 16 % 16) && decide (chip / 256 ≤ dims / 256)

/-- The launch number of the issuing task. -/
def State.myLaunchId (s : State) : Nat := match s.me.task with | some t => t.launch | none => 0

/-- XSEND (R263, R264). -/
def execXsend (f : AT) (s : State) : Result :=
  issue (atForm f 5 []) (fun s =>
    let c := s.me
    let w := blockReg f c 2
    let n := blockReg f c 3
    let th := blockReg f c 4
    let mc := w.getLsbD 22
    let chip := bitsOf w 63 52
    let group := bitsOf w 39 32
    let trig := f.dx.toNat
    if bitsOf w 51 42 ≠ 0 ∨ bitsOf w 31 30 ≠ 0 ∨ bitsOf w 21 0 ≠ 0 ∨ n = 0 ∨ 2 ^ 32 ≤ n.toNat ∨ 2 ^ 48 ≤ th.toNat
        ∨ (mc = true ∧ chip ≠ s.chip) then reserved (.xsend f)
    else if mc && !s.groupKind group kindMulticast then .trap 0x0C (BitVec.ofNat 64 group) 0x29
    else if !s.inTorus chip then .trap 0x20 (blockReg f c 1) 0
    else if s.scopeAt (blockReg f c 0) n.toNat then .trap 0x52 (blockReg f c 0) 0
    else if !(if trig = 63 then c.room 25 else c.room 29) then .wait .pool s
    else
      let s := s.sealMine
      let x : Send := { id := c.nextId, src := blockReg f c 0, dst := blockReg f c 1, chip := chip, gcore := bitsOf w 41 32,
                        rflag := bitsOf w 29 24, zc := w.getLsbD 23, mc := mc, count := n.toNat, trigger := trig,
                        theta := th.setWidth 48, flag := f.flag.toNat, slot := f.set.toNat, pc := s.pcOf .a, ctx := s.myCtx, launch := s.myLaunchId }
      .done (s.onMe (fun c =>
        ((if trig = 63 then ({ c with nextId := c.nextId + 1, sq := c.sq ++ [.work x] } : Core)
          else ({ c with nextId := c.nextId + 1, triggers := c.triggers ++ [x] } : Core).fireTriggers)).markSlot .a f.set.toNat))) s

/-- XCOLL (R266): it enters the send queue. -/
def execXcoll (f : AT) (s : State) : Result :=
  issue (atForm f 4 []) (fun s =>
    let c := s.me
    let w := blockReg f c 3
    if 2 < bitsOf w 35 32 ∨ bitsOf w 63 36 ≠ 0 then reserved (.xcoll f)
    else if s.scopeAt (blockReg f c 1) (bitsOf w 31 0) then .trap 0x52 (blockReg f c 1) 0
    else if !c.room 25 then .wait .pool s
    else
      let s := s.sealMine
      let x : Send := { id := c.nextId, coll := true, plan := blockReg f c 0, src := blockReg f c 1, dst := blockReg f c 2, count := bitsOf w 31 0,
                        wire := bitsOf w 35 32, flag := f.flag.toNat, slot := f.set.toNat, pc := s.pcOf .a, ctx := s.myCtx, launch := s.myLaunchId }
      .done (s.onMe (fun c => ({ c with nextId := c.nextId + 1, sq := c.sq ++ [.work x] } : Core).markSlot .a f.set.toNat))) s

/-- XRTSW (R266): the arrival waits until the strand's accesses are performed at the group's scope, as GARR's does; its flag
and slot follow the pass. -/
def execXrtsw (f : AT) (s : State) : Result :=
  issue (atForm f 1 []) (fun s =>
    let w := blockReg f s.me 0
    let g := bitsOf w 7 0
    let bank := bitsOf w 8 8
    if 512 ≤ w.toNat then reserved (.xrtsw f)
    else match s.myTask with
      | none => .trap 0x0C (BitVec.ofNat 64 g) 0x2B
      | some t => match s.rankIn t g kindBarrier, s.launch? t.launch with
        | some r, some l =>
          let recorded := match l.group? g with | some x => x.bank | none => none
          if recorded.isSome && recorded ≠ some bank then .trap 0x64 0 0
          else if !s.settled .a (s.groupScope t.launch g) then .wait .other s
          else
            let s := s.sealMine
            let e := s.episode t.launch g
            .done ((s.onMe (fun c => ({ c with switches := c.switches ++
                [{ launch := t.launch, group := g, episode := e, flag := f.flag.toNat, slot := f.set.toNat }] } : Core).markSlot .a f.set.toNat)).arrive t.launch g r (some bank))
        | _, _ => .trap 0x0C (BitVec.ofNat 64 g) 0x2B) s

/-- XCIRC (R266): the port's circuit takes the request when its state allows (R368). -/
def execXcirc (f : AT) (s : State) : Result :=
  issue (atForm f 1 []) (fun s =>
    let w := blockReg f s.me 0
    let p := bitsOf w 4 0
    if p < 24 ∨ bitsOf w 51 9 ≠ 0 ∨ bitsOf w 7 5 ≠ 0 then reserved (.xcirc f)
    else
      let s := s.sealMine
      .done ((s.onMe (fun c => c.markSlot .a f.set.toNat)).askCircuit p (bitsOf w 63 52) (w.getLsbD 8)
        (.xcirc s.cur f.flag.toNat f.set.toNat s.myLaunchId (s.pcOf .a)))) s

/-! ### Atomics (R267) -/

/-- The fields of an atomic that R137 and R227 allow, for AMO and ACAS: I128 is reserved. -/
def amoFieldsOk (cas : Bool) (op ty order use dest : Nat) : Bool :=
  decide (ty ≤ 3) && decide (order ≤ 3) && decide (use ≤ 4) && (use = 0 || order = 0) &&
  (if cas then op = 0 && use = 0
   else match op with
    | 0 => use = 0
    | 1 => ty ≤ 1 && (use = 0 || ((use = 1 || use = 3) && dest = 0))
    | 9 => (ty = 2 || ty = 3) && (use = 0 || (use = 1 && dest = 0))
    | 10 => order ≤ 1 && (use = 0 || use = 2 || use = 4)
    | 11 => (order = 0 || order = 2) && use = 0 && dest = 0
    | _ => decide (2 ≤ op) && decide (op ≤ 8) && ty ≤ 1 && (use = 0 || (use = 1 && dest = 0)))

/-- AMO and ACAS at issue (R267). -/
def amoIssue (i : Instr) (f : AT) (cas : Bool) (opcode : Nat) (s : State) : Result :=
  let w := blockReg f s.me 1
  let spc := !cas && bitsOf w 3 1 = 4
  issue { atForm f (if cas then 4 else 3) [.a (bitsOf w 20 16)] with access := false, wait := if spc then 0 else f.wait } (fun s =>
    let c := s.me
    let dest := bitsOf w 20 16
    let ty := bitsOf w 9 7
    let wide (x : Word) : BitVec 128 := if ty = 1 then x.setWidth 128 else (x.setWidth 32).setWidth 128
    if bitsOf w 63 21 ≠ 0 ∨ bitsOf w 15 14 ≠ 0 ∨ amoFieldsOk cas (bitsOf w 13 10) ty (bitsOf w 6 4) (bitsOf w 3 1) dest = false then reserved i
    else atomicIssue { k := .a, opcode := opcode, addr := blockReg f c 0, op := bitsOf w 13 10, ty := ty, order := bitsOf w 6 4,
                       use := bitsOf w 3 1, narrow := w.getLsbD 0, cas := cas, operand := wide (blockReg f c 2),
                       expected := if cas then wide (blockReg f c 3) else 0, dest := if dest = 0 then .none else .a dest,
                       slot := f.set.toNat, wait := f.wait, flag := f.flag.toNat } s) s

/-- AMO (R267). -/
def execAmo (f : AT) (s : State) : Result := amoIssue (.amo f) f false 0x30 s
/-- ACAS (R267). -/
def execAcas (f : AT) (s : State) : Result := amoIssue (.acas f) f true 0x31 s

/-! ### Dispatch and broadcast (R268, R269) -/

/-- DISPATCH (R268): its item waits behind the core's earlier ones. -/
def execDispatch (f : AT) (s : State) : Result :=
  issue (atForm f 5 []) (fun s =>
    let c := s.me
    let w := blockReg f c 0
    let n := (blockReg f c 3).toNat
    if bitsOf w 31 12 ≠ 0 ∨ n % 32 ≠ 0 ∨ n < 32 ∨ 65504 < n then reserved (.dispatch f)
    else if s.scopeAt (blockReg f c 2) n then .trap 0x52 (blockReg f c 2) 0
    else
      let s := s.sealMine
      let x : Item := { expert := bitsOf w 11 0, gate := BitVec.ofNat 32 (bitsOf w 63 32), token := blockReg f c 1, src := blockReg f c 2, bytes := n,
                        dest := f.crd.toNat + 4, flag := f.flag.toNat, slot := f.set.toNat, pc := s.pcOf .a, ctx := s.myCtx, num := c.nextId, was := c.getA (f.crd.toNat + 4) }
      .done (s.onMe (fun c => ({ c with items := c.items ++ [x], nextId := c.nextId + 1 } : Core).markSlot .a f.set.toNat))) s

/-- Divisor of a code (R99). -/
def divisor (d : BitVec 2) : Nat := 2 ^ d.toNat

/-- BCAST (R269): the limits, the group, and the bus's light (R432); then its entry. It does not seal. -/
def execBcast (f : AT) (s : State) : Result :=
  issue (atForm f 4 []) (fun s =>
    let c := s.me
    let a := blockReg f c 0
    let b := blockReg f c 1
    let x := blockReg f c 2
    let y := blockReg f c 3
    let bus := f.dx.toNat % 4
    let t := bitsOf x 41 32 + 1
    let div : BitVec 2 := BitVec.ofNat 2 (bitsOf x 43 42)
    let group := bitsOf x 51 44
    let where_ : Word := BitVec.ofNat 64 (bus * 2 ^ 32 + bitsOf b 63 32)
    if bitsOf a 43 0 ≠ 0 ∨ bitsOf x 63 52 ≠ 0 ∨ bitsOf y 63 34 ≠ 0 ∨ t * divisor div < 32 ∨ bitsOf x 31 0 = 0 ∨ bitsOf y 31 0 = 0
        ∨ 2 < bitsOf y 33 32 ∨ (look {} s.buses bus).lost = true then .trap 0x44 where_ 0
    else if !s.groupKind group kindArm then .trap 0x0C (BitVec.ofNat 64 group) 0x33
    else if !c.room 26 then .wait .pool s
    else
      let e : Bcast := { bus := bus, tensor := tensorOf a, n0 := BitVec.ofNat 32 (bitsOf b 63 32), k0 := bitsOf b 31 0, group := group, div := div, t := t,
                         n := bitsOf x 31 0, ref := bitsOf y 33 32, mask := BitVec.ofNat 32 (bitsOf y 31 0), flag := f.flag.toNat, slot := f.set.toNat,
                         pc := s.pcOf .a, core := s.cur, launch := s.myLaunchId, ctx := s.myCtx,
                         stage := (s.myTask.map (fun t => t.stage)).getD 0, tidx := (s.myTask.map (fun t => t.tidx)).getD 0 }
      .done (s.onMe (fun c => ({ c with bq := c.bq ++ [.work e] } : Core).markSlot .a f.set.toNat))) s

/-! ### Waits (R270) -/

/-- The form of an AS word. -/
def asForm (f : AS) (refs : List Ref) : Form := { k := .a, wait := f.wait, set := f.set.toNat, refs := refs, effect := true }
/-- a[aa][47:0]. -/
def asValue (f : AS) (c : Core) : BitVec 48 := (c.getA f.aa.toNat).setWidth 48

/-- AWAIT (R270). -/
def execAwait (f : AS) (s : State) : Result := issue (asForm f []) (fun s => .done s) s
/-- AFLWAIT (R270): .SUB is opt[43]. -/
def execAflwait (f : AS) (s : State) : Result :=
  issue (asForm f [.a f.aa.toNat]) (fun s => flagWait .a f.flag.toNat (asValue f s.me).toNat (f.opt.getLsbD 2) .none s) s
/-- AFLADD (R270). -/
def execAfladd (f : AS) (s : State) : Result :=
  issue (asForm f [.a f.aa.toNat]) (fun s => flagChange .a f.flag.toNat false (asValue f s.me) .none f.set.toNat s) s
/-- ATIDWAIT (R270). -/
def execAtidwait (f : AS) (s : State) : Result :=
  issue (asForm f [.a f.aa.toNat]) (fun s => tidWait f.ch.toNat (asValue f s.me).toNat .none s) s

end Sys2Proof.Machine
end

