-- ==== Sys2Proof/Machine/Mason.lean ====
section
/-! DEFINITION. Keystone's expert placement: the Cairn table, publication, replication, drains, redirection, the gradient
merge and the weight return (R336 to R347, R372 to R374, R434 to R436). -/

namespace Sys2Proof.Machine

/-! ### Keystone's own accesses -/

/-- Change Mason. -/
def State.onMason (s : State) (f : Mason → Mason) : State := { s with mason := f s.mason }

/-- A flat virtual access by Keystone of `n` bytes in a context. -/
def State.keystoneAccess (s : State) (ctx : Nat) (a : Word) (n : Nat) (need : Need) : Option Target :=
  match s.checkFlat 0 ctx a n (span 0 n) need with
  | .ok t => some t
  | _ => none

/-- The lattice cell at an address of a context: its type, physical address and HOME. -/
def State.cellOf (s : State) (ctx : Nat) (a : Word) : Option (Nat × Nat × BitVec 2) :=
  match s.keystoneAccess ctx a 1 (.latticeLoad false) with
  | some t =>
    match s.keystoneAccess ctx a (cellBytes t.lat) (.latticeLoad false) with
    | some u => u.addrs.head?.map (fun pa => (u.lat, pa, u.home))
    | none => none
  | none => none

/-- The value of a cell at the Keystone replica; of a HOME 0 cell the one copy, at its home die (R324). -/
def State.keystoneCell (s : State) (lat pa : Nat) : Nat :=
  match (s.die (homeDie pa)).granule? (granuleOf pa), s.keystone? (granuleOf pa) with
  | some g, v => if g.home0 then granuleBits g.value (pa % 64) (cellBytes lat)
    else (match v with | some v => granuleBits v (pa % 64) (cellBytes lat) | none => 0)
  | none, some v => granuleBits v (pa % 64) (cellBytes lat)
  | none, none => 0

/-- Join an operand into a cell at the Keystone replica, owed to the pod where its page has HOME 2 (R323, R324). -/
def State.joinReplica (s : State) (lat pa : Nat) (pod : Bool) (slot x : Nat) : State :=
  match s.keystone? (granuleOf pa) with
  | some v =>
    let n := cellBytes lat
    (s.know (granuleOf pa) lat).setKeystone (granuleOf pa) lat pod (setGranuleBits v (pa % 64) n (joinCell lat slot x (granuleBits v (pa % 64) n)))
  | none => (s.onMason (fun m => { m with owed := m.owed ++ [(pa, lat, slot, x)] })).askHome (granuleOf pa) lat

/-- The home die of a HOME 0 cell obtains its granule from the frame (R324). -/
def State.obtainHome0 (s : State) (d k lat : Nat) : State :=
  if ((s.die d).granule? k).isSome then s
  else s.onDie d (fun x => x.setGranule k { lat := lat, value := BitVec.ofNat 512 (s.loadLE (64 * k) 64), home0 := true, poison := s.granulePoison k })

/-- Join an operand into a cell, for GCNT into the slot of a die (R239, R345, R372): at the home die's copy of a HOME 0 page, else at
the Keystone replica. -/
def State.joinKeystone (s : State) (ctx : Nat) (a : Word) (slot x : Nat) : State :=
  match s.cellOf ctx a with
  | some (lat, pa, home) =>
    if home = 0 then (s.obtainHome0 (homeDie pa) (granuleOf pa) lat).joinAtDie (homeDie pa) lat pa x slot
    else s.joinReplica lat pa (home = 2) slot x
  | none => s

/-- The sum of a GCNT cell at the Keystone replica. -/
def State.countAt (s : State) (ctx : Nat) (a : Word) : Nat :=
  match s.cellOf ctx a with
  | some (lat, pa, _) => cellValue lat (s.keystoneCell lat pa)
  | none => 0

/-! ### Tensors that Mason holds -/

/-- Storage pages of a tensor: its whole tiles. -/
def Desc.pageCount (d : Desc) : Nat :=
  let tiles := ((d.dim.zip d.tdim).map (fun e => (e.1 + e.2 - 1) / e.2)).foldl (· * ·) 1
  (tiles * d.tb + 65535) / 65536

/-- Pages of a tensor of Mason's context; none for an invalid descriptor. -/
def State.pagesOf (s : State) (ctx n : Nat) : Nat := match s.desc? ctx n with | some d => d.pageCount | none => 0

/-- Write V = 0 into every page entry of a tensor: its frames are free. -/
def State.dropPages (s : State) (ctx n : Nat) : State :=
  match s.desc? ctx n with
  | some d => (span 0 d.pageCount).foldl (fun s p =>
      let e := s.readPage (d.entryAddr p)
      ((if e.v then s.countFrames e.frame (fun n => n + 1) else s).writeTable (d.entryAddr p) 8 0).writeTable (d.entryAddr p + 8) 8 0) s
  | none => s

/-- Map the pages of a tensor on the given frames of an HBM stack, readable and writable (log entry 41). -/
def State.mapPages (s : State) (ctx n stack : Nat) (frames : List Nat) : State :=
  match s.desc? ctx n with
  | some d =>
    ((span 0 d.pageCount).zip frames).foldl (fun s e =>
      ((s.countFrames (s.chip * 2 ^ 52 + stack * 2 ^ 36) (fun n => n - 1)).writeTable (d.entryAddr e.1) 8 (s.chip * 2 ^ 52 + stack * 2 ^ 36 + e.2 * 65536 + d.etype.toNat * 4096 + 0x1D)).writeTable
        (d.entryAddr e.1 + 8) 8 0) s
  | none => s

/-- Every page of a tensor is valid on an HBM stack of this module (R373). -/
def State.pagesOn (s : State) (ctx n stack : Nat) : Bool :=
  match s.desc? ctx n with
  | some d => (span 0 d.pageCount).all (fun p =>
      let e := s.readPage (d.entryAddr p)
      e.v && decide (paChip e.frame = s.chip) && decide (paSpace e.frame = 0) && decide (paOffset e.frame / 2 ^ 36 = stack))
  | none => false
/-- Some page of a tensor is valid. -/
def State.somePage (s : State) (ctx n : Nat) : Bool :=
  match s.desc? ctx n with
  | some d => (span 0 d.pageCount).any (fun p => (s.readPage (d.entryAddr p)).v)
  | none => false

/-- Free the frames of a slot's two tensors and take them off MUSEd (R344, R345). -/
def State.freeTensors (s : State) (die wtid gtid : Nat) : State :=
  let ctx := s.mason.ctx
  let n := s.pagesOf ctx wtid + s.pagesOf ctx gtid
  ((s.dropPages ctx wtid).dropPages ctx gtid).onMason (fun m => { m with muse := put 0 m.muse die (look 0 m.muse die - BitVec.ofNat 32 n) })

/-- Copy `n` flat bytes of a context, each with its poison mark where `marks` (R260, R413): the state, or none when some byte
does not translate. -/
def State.copyBytes (ctx : Nat) (marks : Bool) : Nat → Word → Word → State → Option State
  | 0, _, _, s => some s
  | n + 1, src, dst, s =>
    match s.keystoneAccess ctx src 1 .load, s.keystoneAccess ctx dst 1 .store with
    | some x, some y =>
      let s' := s.storeUnits y.unit y.addrs (s.loadUnits x.unit x.addrs)
      let s' := if marks && (unitBytes x.unit x.addrs).any s.poisoned then s'.markAll (unitBytes y.unit y.addrs) else s'
      State.copyBytes ctx marks n (src + 1) (dst + 1) s'
    | _, _ => none

/-- Bytes of a tensor by flat address, a last one that its elements fill only in part among them. -/
def State.tensorBytes (s : State) (ctx n : Nat) : Nat := match s.desc? ctx n with | some d => (d.elems * d.eb + 7) / 8 | none => 0

/-- Virtual address of a byte of a tensor. -/
def flatAt (n i : Nat) : Word := BitVec.ofNat 64 (n * 2 ^ 44 + i)

/-- A unit that some byte of a tensor lies in is poisoned. -/
def State.tensorPoisoned (s : State) (ctx n : Nat) : Bool :=
  (span 0 (s.tensorBytes ctx n)).any (fun i =>
    match s.keystoneAccess ctx (flatAt n i) 1 .load with
    | some t => (unitBytes t.unit t.addrs).any s.poisoned
    | none => false)

/-- Write zero to every byte of a tensor. -/
def State.zeroTensor (s : State) (ctx n : Nat) : Option State :=
  (span 0 (s.tensorBytes ctx n)).foldl (fun r i =>
    match r with
    | some s => (match s.keystoneAccess ctx (flatAt n i) 1 .store with
      | some t => some (s.storeUnits t.unit t.addrs 0)
      | none => none)
    | none => none) (some s)

/-! ### The table (R339 to R343) -/

/-- Slot entries of a bank. -/
def Mason.slots (m : Mason) (b : Bool) : Sparse CairnSlot := if b then m.slots1 else m.slots0
/-- Slot `k` of expert `e` in a bank. -/
def Mason.slot (m : Mason) (b : Bool) (e k : Nat) : CairnSlot := look {} (m.slots b) (8 * e + k)
/-- Replace a slot of a bank. -/
def Mason.setSlot (m : Mason) (b : Bool) (i : Nat) (x : CairnSlot) : Mason :=
  if b then { m with slots1 := put {} m.slots1 i x } else { m with slots0 := put {} m.slots0 i x }
/-- Version of a bank. -/
def Mason.ver (m : Mason) (b : Bool) : BitVec 32 := if b then m.ver1 else m.ver0
/-- Mode LOAD of a bank. -/
def Mason.load (m : Mason) (b : Bool) : Bool := if b then m.load1 else m.load0
/-- Slots of an expert in a bank with one of the given states, in slot order. -/
def Mason.inBank (m : Mason) (b : Bool) (e : Nat) (sts : List (BitVec 2)) : List Nat :=
  (span 0 8).filter (fun k => sts.contains (m.slot b e k).st)
/-- Slots of an expert in the current bank with one of the given states, in slot order. -/
def Mason.withSt (m : Mason) (e : Nat) (sts : List (BitVec 2)) : List Nat := m.inBank m.cur e sts
/-- Slots that the merge and the weight return of the current bank take: a slot whose drain has completed holds no tensors any more
(R345, R347; log entry 111). -/
def Mason.holding (m : Mason) (e : Nat) (sts : List (BitVec 2)) : List Nat := (m.withSt e sts).filter (fun k => !m.drained.contains (8 * e + k))

/-- The replica that a token takes among an expert's active slots of bank `b` (R268). -/
def State.chooseSlot (s : State) (l : Launch) (b : Bool) (e : Nat) (token : Word) : Option Nat :=
  let m := s.mason
  let act := m.inBank b e [1]
  let occ (k : Nat) : Nat := match l.rings[(m.slot b e k).ring]? with | some r => r.occ | none => 0
  match act with
  | [] => none
  | k :: ks =>
    if m.load b then some (ks.foldl (fun b x => if occ x < occ b then x else b) k)
    else act[token.toNat % act.length]?

/-- A DISPATCH that read an older version than the current one waits to publish (R341). -/
def State.oldReads (s : State) : Bool :=
  s.cores.any (fun c => c.2.items.any (fun x => match x.chosen with | some (v, _) => decide (v ≠ s.mason.cver) | none => false))
/-- Published items of slots that the current version retired by force are still to move (R346, R435). -/
def State.redirecting (s : State) : Bool :=
  match s.boundLaunch with
  | some l => s.mason.forced.any (fun e => decide (e.2.dver = s.mason.cver) && match l.rings[e.2.ring]? with | some r => decide (r.pub ≠ 0) | none => false)
  | none => false

/-- The transition of one slot meets R342. `first` is the publication from CVER 0 to 1 (R373). -/
def State.transitionOk (s : State) (i : Nat) (old new : CairnSlot) : Bool :=
  let first := decide (s.mason.cver = 0)
  if old.st = 0 ∧ new.st = 0 then true
  else if old.st = 0 ∧ new.st = 1 then
    s.mason.repDone.contains (i / 8, i % 8, new.die, new.wtid, new.gtid)
      || (first && s.pagesOn s.mason.ctx new.wtid new.die && s.pagesOn s.mason.ctx new.gtid new.die)
  else if old.st = 1 ∧ new.st = 1 then decide (new = old)
  else if old.st = 1 ∧ new.st = 2 then !new.frc && decide ({ new with st := 1, dver := old.dver, frc := old.frc } = old)
  else if new.st = 0 then new.frc || (decide (old.st = 2) && s.mason.drained.contains i)
  else decide (old.st = 2) && decide (new = old)

/-- Slot numbers listed in either bank; any other is retired in both. -/
def Mason.listed (m : Mason) : List Nat := ((m.slots0.map (·.1)) ++ m.slots1.map (·.1)).eraseDups

/-- The first check of R342 that bank `b` fails: 1 VER, 2 reserved value, 3 transition, 4 limit. -/
def State.publishFault (s : State) (b : Bool) : Option Nat :=
  let m := s.mason
  let is := m.listed
  let old (i : Nat) : CairnSlot := look {} (m.slots (!b)) i
  let new (i : Nat) : CairnSlot := look {} (m.slots b) i
  if m.ver b ≠ m.cver + 1 then some 1
  else if is.any (fun i => (new i).reserved || (new i).reserved3 || decide ((new i).st = 3)) then some 2
  else if is.any (fun i => !s.transitionOk i (old i) (new i)) then some 3
  else if is.any (fun i => decide ((old i).st = 1) && !(span (i / 8 * 8) 8).any (fun j => decide ((new j).st = 1))) then some 4
  else none

/-- Change the bound launch's ring. -/
def State.onBoundRing (s : State) (r : Nat) (f : Ring → Ring) : State :=
  match s.boundLaunch with
  | some l => s.onLaunch l.id (fun l => l.onRing r f)
  | none => s

/-- What a publication does to one slot (R342, R346, R373). A slot whose drain has completed has nothing left to retire by force; a new
replica's ring takes tasks again. -/
def State.publishSlotChange (s : State) (b first : Bool) (i : Nat) (old : CairnSlot) : State :=
  let new := s.mason.slot b (i / 8) (i % 8)
  if old.st = 1 ∧ new.st = 2 then s.onMason (fun m => m.setSlot b i { new with dver := m.cver + 1 })
  else if old.st ≠ 0 ∧ new.st = 0 then
    if new.frc && !s.mason.drained.contains i then
      (s.onMason (fun m => { m with forced := m.forced ++ [(i, { old with dver := m.cver + 1 })], settled := if m.forced.any (fun x => decide (x.1 = i)) then m.settled else m.settled.filter (fun x => decide (x.1 ≠ i)),
                                    halted := m.halted.filter (fun x => decide (x ≠ i)) })).onBoundRing old.ring (fun r => { r with retired := true })
    else s.onMason (fun m => { m with drained := m.drained.filter (fun x => decide (x ≠ i)), halted := m.halted.filter (fun x => decide (x ≠ i)) })
  else if old.st = 0 ∧ new.st = 1 then
    let s := s.onBoundRing new.ring (fun r => { r with retired := false })
    if !first then s else
    s.onMason (fun m => { m with muse := put 0 m.muse new.die (look 0 m.muse new.die
      + BitVec.ofNat 32 (s.pagesOf m.ctx new.wtid + s.pagesOf m.ctx new.gtid)) })
  else s

/-- Mason joins the new version into the version cell; a cell that is no MAX32 cell leaves a record (R372). -/
def State.joinVersion (s : State) : State :=
  if s.mason.vcell = 0 then s
  else match s.cellOf s.mason.ctx s.mason.vcell with
    | some (1, _, _) => s.joinKeystone s.mason.ctx s.mason.vcell 0 s.mason.cver.toNat
    | _ => s.notice 8 0x56 0 0

/-- The version cell takes the version once the kcy of its publication is over (R268, R372). -/
def State.settleVersion (s : State) : State :=
  if s.mason.joinOwed && decide (s.mason.published ≠ some s.mgmt.kcy) then (s.onMason (fun m => { m with joinOwed := false })).joinVersion else s

/-- Offset in the register BAR: slot k of expert e lies at (8e + k) × 32 of its bank (R339); the rest is the firmware release's. -/
def registerOffset (r : RegName) : Nat :=
  match r with
  | .cairnslot b e k w => Config.cairnBank b + (8 * e + k) * 32 + 8 * w
  | r => Config.registerOffset r

/-- A write of CAIRNPUB (R342, R341). The version cell takes the new version after this kcy (R372). DESIGN CHOICE (log entry 139), unsafe:
a write that names the current bank does nothing and enters no record; R342 says what a write with the idle bank does. -/
def State.publish (s : State) (w : Word) : State :=
  let m := s.mason
  let b := w.getLsbD 0
  if m.ibusy then s.notice 8 0x57 (BitVec.ofNat 64 (registerOffset .cairnpub)) 0
  else if b = m.cur then s
  else match s.publishFault b with
    | some n => s.notice 8 0x56 0 (BitVec.ofNat 64 n)
    | none =>
      let olds := m.listed.map (fun i => (i, look {} (m.slots m.cur) i))
      let s := olds.foldl (fun s e => s.publishSlotChange b (decide (m.cver = 0)) e.1 e.2) s
      (s.onMason (fun m => { m with cur := b, cver := m.cver + 1, ibusy := true, repDone := [], published := some s.mgmt.kcy, joinOwed := true }))

/-- The 64-bit words of a slot entry (R340). -/
def CairnSlot.word (x : CairnSlot) (w : Nat) : Word :=
  match w with
  | 0 => BitVec.ofNat 64 (x.wtid * 2 ^ 44 + x.gtid * 2 ^ 24 + x.die * 2 ^ 16 + x.ring * 2 ^ 8 + (if x.frc then 8 else 0) + x.st.toNat)
  | 1 => x.sent
  | 2 => x.cons
  | _ => BitVec.ofNat 64 (x.dver.toNat * 2 ^ 32)

/-- Write a word of a slot entry; reserved bits are noted (R340). -/
def CairnSlot.write (x : CairnSlot) (w : Nat) (v : Word) : CairnSlot :=
  let n := v.toNat
  match w with
  | 0 => { x with wtid := n / 2 ^ 44, gtid := n / 2 ^ 24 % 2 ^ 20, die := n / 2 ^ 16 % 8, ring := n / 2 ^ 8 % 32, frc := n / 8 % 2 = 1,
                  st := BitVec.ofNat 2 n, reserved := n / 2 ^ 19 % 32 ≠ 0 || n / 2 ^ 13 % 8 ≠ 0 || n / 16 % 16 ≠ 0 || n / 4 % 2 ≠ 0 }
  | 1 => { x with sent := v }
  | 2 => { x with cons := v }
  | _ => { x with dver := BitVec.ofNat 32 (n / 2 ^ 32), reserved3 := decide (n % 2 ^ 32 ≠ 0) }

/-- A write of a slot entry's word (R340, R341): the current bank is not written, the idle bank only while IBUSY is 0. -/
def State.writeSlot (s : State) (b : Bool) (e k w : Nat) (v : Word) : State :=
  if b = s.mason.cur then s
  else if s.mason.ibusy then s.notice 8 0x57 (BitVec.ofNat 64 (registerOffset (.cairnslot (if b then 1 else 0) e k w))) 0
  else s.onMason (fun m => m.setSlot b (8 * e + k) ((m.slot b e k).write w v))

/-- A write of a bank's header (R339, R341). -/
def State.writeHeader (s : State) (b : Bool) (v : Word) : State :=
  if b = s.mason.cur then s
  else if s.mason.ibusy then s.notice 8 0x57 (BitVec.ofNat 64 (registerOffset (.cairnhdr (if b then 1 else 0)))) 0
  else s.onMason (fun m => if b then { m with ver1 := v.extractLsb' 32 32, load1 := v.getLsbD 0 } else { m with ver0 := v.extractLsb' 32 32, load0 := v.getLsbD 0 })

/-! ### Replication (R344, R434) -/

/-- Fields of MREPCMD. -/
def cmdField (w : Word) (lo n : Nat) : Nat := w.toNat / 2 ^ lo % 2 ^ n

/-- End a replication with a failure: its pages go, the frames come off MUSEd, and a record is entered (R434). -/
def State.failReplication (s : State) (i : Nat) (r : Replication) (reason : Nat) : State :=
  let s := (s.dropPages s.mason.ctx r.wtid).dropPages s.mason.ctx r.gtid
  (s.onMason (fun m => { m with muse := put 0 m.muse r.die (look 0 m.muse r.die - BitVec.ofNat 32 r.frames),
                                reps := modifyNth (fun r => { r with status := 3, live := false }) i m.reps })).notice 8 0x58
    (BitVec.ofNat 64 (r.e + r.k * 4096)) (BitVec.ofNat 64 reason)

/-- The command number that a new replication takes: an idle one of the four. -/
def Mason.freeCommand (m : Mason) : Option Nat :=
  match m.reps.findIdx? (fun r => !r.live) with
  | some i => some i
  | none => if m.reps.length < 4 then some m.reps.length else none

/-- Give a command number its replication. -/
def Mason.setCommand (m : Mason) (i : Nat) (r : Replication) : Mason :=
  { m with reps := if i < m.reps.length then modifyNth (fun _ => r) i m.reps else m.reps ++ [r] }

/-- A running replication takes its F frames of the stack and maps its pages, once the pager hands over enough of them and the budget
holds them (R344). -/
def State.takeFrames (s : State) (i : Nat) (r : Replication) (frames : List Nat) : State :=
  let m := s.mason
  let p := s.pagesOf m.ctx r.wtid
  let f := p + s.pagesOf m.ctx r.gtid
  if frames.length < f ∨ (look 0 m.mbud r.die).toNat < (look 0 m.muse r.die).toNat + f then s
  else
    ((s.mapPages m.ctx r.wtid r.die (frames.take p)).mapPages m.ctx r.gtid r.die ((frames.drop p).take (f - p))).onMason (fun m =>
      { (m.setCommand i { r with frames := f }) with muse := put 0 m.muse r.die (look 0 m.muse r.die + BitVec.ofNat 32 f) })

/-- A write of MREPGO (R344): `frames` are the free frames of the stack that the pager hands over; with too few the command runs and
waits for them. -/
def State.startReplication (s : State) (frames : List Nat) : State :=
  let m := s.mason
  let w := m.cmd
  match m.freeCommand with
  | none => s.onMason (fun m => { m with full := true })
  | some i =>
    let r : Replication := { e := cmdField w 0 12, k := cmdField w 12 3, src := cmdField w 15 3, srcTid := (m.slot m.cur (cmdField w 0 12) (cmdField w 15 3)).wtid,
                             die := cmdField w 18 3, wtid := cmdField w 44 20, gtid := cmdField w 24 20, frames := 0, status := 0, live := true }
    let f := s.pagesOf m.ctx r.wtid + s.pagesOf m.ctx r.gtid
    if (m.slot false r.e r.k).st ≠ 0 ∨ (m.slot true r.e r.k).st ≠ 0 ∨ (m.slot m.cur r.e r.src).st ≠ 1
        ∨ (look 0 m.mbud r.die).toNat < (look 0 m.muse r.die).toNat + f then
      s.onMason (fun m => m.setCommand i { r with status := 2, live := false })
    else if (s.desc? m.ctx r.wtid).isNone || (s.desc? m.ctx r.gtid).isNone || s.somePage m.ctx r.wtid || s.somePage m.ctx r.gtid then
      (s.onMason (fun m => m.setCommand i r)).failReplication i r 2
    else (s.onMason (fun m => m.setCommand i r)).takeFrames i r frames

/-- Lost metadata of a tensor's pages poisons its lines, since Mason needs them (R417; log entry 145). -/
def State.spoilTensor (s : State) (ctx n : Nat) : State :=
  match s.desc? ctx n with
  | some d => s.spoilAt ((span 0 d.pageCount).flatMap (fun p => (span 0 16).map (fun i => (s.readPage (d.entryAddr p)).frame + 4096 * i)))
  | none => s

/-- Mason reads or writes these tensors: a page that is not valid is asked of the pager, and Mason goes on when all are (R72). -/
def State.masonPages (s : State) (ctx : Nat) (tensors : List Nat) : State × Bool :=
  match tensors.findSome? (fun n => (s.desc? ctx n).bind (fun d =>
      ((span 0 d.pageCount).find? (fun p => !(s.readPage (d.entryAddr p)).v)).map (fun p => (n, p)))) with
  | some (n, p) => (s.requestPage {} ctx n p, false)
  | none => (tensors.foldl (fun s n => s.spoilTensor ctx n) s, true)

/-- A running replication copies the weights of its source as they stand, zeroes its gradients and completes, or fails (R344, R434);
`frames` are those that one without its frames is handed. -/
def State.finishReplication (s : State) (i : Nat) (frames : List Nat) : State :=
  match s.mason.reps[i]? with
  | none => s
  | some r =>
    if !r.live then s
    else if r.frames = 0 then s.takeFrames i r frames
    else
      let ctx := s.mason.ctx
      let src := r.srcTid
      match s.masonPages ctx [src] with
      | (s, false) => s
      | (s, true) =>
      if s.tensorPoisoned ctx src then s.failReplication i r 1
      else match State.copyBytes ctx false (min (s.tensorBytes ctx src) (s.tensorBytes ctx r.wtid)) (flatAt src 0) (flatAt r.wtid 0) s with
        | none => s.failReplication i r 4
        | some t => match t.zeroTensor ctx r.gtid with
          | none => s.failReplication i r 4
          | some t =>
            (t.onMason (fun m => { m with reps := modifyNth (fun r => { r with status := 1, live := false }) i m.reps,
                                          repDone := m.repDone ++ [(r.e, r.k, r.die, r.wtid, r.gtid)] })).notice 8 0x85
              (BitVec.ofNat 64 (r.e + r.k * 4096)) 0

/-- The bound launch ends (R436): running replications fail with reason 3, drains and redirections stop, IBUSY clears. -/
def State.endBound (s : State) (l : Launch) : State :=
  if l.ctx = s.mason.ctx ∧ l.head = s.mason.lhead then
    let s := ((span 0 4).zip s.mason.reps).foldl (fun s e => if e.2.live then s.failReplication e.1 e.2 3 else s) s
    s.onMason (fun m => { m with forced := [], settled := [], ibusy := false, mergeDue := [], copyDue := [],
                                 halted := (m.halted ++ (m.listed.filter (fun i => decide ((look {} (m.slots m.cur) i).st = 2) && !m.drained.contains i))).eraseDups })
  else s

/-! ### Drains and redirections (R345, R346) -/

/-- The entry of a slot that drains: draining in the current bank, or force-retired. -/
def Mason.draining (m : Mason) (i : Nat) : Option CairnSlot :=
  match m.forced.find? (fun e => e.1 = i) with
  | some e => some e.2
  | none =>
    let x := m.slot m.cur (i / 8) (i % 8)
    if x.st = 2 && !m.drained.contains i && !m.halted.contains i then some x else none

/-- A drain completes: its frames are free, and a record names the slot (R345). -/
def State.finishDrain (s : State) (i : Nat) (x : CairnSlot) : State :=
  ((s.freeTensors x.die x.wtid x.gtid).onMason (fun m =>
    { m with settled := m.settled.filter (fun y => decide (y.1 ≠ i)), forced := m.forced.eraseP (fun y => decide (y.1 = i)),
             drained := if m.forced.any (fun y => decide (y.1 = i)) then m.drained else m.drained ++ [i] })).notice 8 0x86
    (BitVec.ofNat 64 (i / 8 + i % 8 * 4096)) 0

/-- A drain goes on: once IBUSY is clear and CONS has reached SENT it waits for the next step pass and its merge where EN is 1, then
the frames are free and a record names the slot (R345, R374). -/
def State.drain (s : State) (e k : Nat) : State :=
  let m := s.mason
  let i := 8 * e + k
  match m.draining i with
  | none => s
  | some x =>
    if m.ibusy || s.boundLaunch.isNone then s
    else match m.settled.find? (fun y => y.1 = i) with
      | none =>
        if s.countAt m.ctx x.cons < s.countAt m.ctx x.sent then s
        else if m.en then s.onMason (fun m => { m with settled := m.settled ++ [(i, m.passes)] })
        else s.finishDrain i x
      | some y => if !m.en || y.2 + m.mergeDue.length < m.passes then s.finishDrain i x else s

/-- A die whose GCNT slot the consumers of a replica on die `d` do not use (log entry 40). -/
def otherDie (d : Nat) : Nat := (d + 1) % 8

/-- Move the first Published item of a slot that the current version retired by force to an active replica's ring, while the old version
is in flight; a full ring makes it wait (R346, R435). -/
def State.redirect (s : State) (e k : Nat) : State :=
  let m := s.mason
  let ctx := m.ctx
  match (if m.ibusy then m.forced.find? (fun y => decide (y.1 = 8 * e + k) && decide (y.2.dver = m.cver)) else none), s.boundLaunch with
  | some (_, x), some l =>
    match l.rings[x.ring]? with
    | none => s
    | some r => match r.order with
      | [] => s
      | i :: _ =>
        let src := r.slotAddr i
        let token := match s.keystoneAccess ctx src 8 .load with | some t => BitVec.ofNat 64 (s.loadUnits t.unit t.addrs) | none => 0
        match s.chooseSlot l m.cur e token with
        | none => s
        | some j =>
          let y := m.slot m.cur e j
          match l.rings[y.ring]? with
          | none => s
          | some r' => match r'.freeSlot with
            | none => s
            | some i' =>
              let dst := r'.slotAddr i'
              match State.copyBytes ctx true (min r.size r'.size) src dst s with
              | none => s
              | some t =>
                let t := match t.keystoneAccess ctx (dst + 12) 4 .store with
                  | some z => t.storeUnits z.unit z.addrs m.cver.toNat
                  | none => t
                let t := (t.onLaunch l.id (fun l => l.onRing y.ring (fun r => r.publish i'))).onLaunch l.id (fun l =>
                  l.onRing x.ring (fun r => { r.setSlot i .free with order := r.order.filter (fun z => decide (z ≠ i)) }))
                (t.joinKeystone ctx y.sent (otherDie y.die) 1).joinKeystone ctx x.cons (otherDie x.die) 1
  | _, _ => s

/-! ### Merge and weight return (R347, R419) -/

/-- The FP32 element at a flat index of a gradient tensor, and whether its unit is poisoned; none where Mason may not read it. -/
def State.gradElem (s : State) (ctx n i : Nat) : Option (Nat × Bool) :=
  match s.keystoneAccess ctx (flatAt n (4 * i)) 4 .load with
  | some t => some (s.loadUnits t.unit t.addrs, (unitBytes t.unit t.addrs).any s.poisoned)
  | none => none

/-- One more slot's element in the sum: RNE without flushing; a poisoned element gives the canonical NaN (R230, R419). -/
def gradAdd (x y : Nat × Bool) : Nat × Bool := if x.2 || y.2 then (fp32.nanBits, true) else ((fAdd fp32 0 false x.1 y.1).1, false)

/-- Sum one element over the slots, primary first (R347). -/
def State.mergeElem (s : State) (ctx : Nat) (prim : Nat) (rest : List Nat) (i : Nat) : Option (Nat × Bool) :=
  rest.foldl (fun r n => match r, s.gradElem ctx n i with | some x, some y => some (gradAdd x y) | _, _ => none)
    ((s.gradElem ctx prim i).map (fun x => if x.2 then (fp32.nanBits, true) else x))

/-- Merge the gradients of one expert into its primary's tensor (R347); none where Mason may not read or write an element. -/
def State.mergeExpert (s : State) (ctx e : Nat) (tensors : List Nat) : Option State :=
  match tensors with
  | [] => some s
  | prim :: rest =>
    let n := match s.desc? ctx prim with | some d => d.elems | none => 0
    ((span 0 n).foldl (fun (r : Option (State × Nat)) i => r.bind (fun r =>
      match s.mergeElem ctx prim rest i, r.1.keystoneAccess ctx (flatAt prim (4 * i)) 4 .store with
      | some x, some t => some (r.1.storeUnits t.unit t.addrs x.1, if x.2 then r.2 + 1 else r.2)
      | _, _ => none)) (some (s, 0))).map (fun r => if 0 < r.2 then r.1.notice 8 0x2B (BitVec.ofNat 64 e) (BitVec.ofNat 64 r.2) else r.1)

/-- Experts listed in the current bank. -/
def Mason.experts (m : Mason) : List Nat := ((m.slots m.cur).map (fun e => e.1 / 8)).eraseDups
/-- DIM of a tensor. -/
def State.dimOf (s : State) (ctx n : Nat) : List Nat := match s.desc? ctx n with | some d => d.dim | none => []

/-- The merge of a passed step episode: experts with two or more slots active or draining; tensors of different DIM raise the
merge error and nothing is merged (R347). It waits for the pager's pages; where Mason may not access a tensor, which the spec gives no
end, the merge stays due (log entry 111). -/
def State.gradientMerge (s : State) : State :=
  let m := s.mason
  match m.mergeDue with
  | [] => s
  | ep :: due =>
    let groups := (m.experts.map (fun e => (e, (m.holding e [1, 2]).map (fun k => (m.slot m.cur e k).gtid)))).filter (fun g => decide (2 ≤ g.2.length))
    let done (s : State) : State := s.onMason (fun m => { m with mergeDue := due })
    match groups.find? (fun g => g.2.any (fun n => decide (s.dimOf m.ctx n ≠ s.dimOf m.ctx (g.2.headD 0)))) with
    | some g => (done s).notice 8 0x59 (BitVec.ofNat 64 g.1) 0
    | none => match s.masonPages m.ctx (groups.flatMap (fun g => g.2)) with
      | (s, false) => s
      | (s, true) => match groups.foldl (fun r g => r.bind (fun s => s.mergeExpert m.ctx g.1 g.2)) (some s) with
        | some t => (done t).joinKeystone m.ctx m.mdone 0 (ep.toNat * 2 ^ 32 + 1)
        | none => s

/-- The copy of a passed weight-return episode: the primary's weights go to every other active slot (R347). It waits as the merge
does. -/
def State.weightReturn (s : State) : State :=
  let m := s.mason
  match m.copyDue with
  | [] => s
  | ep :: due =>
    let copies := m.experts.flatMap (fun e =>
      match m.holding e [1, 2] with
      | [] => []
      | j :: _ => ((m.holding e [1]).filter (fun k => decide (k ≠ j))).map (fun k => ((m.slot m.cur e j).wtid, (m.slot m.cur e k).wtid)))
    match s.masonPages m.ctx (copies.flatMap (fun c => [c.1, c.2])) with
    | (s, false) => s
    | (s, true) =>
      match copies.foldl (fun r c => r.bind (fun s => State.copyBytes m.ctx true (s.tensorBytes m.ctx c.1) (flatAt c.1 0) (flatAt c.2 0) s)) (some s) with
      | some t => (t.onMason (fun m => { m with copyDue := due })).joinKeystone m.ctx m.mdone 0 (ep.toNat * 2 ^ 32 + 2)
      | none => s

end Sys2Proof.Machine
end

