-- ==== Sys2Proof/Machine/Log.lean ====
section
/-! DEFINITION. The event log: entering records, what an entered record lets go on, messages, and the log's registers
(R321, R352, R353, R380 to R384, R388, R395). -/

namespace Sys2Proof.Machine

/-- Change the log. -/
def State.onLog (s : State) (f : EventLog → EventLog) : State := { s with log := f s.log }

/-! ### A failing launch (R388) -/

/-- A core lets go of its task: its strands stand Unstarted and what it still had outstanding is dropped. -/
def Core.release (c : Core) : Core :=
  { (c.closeMwin).closeOwin with
    task := none, strandC := {}, strandA := {}, strandM := {}, strandO := {}, outC := [], outA := [], sbC := 0, sbA := 0, stall := 0, heldStrands := [],
    gangStall := 0 }

/-- A core runs a task of a launch. -/
def Core.runs (c : Core) (l : Nat) : Bool := match c.task with | some t => t.launch = l | none => false

/-- Some record of a launch's failure, with or without cause 0x81, is still held. -/
def State.failureHeld (s : State) (l : Nat) (final : Bool) : Bool :=
  s.log.held.any (fun q => q.2.any (fun r => decide (r.ends = some l) && decide ((r.cause = 0x81) = final)))

/-- The record that ends a failed launch (R388). -/
def State.failedRecord (s : State) (l : Launch) (cause : BitVec 8) : Record :=
  { s.deviceRecord 8 0x81 0 (cause.setWidth 64) with
    tag := l.tag, lfail := true, rcl := 6, ctx := l.ctx, irq := l.irq, ends := some l.id, done := some (l.queue, l.head) }

/-- Sends of a launch's tasks that their destinations still owe an acknowledgement (R320). -/
def State.sendsOwed (s : State) (l : Nat) : Bool := s.cores.any (fun c => c.2.flying.any (fun f => decide (f.send.launch = l)))

/-- A core's part of a launch has come to rest: its begun entries have finished, and its accesses are performed at a scope. -/
def State.atRest (s : State) (g scope : Nat) : Bool := s.entriesDone g && (s.core g).allDone .c scope && (s.core g).allDone .a scope

/-- A die still holds QUA increments that a launch's tasks made (R140). -/
def State.quaOwed (s : State) (l : Nat) : Bool := s.dies.any (fun d => d.2.qua.any (fun q => q.counter.isNone && q.from_.any (fun e => decide (e.2.2 = l))))

/-- Everything that the record of a failed launch releases is done: begun entries, and every access, join and QUA increment of its tasks at DEV
scope, or at POD scope where the pipeline declares it (R388). -/
def State.failureSettled (s : State) (l : Launch) : Bool :=
  let scope := if l.pod then 3 else 2
  s.cores.all (fun c => !c.2.runs l.id || s.atRest c.1 scope) && l.left.all (fun x => !x.located || x.performedAt scope) && !s.sendsOwed l.id
    && !s.quaOwed l.id

/-- Failing launches whose faulting records are in the log and whose effects have come to rest close their rings and send the record
of cause 0x81 (R385, R388, R395). -/
def State.progressFailures (s : State) : State :=
  s.launches.foldl (fun s l =>
    match l.state with
    | .failing cause =>
      if s.failureHeld l.id false || s.failureHeld l.id true || !s.failureSettled l then s
      else (s.onLaunch l.id (fun l => { l with rings := l.rings.map (fun r => { r with closed := true }) })).enter (s.failedRecord l cause)
    | _ => s) s

/-- The launch is over: its cores are free, and Mason is told (R388, R436). -/
def State.endLaunch (s : State) (l : Nat) (state : LaunchState) : State :=
  match s.launch? l with
  | none => s
  | some x =>
    let s := (s.endBound x).endPins l
    let s := s.mapCores (fun _ c => if c.runs l then { c.release with promised := none } else c)
    s.onLaunch l (fun x => { x with state := state, left := [], stages := x.stages.map (fun st => { st with cores := [], live := 0, staged := 0, requeued := [] }) })

/-! ### Messages (R353) -/

/-- Reset of an MSI-X table entry: masked, as PCI Express has it (log entry 37). -/
def msixReset : BitVec 128 := BitVec.ofNat 128 (2 ^ 96)

/-- A vector sends no message: its own mask, the Function Mask, or MSI-X not enabled (R353; log entry 37). -/
def EventLog.masked (e : EventLog) (vec : Nat) : Bool := !e.msixOn || e.msixMask || (look msixReset e.msixTable vec).getLsbD 96

/-- Send a vector's message, or hold it behind a mask. -/
def EventLog.message (e : EventLog) (vec seq : Nat) : EventLog :=
  if e.masked vec then
    { e with pendingBits := if e.pendingBits.contains vec then e.pendingBits else e.pendingBits ++ [vec] }
  else { e with sent := e.sent ++ [(vec, seq)] }

/-- Pending messages of vectors that no mask holds any more are sent. -/
def EventLog.release (e : EventLog) : EventLog :=
  { e with pendingBits := e.pendingBits.filter e.masked
           sent := e.sent ++ ((e.pendingBits.filter (fun v => !e.masked v)).map (fun v => (v, (e.wr - 1).toNat))) }

/-- Write a 64-bit half of an MSI-X table entry; unmasking sends a pending message. -/
def EventLog.writeEntry (e : EventLog) (k : Nat) (w : Word) : EventLog :=
  let old := look msixReset e.msixTable (k / 2)
  let new : BitVec 128 := if k % 2 = 0 then old.extractLsb' 64 64 ++ w else w ++ old.extractLsb' 0 64
  { e with msixTable := put msixReset e.msixTable (k / 2) new }.release

/-- The host sets the Enable and Function Mask bits (R353). -/
def EventLog.setControl (e : EventLog) (on mask : Bool) : EventLog := { e with msixOn := on, msixMask := mask }.release

/-! ### Entering (R321, R352, R381, R382) -/

/-- The eight words of a record. -/
def Record.words (r : Record) (seq : Word) : List Nat :=
  [seq.toNat,
   r.tag.toNat * 2 ^ 32 + (if r.seald then 2 ^ 26 else 0) + (if r.lfail then 2 ^ 25 else 0) + (if r.prc then 2 ^ 24 else 0) + r.ctx % 16 * 2 ^ 20
     + r.src % 16 * 2 ^ 16 + r.rcl % 16 * 2 ^ 12 + r.cls % 16 * 2 ^ 8 + r.cause.toNat,
   r.time.toNat, (if r.tv then 2 ^ 26 else 0) + r.strand % 4 * 2 ^ 24 + r.stg % 16 * 2 ^ 20 + r.gcore % 1024, r.tidx, r.pc.toNat, r.addr.toNat,
   r.data.toNat]

/-- Physical address of record `seq`. -/
def EventLog.slotAddr (e : EventLog) (seq : Word) : Nat := e.base.toNat + 64 * (seq.toNat % 2 ^ e.log2n.toNat)

/-- A record can be written there: an offset that is mapped, over a link that is up (R352, R447). -/
def State.logWritable (s : State) : Bool :=
  let a := s.log.slotAddr s.log.wr
  s.mapped a && (paSpace a ≠ 2 || s.host.linkUp)

/-- Key of a Strata counter: page, item, one of 16 bins (R380). -/
def strataKey (page item bin : Nat) : Nat := page * 2 ^ 16 + item % 2 ^ 12 * 16 + bin % 16

/-- Add to a Strata counter; counters saturate (R380). -/
def State.strataAdd (s : State) (page item bin n : Nat) : State :=
  let k := strataKey page item bin
  { s with mgmt := { s.mgmt with strata := put 0 s.mgmt.strata k (BitVec.ofNat 64 (min ((look 0 s.mgmt.strata k).toNat + n) (2 ^ 64 - 1))) } }

/-- Where a record counts (R380, R382): the page and, where they are fixed, the laser, die or kind; `free` is firmware's choice of the rest.
Corrected errors have been counted each by itself (R414). -/
def strataPlace (r : Record) (free : Nat) : Option (Nat × Nat × Nat) :=
  let c := r.cause.toNat
  match r.cls with
  | 5 => if c = 0x46 ∨ c = 0x49 then some (9, r.addr.toNat / 2 ^ 32 % 8, free) else some (12, r.src, 1)
  | 7 => some (13, free, if c = 0x60 then 0 else if c = 0x61 then 1 else if c = 0x67 then 2 else 3)
  | 8 => some (13, free, 3)
  | 9 => if c = 0x70 then none else some (1 + free / 2 ^ 16 % 8, free, 0)
  | 10 => some (1 + free / 2 ^ 16 % 8, if c = 0x71 ∨ c = 0x72 then r.src else free, 1)
  | 11 => if c = 0x75 ∨ c = 0x76 then some (10, r.src, free) else if c = 0x77 then some (14, free, 0) else some (11, free, free / 2 ^ 12)
  | _ => none

/-- The Strata count of a record (R382). -/
def State.strataCount (s : State) (r : Record) : State :=
  match strataPlace r (Config.strataBin r.cls r.cause.toNat r.src r.addr) with
  | some (p, i, b) => s.strataAdd p i b (if countCause r.cause.toNat then r.data.toNat else 1)
  | none => s

/-- A SIGNAL whose earlier commands are all done enters its record (R307). -/
def State.settleSignals (s : State) (n : Nat) : State :=
  match (s.queue n).pending with
  | (i, tag, irq, some v) :: rest =>
    (s.onQueue n (fun q => { q with pending := (i, tag, irq, none) :: rest })).enter (s.commandRecord n 0x83 i tag irq 0 v)
  | _ => s

/-- The recovery that an entered record reports runs (R384, R385, R395). -/
def State.recover (s : State) : Sequel → State
  | .none => s
  | .go g k => s.onCore g (fun c => { c with heldStrands := c.heldStrands.erase k })
  | .replay gs optic => s.replayWindows gs optic
  | .discard g l st i counts => s.discardFor g l st i counts
  | .fail ls cause => ls.foldl (fun (s : State) (l : Nat) => s.failLaunch l cause) s

/-- What an entered record lets go on: an EVSIG completes, a command counts as done, a launch ends, and its recovery runs (R224, R307,
R385, R388). -/
def State.recordIn (s : State) (r : Record) : State :=
  let s : State := match r.evsig with
    | some (g, id) => s.onCore g (fun c => match c.outC.find? (fun x => x.id = id) with
        | some x => ({ c with outC := c.outC.filter (fun y => decide (y.id ≠ id)) } : Core).clearSlot .c x.slot
        | none => c)
    | none => s
  let s : State := match r.done with
    | some (q, i) => (s.onQueue q (fun x => { x with pending := x.pending.filter (fun p => decide (p.1 ≠ i)) })).settleSignals q
    | none => s
  let s : State := match r.ends with
    | some l => if r.cause = 0x81 then s.endLaunch l .failed else if r.cause = 0x80 then s.endLaunch l .completed else s
    | none => s
  s.recover r.sequel

/-- Write one record, advance ELWR, send its message (R352, R353). -/
def State.writeRecord (s : State) (r : Record) : State :=
  let seq := s.log.wr
  let s := s.store (span (s.log.slotAddr seq) 64) ((r.words seq).flatMap (leBytes 8))
  let m := look 0 s.log.msix r.cls
  let s := s.onLog (fun e => { e with wr := seq + 1, entered := some s.mgmt.kcy })
  let s := if m.getLsbD 8 || r.irq then s.onLog (fun e => e.message (m.toNat % 256) seq.toNat) else s
  (s.strataCount r).recordIn r

/-- The record of the first cause that a source counted beyond its 16 (R395). -/
def EventLog.countRecord (e : EventLog) (d : Nat) : Option (Nat × Record) :=
  (e.dropped.find? (fun x => x.1 / 256 = d)).map (fun x =>
    (x.1, { src := d, cause := BitVec.ofNat 8 x.1, cls := causeClass (x.1 % 256), data := BitVec.ofNat 64 (2 ^ 63 + x.2) }))

/-- A die of a lower number holds a record that was made in the same kcy: it enters first (R321; log entry 87). -/
def EventLog.behind (e : EventLog) (d : Nat) (made : Word) : Bool :=
  e.held.any (fun q => decide (q.1 < d) && q.2.any (fun r => decide (r.made = made)))

/-- The held record cannot be written: Keystone's TIME of the try is kept (R352). -/
def State.logFails (s : State) : State := s.onLog (fun e => { e with unwritable := true, triedAt := (s.die 8).time.toNat })

/-- The arbiter takes the next record of a source, at most one per kcy (R321). -/
def State.arbitrate (s : State) (d : Nat) : State :=
  if s.log.blocked || decide (s.log.entered = some s.mgmt.kcy) then s
  else match look [] s.log.held d, s.log.countRecord d with
    | [], none => s
    | r :: rest, _ =>
      if s.log.behind d r.made then s
      else if s.logWritable then (s.onLog (fun e => { e with held := put [] e.held d rest })).writeRecord r
      else s.logFails
    | [], some (k, r) =>
      if s.logWritable then (s.onLog (fun e => { e with dropped := put 0 e.dropped k 0 })).writeRecord r
      else s.logFails

/-! ### Registers of the log (R352) -/

/-- A write of ELCFG. -/
def EventLog.writeCfg (e : EventLog) (w : Word) : EventLog :=
  let n := w.extractLsb' 0 5
  { e with log2n := if n = 0 ∨ (6 ≤ n.toNat ∧ n.toNat ≤ 20) then n else e.log2n, unwritable := false }
/-- A write of ELBASE: SPACE 0 or 2, else the field stays; the held record is tried again. -/
def EventLog.writeBase (e : EventLog) (w : Word) : EventLog :=
  let sp := paSpace w.toNat
  { e with base := if sp = 0 ∨ sp = 2 then BitVec.ofNat 64 (w.toNat / 4096 * 4096) else e.base, unwritable := false }

/-! ### Events -/

/-- EVENT_RECORD_ENTRY (R321). -/
def execEventRecordEntry (s : State) : Result := .next ((s.progressFailures.arbitrate s.ev.num).progressFailures)
/-- ELCFG_WRITE (R352). -/
def execElcfgWrite (s : State) : Result := .next (s.written (s.onLog (fun e => e.writeCfg s.ev.word)))
/-- ELBASE_WRITE (R352). -/
def execElbaseWrite (s : State) : Result := .next (s.written (s.onLog (fun e => e.writeBase s.ev.word)))
/-- ELRD_WRITE (R352). -/
def execElrdWrite (s : State) : Result := .next (s.written (s.onLog (fun e => { e with rd := s.ev.word })))
/-- EVENT_LOG_RETRY (R352): a log in host memory, a ms after the last try. -/
def execEventLogRetry (s : State) : Result :=
  let now := (s.die 8).time.toNat
  .next (if paSpace s.log.base.toNat = 2 && decide (s.log.triedAt + 1000000 ≤ now) then s.onLog (fun e => { e with unwritable := false, triedAt := now }) else s)

end Sys2Proof.Machine
end

