-- ==== Sys2Proof/Machine/Queues.lean ====
section
/-! DEFINITION. Launch queues and their commands: registers, reading a command, LAUNCH with its checks, FENCE, SIGNAL, and the
completion of a launch (R29, R31, R32, R35 to R39, R304 to R309, R320, R407, R408). -/

namespace Sys2Proof.Machine

/-! ### Registers (R304, R305, R408) -/

/-- Commands are pending. -/
def Queue.busy (q : Queue) : Bool := decide (q.head ≠ q.tail)

/-- A write of LQBASEn, n from 0 to 15: ignored while commands are pending (R305). DESIGN CHOICE (log entry 142), unsafe: a SPACE other
than 0 is kept, and the ring is then read there; R304 gives that no consequence. -/
def State.writeLqBase (s : State) (n : Nat) (w : Word) : State :=
  if 16 ≤ n || (s.queue n).busy then s else s.onQueue n (fun q => { q with base := BitVec.ofNat 64 (w.toNat / 4096 * 4096) })

/-- LOG2N may hold this value (R304). -/
def lqSizeOk (n : Nat) : Bool := n = 0 || (decide (4 ≤ n) && decide (n ≤ 16))

/-- A write of LQCFGn. A stopped queue takes it always: 0 resets HEAD and TAIL and disables it, another size leaves it
stopped (R408); reserved values leave the field. A module that has stopped starts no queue again (R384). -/
def State.writeLqCfg (s : State) (n : Nat) (w : Word) : State :=
  let q := s.queue n
  let v := w.extractLsb' 0 5
  if 16 ≤ n || s.mgmt.down || (q.busy && !q.stopped) || !lqSizeOk v.toNat then s
  else if q.stopped then
    s.onQueue n (fun q => if v = 0 then { q with log2n := 0, head := 0, tail := 0, stopped := false, waiting := none } else { q with log2n := v })
  else s.onQueue n (fun q => { q with log2n := v })

/-- A doorbell write (R305, R375): ignored until bring-up ends and by a stopped or disabled queue; more than the ring holds is a
queue error. -/
def State.writeLqTail (s : State) (n : Nat) (w : Word) : State :=
  let q := s.queue n
  let t := w.extractLsb' 0 32
  if 16 ≤ n || !s.mgmt.ready || q.stopped || q.log2n = 0 then s
  else if 2 ^ q.log2n.toNat < (t - q.head).toNat then
    (s.onQueue n (fun q => { q with tail := t, stopped := true })).enter
      { s.deviceRecord 8 0x19 (BitVec.ofNat 64 q.head.toNat) (BitVec.ofNat 64 n) with ctx := n }
  else s.onQueue n (fun q => { q with tail := t })

/-! ### Commands (R306, R307) -/

/-- Eight-byte word `i` of the command at HEAD. -/
def State.cmdWord (s : State) (n i : Nat) : Nat :=
  let q := s.queue n
  s.loadLE (q.base.toNat + 64 * (q.head.toNat % 2 ^ q.log2n.toNat) + 8 * i) 8

/-- Operand words of each kind that must be zero, with the bits of the others that must be (R306, R308, R355, R367, R368). -/
def commandOk (w : Nat → Nat) : Bool :=
  let zeroFrom (i : Nat) : Bool := (span i (8 - i)).all (fun j => decide (w j = 0))
  decide (w 0 % 2 ^ 32 / 2 ^ 9 = 0) &&
  (match w 0 % 256 with
   | 1 => decide (w 3 < 2 ^ 32) && zeroFrom 4
   | 2 => decide (w 1 / 2 ^ 9 % 2 ^ 43 = 0) && decide (w 1 / 2 ^ 5 % 8 = 0) && decide (24 ≤ w 1 % 32) && zeroFrom 2
   | 3 => decide (w 1 < 32) && zeroFrom 2
   | 4 => decide (w 1 < 32) && zeroFrom 2
   | 5 => decide (w 1 % 65536 = 0) && decide (w 1 ≤ 980606976000) && decide (w 2 < 2) && zeroFrom 3
   | 6 => zeroFrom 1
   | 7 => zeroFrom 2
   | _ => false)

/-- Tag and IRQ of the command at HEAD. -/
def State.cmdTag (s : State) (n : Nat) : BitVec 32 := BitVec.ofNat 32 (s.cmdWord n 0 / 2 ^ 32)
def State.cmdIrq (s : State) (n : Nat) : Bool := decide (s.cmdWord n 0 / 256 % 2 = 1)

/-- HEAD passes the command: it is accepted, and counts as not yet done (R305, R307). -/
def State.accept (s : State) (n : Nat) (signal : Option Word) : State :=
  s.onQueue n (fun q => { q with head := q.head + 1, waiting := none, pending := q.pending ++ [(q.head, s.cmdTag n, s.cmdIrq n, signal)] })

/-- A command error: the command is not performed, and the queue goes on (R306, R408). -/
def State.commandError (s : State) (n : Nat) : State :=
  let q := s.queue n
  (s.enter { s.deviceRecord 8 0x18 (BitVec.ofNat 64 q.head.toNat) (BitVec.ofNat 64 n) with tag := s.cmdTag n, ctx := n }).onQueue n
    (fun q => { q with head := q.head + 1 })

/-- Take the command at HEAD of a queue when it is of a kind; a malformed one is a command error. No queue accepts a command
while a checkpoint runs (R356). -/
def State.withCommand (s : State) (n kind : Nat) (body : State → State) : State :=
  let q := s.queue n
  if q.stopped || q.log2n = 0 || !q.busy || q.waiting.isSome || s.host.checkpoint.isSome then s
  else if !commandOk (s.cmdWord n) then s.commandError n
  else if s.cmdWord n 0 % 256 = kind then body s
  else s

/-! ### The pipeline record (R309) -/

/-- Bytes of a virtual region as Keystone reads them; none where some byte is not readable. -/
def State.readBytes (s : State) (ctx : Nat) (a : Word) : Nat → Option (List Byte)
  | 0 => some []
  | n + 1 =>
    match s.keystoneAccess ctx a 1 .load, s.readBytes ctx (a + 1) n with
    | some t, some l => some (BitVec.ofNat 8 (s.loadUnits t.unit t.addrs) :: l)
    | _, _ => none

/-- A little-endian field of a byte list. -/
def fieldAt (l : List Byte) (off n : Nat) : Nat := leNat ((l.drop off).take n)

/-- A stage entry as stored. -/
structure StageEntry where
  record : Nat
  w : Nat
  bound : Nat
  n : Nat
  outm : Nat
  rest : Bool
  deriving DecidableEq, Repr

/-- Stage entry `i` of a record. -/
def stageEntry (l : List Byte) (i : Nat) : StageEntry :=
  let o := 0x40 + 64 * i
  { record := fieldAt l o 8, w := fieldAt l (o + 8) 8, bound := fieldAt l (o + 0x10) 4, n := fieldAt l (o + 0x18) 4, outm := fieldAt l (o + 0x20) 4,
    rest := fieldAt l (o + 0x14) 4 = 0 && fieldAt l (o + 0x1C) 4 = 0 && fieldAt l (o + 0x24) 28 = 0 }

def StageEntry.minc (e : StageEntry) : Nat := e.w % 1024
def StageEntry.maxc (e : StageEntry) : Nat := e.w / 2 ^ 16 % 1024
def StageEntry.prio (e : StageEntry) : Nat := e.w / 2 ^ 32 % 8
def StageEntry.gang (e : StageEntry) : Bool := decide (e.w / 2 ^ 35 % 2 = 1)
def StageEntry.loc (e : StageEntry) : Nat := e.w / 2 ^ 36 % 4
def StageEntry.ldie (e : StageEntry) : Nat := e.w / 2 ^ 40 % 8
def StageEntry.ringSource (e : StageEntry) : Bool := decide (e.w / 2 ^ 44 % 2 = 1)
def StageEntry.sring (e : StageEntry) : Nat := e.w / 2 ^ 48 % 32
/-- Bits of the second word that no field holds. -/
def StageEntry.spare (e : StageEntry) : Bool :=
  decide (e.w / 2 ^ 53 ≠ 0) || decide (e.w / 2 ^ 45 % 8 ≠ 0) || decide (e.w / 2 ^ 43 % 2 ≠ 0) || decide (e.w / 2 ^ 38 % 4 ≠ 0)
    || decide (e.w / 2 ^ 26 % 64 ≠ 0) || decide (e.w / 2 ^ 10 % 64 ≠ 0)

/-- A ring entry: AREA, its second word, and whether the rest is zero. -/
def ringEntry (l : List Byte) (i : Nat) : Nat × Nat × Bool :=
  let o := 0x440 + 32 * i
  (fieldAt l o 8, fieldAt l (o + 8) 8, fieldAt l (o + 0x10) 16 = 0)
/-- A group entry: its two words. -/
def groupEntry (l : List Byte) (i : Nat) : Nat × Nat := (fieldAt l (0x840 + 16 * i) 8, fieldAt l (0x840 + 16 * i + 8) 8)

/-- Members of a group of the record: (stage, task index) by rank (R38); none where the list is not readable. DESIGN CHOICE (log entry
143), unsafe: bits [63:36] of a list element, STG of a list and RULE of a gang are ignored; R309 does not say that they must be zero. -/
def State.groupMembers (s : State) (ctx : Nat) (g : Nat × Nat) : Option (List (Nat × Nat)) :=
  let kind := g.1 % 8
  let count := g.1 / 2 ^ 32
  if kind = 0 ∨ kind = 3 then some []
  else if g.1 / 8 % 2 = 1 then some ((span 0 count).map (fun j => (g.1 / 16 % 16, g.2 % 2 ^ 32 + j * (g.2 / 2 ^ 32))))
  else (s.readBytes ctx (BitVec.ofNat 64 g.2) (8 * count)).map (fun b =>
    (span 0 count).map (fun j => let w := fieldAt b (8 * j) 8; (w / 2 ^ 32 % 16, w % 2 ^ 32)))

/-- Present cores of a die, and of the module. -/
def State.presentOn (s : State) (d : Nat) : Nat := (s.cores.filter (fun c => c.2.present && decide (dieOf c.1 = d))).length
def State.presentCores (s : State) : Nat := (s.cores.filter (fun c => c.2.present)).length

/-- A check of acceptance that failed: cause, code, index, and the address of the part (R407). -/
abbrev BadRecord := Nat × Nat × Nat × Word

/-- First index of a list of checks that fails. -/
def firstBad (n : Nat) (bad : Nat → Bool) : Option Nat := (span 0 n).find? bad

/-- A task index that the stage's source can give. -/
def StageEntry.holds (e : StageEntry) (i : Nat) : Bool := e.ringSource || decide (i < e.n)

/-- Groups that a task is in, gang groups included. -/
def groupsOf (kinds : List (Nat × Nat)) (members : List (List (Nat × Nat))) (m : Nat × Nat) : Nat :=
  (members.filter (fun l => l.contains m)).length + (kinds.filter (fun k => decide (k.1 = 3) && decide (k.2 = m.1))).length

/-- The launch record template is well-formed (R28, R29). -/
def State.templateOk (s : State) (ctx : Nat) (a : Word) : Bool :=
  decide (a.toNat % 256 = 0) &&
  match s.readBytes ctx a 256 with
  | some b =>
    let f := fieldAt b
    f 0x08 4 % 8 = 0 && f 0x0C 4 % 8 = 0 && f 0x10 4 % 16 = 0 && f 0x14 4 % 16 = 0 && f 0x18 4 % 2 = 1 && decide (f 0x18 4 < 16)
      && f 0x1C 4 = 0 && f 0xA0 16 = 0 && f 0xB0 32 = 0 && f 0xD0 48 = 0
  | none => false

/-- The checks of acceptance in the order of R407; none when all pass. -/
def State.recordFault (s : State) (ctx : Nat) (prec save saveb : Nat) (l : List Byte) : Option BadRecord :=
  let at' (o : Nat) : Word := BitVec.ofNat 64 (prec + o)
  let h := fieldAt l 0 8
  let ns := h % 32
  let nr := h / 256 % 64
  let st := stageEntry l
  let stages := (span 0 ns).map st
  let zero (o n : Nat) : Bool := fieldAt l o n = 0
  let group (i : Nat) : Nat × Nat := groupEntry l i
  let kind (i : Nat) : Nat := (group i).1 % 8
  let count (i : Nat) : Nat := (group i).1 / 2 ^ 32
  let gst (i : Nat) : Nat := (group i).1 / 16 % 16
  let rule (i : Nat) : Bool := (group i).1 / 8 % 2 = 1
  let members := (span 0 256).map (fun i => (s.groupMembers ctx (group i)).getD [])
  let mem (i : Nat) : List (Nat × Nat) := members.getD i []
  let kinds := (span 0 256).map (fun i => (kind i, gst i))
  let producers (r : Nat) : List Nat := (span 0 ns).filter (fun i => decide ((st i).outm / 2 ^ r % 2 = 1))
  let consumers (r : Nat) : List Nat := (span 0 ns).filter (fun i => (st i).ringSource && decide ((st i).sring = r))
  let badStage (i : Nat) : Bool :=
    let e := st i
    if ns ≤ i then !zero (0x40 + 64 * i) 64
    else decide (768 < e.minc) || decide (e.maxc < e.minc) || decide (768 < e.maxc) || decide (e.maxc = 0) || decide (e.bound = 0) || e.spare || !e.rest
      || (e.ringSource && decide (nr ≤ e.sring)) || decide (2 ^ nr ≤ e.outm)
  let badGang (i : Nat) : Bool :=
    let e := st i
    e.gang && (decide (e.minc % 4 ≠ 0) || decide (e.maxc % 4 ≠ 0) || e.ringSource || decide (e.n % 4 ≠ 0))
  let badLoc (i : Nat) : Bool := let e := st i; decide (e.loc = 3) || (decide (e.loc = 2) && decide (s.presentOn e.ldie < e.maxc))
  let badRing (r : Nat) : Bool :=
    let (area, w, rest) := ringEntry l r
    let size := w / 2 ^ 8 % 2 ^ 24
    if nr ≤ r then !zero (0x440 + 32 * r) 32
    else decide (area % 256 ≠ 0) || decide (w / 2 ^ 32 % 2 ^ 16 ≠ 0) || decide (w / 2 ^ 5 % 8 ≠ 0) || decide (size % 32 ≠ 0) || decide (size < 64)
      || decide (65536 < size) || decide (w % 32 < 1) || decide (20 < w % 32) || !rest
  let badEnds (r : Nat) : Bool :=
    decide ((producers r).length ≠ 1) || decide ((consumers r).length ≠ 1) || decide ((producers r) = (consumers r))
  let badGroup (i : Nat) : Bool :=
    let g := group i
    (decide (kind i ≠ 0) && decide (g.1 / 2 ^ 8 % 2 ^ 24 ≠ 0)) || decide (4 < kind i)
      || (decide (kind i = 3) && (decide (count i ≠ 4) || decide (g.2 ≠ 0) || decide (ns ≤ gst i) || !(st (gst i)).gang))
      || ((kind i = 1 || kind i = 2 || kind i = 4) &&
          (decide (count i = 0) || decide ((if kind i = 1 then 65536 else 768) < count i)
            || (if rule i then decide (ns ≤ gst i) || decide (g.2 / 2 ^ 32 = 0) || !(mem i).all (fun m => (st m.1).holds m.2)
                else (s.groupMembers ctx g).isNone)))
  let badList (i : Nat) : Bool := !rule i && (mem i).any (fun m => decide (ns ≤ m.1) || !(st m.1).holds m.2)
  let crowded (i : Nat) : Bool := members.any (fun l => l.any (fun m => decide (m.1 = i) && decide (4 < groupsOf kinds members m)))
    || decide (4 < (kinds.filter (fun k => decide (k.1 = 3) && decide (k.2 = i))).length)
  let cramped (i : Nat) : Bool := (kind i = 1 || kind i = 2) &&
    decide ((((mem i).map (·.1)).eraseDups.map (fun j => (st j).maxc)).foldl (· + ·) 0 < (mem i).length)
  let pick (code n : Nat) (bad : Nat → Bool) (addr : Nat → Word) (next : Option BadRecord) : Option BadRecord :=
    match firstBad n bad with
    | some i => some (0x17, code, i, addr i)
    | none => next
  let stageAddr (i : Nat) : Word := at' (0x40 + 64 * i)
  let groupAddr (i : Nat) : Word := at' (0x840 + 16 * i)
  if prec % 256 ≠ 0 ∨ save % 256 ≠ 0 then some (0x17, 1, 0, at' 0)
  else if ns = 0 ∨ 16 < ns ∨ 32 < nr ∨ h / 2 ^ 5 % 8 ≠ 0 ∨ h / 2 ^ 14 % 4 ≠ 0 ∨ h / 2 ^ 17 ≠ 0 ∨ !zero 8 56 then some (0x17, 2, 0, at' 0)
  else if saveb < 512 * (stages.map StageEntry.maxc).foldl (· + ·) 0 then some (0x17, 3, 0, at' 0)
  else pick 4 16 badStage stageAddr (pick 5 ns badGang stageAddr (pick 6 ns badLoc stageAddr
    (pick 7 32 badRing (fun r => at' (0x440 + 32 * r)) (pick 8 nr badEnds (fun r => at' (0x440 + 32 * r))
    (pick 9 256 badGroup groupAddr (pick 10 256 badList groupAddr (pick 11 ns crowded stageAddr (pick 12 256 cramped groupAddr
    ((firstBad ns (fun i => !s.templateOk ctx (BitVec.ofNat 64 (st i).record))).map
      (fun i => (0x16, 13, i, BitVec.ofNat 64 (st i).record)))))))))))

/-- A stage as launched. -/
def StageEntry.stage (e : StageEntry) : Stage :=
  { record := BitVec.ofNat 64 e.record, sring := if e.ringSource then some e.sring else none, ldie := e.ldie, loc := e.loc, gang := e.gang, prio := e.prio,
    maxc := e.maxc, minc := e.minc, bound := e.bound, n := e.n, outm := BitVec.ofNat 32 e.outm }

/-- The launch that a checked record describes. -/
def State.buildLaunch (s : State) (q save saveb : Nat) (l : List Byte) : Launch :=
  let h := fieldAt l 0 8
  let stages := (span 0 (h % 32)).map (fun i => (stageEntry l i).stage)
  let who (p : Stage → Bool) : Nat := (stages.findIdx? p).getD 0
  let rings := (span 0 (h / 256 % 64)).map (fun r =>
    let (area, w, _) := ringEntry l r
    ({ area := BitVec.ofNat 64 area, tref := w / 2 ^ 48, size := w / 2 ^ 8 % 2 ^ 24, logs := w % 32, producer := who (fun st => st.outm.getLsbD r),
       consumer := who (fun st => decide (st.sring = some r)) } : Ring))
  let groups := (span 0 256).foldl (fun (m : Sparse Group) i =>
    let g := groupEntry l i
    if g.1 % 8 = 0 then m
    else place i { kind := g.1 % 8, members := (s.groupMembers q g).getD [], stage := g.1 / 16 % 16 } m) []
  { id := s.nextLaunch, queue := q, head := (s.queue q).head, tag := s.cmdTag q, irq := s.cmdIrq q, ctx := q, pod := decide (h / 2 ^ 16 % 2 = 1),
    save := BitVec.ofNat 64 save, saveBytes := saveb, stages := stages, rings := rings, groups := groups }

/-! ### Stage completion (R35, R36) -/

/-- A stage's source is exhausted and its tasks have ended. -/
def Launch.stageDone (l : Launch) (st : Stage) : Bool :=
  decide (st.live = 0) && decide (st.staged = 0) && st.requeued.isEmpty &&
  (match st.sring with
   | none => decide (st.n ≤ st.nextIdx) && st.returned.isEmpty
   | some r => match l.rings[r]? with
     | some x => x.closed && decide (x.pub = 0)
     | none => true)

/-- Complete the stages that are done and close their rings, once. -/
def Launch.closeOnce (l : Launch) : Launch :=
  ((span 0 l.stages.length).foldl (fun l i =>
    match l.stages[i]? with
    | some st =>
      if !st.completed && l.stageDone st then
        { l.onStage i (fun st => { st with completed := true, cores := [], waiting := false }) with
          rings := l.rings.map (fun r => if r.producer = i then { r with closed := true } else r) }
      else l
    | none => l) l)

/-- Complete every stage that is done; a closed ring may let the next complete (R35). -/
def Launch.closeStages (l : Launch) : Launch := (span 0 16).foldl (fun l _ => l.closeOnce) l

/-! ### LAUNCH (R308) -/

/-- Minimum cores of a launch's stages that have not completed (R308, R311). -/
def Launch.minCores (l : Launch) : Nat := ((l.stages.filter (fun st => !st.completed)).map (fun st => st.minc)).foldl (· + ·) 0
/-- The launch has neither completed nor finished failing. -/
def Launch.active (l : Launch) : Bool :=
  match l.state with
  | .running => true
  | .failing _ => true
  | _ => false
/-- Cores that running launches have reserved. -/
def State.reservedCores (s : State) : Nat := ((s.launches.filter Launch.active).map Launch.minCores).foldl (· + ·) 0
/-- A launch may start now: fewer than 16 of its queue run, and its minimum cores are there (R307, R308). -/
def State.admits (s : State) (l : Launch) : Bool :=
  decide ((s.launches.filter (fun x => x.active && decide (x.queue = l.queue))).length < 16)
    && decide (s.reservedCores + l.minCores ≤ s.presentCores)

/-- A launch is accepted and runs. -/
def State.beginLaunch (s : State) (l : Launch) : State :=
  let l := { l with id := s.nextLaunch }
  { (s.accept l.queue none) with launches := s.launches ++ [l.closeStages], nextLaunch := s.nextLaunch + 1 }

/-- A LAUNCH fails at acceptance: its record, then the record of cause 0x81 (R407). -/
def State.refuseLaunch (s : State) (q : Nat) (b : BadRecord) : State :=
  let x := s.queue q
  let tag := s.cmdTag q
  let irq := s.cmdIrq q
  let t := (s.accept q none).enter
    { s.deviceRecord 8 b.1 b.2.2.2 (BitVec.ofNat 64 (b.2.1 + b.2.2.1 * 65536)) with tag := tag, lfail := true, rcl := 6, ctx := q }
  t.enter { s.deviceRecord 8 0x81 0 (BitVec.ofNat 64 b.1) with
    tag := tag, lfail := true, rcl := 6, ctx := q, irq := irq, done := some (q, x.head) }

/-- The LAUNCH at HEAD: its checks, then acceptance or the wait for cores (R307, R308). -/
def State.launchCommand (s : State) (q : Nat) : State :=
  let prec := s.cmdWord q 1
  let save := s.cmdWord q 2
  let saveb := s.cmdWord q 3
  match s.readBytes q (BitVec.ofNat 64 prec) 6208 with
  | none => s.refuseLaunch q (0x17, 1, 0, BitVec.ofNat 64 prec)
  | some l => match s.recordFault q prec save saveb l with
    | some b => s.refuseLaunch q b
    | none =>
      let x := s.buildLaunch q save saveb l
      if s.admits x then s.beginLaunch x else s.onQueue q (fun y => { y with waiting := some x })

/-! ### Events -/

/-- LAUNCH (R308). -/
def execLaunch (s : State) : Result := .next (s.withCommand s.ev.num 1 (fun s => s.launchCommand s.ev.num))
/-- LAUNCH_ACCEPT (R308). -/
def execLaunchAccept (s : State) : Result :=
  .next (match (s.queue s.ev.num).waiting with
    | some l => if !(s.queue s.ev.num).stopped && s.host.checkpoint.isNone && s.admits l then s.beginLaunch l else s
    | none => s)
/-- FENCE_COMMAND (R307). -/
def execFenceCommand (s : State) : Result :=
  .next (s.withCommand s.ev.num 6 (fun s =>
    let n := s.ev.num
    if (s.queue n).pending.isEmpty then (s.accept n none).completeCommand n (s.queue n).head (s.cmdTag n) (s.cmdIrq n) else s))
/-- SIGNAL (R307). -/
def execSignal (s : State) : Result :=
  .next (s.withCommand s.ev.num 7 (fun s => (s.accept s.ev.num (some (BitVec.ofNat 64 (s.cmdWord s.ev.num 1)))).settleSignals s.ev.num))
/-- LQTAIL_WRITE (R305). -/
def execLqtailWrite (s : State) : Result := .next (s.written (s.writeLqTail s.ev.num s.ev.word))
/-- LQCFG_WRITE (R408). -/
def execLqcfgWrite (s : State) : Result := .next (s.written (s.writeLqCfg s.ev.num s.ev.word))

/-- LAUNCH_COMPLETION (R320): every stage has completed, every store is performed and every send acknowledged. -/
def execLaunchCompletion (s : State) : Result :=
  .next (match s.launch? s.ev.num with
    | some l =>
      if l.state = .running && l.stages.all (fun st => st.completed) && !s.sendsOwed l.id
          && l.left.all (fun x => x.performedAt (if l.pod then 3 else 2))
          && !s.log.held.any (fun q => q.2.any (fun r => decide (r.ends = some l.id))) then
        s.enter { s.deviceRecord 8 0x80 0 0 with tag := l.tag, ctx := l.ctx, irq := l.irq, ends := some l.id, done := some (l.queue, l.head) }
      else s
    | none => s)

end Sys2Proof.Machine
end

