-- ==== Sys2Proof/Machine/Registers.lean ====
section
/-! DEFINITION. The register BAR: what each register reads as, what a write does, and the registers behind SPACE 6 addresses
(R11, R349, and each register's own map). -/

namespace Sys2Proof.Machine

/-- 0 or 1. -/
def flagBit (b : Bool) : Nat := if b then 1 else 0

/-- Packets tagged with the idle bank are still in this chip's routers (R362). -/
def Fabric.idleBusy (f : Fabric) : Bool :=
  f.packets.any (fun p => decide (p.bank ≠ f.cur)) || f.outbound.any (fun e => decide (e.2.bank ≠ f.cur)) || f.adders.any (fun p => decide (p.bank ≠ f.cur))

/-- MREPST.ST: two bits a command (R434). -/
def Mason.statusBits (m : Mason) : Nat := joinUnits 2 (m.reps.map (fun r => r.status.toNat))

/-- Units of an atomic status register. -/
def State.readRegister (s : State) (r : RegName) : Word :=
  let b (n : Nat) : Word := BitVec.ofNat 64 n
  let m := s.mason
  let f := s.fabric
  let g := s.mgmt
  match r with
  | .lqbase n => (s.queue n).base
  | .lqcfg n => (s.queue n).log2n.setWidth 64
  | .lqhead n => (s.queue n).head.setWidth 64
  | .lqtail n => (s.queue n).tail.setWidth 64
  | .elbase => s.log.base
  | .elcfg => s.log.log2n.setWidth 64
  | .elwr => s.log.wr
  | .elrd => s.log.rd
  | .msixmap k => (look 0 s.log.msix k).setWidth 64
  | .msixEntry k => (look msixReset s.log.msixTable (k / 2)).extractLsb' (64 * (k % 2)) 64
  | .msixPba k => b ((s.log.pendingBits.filter (fun v => decide (v / 64 = k))).foldl (fun n v => n + 2 ^ (v % 64)) 0)
  | .hwin => s.host.hwin.setWidth 64
  | .fxctl => b (s.flow.pper.toNat * 2 ^ 32 + s.flow.dper.toNat)
  | .fxplt => s.flow.limit.setWidth 64
  | .fxstat d => b ((s.die d).exg.toNat * 2 ^ 32 + (s.die d).parked.length)
  | .xfcon => s.xfcon.setWidth 64
  | .xfext k e => b (look 0 (s.bus k).subs e)
  | .mctl => m.half.setWidth 64
  | .mcnt e d => (look 0 m.mcnt (8 * e + d)).setWidth 64
  | .msn e d => (look 0 m.msn (8 * e + d)).setWidth 64
  | .msnap => 0
  | .cairnctx => b (m.ctx * 2 ^ 32 + m.lhead.toNat)
  | .cairnhdr i => b ((m.ver (i = 1)).toNat * 2 ^ 32 + flagBit (m.load (i = 1)))
  | .cairnst => b (m.cver.toNat * 2 ^ 32 + 2 * flagBit m.ibusy + flagBit m.cur)
  | .cairnpub => 0
  | .cairnslot i e k w => (m.slot (i = 1) e k).word w
  | .cairnvc => m.vcell
  | .mrepcmd => m.cmd
  | .mrepgo => 0
  | .mrepst => b (256 * flagBit m.full + m.statusBits)
  | .mstep => b (65536 * flagBit m.en + 256 * m.wgrp + m.sgrp)
  | .mdone => m.mdone
  | .mbud d => (look 0 m.mbud d).setWidth 64
  | .muse d => (look 0 m.muse d).setWidth 64
  | .rtst => b (2 * flagBit f.idleBusy + flagBit f.cur)
  | .rtdef i => (f.def_ (i = 1)).setWidth 64
  | .rtovr i n => (look 0 (f.ovr (i = 1)) n).setWidth 64
  | .ftout => f.ftout.setWidth 64
  | .fretry => f.fretry.setWidth 64
  | .flife => f.flife.setWidth 64
  | .ferrlim => f.ferrlim.setWidth 64
  | .dlkcfg d => (s.die d).dlk.setWidth 64
  | .qpool c q => let p := (s.core c).share q; b ((s.core c).used q * 2 ^ 32 + p.cap * 2 ^ 16 + p.min)
  | .l2ecc => b (65536 * flagBit g.decTed + Config.l2Threshold.toNat * 256 + g.hyst.toNat)
  | .atst u => (look 0 s.atst (unitNumber u)).setWidth 64
  | .brst => b (g.grade.toNat * 2 ^ 16 + s.presentCores * 2 ^ 6 + g.step.toNat * 8 + 4 * flagBit g.fail + 2 * flagBit g.fuse + flagBit g.ready)
  | .pcap => g.pcap.setWidth 64
  | .pstat => b (2 ^ 20 * flagBit (decide (g.clk.toNat < g.grade.toNat)) + g.clk.toNat * 2 ^ 12 + g.pwr.toNat)
  | .mbcmd => 0
  | .mbsts => b (g.mbTag.toNat * 2 ^ 32 + 2 ^ 17 * flagBit g.mbOvr + 2 ^ 16 * flagBit g.mbBusy + 256 * g.mbRc.toNat)
  | .mbdata k => look 0 g.mbdata k
  | .ttbase c => look 0 s.ttbase c
  | .stageWeight l i => match s.launch? l with | some x => (match x.stages[i]? with | some st => b st.weight | none => 0) | none => 0
  | .atomicRequester => b (flagBit s.host.requester)

/-- A write of a route register: neither the selected bank nor a busy idle bank takes it (R362). -/
def State.writeRoute (s : State) (bank : Bool) (f : Fabric → Fabric) : State :=
  if bank = s.fabric.cur || s.fabric.idleBusy then s else s.onFabric f

/-- A write of QPOOLx (R319). -/
def State.writePool (s : State) (g q : Nat) (w : Word) : State :=
  let c := s.core g
  let p : Pool := ⟨w.toNat % 1024, w.toNat / 65536 % 1024⟩
  if 512 < sumQueues (fun x => if x = q then p.min else (c.share x).min) ∨ p.cap < p.min ∨ 31 ≤ q then s
  else s.onCore g (fun c => { c with pool := place q p c.pool })

/-- The local arm set that firmware names for an inbound bus: source bus in [61:60], source chip in [59:48], group in [47:40], context in
[35:32], HEAD in [31:0], with bit 63 set (log entry 33). -/
def armSetOf (w : Word) : Option (Nat × BitVec 32 × Nat × Nat × Nat) :=
  if w.getLsbD 63 then some (w.toNat / 2 ^ 32 % 16, w.extractLsb' 0 32, w.toNat / 2 ^ 40 % 256, w.toNat / 2 ^ 48 % 4096, w.toNat / 2 ^ 60 % 4) else none

/-- A write of PCAP takes effect from the next window, which begins in the kcy that the last one ended in; one that comes after the end of
a window still to be judged leaves what that end found (R377). -/
def Mgmt.setCap (m : Mgmt) (now : Nat) (cap : BitVec 12) : Mgmt :=
  { m with pcap := cap, capNow := if m.windowKcy = some m.kcy then cap else m.capNow,
           capEnd := if (m.windows + 1) * 1000000 ≤ now && m.capEnd.isNone then some m.pcap else m.capEnd }

/-- A new die period applies from its boundary on: its slots are those that begin there or later (R326). -/
def Flow.switch (f : Flow) : Flow :=
  match f.switchAt with
  | some t =>
    if 8 * t ≤ f.slot * f.period then
      { f with period := f.dper.toNat, switchAt := Option.none, slot := (8 * t + f.dper.toNat - 1) / f.dper.toNat }
    else f
  | none => f

/-- What a write of a register does (R11). Read-only registers and fields, and values that a map excludes, leave the state; XFCON is
firmware's alone (R118). -/
def State.writeRegister (s : State) (r : RegName) (w : Word) : State :=
  let n := w.toNat
  match r with
  | .lqbase q => s.writeLqBase q w
  | .lqcfg q => s.writeLqCfg q w
  | .lqhead _ => s
  | .lqtail q => s.writeLqTail q w
  | .elbase => s.onLog (fun e => e.writeBase w)
  | .elcfg => s.onLog (fun e => e.writeCfg w)
  | .elwr => s
  | .elrd => s.onLog (fun e => { e with rd := w })
  | .msixmap k => if k < 16 then s.onLog (fun e => { e with msix := put 0 e.msix k (w.extractLsb' 0 9) }) else s
  | .msixEntry k => if k < 512 then s.onLog (fun e => e.writeEntry k w) else s
  | .msixPba _ => s
  | .hwin => { s with host := { s.host with hwin := w.extractLsb' 0 23 } }
  | .fxctl =>
    let p := n % 2 ^ 20
    let q := n / 2 ^ 32 % 2 ^ 24
    let fl := s.flow
    let fl := if 250 ≤ p ∧ p ≤ 1000000 then
        { fl with dper := BitVec.ofNat 20 p, switchAt := some ((s.keystoneTime / fl.period + 1) * fl.period) }.switch else fl
    { s with flow := if 1000 ≤ q ∧ q ≤ 10000000 then { fl with pper := BitVec.ofNat 24 q } else fl }
  | .fxplt => { s with flow := { s.flow with limit := w.extractLsb' 0 32 } }
  | .fxstat _ => s
  | .xfcon => s
  | .xfext k e => if k < 4 then (if e < 3 then s.onBus k (fun b => { b with subs := put 0 b.subs e (n % 2 ^ 13) }) else s)
    else if k < 8 then s.onBus k (fun b => { b with armSet := armSetOf w }) else s
  | .mctl => if n % 64 = 0 ∨ (12 ≤ n % 64 ∧ n % 64 ≤ 40) then s.onMason (fun m => { m with half := w.extractLsb' 0 6 }) else s
  | .mcnt _ _ => s
  | .msn _ _ => s
  | .msnap => s.onMason (fun m => { m with msn := m.mcnt })
  | .cairnctx => s.onMason (fun m => { m with ctx := n / 2 ^ 32 % 16, lhead := w.extractLsb' 0 32 })
  | .cairnhdr i => s.writeHeader (i = 1) w
  | .cairnst => s
  | .cairnpub => s.publish w
  | .cairnslot i e k x => if e < 4096 ∧ k < 8 ∧ x < 4 then s.writeSlot (i = 1) e k x w else s
  | .cairnvc => s.onMason (fun m => { m with vcell := w })
  | .mrepcmd => s.onMason (fun m => { m with cmd := w &&& ~~~ 0xE00000 })
  | .mrepgo => s.startReplication s.ev.nums
  | .mrepst => s.onMason (fun m => { m with full := m.full && !w.getLsbD 8 })
  | .mstep => s.onMason (fun m => { m with en := w.getLsbD 16, wgrp := n / 256 % 256, sgrp := n % 256 })
  | .mdone => s.onMason (fun m => { m with mdone := w })
  | .mbud d => if d < 8 then s.onMason (fun m => { m with mbud := put 0 m.mbud d (w.extractLsb' 0 32) }) else s
  | .muse _ => s
  | .rtst => s
  | .rtdef i => s.writeRoute (i = 1) (fun f => if i = 1 then { f with def1 := w.extractLsb' 0 24 } else { f with def0 := w.extractLsb' 0 24 })
  | .rtovr i x => s.writeRoute (i = 1) (fun f =>
      if i = 1 then { f with ovr1 := put 0 f.ovr1 x (w.extractLsb' 0 6) } else { f with ovr0 := put 0 f.ovr0 x (w.extractLsb' 0 6) })
  | .ftout => if n % 65536 ≤ s.fabric.flife.toNat then s else s.onFabric (fun f => { f with ftout := w.extractLsb' 0 16 })
  | .fretry => s.onFabric (fun f => { f with fretry := w.extractLsb' 0 4 })
  | .flife => if n % 65536 = 0 ∨ s.fabric.ftout.toNat ≤ n % 65536 then s else s.onFabric (fun f => { f with flife := w.extractLsb' 0 16 })
  | .ferrlim => s.onFabric (fun f => { f with ferrlim := w.extractLsb' 0 32 })
  | .dlkcfg d => if d < 8 then s.onDie d (fun x => { x with dlk := w.extractLsb' 0 16 }) else s
  | .qpool g q => s.writePool g q w
  | .l2ecc => { s with mgmt := { s.mgmt with hyst := w.extractLsb' 0 8 } }
  | .atst u => { s with atst := put 0 s.atst (unitNumber u) (look 0 s.atst (unitNumber u) &&& ~~~ (w.extractLsb' 0 5).setWidth 12) }
  | .brst => s
  | .pcap => if 1200 ≤ n % 4096 ∧ n % 4096 ≤ 3000 then { s with mgmt := s.mgmt.setCap (s.die 8).time.toNat (w.extractLsb' 0 12) } else s
  | .pstat => s
  | .mbcmd =>
    if s.mgmt.mbBusy then { s with mgmt := { s.mgmt with mbOvr := true } }
    else if n % 65536 = 0 ∨ 6 < n % 65536 then { s with mgmt := { s.mgmt with mbTag := w.extractLsb' 16 16, mbRc := 1 } }
    else { s with mgmt := { s.mgmt with mbTag := w.extractLsb' 16 16, mbBusy := true, mbOp := n % 65536 } }
  | .mbsts => { s with mgmt := { s.mgmt with mbOvr := s.mgmt.mbOvr && !w.getLsbD 17 } }
  | .mbdata k => if k < 8 then { s with mgmt := { s.mgmt with mbdata := put 0 s.mgmt.mbdata k w } } else s
  | .ttbase c => if c < 16 then { s with ttbase := put 0 s.ttbase c w, walked := [] } else s
  | .stageWeight l i => if n % 256 = 0 then s else s.onLaunch l (fun x => x.onStage i (fun st => { st with weight := n % 256 }))
  | .atomicRequester => { s with host := { s.host with requester := w.getLsbD 0 } }

/-! ### The register BAR by offset (R349) -/

/-- The region of an offset (R349): 0 launch queues, 1 event log, 2 MSI-X, 3 host and checkpoint, 4 Flowstone, Mason and Cairn, 5 routes,
ports and circuits, 6 management. -/
def regionAt (off : Nat) : Nat :=
  if off < 0x10000 then 0 else if off < 0x20000 then 1 else if off < 0x100000 then 2 else if off < 0x200000 then 3 else if off < 0x400000 then 4
  else if off < 0x1000000 then 5 else 6

/-- The region of a register (R349; log entry 112 for those that no map places). -/
def regionOf : RegName → Nat
  | .lqbase _ => 0
  | .lqcfg _ => 0
  | .lqhead _ => 0
  | .lqtail _ => 0
  | .elbase => 1
  | .elcfg => 1
  | .elwr => 1
  | .elrd => 1
  | .msixmap _ => 1
  | .msixEntry _ => 2
  | .msixPba _ => 2
  | .hwin => 3
  | .atomicRequester => 3
  | .fxctl => 4
  | .fxplt => 4
  | .fxstat _ => 4
  | .mctl => 4
  | .mcnt _ _ => 4
  | .msn _ _ => 4
  | .msnap => 4
  | .cairnctx => 4
  | .cairnhdr _ => 4
  | .cairnst => 4
  | .cairnpub => 4
  | .cairnslot _ _ _ _ => 4
  | .cairnvc => 4
  | .mrepcmd => 4
  | .mrepgo => 4
  | .mrepst => 4
  | .mstep => 4
  | .mdone => 4
  | .mbud _ => 4
  | .muse _ => 4
  | .xfcon => 5
  | .xfext _ _ => 5
  | .rtst => 5
  | .rtdef _ => 5
  | .rtovr _ _ => 5
  | .ftout => 5
  | .fretry => 5
  | .flife => 5
  | .ferrlim => 5
  | .dlkcfg _ => 6
  | .qpool _ _ => 6
  | .l2ecc => 6
  | .atst _ => 6
  | .brst => 6
  | .pcap => 6
  | .pstat => 6
  | .mbcmd => 6
  | .mbsts => 6
  | .mbdata _ => 6
  | .ttbase _ => 6
  | .stageWeight _ _ => 6

/-- The word of the Cairn table at an offset: slot k of expert e lies at (8e + k) × 32 of its bank (R339). -/
def cairnWord (off : Nat) : Option RegName :=
  (span 0 2).findSome? (fun b =>
    let base := Config.cairnBank b
    if regionAt off = 4 ∧ base ≤ off ∧ off < base + 2 ^ 20 then
      some (.cairnslot b ((off - base) / 256) ((off - base) / 32 % 8) ((off - base) / 8 % 4))
    else none)

/-- The register at an offset: launch queues, the MSI-X table and the Cairn banks as R349 and R339 state them, the rest by firmware
release within its region, each at the one offset that its records name (R435). -/
def registerOf (off : Nat) : Option RegName :=
  if off < 0x400 then
    (match off / 8 % 8 with
     | 0 => some (.lqbase (off / 64))
     | 1 => some (.lqcfg (off / 64))
     | 2 => some (.lqhead (off / 64))
     | 3 => some (.lqtail (off / 64))
     | _ => none)
  else if 0x20000 ≤ off ∧ off < 0x21000 then some (.msixEntry ((off - 0x20000) / 8))
  else if 0x21000 ≤ off ∧ off < 0x21020 then some (.msixPba ((off - 0x21000) / 8))
  else if off < 0x10000 then none
  else match cairnWord off with
    | some r => some r
    | none => (Config.registerAt off).filter (fun r => decide (regionOf r = regionAt off) && decide (registerOffset r = off))

/-- Read eight bytes at an aligned offset: an offset that the layout does not define reads zero. -/
def State.readBar (s : State) (off : Nat) : Word := match registerOf off with | some r => s.readRegister r | none => 0
/-- Write eight bytes at an aligned offset: an offset that the layout does not define is ignored. -/
def State.writeBar (s : State) (off : Nat) (w : Word) : State := match registerOf off with | some r => s.writeRegister r w | none => s

/-! ### Bytes of any space -/

/-- A byte of this module, registers included: a byte of the register BAR is a byte of its aligned eight (log entry 38). -/
def State.anyByte (s : State) (pa : Nat) : Byte :=
  if paSpace pa = 6 then BitVec.ofNat 8 ((s.readBar (paOffset pa / 8 * 8)).toNat / 2 ^ (8 * (pa % 8))) else s.byte pa

/-- Read bytes of any space. -/
def State.anyLoad (s : State) (addrs : List Nat) : List Byte := addrs.map s.anyByte

/-- Store bytes of any space; the register BAR takes whole aligned eights and nothing else (R349). -/
def State.anyStore (s : State) (addrs : List Nat) (bytes : List Byte) : State :=
  match addrs with
  | a :: _ =>
    if paSpace a = 6 then
      (span 0 (addrs.length / 8)).foldl (fun s i =>
        let x := addrs.getD (8 * i) 0
        if x % 8 = 0 ∧ (addrs.drop (8 * i)).take 8 = span x 8 then s.writeBar (paOffset x) (BitVec.ofNat 64 (leNat ((bytes.drop (8 * i)).take 8))) else s) s
    else s.store addrs bytes
  | [] => s

/-! ### Events -/

/-- Firmware writes XFCON: it sets the bit of an inbound fibre whose monitor has read LPC 0 or 1 for 10 ms, and clears one whose
monitor has read LPC 3 for 100 ms (R118). -/
def State.connectFibres (s : State) (w : Word) : State :=
  let now := (s.die 8).time.toNat
  let bit (j : Nat) : Nat :=
    let b := s.bus (j + 4)
    let old := s.xfcon.getLsbD j
    if w.getLsbD j then flagBit (old || (decide (b.lpc.toNat ≤ 1) && decide (b.steadySince + 10000000 ≤ now)))
    else flagBit (old && !(decide (b.lpc = 3) && decide (b.since + 100000000 ≤ now)))
  { s with xfcon := BitVec.ofNat 4 (bit 0 + 2 * bit 1 + 4 * bit 2 + 8 * bit 3) }

/-- A register of the mailbox (R379). -/
def inMailbox : RegName → Bool
  | .mbcmd => true
  | .mbsts => true
  | .mbdata _ => true
  | _ => false

/-- REGISTER_WRITE (R11): XFCON takes only firmware's write, not one over the host link (R118); the mailbox answers in a module that has
stopped (R384). -/
def execRegisterWrite (s : State) : Result :=
  let r := s.ev.reg
  .next (if r = .xfcon then (if s.ev.flag then s else s.connectFibres s.ev.word)
    else if inMailbox r && s.host.linkUp then s.writeRegister r s.ev.word
    else s.written (s.writeRegister r s.ev.word))
/-- MSNAP_WRITE (R337). -/
def execMsnapWrite (s : State) : Result := .next (s.written (s.writeRegister .msnap s.ev.word))
/-- CAIRN_PUBLISH (R342). -/
def execCairnPublish (s : State) : Result := .next (s.written (s.publish s.ev.word))
/-- MREPGO_WRITE (R344). -/
def execMrepgoWrite (s : State) : Result := .next (s.written (s.startReplication s.ev.nums))
/-- TTINV_WRITE (R69): it completes once no tile of the page is half moved by the old entry. Where the tensor's descriptor is not at hand,
every old entry of the context goes. -/
def execTtinvWrite (s : State) : Result :=
  let ctx := s.ev.num
  let n := tensorOf s.ev.word
  .next <| s.written <| match s.desc? ctx n with
    | some d =>
      let page := d.bitPos (8 * offsetOf s.ev.word / d.eb) / 8 / 65536
      if s.midTile ctx n page then s else s.dropStale ctx (d.entryAddr page)
    | none => { s with walked := [], stale := s.stale.filter (fun e => decide (e.1 ≠ ctx)) }

end Sys2Proof.Machine
end

