-- ==== Sys2Proof/Machine/Completion.lean ====
section
/-! DEFINITION. Performing the outstanding accesses of the C and A strands: order, values, poison, atomics at their units,
joins, releases; pending sums; and QFENCE (R126 to R148, R222, R224, R228 to R230, R241, R412 to R418, R447, R448). -/

namespace Sys2Proof.Machine

/-! ### Order (R130, R134) -/

/-- Two accesses name a location in common: the same bytes through the same address form and tensor (R125). -/
def Access.meets (x y : Access) : Bool :=
  decide (x.virtual = y.virtual) && (!x.virtual || decide (tensorOf x.vaddr = tensorOf y.vaddr)) && x.addrs.any (fun a => y.addrs.contains a)

/-- The access only reads its location. -/
def Access.reads (x : Access) : Bool :=
  match x.kind with
  | .load => true
  | .latticeLoad _ _ => true
  | .descriptor _ => true
  | .atomic op _ cas _ _ _ => decide (op = 10) && !cas
  | _ => false

/-- Two accesses name the same storage, through whatever aliases (R127). -/
def Access.overlaps (x y : Access) : Bool := (unitBytes x.unit x.addrs).any (fun a => (unitBytes y.unit y.addrs).any (fun b => memKey a = memKey b))

/-- Two accesses to the same flag, or two CSR instructions that name the same CSR (R130, R194). -/
def Access.sameRegister (x y : Access) : Bool :=
  match x.kind, y.kind with
  | .flagRead f, .flag g _ _ => f = g
  | .flagRead f, .flagRead g => f = g
  | .csr _ a _, .csr _ b _ => a = b
  | _, _ => false

/-- An earlier access of the strand must be performed first: an acquire, one to the same location, or for a read one of the same
storage through an alias, since a read never returns an older value than one its strand has read or written; and for an access of A the
version read of a DISPATCH, an acquire (R127, R130, R134, R194, R342). -/
def Core.heldBack (c : Core) (k : StrandKind) (x : Access) : Bool :=
  (decide (k = .a) && x.located && c.items.any (fun y => decide (y.num < x.id) && y.chosen.isNone)) || (c.out k).any (fun y => decide (y.id < x.id) && !y.performedAt 0
    && ((y.located && ((y.acquire && x.located) || (!x.loose && !y.loose && (y.meets x || (x.reads && y.overlaps x))))) || x.sameRegister y))

/-- The scope at which a release is ordered: CORE for a flag, the ring's or the group's, DEV for an event signal, DIE where it
is narrowed, else its location's (R134, R144, R145). -/
def State.releaseScope (s : State) (g : Nat) (x : Access) : Nat :=
  match x.kind, (s.core g).task with
  | .flag _ _ _, _ => 0
  | .publish r _, some t => (match s.launch? t.launch with
      | some l => (match l.rings[r]? with | some y => s.ringScope t.ctx y | none => 2)
      | none => 2)
  | .arrive gr, some t => s.groupScope t.launch gr
  | .event _ _, _ => 2
  | _, _ => if x.narrow then 1 else x.scope g

/-- A release waits until every earlier access of its strand is performed at its scope (R134, R140). -/
def State.releaseHeld (s : State) (g : Nat) (k : StrandKind) (x : Access) : Bool :=
  x.release && (((s.core g).out k).any (fun y => decide (y.id < x.id) && y.located && !y.performedAt (s.releaseScope g x)) || s.quaHeld g k)

/-- A store to CAIRNPUB is a release at DEV scope of every earlier write of its core (R342). -/
def State.publishHeld (s : State) (g : Nat) (x : Access) : Bool :=
  decide (x.route = .register) && x.addrs.any (fun a => decide (registerOf (paOffset a / 8 * 8) = some .cairnpub))
    && (((s.core g).outC ++ (s.core g).outA).any (fun y => decide (y.id < x.id) && y.located && !y.performedAt 2) || s.quaHeld g .c || s.quaHeld g .a)

/-- The access may be performed now. -/
def State.mayPerform (s : State) (g : Nat) (k : StrandKind) (x : Access) : Bool :=
  !(s.core g).heldBack k x && !s.releaseHeld g k x && !s.publishHeld g x

/-- A module that has stopped answers at its mailbox only (R384). -/
def State.muteAt (s : State) (bytes : List Nat) : Bool := s.mgmt.down && bytes.any (fun a => !((registerOf (paOffset a / 8 * 8)).map inMailbox).getD false)

/-! ### Ends of an access (R131) -/

/-- An access leaves the list; its slot clears with the last access of its instruction (R131). -/
def Core.retire (c : Core) (k : StrandKind) (x : Access) : Core :=
  let rest := (c.out k).filter (fun y => decide (y.id ≠ x.id))
  let c := c.setOut k rest
  if x.slotDone || rest.any (fun y => decide (y.grp = x.grp) && !y.slotDone) then c else c.clearSlot k x.slot

/-- The poison mark of an SPC read: set or cleared with its slot (R141). -/
def Core.spcMark (c : Core) (k : StrandKind) (slot : Nat) (marked : Bool) : Core :=
  let f (old : BitVec 7) : BitVec 7 := if marked then old ||| slotBit slot else old &&& ~~~ slotBit slot
  match k with
  | .a => { c with aspcp := f c.aspcp }
  | _ => { c with spcp := f c.spcp }

/-- R404: `new` is the core with an access's value delivered; each element of the destination in `keep` that was written since
the access issued keeps the later instruction's value instead. -/
def Core.keepLater (c new : Core) (x : Access) (keep : List Nat) : Core :=
  let was (i w : Nat) : Nat := x.was.toNat / 2 ^ (w * i) % 2 ^ w
  match x.dest with
  | .s r => if keep.contains 0 && decide ((c.getS r).toNat ≠ was 0 64) then new.setS r (c.getS r) else new
  | .sPair r =>
    let new := if keep.contains 0 && decide ((c.getS r).toNat ≠ was 0 64) then new.setS r (c.getS r) else new
    if keep.contains 1 && decide ((c.getS (r + 1)).toNat ≠ was 1 64) then new.setS (r + 1) (c.getS (r + 1)) else new
  | .a r => if keep.contains 0 && decide ((c.getA r).toNat ≠ was 0 64) then new.setA r (c.getA r) else new
  | .lanes v which =>
    let kept (i : Nat) : Bool := keep.contains i && which.contains i && decide (laneOf (c.getV v) i ≠ was i 32)
    if keep.any kept then new.setV v (vecOf (fun i => laneOf (if kept i then c.getV v else new.getV v) i)) else new
  | .slot _ => new
  | .none => new

/-- The elements of a destination that bits of `mask` name, their value, and what is left: an element is a register or a lane
(R132). None where the mask names no elements or all of them. -/
def Dest.split (d : Dest) (n v mask : Nat) : Option ((Dest × Nat × Nat) × (Dest × Nat × Nat)) :=
  match d with
  | .sPair r =>
    if mask % 4 = 1 then some ((.s r, 8, v % 2 ^ 64), (.s (r + 1), 8, v / 2 ^ 64))
    else if mask % 4 = 2 then some ((.s (r + 1), 8, v / 2 ^ 64), (.s r, 8, v % 2 ^ 64))
    else Option.none
  | .lanes r which =>
    let w := n / which.length
    let l := which.zip ((span 0 which.length).map (fun i => v / 2 ^ (8 * w * i) % 2 ^ (8 * w)))
    let a := l.filter (fun e => mask.testBit e.1)
    let b := l.filter (fun e => !mask.testBit e.1)
    if a.isEmpty || b.isEmpty then Option.none
    else some ((.lanes r (a.map (·.1)), w * a.length, joinUnits (8 * w) (a.map (·.2))), (.lanes r (b.map (·.1)), w * b.length, joinUnits (8 * w) (b.map (·.2))))
  | _ => Option.none

/-- The access completes with a value of `n` bytes: its destination, the mark of an SPC read, the flag of AMO and ACAS, the
flags of a returning FADD, its slot (R131, R141, R230, R267). -/
def State.endAccess (s : State) (g : Nat) (k : StrandKind) (x : Access) (n v : Nat) : State :=
  s.onCore g (fun c =>
    let c := c.keepLater (c.deliverTo x.dest n v) x s.ev.nums
    let c := if x.spc then c.spcMark k x.slot (x.route = .nowhere) else c
    let c := if k = .c ∧ x.dest ≠ .none then { c with fpst := c.fpst.accrue x.flags } else c
    (c.hwAdd x.flag 1).retire k x)

/-- Replace an access of the list. -/
def State.setAccess (s : State) (g : Nat) (k : StrandKind) (x : Access) : State :=
  s.onCore g (fun c => c.setOut k ((c.out k).map (fun y => if y.id = x.id then x else y)))

/-- The access to one of the two parts of its destination. -/
def Access.part (x : Access) (d : Dest) : Access :=
  { x with dest := d, was := match x.dest, d with | .sPair r, .s m => if m = r + 1 then x.was >>> 64 else x.was | _, _ => x.was }

/-- The value of an access has come: it completes, or where the event names only some elements of the destination (bits of its
second number) these are written now and the others later (R132). -/
def State.completeAccess (s : State) (g : Nat) (k : StrandKind) (x : Access) (n v : Nat) : State :=
  match x.dest.split n v s.ev.num2 with
  | some ((d, m, w), (e, i, u)) =>
    (s.onCore g (fun c => c.keepLater (c.deliverTo d m w) (x.part d) s.ev.nums)).setAccess g k
      { x.part e with phase := .landing i (BitVec.ofNat 1024 u) }
  | none => s.endAccess g k x n v

/-- The access ends with a fault: nothing is delivered, and its slot stays (R386, R418, R442). -/
def State.faultAccess (s : State) (g : Nat) (k : StrandKind) (x : Access) (cause : Nat) (addr data : Word) : State :=
  (s.onCore g (fun c => c.setOut k ((c.out k).filter (fun y => decide (y.id ≠ x.id))))).taskFault g k false cause x.pc addr data

/-! ### Reaching the bytes -/

/-- Byte addresses of an access. -/
def Access.bytes (x : Access) : List Nat := unitBytes x.unit x.addrs

/-- The PCI Express status with which a request to a byte of host memory ends: the error that awaits it, or where the link is down a
free value (R447; log entry 5). -/
def State.hostStatus (s : State) (a : Nat) : Option Word :=
  (s.upsets.findSome? (fun u => match u with | .hostError b w => if b = a then some w else none | _ => none)).orElse
    (fun _ => if s.host.linkUp then none else some (BitVec.ofNat 64 (Config.free s.freeCtr)))

/-- Why the bytes of a plain access cannot be reached: unmapped (R56), second tier gone (R448), a request to the host that ends (R447),
metadata lost (R417): cause, address, data. -/
def State.unreachable (s : State) (bytes : List Nat) : Option (Nat × Nat × Nat) :=
  match bytes.find? (fun a => decide (paSpace a = 1) && !s.host.tierUp) with
  | some a => some (0x6B, a, 0)
  | none => match bytes.find? (fun a => !s.mapped a) with
    | some a => some (0x26, a, 0)
    | none => match bytes.find? (fun a => decide (paSpace a = 2) && (s.hostStatus a).isSome) with
      | some a => some (0x60, a, 0)
      | none => (s.badMetadata bytes).map (fun a => (0x2D, a, 16))

/-- A byte of a replica's frame or of the register window lies outside its space's layout (R56). -/
def State.offLayout (s : State) (bytes : List Nat) : Option (Nat × Nat × Nat) :=
  (bytes.find? (fun a => decide (paChip a = s.chip) && !s.mapped a)).map (fun a => (0x26, a, 0))

/-- The access names a peer vault whose core neither runs nor holds staged a task of the issuing task's context (R52, R75). -/
def State.vaultClosed (s : State) (g : Nat) (x : Access) : Bool :=
  let h := vaultCore g x.vaddr
  !x.virtual && decide (x.route = .plain) && decide (h ≠ g) && !(s.core h).serves (s.ctxOn g)

/-- What comes with such a reason: lost metadata poisons its lines (R417), and a request to the host that ends has a record with
the PCI Express status (R447). -/
def State.noteUnreachable (s : State) (g : Nat) (e : Nat × Nat × Nat) : State :=
  if e.1 = 0x2D then s.spoilLines e.2.1
  else if e.1 = 0x60 then
    let w := (s.hostStatus e.2.1).getD 0
    { s.notice (dieOf g) 0x6A 0 w with freeCtr := s.freeCtr + 1, upsets := s.upsets.filter (fun u => decide (u ≠ .hostError e.2.1 w)) }
  else s

/-- A plain access ends for such a reason. -/
def State.endUnreachable (s : State) (g : Nat) (k : StrandKind) (x : Access) (e : Nat × Nat × Nat) : State :=
  let s := s.noteUnreachable g e
  s.faultAccess g k x e.1 (if e.1 = 0x26 then x.vaddr else BitVec.ofNat 64 e.2.1) (BitVec.ofNat 64 e.2.2)

/-- Bytes of a value at an access's units. -/
def Access.size (x : Access) : Nat := x.addrs.length * x.unit / 8

/-- A byte of a die's replica. -/
def Die.replicaByte (d : Die) (pa : Nat) : Nat := match d.granule? (granuleOf pa) with | some g => granuleBits g.value (pa % 64) 1 | none => 0
/-- A byte of a die's replica lies in a marked unit (R324). -/
def Die.replicaMarked (d : Die) (pa : Nat) : Bool := match d.granule? (granuleOf pa) with | some g => g.poison.contains (pa % 64 / 8) | none => false
/-- A die holds every granule of a list of bytes. -/
def Die.holds (d : Die) (bytes : List Nat) : Bool := bytes.all (fun a => (d.granule? (granuleOf a)).isSome)

/-! ### Poison on a load (R413, R418) -/

/-- Offset of unit `i` of an access from its address, in bytes. -/
def Access.offset (x : Access) (i : Nat) : Nat :=
  let b := i * x.unit / 8
  match x.dest with
  | .lanes _ which =>
    let w := x.size / which.length
    if w = 0 then b else 4 * (which.getD (b / w) 0 - which.headD 0) + b % w
  | _ => b

/-- Bytes of an element that an address unit belongs to. -/
def Access.elemBytes (x : Access) : Nat := if x.unit = 8 then max 1 (x.eb / 8) else 1

/-- The value of unit `i` of a substituted element: zero, or its part of PAD. -/
def Access.fillUnit (x : Access) (i : Nat) : Nat :=
  if x.pois = 1 then 0
  else if x.unit ≠ 8 then x.pad.toNat % 2 ^ x.unit
  else if x.eb < 8 then joinUnits x.eb ((span 0 (8 / x.eb)).map (fun _ => x.pad.toNat % 2 ^ x.eb))
  else x.pad.toNat / 2 ^ (8 * (x.addrs.getD i 0 % x.elemBytes)) % 256

/-- Units of an access whose elements are substituted, one per element. -/
def Access.badElems (x : Access) (bad : List Nat) : Nat :=
  ((bad.map (fun i => x.addrs.getD i 0 / x.elemBytes)).eraseDups).length * (if x.unit = 8 ∧ x.eb < 8 then 8 / x.eb else 1)

/-- The instruction's record of substitutions waits for its last access (R418). -/
def State.noteSubs (s : State) (g : Nat) (k : StrandKind) (x : Access) (n : Nat) (a : Word) : State :=
  let subs := x.subs + n
  let first := x.subs = 0 || decide (x.id < x.subId)
  let addr := if first then a else x.subAddr
  let id := if first then x.id else x.subId
  match ((s.core g).out k).find? (fun y => decide (y.grp = x.grp) && decide (y.id ≠ x.id)) with
  | some y => s.setAccess g k { y with subs := y.subs + subs, subId := if y.subs = 0 then id else min id y.subId,
                                       subAddr := if y.subs = 0 || decide (id < y.subId) then addr else y.subAddr }
  | none => s.taskFault g k false 0x2B x.pc addr (BitVec.ofNat 64 subs)

/-- Keep what earlier accesses of the instruction noted, where this one substitutes nothing. -/
def State.passSubs (s : State) (g : Nat) (k : StrandKind) (x : Access) : State := if x.subs = 0 then s else s.noteSubs g k x 0 x.subAddr

/-- The physical address of the check unit of a byte at a route: its CHIP is the page's, or this module's (R55, R437). -/
def State.unitAt (s : State) (r : Route) (a : Nat) : Nat :=
  match r with
  | .replica _ _ => s.chip * 2 ^ 52 + memKey a / 8 * 8
  | .remote _ => a / unitSize a * unitSize a
  | _ => s.unitAddr a

/-- Deliver the units of a load of which those at the `bad` positions are poisoned (R413, R418). -/
def State.deliverLoad (s : State) (g : Nat) (k : StrandKind) (x : Access) (vals : List Nat) (bad : List Nat) (array : Nat) : State :=
  match bad with
  | [] => (s.passSubs g k x).completeAccess g k x x.size (joinUnits x.unit vals)
  | i :: _ =>
    if !x.virtual || x.pois = 0 || x.pois = 3 then
      s.faultAccess g k x 0x2C (BitVec.ofNat 64 (s.unitAt x.route (x.bytes.getD i 0))) (BitVec.ofNat 64 array)
    else
      let at' : Word := x.vaddr + BitVec.ofNat 64 (x.offset i)
      match x.dest with
      | .lanes _ _ =>
        let vals := (span 0 vals.length).map (fun j => if bad.contains j then x.fillUnit j else vals.getD j 0)
        (s.noteSubs g k x (x.badElems bad) at').completeAccess g k x x.size (joinUnits x.unit vals)
      | _ => (s.noteSubs g k x 1 at').completeAccess g k x x.size (if x.pois = 1 then 0 else x.pad.toNat)

/-! ### Remote homes (R359, R440) -/

/-- Perform an access at another chip: the first event sends its request; once answered, `deliver` ends it with the bytes and the marked
positions, and an error reply ends it with a fault. -/
def State.remotely (s : State) (g : Nat) (k : StrandKind) (x : Access) (chip : Nat) (what : RequestKind)
    (deliver : State → List Byte → List Nat → State) : State :=
  match s.requestOf g k x.id with
  | none => (s.request g k x.id chip (x.bytes.headD 0) what false (s.launchOn g) x.pc).getD s
  | some r => match s.failure r with
    | some c => let w := s.errorWords r c x.vaddr; (s.dropRequest r).faultAccess g k x c w.1 w.2
    | none => match s.response r with
      | some b => deliver (s.dropRequest r) b r.marks
      | none => s

/-! ### The kinds of access -/

/-- An access that meets a closed peer vault ends with a vault protection fault (R52); an SPC read returns 0 with its mark (R141). -/
def State.refuseVault (s : State) (g : Nat) (k : StrandKind) (x : Access) : State :=
  if x.spc then s.setAccess g k { x with route := .nowhere, phase := .answered 0 } else s.faultAccess g k x 0x21 x.vaddr 0

/-- A load (R126, R222). -/
def State.performLoad (s : State) (g : Nat) (k : StrandKind) (x : Access) : State :=
  match x.route with
  | .nowhere => s.completeAccess g k x 8 0
  | .register =>
    match s.offLayout x.bytes with
    | some e => s.endUnreachable g k x e
    | none =>
      if s.muteAt x.bytes then s
      else if x.unit = 8 ∧ x.addrs.length = 8 ∧ x.addrs.headD 0 % 8 = 0 then
        s.completeAccess g k x 8 (s.readBar (paOffset (x.addrs.headD 0))).toNat
      else let (v, s) := s.takeFree; s.completeAccess g k x x.size (v % 2 ^ (8 * x.size))
  | .replica d _ =>
    let y := s.die d
    match s.offLayout x.bytes with
    | some e => s.endUnreachable g k x e
    | none =>
      if y.holds x.bytes then
        s.deliverLoad g k x (x.bytes.map y.replicaByte) ((span 0 x.addrs.length).filter (fun i => y.replicaMarked (x.bytes.getD i 0))) 4
      else s
  | .remote chip => s.remotely g k x chip (.load x.unit x.addrs)
      (fun s b bad => s.deliverLoad g k x ((span 0 x.addrs.length).map (fun i => leNat b / 2 ^ (x.unit * i) % 2 ^ x.unit)) bad
        (s.arrayOf (x.bytes.headD 0)))
  | .plain =>
    if s.vaultClosed g x then s.refuseVault g k x
    else match s.unreachable x.bytes with
    | some e => s.endUnreachable g k x e
    | none =>
      (s.observe g k x.bytes).deliverLoad g k x (x.addrs.map (s.readUnit x.unit))
        ((span 0 x.addrs.length).filter (fun i => s.poisoned (x.bytes.getD i 0))) (s.arrayOf (x.bytes.headD 0))

/-- A store (R126, R222). -/
def State.performStore (s : State) (g : Nat) (k : StrandKind) (x : Access) (bytes : List Byte) : State :=
  match x.route with
  | .register =>
    match s.offLayout x.bytes with
    | some e => s.endUnreachable g k x e
    | none => if s.muteAt x.bytes then s else (s.anyStore x.addrs bytes).completeAccess g k x 0 0
  | .remote chip => s.remotely g k x chip (.store x.unit x.addrs bytes []) (fun s _ _ => s.completeAccess g k x 0 0)
  | _ =>
    if s.vaultClosed g x then s.refuseVault g k x
    else match s.unreachable x.bytes with
    | some e => s.endUnreachable g k x e
    | none => ((s.storeUnits x.unit x.addrs (leNat bytes)).observe g k x.bytes).completeAccess g k x 0 0

/-- A join is applied at its die's replica: its slot clears, a saturating GCNT slot raises the lattice overflow, and except on
a HOME 0 page it stays until every replica has merged it (R131, R239, R241, R331). DEDUCED (log entry 108), unsafe: of R131 (the slot
clears when the join is performed) and the table of R224 (when the issuing die's replica has it) the model follows R224. -/
def State.performJoin (s : State) (g : Nat) (k : StrandKind) (x : Access) (lat : Nat) (v : BitVec 256) (die : Nat) : State :=
  let d := match x.route with | .replica d _ => d | _ => die
  let pa := x.addrs.headD 0
  let y := s.die d
  match s.offLayout x.addrs with
  | some e => s.endUnreachable g k x e
  | none =>
  if !y.holds x.addrs then s
  else match x.addrs.find? y.replicaMarked with
    | some a => s.faultAccess g k x 0x2C (BitVec.ofNat 64 (s.unitAt x.route a)) 4
    | none =>
      let c := match y.cell? lat pa with | some c => c | none => 0
      let t := s.joinAtDie d lat pa v.toNat die
      let t := if joinSaturates lat die v.toNat c then t.taskFault g k false 0x51 x.pc x.vaddr 0 else t
      if x.home = 0 then t.onCore g (fun c => c.retire k x)
      else (t.setAccess g k { x with phase := .applied, slotDone := true }).onCore g (fun c =>
        if (c.out k).any (fun z => decide (z.grp = x.grp) && !z.slotDone) then c else c.clearSlot k x.slot)

/-- A lattice load (R240, R242). The first after a restart waits for its exchange (R334). -/
def State.performLatticeLoad (s : State) (g : Nat) (k : StrandKind) (x : Access) (lat die : Nat) : State :=
  let y := s.die die
  let waits := match (s.core g).task with | some t => t.awaitExchange | none => false
  match s.offLayout x.addrs with
  | some e => s.endUnreachable g k x e
  | none =>
  if waits || !y.holds x.addrs then s
  else match x.addrs.find? y.replicaMarked with
    | some a => s.faultAccess g k x 0x2C (BitVec.ofNat 64 (s.unitAt x.route a)) 4
    | none => match y.cell? lat (x.addrs.headD 0) with
      | some c => s.completeAccess g k x 32 (cellValue lat c)
      | none => s

/-! ### Atomics at their units (R137 to R141, R228, R230) -/

/-- What one atomic makes of the cell's value. -/
def atomicNew (op ty : Nat) (cas : Bool) (operand expected : BitVec 128) (m : Nat) : Nat × Flags :=
  if cas then (if m = expected.toNat % 2 ^ (8 * atomicBytes ty) then operand.toNat % 2 ^ (8 * atomicBytes ty) else m, 0)
  else atomicStored op ty m operand.toNat

/-- The unit where an access's atomic executes (R228). -/
def Access.unitOf (x : Access) : AtomicUnit := unitFor (x.bytes.headD 0) (if x.virtual then x.home else 1)

/-- How many stores to a location back the value that a NOR read returns stands: 0 for the present one (R138). -/
def State.norDepth (s : State) (g : Nat) (k : StrandKind) (x : Access) : Nat :=
  if s.ev.flag && decide (x.unit = 8) && (pastBytes g k (x.issuedAt - 20000) x.addrs s.ev.num2 s.past (s.load x.addrs)).isSome then s.ev.num2 else 0

/-- A strand has observed the value that bytes held before the last `n` stores to them: what they held before that is too old for it
(R127, R138). -/
def observeFrom (g : Nat) (k : StrandKind) (addrs : List Nat) : Nat → List Past → List Past
  | _, [] => []
  | n, p :: ps =>
    if p.keys.any (fun a => addrs.any (fun b => decide (memKey b = a))) then
      match n with
      | 0 => (if p.seen.contains (g, k) then p else { p with seen := (g, k) :: p.seen }) :: observeFrom g k addrs 0 ps
      | m + 1 => p :: observeFrom g k addrs m ps
    else p :: observeFrom g k addrs n ps

/-- What a NOR read returns: the present value `m`, or where the event asks for an older one the value that the location held before
its last `num2` stores, no earlier than the strand's last observation of it and 20 µs before the read issued (R138). -/
def State.norValue (s : State) (g : Nat) (k : StrandKind) (x : Access) (m : Nat) : Nat :=
  if s.ev.flag && decide (x.unit = 8) then
    (match pastBytes g k (x.issuedAt - 20000) x.addrs s.ev.num2 s.past (s.load x.addrs) with
     | some l => leNat l
     | none => m)
  else m

/-- One atomic at its unit: the result stands with the access until it completes (R228). The flags of an FADD that returns a value
go with it, others to the unit's status, which is at the home (R230). -/
def State.executeAtomic (s : State) (g : Nat) (k : StrandKind) (x : Access) : State :=
  match x.kind with
  | .atomic op ty cas operand expected use =>
    let n := atomicBytes ty
    let returns := decide (x.dest ≠ .none) && decide (k = .c)
    match x.route with
    | .nowhere => s.setAccess g k { x with phase := .answered 0 }
    | .replica d _ =>
      let y := s.die d
      match s.offLayout x.bytes with
      | some e => s.endUnreachable g k x e
      | none =>
        if !y.holds x.addrs then s
        else match x.addrs.find? y.replicaMarked with
          | some a => s.faultAccess g k x 0x2C (BitVec.ofNat 64 (s.unitAt x.route a)) 4
          | none => s.setAccess g k { x with phase := .answered (BitVec.ofNat 256 (joinUnits 8 (x.addrs.map y.replicaByte))) }
    | .remote chip => s.remotely g k x chip (.atomic op ty cas operand expected x.unit x.addrs (if x.virtual then x.home else 1) (s.ctxOn g) returns)
        (fun s b _ => s.setAccess g k { x with phase := .answered (BitVec.ofNat 256 (leNat (b.take n)))
                                               flags := if returns then BitVec.ofNat 5 (leNat (b.drop n)) else 0 })
    | _ =>
      if s.vaultClosed g x then s.refuseVault g k x
      else match s.unreachable x.bytes with
      | some e => s.endUnreachable g k x e
      | none => match s.firstPoison x.bytes with
        | some a => s.faultAccess g k x 0x2C (BitVec.ofNat 64 (s.unitAddr a)) (BitVec.ofNat 64 (s.arrayOf a))
        | none =>
          let m := s.loadUnits x.unit x.addrs
          let read := op = 10 && !cas
          let seen := if use = 2 && read then s.norValue g k x m else m
          let r := atomicNew op ty cas operand expected m
          let s := if use = 2 && read then { s with past := observeFrom g k x.bytes (s.norDepth g k x) s.past }
            else (if read then s else s.storeUnits x.unit x.addrs r.1).observe g k x.bytes
          let s := if returns then s else s.accrueUnit x.unitOf (s.ctxOn g) r.2
          s.setAccess g k { x with phase := .answered (BitVec.ofNat 256 seen), flags := if returns then r.2 else 0 }
  | _ => s

/-- Operands that a merge tree names (R139). -/
def mergeLeaves : MergeTree → List (Nat × StrandKind × Nat)
  | .cell => []
  | .op g k id => [(g, k, id)]
  | .node l r => mergeLeaves l ++ mergeLeaves r
/-- How often a tree names the cell. -/
def mergeCells : MergeTree → Nat
  | .cell => 1
  | .op _ _ _ => 0
  | .node l r => mergeCells l + mergeCells r

/-- An outstanding access by core, strand and number. -/
def State.access? (s : State) (e : Nat × StrandKind × Nat) : Option Access := ((s.core e.1).out e.2.1).find? (fun x => x.id = e.2.2)

/-- The value and flags of a tree over old value `m`. -/
def State.treeValue (s : State) (op ty m : Nat) : MergeTree → Nat × Flags
  | .cell => (m, 0)
  | .op g k id => (match s.access? (g, k, id) with
      | some x => (match x.kind with | .atomic _ _ _ v _ _ => (v.toNat % 2 ^ (8 * atomicBytes ty), 0) | _ => (0, 0))
      | none => (0, 0))
  | .node l r =>
    let a := s.treeValue op ty m l
    let b := s.treeValue op ty m r
    let c := atomicStored op ty a.1 b.1
    (c.1, a.2 ||| b.2 ||| c.2)

/-- Several COM atomics of one kind on one location reach it as one step (R138, R139); at the host they do not merge (R229). -/
def State.executeMerged (s : State) (t : MergeTree) : State :=
  let es := mergeLeaves t
  match es.head?.bind s.access? with
  | none => s
  | some x =>
    let same (e : Nat × StrandKind × Nat) : Bool := match s.access? e with
      | some y => (match x.kind, y.kind with
        | .atomic op ty _ _ _ 1, .atomic op' ty' _ _ _ 1 => decide (op = op') && decide (ty = ty') && decide (y.addrs = x.addrs) && decide (y.unit = x.unit)
            && decide (y.phase = .issued) && s.mayPerform e.1 e.2.1 y
        | _, _ => false)
      | none => false
    match x.kind with
    | .atomic op ty _ _ _ _ =>
      let closed (e : Nat × StrandKind × Nat) : Bool := match s.access? e with | some y => s.vaultClosed e.1 y | none => true
      if mergeCells t ≠ 1 || !es.all same || decide (es.eraseDups.length ≠ es.length) || x.route ≠ .plain
          || decide (paSpace (x.bytes.headD 0) = 2) || es.any closed || (s.unreachable x.bytes).isSome || (s.firstPoison x.bytes).isSome then s
      else
        let r := s.treeValue op ty (s.loadUnits x.unit x.addrs) t
        let s := (s.storeUnits x.unit x.addrs r.1).accrueUnit x.unitOf (s.ctxOn (es.headD (0, .c, 0)).1) r.2
        es.foldl (fun s e => match s.access? e with
          | some y => s.setAccess e.1 e.2.1 { y with phase := .answered 0 }
          | none => s) s
    | _ => s

/-- A QUA add is held in its die's pending sum and completes (R131, R140); one for a peer vault that has closed is refused (R52). -/
def State.holdAtomic (s : State) (g : Nat) (k : StrandKind) (x : Access) (ty : Nat) (v : BitVec 128) : State :=
  let q : Qua := { addrs := x.addrs, ty := ty, sum := v.toNat % 2 ^ (8 * atomicBytes ty), home := x.home, from_ := [(g, k, s.launchOn g)],
                   route := x.route, unit := x.unit, pc := x.pc, ctx := s.ctxOn g }
  if s.vaultClosed g x then s.refuseVault g k x else (s.completeAccess g k x 0 0).holdQua (dieOf g) q

/-! ### Events -/

/-- A CSR instruction is performed: its read and its write in one step, then its destination and slot (R193, R194). -/
def State.performCsr (s : State) (g : Nat) (k : StrandKind) (x : Access) (op a : Nat) (w : Word) : State :=
  let old := s.readCsr g a
  (s.onCore g (fun c => if op = 0 then c else c.writeCsr a (csrValue op old w))).completeAccess g k x 8 old.toNat

/-- Perform or complete one access as its kind says. -/
def State.performAccess (s : State) (g : Nat) (k : StrandKind) (x : Access) : State :=
  match x.kind, x.phase with
  | _, .landing n v => s.completeAccess g k x n v.toNat
  | .csr op a w, .issued => s.performCsr g k x op a w
  | .flagRead f, .issued => s.completeAccess g k x 8 ((s.core g).getF f).toNat
  | .ringInfo r, .issued =>
    (match (s.launch? (s.launchOn g)).bind (fun l => l.rings[r]?) with
     | some y => s.completeAccess g k x 8 y.info.toNat
     | none => s)
  | .streamStatus n, .issued => s.completeAccess g k x 8 ((s.core g).statusA n).toNat
  | .descriptor _, .issued => s.completeAccess g k x 0 0
  | .load, .issued => s.performLoad g k x
  | .store b, .issued => s.performStore g k x b
  | .atomic _ ty _ v _ use, .issued => if use = 3 then s.holdAtomic g k x ty v else s
  | .atomic _ ty _ _ _ _, .answered r =>
    if x.spc && decide (((s.core g).sb k &&& x.waits &&& ~~~ slotBit x.slot) ≠ 0) then s else s.completeAccess g k x (atomicBytes ty) r.toNat
  | .join lat v die, .issued => s.performJoin g k x lat v die
  | .latticeLoad lat die, .issued => s.performLatticeLoad g k x lat die
  | .flag f set v, .issued =>
    s.onCore g (fun c =>
      let c := c.flagTurn (2 + strandNum k)
      (((c.keepLater (c.deliverTo x.dest 8 (c.getF f).toNat) x s.ev.nums).changeFlag f set v).retire k x))
  | .publish r i, .issued => (s.publishSlot (s.launchOn g) r i).onCore g (fun c => c.retire k x)
  | .arrive gr, .issued =>
    (match (s.core g).task with
     | some t => (match s.rankIn t gr kindBarrier with
       | some rank => ((s.onCore g (fun c => (c.keepLater (c.deliverTo x.dest 8 (s.episode t.launch gr).toNat) x s.ev.nums).retire k x))).arrive t.launch gr rank none
       | none => s)
     | none => s)
  | .event code v, .issued =>
    (s.setAccess g k { x with phase := .answered 0 }).enter
      { s.taskRecord g k false 0x84 0 x.pc (code.setWidth 64) v with evsig := some (g, x.id) }
  | _, _ => s

/-- MEMORY_ACCESS_COMPLETION (R131). -/
def execMemoryAccessCompletion (s : State) : Result :=
  .next (match s.access? (s.ev.core, s.ev.strand, s.ev.num) with
    | some x => if x.phase ≠ .issued || s.mayPerform s.ev.core s.ev.strand x then s.performAccess s.ev.core s.ev.strand x else s
    | none => s)

/-- ATOMIC_EXECUTE (R228, R139): alone, or merged as the tree says. -/
def execAtomicExecute (s : State) : Result :=
  .next (if 1 < (mergeLeaves s.ev.tree).length then s.executeMerged s.ev.tree
    else match s.access? (s.ev.core, s.ev.strand, s.ev.num) with
      | some x => (match x.kind with
        | .atomic _ _ _ _ _ use =>
          if use ≠ 3 && decide (x.phase = .issued) && s.mayPerform s.ev.core s.ev.strand x then s.executeAtomic s.ev.core s.ev.strand x else s
        | _ => s)
      | none => s)

/-- QUA_PENDING_FLUSH (R140): 4 µs after the first increment held; a sum on its way to another chip lands when its response is
there. -/
def execQuaPendingFlush (s : State) : Result :=
  .next (match (s.die s.ev.num).qua[s.ev.num2]? with
    | some q =>
      if q.flying then s.settleRequests
      else if q.since + 4000 ≤ (s.die s.ev.num).time.toNat then s.flushQua s.ev.num q else s
    | none => s)

/-- The head of a queue is the fence entry of a QFENCE. -/
def atFence {α : Type} (id : Nat) : List (Entry α) → Bool
  | .fence i :: _ => i = id
  | _ => false

/-- A named queue has reached the fence entry and performed everything before it (R143). BCASTs count until they are done. -/
def State.fenceReached (s : State) (g id q : Nat) : Bool :=
  let c := s.core g
  if q = 0 then atFence id c.tq
  else if q < 9 then atFence id (c.channel (q - 1)).queue
  else if q = 9 then atFence id c.sq
  else if q = 10 then atFence id c.bq && s.bcastsDone g
  else if q = 11 then atFence id c.mq
  else atFence id c.oq

/-- A queue passes its fence entry; a passed fence of M or O closes the command window (R389). -/
def Core.passFence (c : Core) (q : Nat) : Core :=
  if q = 0 then { c with tq := c.tq.tail }
  else if q < 9 then c.setChannel (q - 1) (let x := c.channel (q - 1); { x with queue := x.queue.tail })
  else if q = 9 then c.popSend
  else if q = 10 then { c with bq := c.bq.tail }
  else if q = 11 then ({ c with mq := c.mq.tail } : Core).closeMwin
  else ({ c with oq := c.oq.tail } : Core).closeOwin

/-- QFENCE_PASS (R143). -/
def execQfencePass (s : State) : Result :=
  let g := s.ev.core
  .next (match (s.core g).fences.find? (fun x => x.id = s.ev.num) with
    | some x =>
      if x.queues.all (s.fenceReached g x.id) then
        s.onCore g (fun c => ((x.queues.foldl Core.passFence { c with fences := c.fences.filter (fun y => decide (y.id ≠ x.id)) }).clearSlot .c x.slot))
      else s
    | none => s)

end Sys2Proof.Machine
end

