-- ==== Sys2Proof/Machine/Exchange.lean ====
section
/-! DEFINITION. Lattice granules on their way between dies, Keystone and other chips, what a join's performance waits for, and the
parked-load limit (R324 to R335, R426 to R429). -/

namespace Sys2Proof.Machine

/-! ### Joins on their way (R331) -/

/-- Apply a function to every outstanding access of the module, those of ended tasks included; none removes it. -/
def State.mapJoins (s : State) (f : Access → Option Access) : State :=
  let s := s.mapCores (fun _ c => { c with outC := c.outC.filterMap f, outA := c.outA.filterMap f })
  { s with launches := s.launches.map (fun l => { l with left := l.left.filterMap f }) }

/-- The granule that an access's first address lies in. -/
def Access.granule (x : Access) : Nat := granuleOf (x.addrs.headD 0)
/-- The die at whose replica a join is applied. -/
def Access.joinDie (x : Access) : Option Nat :=
  match x.kind, x.route with
  | .join _ _ _, .replica d _ => some d
  | _, _ => none

/-- Dies that hold a granule. -/
def State.holders (s : State) (k : Nat) : List Nat := (s.dies.filter (fun e => (e.2.granule? k).isSome)).map (·.1)

/-- The pod period Q in ns. -/
def Flow.podPeriod (f : Flow) : Nat := max 1 f.pper.toNat
/-- Pod time: the TIME of the pod's lowest chip ID, 0, by the port processors' table (R328). -/
def State.podTime (s : State) : Nat := s.timeAt 0

/-- The pod diameter D (R329). -/
def State.diameter (s : State) : Nat := let (x, y, z) := s.extents; x / 2 + y / 2 + z / 2

/-- D + 1 whole pod periods have ended since a moment of pod time (R331). -/
def State.podPassed (s : State) (since : Nat) : Bool :=
  let q := s.flow.podPeriod
  decide ((since + q - 1) / q + s.diameter + 1 ≤ s.podTime / q)

/-- A join whose pod periods have ended waits for the dies again, and still for those of its DEV scope; a risen loss epoch restarts its
count (R331, R428). -/
def State.advancePod (s : State) (x : Access) : Access :=
  match x.phase with
  | .podWait since e l =>
    if e ≠ s.flow.epoch then { x with phase := .podWait s.podTime s.flow.epoch l }
    else if s.podPassed since then { x with phase := .podDone s.keystoneTime (s.holders x.granule) l }
    else x
  | _ => x

/-- Every holding die of the pod's other chips has completed an exchange that began after a moment, as those chips have told (R331; log
entry 60). -/
def State.othersExchanged (s : State) (since : Nat) : Bool := decide (s.diameter = 0) || decide (since ≤ s.flow.othersAt)

/-- Die `d` has completed an exchange: a join that waited for it last is performed and goes (R331). -/
def State.exchangedAt (s : State) (d : Nat) (x : Access) : Option Access :=
  let rest (l : List Nat) : List Nat := l.filter (fun e => decide (e ≠ d) && (s.holders x.granule).contains e)
  match x.phase with
  | .merged l => if (rest l).isEmpty then none else some { x with phase := .merged (rest l) }
  | .podWait t e l => some { x with phase := .podWait t e (rest l) }
  | .podDone t l e => if (rest l).isEmpty && (rest e).isEmpty && s.othersExchanged t then none else some { x with phase := .podDone t (rest l) (rest e) }
  | _ => some x

/-- Keystone has merged what die `d` sent: its applied joins go on to their next wait. -/
def State.mergedAt (s : State) (d : Nat) (x : Access) : Access :=
  if x.phase = .applied ∧ x.joinDie = some d then
    { x with phase := if x.home = 2 then .podWait s.podTime s.flow.epoch (s.holders x.granule) else .merged (s.holders x.granule) }
  else x

/-! ### Exchange of a die with Keystone (R325, R427) -/

/-- Mark units of Keystone's copy. -/
def State.markKeystone (s : State) (k : Nat) (l : List Nat) : State :=
  if paChip (64 * k) = s.chip then s.markAll (l.map (fun u => 64 * k + 8 * u))
  else { s with flow := { s.flow with shadow := s.flow.shadow.map (fun e => if e.1 = k then (e.1, { e.2 with poison := (e.2.poison ++ l).eraseDups }) else e) } }

/-- Granules that a die sends in step 1: those into which it has joined. -/
def Die.goingUp (x : Die) : List (Nat × Granule) := x.granules.filter (fun e => e.2.dirty && !e.2.home0)
/-- Granules that Keystone sends in step 2: those that the die holds and that have changed. -/
def Die.comingDown (x : Die) : List (Nat × Granule) := x.granules.filter (fun e => e.2.stale && !e.2.home0)

/-- Step 1: a die sends the granules into which it has joined. -/
def State.carryUp (s : State) (d : Nat) : State :=
  let s := (s.die d).goingUp.foldl (fun s e => (s.mergeAtKeystone e.1 e.2.lat e.2.pod e.2.value).markKeystone e.1 e.2.poison) s
  s.onDie d (fun x => { x with granules := x.granules.map (fun e => if e.2.home0 then e else (e.1, { e.2 with dirty := false })) })

/-- Step 2: Keystone sends the granules that the die holds and that have changed since its last exchange. -/
def State.carryDown (s : State) (d : Nat) : State :=
  (s.die d).comingDown.foldl (fun s e =>
    match s.keystone? e.1 with
    | some v =>
      let marks := s.keystoneMarks e.1
      (s.onDie d (fun x => match x.granule? e.1 with
        | some g => x.setGranule e.1 { g with stale := false, poison := (g.poison ++ marks).eraseDups }
        | none => x)).mergeAtDie d e.1 v
    | none => s) s

/-- One exchange of a die. A transfer that fails four times abandons it with a record (R427). -/
def State.exchange (s : State) (d : Nat) : State :=
  if s.upsets.any (fun u => u = .badExchange d) then
    ({ s with upsets := s.upsets.erase (.badExchange d) }).notice d 0x54 (BitVec.ofNat 64 d) s.flow.epoch
  else
    let s := s.mapJoins (fun x => some (s.advancePod x))
    let s := (s.carryUp d).carryDown d
    let s := s.mapJoins (s.exchangedAt d)
    let s := s.mapJoins (fun x => some (s.mergedAt d x))
    s.onDie d (fun x => { x with exg := x.exg + 1 })

/-- Exchanges of a die until one is not abandoned (R335, R427). -/
def State.exchangeWhole (s : State) (d : Nat) : Nat → State
  | 0 => s.exchange d
  | n + 1 => if s.upsets.any (fun u => u = .badExchange d) then (s.exchange d).exchangeWhole d n else s.exchange d

/-- The die that the next rotation slot serves: slot j of period r serves die (r + j) mod 8 (R325). -/
def Flow.turn (f : Flow) : Nat := (f.slot / 8 + f.slot % 8) % 8
/-- When the next slot begins, in sixteenths of a ns: slot k at k × P / 8, or as the exchange before it ends (R325, R326). -/
def Flow.due (f : Flow) : Nat := max (2 * f.slot * f.period) f.runs

/-- DIE_EXCHANGE_SLOT (R325, R326): the next slot, once it has begun. Each direction moves one granule per kcy, 5/16 ns. -/
def execDieExchangeSlot (s : State) : Result :=
  let d := s.flow.turn
  let start := s.flow.due
  .next (if s.ev.num ≠ d ∨ 16 * s.keystoneTime < start then s
    else
      let moved := max (s.die d).goingUp.length ((s.carryUp d).die d).comingDown.length
      let t := s.exchange d
      { t with flow := { t.flow with slot := t.flow.slot + 1, runs := start + 5 * moved, runDie := d }.switch })

/-- IMMEDIATE_EXCHANGE (R327): once no exchange of the die runs; the one that a discard or a restarted task of the die waits for is
done (R334). -/
def execImmediateExchange (s : State) : Result :=
  let d := s.ev.num
  .next (
    if !(s.die d).immediate || (decide (s.flow.runDie = d) && decide (16 * s.keystoneTime < s.flow.runs)) then s
    else if s.upsets.any (fun u => u = .badExchange d) then s.exchange d
    else
      ((s.exchange d).onDie d (fun x => { x with immediate := false })).mapCores (fun g c =>
        if dieOf g = d then c.onTask (fun t => { t with awaitExchange := false }) else c))

/-! ### Obtaining a granule (R324) -/

/-- What asks for a granule at a die: its lattice type and HOME. -/
def State.wantedGranule (s : State) (d k : Nat) : Option (Nat × BitVec 2) :=
  match (s.die d).parked.find? (fun p => granuleOf p.cell = k), (s.die d).wanted.find? (fun e => e.1 = k) with
  | some p, _ => some (p.lat, p.home)
  | none, some e => some (e.2.1, e.2.2)
  | none, none => s.cores.findSome? (fun c => (c.2.outC ++ c.2.outA).findSome? (fun x =>
      match x.route with
      | .replica e lat => if e = d ∧ x.bytes.any (fun a => granuleOf a = k) then some (lat, x.home) else none
      | _ => none))

/-- A fetch meets lost metadata: its lines are poisoned, and the launches whose accesses on the die wait for the granule fail (R417). -/
def State.fetchSpoiled (s : State) (d k : Nat) : State :=
  let a := s.chip * 2 ^ 52 + memKey (64 * k) / 4096 * 4096
  let found := s.cores.flatMap (fun c => if dieOf c.1 ≠ d then [] else ([StrandKind.c, .a]).flatMap (fun q =>
    ((c.2.out q).filter (fun x => decide (x.phase = .issued) && x.bytes.any (fun b => decide (granuleOf b = k)))).map (fun x => (c.1, q, x))))
  found.foldl (fun s e => s.faultAccess e.1 e.2.1 e.2.2 0x2D (BitVec.ofNat 64 a) 16) (s.spoilAt (span (64 * k) 64))

/-- GRANULE_FETCH (R324): with Keystone's value and marks; loads parked on it are tested (R332). A granule that Keystone does not
hold yet is asked of its home chip. -/
def execGranuleFetch (s : State) : Result :=
  let d := s.ev.num
  let k := granuleOf s.ev.num2
  .next (match s.wantedGranule d k with
    | none => s
    | some (lat, home) =>
      if ((s.die d).granule? k).isSome || s.tableLost (64 * k) 64 then s
      else if (s.badMetadata (span (64 * k) 64)).isSome then s.fetchSpoiled d k
      else match s.keystone? k with
        | some v =>
          let marks := s.keystoneMarks k
          ((s.know k lat).onDie d (fun x =>
            { x.setGranule k { lat := lat, value := v, home0 := home = 0, pod := home = 2, poison := marks } with
              wanted := x.wanted.filter (fun e => decide (e.1 ≠ k)) })).testParked d
        | none => s.askHome k lat)

/-- A granule that another chip's Keystone sent is merged; one that this chip does not hold becomes its replica, which it owes to its
other neighbours (R324, R328). -/
def State.mergeFrom (s : State) (p : Packet) : State :=
  let k := granuleOf p.addr
  let v := BitVec.ofNat 512 (leNat p.payload)
  let s := if (s.keystone? k).isSome then s.mergeAtKeystone k p.wire true v else s.setKeystone k p.wire true v
  (s.know k p.wire).markKeystone k p.marks

/-- A granule of Keystone's replica as a packet's content. -/
def State.granulePacket (s : State) (kind : PacketKind) (dst k lat step offset : Nat) : Packet :=
  { kind := kind, src := 0, dst := dst, addr := 64 * k, wire := lat, step := step, offset := offset, marks := s.keystoneMarks k,
    payload := match s.keystone? k with | some v => leBytes 64 v.toNat | none => [] }

/-- A fetch from another chip: the home chip's Keystone replica goes back with its marks (R324). -/
def State.serveFetch (s : State) (p : Packet) : State :=
  let k := granuleOf p.addr
  if paChip p.addr ≠ s.chip then s
  else
    let s := s.spoilAt (span (64 * k) 64)
    (s.know k p.wire).injectControl (s.granulePacket .granule p.src k p.wire 0 0)

/-- The answer to a fetch: the chip's replica takes its first value, which it owes to its neighbours, and Mason's joins that waited for it
are applied (R324, R328, R329, R372). -/
def State.takeGranule (s : State) (p : Packet) : State :=
  let k := granuleOf p.addr
  let s := { s with flow := { s.flow with asked := s.flow.asked.filter (fun a => decide (a ≠ k)) } }
  let s := s.mergeFrom p
  let owed := s.mason.owed.filter (fun e => decide (granuleOf e.1 = k))
  owed.foldl (fun s e => s.joinReplica e.2.1 e.1 true e.2.2.1 e.2.2.2) (s.onMason (fun m => { m with owed := m.owed.filter (fun e => decide (granuleOf e.1 ≠ k)) }))

/-- HOME0_WRITEBACK (R426): once per ms, the frame takes the copy, with its marks. -/
def execHome0Writeback (s : State) : Result :=
  let d := s.ev.num
  let k := granuleOf s.ev.num2
  .next (match (s.die d).granule? k with
    | some g =>
      let now := (s.die d).time.toNat
      if !g.home0 || (g.wroteAt.map (fun t => decide (now < t + 1000000))).getD false then s
      else ((s.store (span (64 * k) 64) (leBytes 64 g.value.toNat)).markAll (g.poison.map (fun u => 64 * k + 8 * u))).onDie d
        (fun x => x.setGranule k { g with dirty := false, wroteAt := some now })
    | none => s)

/-! ### The pod (R328, R428) -/

/-- The direction of this chip's partner in the phase of direction δ, if it takes an exchange: even chips go in δ, odd ones meet
them. -/
def State.podPartner (s : State) (dir : Nat) : Option Nat :=
  let (c, n) := s.axis dir
  let side := if c % 2 = 0 then dir else if dir % 2 = 0 then dir + 1 else dir - 1
  let p := if side % 2 = 0 then (c + 1) % n else (c + n - 1) % n
  if n = 1 ∨ 6 ≤ dir ∨ p % 2 = c % 2 then none
  else if (s.fabric.port (4 * side)).state = .up then some side else none

/-- The phase of pod time now, counted from 0: phase j of period r is 6 r + j (R328). -/
def State.podPhase (s : State) : Nat := 6 * s.podTime / s.flow.podPeriod
/-- The direction of a phase: (r + j) mod 6 (R328). -/
def phaseDir (m : Nat) : Nat := (m / 6 + m % 6) % 6
/-- Pod time at which a phase ends. -/
def Flow.phaseEnd (f : Flow) (m : Nat) : Nat := ((m + 1) * f.podPeriod + 5) / 6

/-- This chip's coordinate along a phase's axis is even: it opens the exchange (R328). -/
def State.opens (s : State) (m : Nat) : Bool := decide ((s.axis (phaseDir m)).1 % 2 = 0)

/-- The lattice type of a granule that Keystone holds. -/
def State.latOf (s : State) (k : Nat) : Nat :=
  if paChip (64 * k) = s.chip then look 0 s.flow.known k
  else match s.flow.shadow.find? (fun e => e.1 = k) with | some e => e.2.lat | none => 0

/-- Change an exchange. -/
def State.onPod (s : State) (m side : Nat) (f : PodExchange → PodExchange) : State :=
  { s with flow := { s.flow with pods := s.flow.pods.map (fun x => if x.phase = m ∧ x.side = side then f x else x) } }
/-- An exchange leaves. -/
def State.dropPod (s : State) (x : PodExchange) : State := { s with flow := { s.flow with pods := s.flow.pods.erase x } }

/-- Send what is owed to a side with its announcement: the request of an exchange (step 1), or the answer (step 2), with the number of
granules and the loss epoch. The granules count as owed no more, unless the exchange is lost (R328, R428). -/
def State.sendPod (s : State) (m side step : Nat) : State :=
  let ks := (s.flow.podDirty.filter (fun e => decide (e.2 = side))).map (fun e => e.1)
  let dst := s.neighbour side
  let t := s.injectControl { kind := .control, src := 0, dst := dst, addr := ks.length, step := step, offset := m, payload := leBytes 8 s.flow.epoch.toNat }
  let t := ks.foldl (fun s k => s.injectControl (s.granulePacket .control dst k (s.latOf k) 0 m)) t
  ({ t with flow := { t.flow with podDirty := t.flow.podDirty.filter (fun e => decide (e.2 ≠ side)) } }).onPod m side (fun x => { x with sent := ks })

/-- An exchange of a phase begins at this chip. -/
def State.beginPod (s : State) (m side : Nat) : State :=
  { s with flow := { s.flow with phase := m + 1, pods := s.flow.pods ++ [{ phase := m, side := side, began := s.podTime }] } }

/-- POD_EXCHANGE_PHASE (R328): once in each phase; the even chip sends its request and its granules, the odd one awaits them. -/
def execPodExchangePhase (s : State) : Result :=
  let m := s.podPhase
  .next (if s.flow.phase = m + 1 then s
    else match s.podPartner (phaseDir m) with
      | none => { s with flow := { s.flow with phase := m + 1 } }
      | some side => let t := s.beginPod m side; if s.opens m then t.sendPod m side 1 else t)

/-- An exchange whose announcement and granules have all come: the even chip confirms it, and it is complete; the odd one answers
once (R328). -/
def State.settlePod (s : State) (m side : Nat) : State :=
  match s.flow.pods.find? (fun x => decide (x.phase = m) && decide (x.side = side)) with
  | none => s
  | some x =>
    if !x.heard || decide (x.got < x.need) then s
    else if s.opens m then (s.injectControl { kind := .control, src := 0, dst := s.neighbour side, step := 3, offset := m }).dropPod x
    else if x.replied then s
    else (s.onPod m side (fun x => { x with replied := true })).sendPod m side 2

/-- The side on which a packet of an exchange finds it at this chip: one begun, or one of the present phase, or of one that ended at
most Q/24 ago (R328). -/
def State.podSide (s : State) (p : Packet) : Option Nat :=
  match s.flow.pods.find? (fun x => decide (x.phase = p.offset) && decide (s.neighbour x.side = p.src)) with
  | some x => some x.side
  | none => match s.podPartner (phaseDir p.offset) with
    | some side =>
      if !s.opens p.offset && decide (s.neighbour side = p.src) && decide (p.step < 2) && decide (s.flow.phase ≤ p.offset)
          && (decide (s.podPhase = p.offset) || (decide (s.flow.phaseEnd p.offset ≤ s.podTime)
            && decide (24 * s.podTime ≤ 24 * s.flow.phaseEnd p.offset + s.flow.podPeriod))) then some side else none
    | none => none

/-- The loss epoch is a MAX64 value that every exchange merges (R428). -/
def State.mergeEpoch (s : State) (e : Nat) : State :=
  { s with flow := { s.flow with epoch := BitVec.ofNat 64 (max s.flow.epoch.toNat e) } }

/-- A packet of a pod exchange arrives: a granule is merged and counted, a request or an answer announces how many come, and a
confirmation completes the odd chip's part (R328). A request that this chip does not serve receives no answer. -/
def State.podPacket (s : State) (p : Packet) : State :=
  if p.step = 4 then s.mergeFrom p
  else if p.step = 5 then { s with flow := { s.flow with merged := if s.flow.merged.contains (p.addr, p.src) then s.flow.merged else s.flow.merged ++ [(p.addr, p.src)] } }
  else match s.podSide p with
    | none => s
    | some side =>
      let s := if s.flow.pods.any (fun x => decide (x.phase = p.offset) && decide (x.side = side)) then s else s.beginPod p.offset side
      let late := !s.opens p.offset && decide (p.step = 1) && decide (24 * s.flow.phaseEnd p.offset + s.flow.podPeriod < 24 * s.podTime)
      match p.step with
      | 0 => ((s.mergeFrom p).onPod p.offset side (fun x => { x with got := x.got + 1 })).settlePod p.offset side
      | 3 => (match s.flow.pods.find? (fun x => decide (x.phase = p.offset) && decide (x.side = side)) with
        | some x => if x.replied then s.dropPod x else s
        | none => s)
      | _ => if late then s
        else (((s.mergeEpoch (leNat p.payload)).onPod p.offset side (fun x => { x with heard := true, need := p.addr })).settlePod p.offset side)

/-- POD_EXCHANGE_LOST (R428): an exchange that is not complete Q/6 after it began: the record, and the loss epoch rises; what was sent
is owed again. -/
def execPodExchangeLost (s : State) : Result :=
  .next (match s.flow.pods.find? (fun x => decide (6 * x.began + s.flow.podPeriod ≤ 6 * s.podTime)) with
    | some x =>
      let owed := (x.sent.map (fun k => (k, x.side))).filter (fun e => !s.flow.podDirty.contains e)
      let t := s.dropPod x
      let t := { t with flow := { t.flow with epoch := t.flow.epoch + 1, podDirty := t.flow.podDirty ++ owed } }
      t.notice 8 0x54 (BitVec.ofNat 64 (s.neighbour x.side + 65536)) t.flow.epoch
    | none => s)

/-- The least TIME of Keystone at which pod time is at least `x`. -/
def State.whenPod (s : State) (x : Nat) : Nat :=
  let (ofs, rate) := s.fabric.pair 0
  (ofs + (((x * rate + 2 ^ 40 - 1) / 2 ^ 40 : Nat) : Int)).toNat

/-- The TIME that Keystone's counter does not pass while something is due then: the next rotation slot, the end of a phase whose
exchange has not begun, the loss of an exchange, 100 µs after the end of a power window that is not taken, and one ms after a die's
commit of conversion pairs (R22, R325, R326, R328, R377, R428). -/
def State.timeLimit (s : State) : Nat :=
  let slot := (s.flow.due + 15) / 16
  let m := s.podPhase
  let phase := if s.flow.phase ≠ m + 1 ∧ (s.podPartner (phaseDir m)).isSome then s.whenPod (s.flow.phaseEnd m) - 1 else 2 ^ 64
  let window := if s.mgmt.powered then (s.mgmt.windows + 1) * 1000000 + 100000 else 2 ^ 64
  let commit := if s.mgmt.ready then (s.mgmt.commits.map (fun e => e.2 - 1 + 1000000)).foldl min (2 ^ 64) else 2 ^ 64
  s.flow.pods.foldl (fun n x => min n (s.whenPod ((6 * x.began + s.flow.podPeriod + 5) / 6))) (min (min (min slot phase) window) commit)

/-! ### Parked-load timeout (R429) -/

/-- PARKED_LOAD_TIMEOUT (R429): a load parked past its limit is withdrawn, and its launch fails. -/
def execParkedLoadTimeout (s : State) : Result :=
  let d := s.ev.num
  .next (match (s.die d).parked[s.ev.num2]? with
    | some p =>
      (match p.limit with
       | some t =>
         if (s.die d).time.toNat < t then s
         else (s.onDie d (fun x => { x with parked := x.parked.eraseIdx s.ev.num2 })).taskFault p.core .c false 0x53 p.pc p.vaddr (p.theta.setWidth 64)
       | none => s)
    | none => s)

end Sys2Proof.Machine
end

