-- ==== Sys2Proof/Machine/MatrixStrand.lean ====
section
/-! DEFINITION. The M strand at issue: control, the nest and MGO, gangs, and the entries of the M queue (chapter 12, R272 to
R290). -/

namespace Sys2Proof.Machine

/-! ### Control (R290) -/

/-- PC + 16 × SInt(imm64) (R290, R302). -/
def longTarget (pc : Word) (imm : Word) : Word := pc + BitVec.ofInt 64 (16 * imm.toInt)
/-- Target of an M branch. -/
def msTarget (f : MS) (c : Core) : Word := longTarget c.strandM.pc f.imm

/-- MLI (R290). -/
def execMli (f : MS) (s : State) : Result := issueCore { k := .m } (fun c => c.setM f.md.toNat f.imm) s
/-- MADD (R290). -/
def execMadd (f : MS) (s : State) : Result :=
  issueCore { k := .m } (fun c => c.setM f.md.toNat (c.getM f.ma.toNat + c.getM f.mb.toNat + f.imm)) s
/-- MBR (R290). -/
def execMbr (f : MS) (s : State) : Result :=
  branchIf { k := .m } (msTarget f) (fun c => condHolds f.cond.toNat (c.getM f.ma.toNat) (c.getM f.mb.toNat)) s
/-- MLOOP (R290, R185). -/
def execMloop (f : MS) (s : State) : Result :=
  issue { k := .m, notLast := true } (loopBody .m (fun c => c.getM f.ma.toNat) (msTarget f)) s
/-- MEND (R290). -/
def execMend (_f : MS) (s : State) : Result := issue { k := .m, notLast := true } (endStrand .m) s
/-- MNEST (R283). -/
def execMnest (f : MN) (s : State) : Result :=
  issueCore { k := .m } (fun c => { c with nest := put {} c.nest f.lv.toNat { reg := f.mr.toNat, cnt := f.cnt.toNat, step := f.step } }) s

/-! ### Entries of the M queue (R273) -/

/-- Put an entry at the tail of the M queue; a full queue holds issue (R273). -/
def enterM (e : MEntry) (s : State) : Did :=
  if s.me.room 27 then .done (s.onMe (fun c => { c with mq := c.mq ++ [.work e] })) else .wait .pool s

/-- MTZ (R288). -/
def execMtz (f : MT) (s : State) : Result := issue { k := .m } (enterM (.mtz f.t.toNat f.flag.toNat)) s
/-- MACCZ (R288): the range is checked when the entry enters. -/
def execMaccz (f : MT) (s : State) : Result :=
  issue { k := .m } (fun s =>
    let a := (s.me.getM f.mr.toNat).toNat % 2 ^ 20
    let n := f.imm.toNat % 1024
    if accWords < a + 32 * (n + 1) then .trap 0x27 (BitVec.ofNat 64 a) 0 else enterM (.maccz a n f.flag.toNat s.me.strandM.pc) s) s
/-- MTACC (R289). -/
def execMtacc (f : MT) (s : State) : Result :=
  issue { k := .m } (fun s =>
    let a := (s.me.getM f.mr.toNat).toNat % 2 ^ 20
    if a % 32 ≠ 0 ∨ accWords < a + 1024 then .trap 0x27 (BitVec.ofNat 64 a) 0
    else enterM (.mtacc f.t.toNat a f.opt.toNat (f.imm.getLsbD 0) f.flag.toNat s.me.strandM.pc) s) s
/-- MSETF (R288). -/
def execMsetf (f : MT) (s : State) : Result := issue { k := .m } (enterM (.msetf f.t.toNat)) s
/-- MTREL (R288). -/
def execMtrel (f : MT) (s : State) : Result := issue { k := .m } (enterM (.mtrel f.t.toNat)) s
/-- m[R] + imm48 modulo 2^48 (R288). -/
def mtValue (f : MT) (c : Core) : BitVec 48 := (c.getM f.mr.toNat).setWidth 48 + f.imm
/-- MFLADD (R288). -/
def execMfladd (f : MT) (s : State) : Result := issue { k := .m } (fun s => enterM (.mfladd f.flag.toNat (mtValue f s.me)) s) s
/-- MFLWAIT (R288): .SUB is opt[103]. -/
def execMflwait (f : MT) (s : State) : Result :=
  issue { k := .m } (fun s => flagWait .m f.flag.toNat (mtValue f s.me).toNat (f.opt.getLsbD 0) .none s) s
/-- MSCQ (R282). -/
def execMscq (f : MS) (s : State) : Result :=
  issue { k := .m } (enterM (.mscq (f.imm.toNat % 8) (f.imm.toNat / 16 % 8) (f.imm.toNat / 2 ^ 16 % 2 ^ 16))) s

/-! ### MMA and BMMA (R274 to R282) -/

/-- RowAddr of R275, in the own vault. -/
def operandRow (lo hi : Word) (r : Nat) : Nat :=
  lo.toNat % 2 ^ 22 + r / 8 * (hi.toNat % 2 ^ 32) + r % 8 * (lo.toNat / 2 ^ 32 % 2 ^ 16)

/-- What a vault operand breaks of R275: cause and address. -/
def operandFault (lo hi : Word) : Option (Nat × Word) :=
  let base := lo.toNat % 2 ^ 22
  let rp := lo.toNat / 2 ^ 32 % 2 ^ 16
  let tp := hi.toNat % 2 ^ 32
  if lo.toNat / 2 ^ 48 ≠ 0 ∨ lo.toNat / 2 ^ 22 % 2 ^ 10 ≠ 0 ∨ hi.toNat / 2 ^ 36 ≠ 0 ∨ 8 ≤ hi.toNat / 2 ^ 32 % 16 then some (0x12, BitVec.ofNat 64 base)
  else if base % 16 ≠ 0 ∨ rp % 16 ≠ 0 ∨ tp % 16 ≠ 0 then some (0x22, BitVec.ofNat 64 base)
  else match (span 0 32).find? (fun r => decide (2 ^ 22 < operandRow lo hi r + 128)) with
    | some r => some (0x22, BitVec.ofNat 64 (operandRow lo hi r))
    | none => none

/-- The operand that a source bit and an index name, with m registers read by `m` (R274, R275). -/
def operandOf (m : Nat → Word) (src : BitVec 1) (idx : BitVec 5) : Operand :=
  if src = 1 then .vault (m idx.toNat) (m (idx.toNat + 1)) else .tile idx.toNat

/-- The fault of an operand. -/
def Operand.fault : Operand → Option (Nat × Word)
  | .tile _ => none
  | .vault lo hi => operandFault lo hi

/-- A type whose elements may take scales (R276). -/
def scaleType (t : Nat) : Bool := t = 7 || t = 9 || t = 10

/-- The geometry in force for the next entry: that of the latest MSCQ still queued, else the performed one (R281, R282). -/
def Core.entryGeometry (c : Core) : Nat × Nat :=
  c.mq.foldl (fun g e => match e with | .work (.mscq a b _) => (a, b) | _ => g) (c.geoA, c.geoB)

/-- The entry of an MMA or BMMA word with m registers `m`, and the first check of R281 that it fails. DESIGN CHOICE (log entry 144),
unsafe: R281 has both vault operands in one row, and A's fault comes before B's here. -/
def mmaEntry (c : Core) (f : MM) (binary : Bool) (m : Nat → Word) (tsm : Bool) (gang : Option (Nat × Nat × Nat)) (pc : Word) :
    Mma × Option (Nat × Word) :=
  let acc := (m f.cacc.toNat).toNat
  let a := operandOf m f.asrc f.aidx
  let b := operandOf m f.bsrc f.bidx
  let g := c.entryGeometry
  let e : Mma := { binary := binary, aty := f.aty.toNat, bty := f.bty.toNat, a := a, b := b, c := acc % 2 ^ 20, cmode := f.cmode.toNat,
                   scl := f.scl = 1, tsm := tsm, btr := f.btr = 1, flag := f.flag.toNat, pc := pc, gang := gang }
  (e,
    if 2 ^ 20 ≤ acc ∨ acc % 32 ≠ 0 ∨ accWords < acc + 1024 then some (0x27, BitVec.ofNat 64 acc)
    else match a.fault, b.fault with
      | some x, _ => some x
      | none, some x => some x
      | none, none =>
        if !binary && f.scl = 1 && ((scaleType f.aty.toNat && decide (g.1 = 0)) || (scaleType f.bty.toNat && decide (g.2 = 0))) then
          some (0x13, BitVec.ofNat 64 acc)
        else none)

/-- The gang marking of the next entry: membership, completion flag and counter (R285, R286). -/
def Core.gangMark (c : Core) : Option (Nat × Nat × Nat) := c.gangNext.map (fun g => (g.1, g.2, c.gangCount))

/-- Enter one MMA or BMMA: room first, then its checks (R273, R281). The record of a failing entry names the MMA or BMMA word, and it
ends an MGO (R284, R381). -/
def enterMma (f : MM) (binary : Bool) (m : Nat → Word) (tsm : Bool) (after : Core → Core) (wrap : State → Did) (pc : Word) (s : State) : Did :=
  let c := s.me
  if !c.room 27 then .wait .pool s
  else match mmaEntry c f binary m tsm c.gangMark pc with
    | (_, some (cause, a)) => .goto ((s.onMe (fun c => { c with mgoDone := 0 })).taskFault s.cur .m true cause pc a 0)
    | (e, none) =>
      wrap (s.onMe (fun c => after { c with mq := c.mq ++ [.work (.mma e)],
                                            gangCount := if c.gangNext.isSome then c.gangCount + 1 else c.gangCount }))

/-- MMA and BMMA issued singly. -/
def mmaIssue (f : MM) (binary : Bool) (s : State) : Result :=
  issue { k := .m } (fun s =>
    enterMma f binary s.me.getM (f.tsm = 1) (fun c => { c with gangNext := none }) .done s.me.strandM.pc s) s
/-- MMA (R278). -/
def execMma (f : MM) (s : State) : Result := mmaIssue f false s
/-- BMMA (R279): its scl bit is the operation. -/
def execBmma (f : MM) (s : State) : Result := mmaIssue f true s

/-! ### The nest and gangs (R283 to R287) -/

/-- The word after an MGO or an MGANG (R162). -/
inductive Following where
  | mma (f : MM) (binary : Bool)
  | mgo
  | none
  | fault
  | pageIn (tensor page : Nat)
  | walk (pa n : Nat)

/-- Decode the word that follows the issuing M word. -/
def State.following (s : State) : Following :=
  match s.fetchAt s.cur .m (s.me.strandM.pc + 16) with
  | .word w =>
    match decode (.m (BitVec.ofNat 128 w)) with
    | some (.mma f) => .mma f false
    | some (.bmma f) => .mma f true
    | some (.mgo _) => .mgo
    | _ => .none
  | .fault => .fault
  | .pageIn t p => .pageIn t p
  | .walk pa n => .walk pa n

/-- A reserved M word: ADDR and DATA hold its bits (R396, R401). -/
def reservedM (i : Instr) : Did :=
  match encode i with
  | some (.m w) => .trap 0x00 (w.setWidth 64) ((w >>> 64).setWidth 64)
  | _ => .trap 0x00 0 0

/-- Points of the nest from level `lv` down (R284). -/
def Core.points (c : Core) (lv : Nat) : Nat := (span 0 (lv + 1)).foldl (fun n l => n * (look {} c.nest l).cnt) 1

/-- i[l] at a point: level 0 runs fastest (R284). -/
def Core.pointIndex (c : Core) (p l : Nat) : Nat :=
  p / (span 0 l).foldl (fun n k => n * (look {} c.nest k).cnt) 1 % (look {} c.nest l).cnt

/-- m register `r` at a point of the nest: the value before MGO and every level's steps so far (R283, R284). -/
def Core.nestM (c : Core) (lv p r : Nat) : Word :=
  (span 0 (lv + 1)).foldl (fun w l =>
    let n := look {} c.nest l
    if n.reg = r then w + BitVec.ofInt 64 (c.pointIndex p l * n.step.toInt) else w) (c.getM r)

/-- MGO (R284): a reserved next word comes before the loop rule (R398); one point enters at each issue; the strand goes on after the consumed word when every point has. -/
def execMgo (f : MN) (s : State) : Result :=
  issue { k := .m } (fun s =>
    let c := s.me
    let pc := c.strandM.pc
    let lv := f.lv.toNat
    let fin (c : Core) : Core :=
      let x := c.strandM
      let r := nextPc (pc + 32) x.loops
      { c with mgoDone := 0, gangNext := none, strandM := { x with status := .running, pc := r.1, loops := r.2, hold := .fresh } }
    match s.following with
      | .fault => .trap 0x06 (pc + 16) (c.ldep .m)
      | .pageIn t p => s.waitPage .m t p
      | .walk pa n => s.waitTable .m pa n
      | .mgo => reservedM (.mgo f)
      | .none => reservedM (.mgo f)
      | .mma g binary =>
        let p := c.mgoDone
        if lastOfBody .m c.strandM || (match c.strandM.loops with | [] => false | l :: _ => l.stop = pc + 32) then .trap 0x03 0 (c.ldep .m)
        else if c.points lv ≤ p then .goto (s.onMe fin)
        else enterMma g binary (c.nestM lv p) (g.tsm = 1 && decide (c.pointIndex p 0 = 0))
          (fun c => if c.points lv ≤ p + 1 then fin { c with mgoDone := p + 1 }
            else ({ c with mgoDone := p + 1 } : Core).onStrand .m (fun x => { x with status := .running, hold := .fresh })) .goto (pc + 16) s) s

/-- MGANG (R285): the membership must be a quad gang group; the word after it is ganged. A reserved next word comes before the loop rule
(R398). -/
def execMgang (f : MG) (s : State) : Result :=
  issue { k := .m } (fun s =>
    let member := match s.myTask with | some t => t.members.getD f.gm.toNat none | none => none
    match s.following with
    | .none => reservedM (.mgang f)
    | .fault => .trap 0x06 (s.me.strandM.pc + 16) (s.me.ldep .m)
    | .pageIn t p => s.waitPage .m t p
    | .walk pa n => s.waitTable .m pa n
    | _ =>
      if lastOfBody .m s.me.strandM then .trap 0x03 0 (s.me.ldep .m)
      else match member with
      | some m =>
        if s.groupKind m.gnum kindGang then .done (s.onMe (fun c => { c with gangNext := some (f.gm.toNat, f.cflag.toNat) }))
        else .trap 0x0C (BitVec.ofNat 64 m.gnum) 0x08
      | none => .trap 0x0C (BitVec.ofNat 64 f.gm.toNat) 0x08) s

end Sys2Proof.Machine
end

