-- ==== Sys2Proof/Machine/MatrixEvents.lean ====
section
/-! DEFINITION. Performing the M queue: operands, scales, MMA and BMMA, ganged entries, the tile and accumulator commands, command
windows and their replay (R82, R89 to R93, R274 to R289, R389 to R392, R411 to R413, R451, R452). -/

namespace Sys2Proof.Machine

/-! ### Operands (R274, R275) -/

/-- Address of byte `i` of a vault operand on core `g`. -/
def vaultOperandAt (g : Nat) (lo hi : Word) (i : Nat) : Nat :=
  let r := i / 128
  let rot := hi.toNat / 2 ^ 32 % 16
  vaultAt g (operandRow lo hi r + (i % 128 + 16 * (rot * r % 8)) % 128)

/-- What a read of the first `n` bytes of an operand consumes: the record's ADDR and array of the first bad unit, or none, with
the state after the second read that R451 asks for. -/
def State.readOperand (s : State) (g : Nat) (op : Operand) (n : Nat) : State × Option (Nat × Nat) :=
  match op with
  | .tile t =>
    let x := (s.core g).tile t
    (match (span 0 ((n + 7) / 8)).find? (fun u => x.poison.contains u || s.upsets.any (fun y => match y with
        | .transient g' t' u' k => decide (g' = g) && decide (t' = t) && decide (u' = u) && decide (0 < k)
        | _ => false)) with
     | none => (s, none)
     | some u =>
       let again := s.upsets.any (fun y => match y with
         | .transient g' t' u' k => decide (g' = g) && decide (t' = t) && decide (u' = u) && decide (1 < k)
         | _ => false)
       let s := { s with upsets := s.upsets.filter (fun y => match y with
         | .transient g' t' u' _ => !(decide (g' = g) && decide (t' = t) && decide (u' = u))
         | _ => true) }
       ((if again && !x.poison.contains u then s.onCore g (fun c => c.setTile t { x with poison := x.poison ++ [u] }) else s),
        some (tileAddr g t u, 5)))
  | .vault lo hi =>
    let addrs := (span 0 n).map (vaultOperandAt g lo hi)
    let flaky (a k : Nat) : Bool := s.upsets.any (fun y => match y with
      | .transientWord b times => decide (unitOf b = unitOf a) && decide (k < times)
      | _ => false)
    match addrs.find? (fun a => s.poisoned a || flaky a 0) with
    | none => (s, none)
    | some a =>
      let again := flaky a 1
      let s := { s with upsets := s.upsets.filter (fun y => match y with
        | .transientWord b _ => decide (unitOf b ≠ unitOf a)
        | _ => true) }
      ((if again then s.markPoison a else s), some (s.unitAddr a, 0))

/-- The 4,096 bytes of an operand, as one number. -/
def State.operandBits (s : State) (g : Nat) : Operand → BitVec 32768
  | .tile t => ((s.core g).tile t).data
  | .vault lo hi => BitVec.ofNat 32768 (leNat (s.load ((span 0 4096).map (vaultOperandAt g lo hi))))

/-- Element `i` of an operand. -/
def operandElem (d : BitVec 32768) (w i : Nat) : Nat := d.toNat / 2 ^ (w * i) % 2 ^ w

/-- K of a type pair (R276). -/
def matrixK (aty bty : Nat) : Nat := 1024 / max (elemBits aty) (elemBits bty)

/-- Bytes of an operand that are read. -/
def Mma.aBytes (x : Mma) : Nat := 4 * matrixK x.aty x.bty * elemBits x.aty
def Mma.bBytes (x : Mma) : Nat := 4 * matrixK x.aty x.bty * elemBits x.bty

/-! ### Scales (R276, R282) -/

/-- Scales that an operand of a type takes at a geometry. -/
def Mma.scaleCount (x : Mma) (ty geo : Nat) : Nat :=
  if !x.binary && x.scl && scaleType ty then 32 * matrixK x.aty x.bty / sgeoElems geo else 0

/-- The scale of element `i`; 127 stands for 1 (R90). -/
def scaleOf (geo : Nat) (l : List (BitVec 8)) (i : Nat) : Nat :=
  match l with
  | [] => 127
  | _ => (l.getD (i / sgeoElems geo) 127).toNat

/-- Scales that an entry takes from its own queue: A's, and B's where it supplies B. -/
def Mma.needs (x : Mma) (c : Core) (supplies : Bool) : Nat :=
  x.scaleCount x.aty c.geoA + (if supplies then x.scaleCount x.bty c.geoB else 0)

/-- Take them, A's first. -/
def Core.takeScales (c : Core) (x : Mma) (supplies : Bool) : Core × Mma :=
  match x.scales with
  | some _ => (c, x)
  | none =>
    let na := x.scaleCount x.aty c.geoA
    let nb := if supplies then x.scaleCount x.bty c.geoB else 0
    ({ c with scales := c.scales.drop (na + nb) }, { x with scales := some (c.geoA, c.scales.take na, c.geoB, (c.scales.drop na).take nb) })

/-! ### The block (R278, R279) -/

/-- One product of output element (m, n). -/
def Mma.product (x : Mma) (a b : BitVec 32768) (sc : Nat × List (BitVec 8) × Nat × List (BitVec 8)) (m n k : Nat) : Num :=
  let K := matrixK x.aty x.bty
  let i := m * K + k
  let j := if x.btr then k * 32 + n else n * K + k
  let p := operandElem a (elemBits x.aty) i
  let q := operandElem b (elemBits x.bty) j
  if x.binary then ofInt (if x.scl then 1 - 2 * (((p + q) % 2 : Nat) : Int) else ((p * q : Nat) : Int))
  else mmaProduct x.aty x.bty p q (scaleOf sc.1 sc.2.1 i) (scaleOf sc.2.2.1 sc.2.2.2 j)

/-- The 1,024 words that an entry writes, from the words that stand there. -/
def Mma.block (x : Mma) (a b : BitVec 32768) (sc : Nat × List (BitVec 8) × Nat × List (BitVec 8)) (old : Nat → BitVec 32) : List (BitVec 32) :=
  (span 0 1024).map (fun i =>
    mmaElement x.aty x.bty ((span 0 (matrixK x.aty x.bty)).map (x.product a b sc (i / 32) (i % 32))) (if x.cmode = 1 then 0x80000000 else old i))

/-! ### Command windows (R389, R390) -/

/-- The head of the M queue. -/
def Core.mHead (c : Core) : Option MEntry := match c.mq with | .work e :: _ => some e | _ => none

/-- A marked entry reaches the head: the earlier window closes and its own opens, before it waits (R389). -/
def Core.openMwin (c : Core) : Core :=
  match c.mHead with
  | some (.mma x) =>
    if x.tsm && (!c.mwin.isOpen || !c.mwin.entries.isEmpty) && c.mwin.quiet = 0 then
      let c := c.closeMwin
      { c with mwin := { isOpen := true } }
    else c
  | _ => c

/-- Prior values that a window still has to keep before words are written. -/
def State.newPrior {α : Type} (s : State) (g : Nat) (w : CommandWindow α) (is : List Nat) : List (Nat × BitVec 32) :=
  (is.filter (fun i => !w.prior.any (fun e => decide (e.1 = i)))).map (fun i => (i, s.acc g i))

/-- An open window keeps prior values (R390). -/
def CommandWindow.addPrior {α : Type} (w : CommandWindow α) (new : List (Nat × BitVec 32)) : CommandWindow α :=
  if !w.isOpen || !w.replayable then w else { w with prior := w.prior ++ new }

/-- An open window keeps an entry that is performed (R390). -/
def CommandWindow.addEntry {α : Type} (w : CommandWindow α) (e : α) : CommandWindow α :=
  if w.isOpen then { w with entries := w.entries ++ [e], quiet := w.quiet - 1 } else w

/-- From an entry that would pass a retention limit, 64 entries or 2,048 words, a window is not replayable; `new` is what the entry
makes it keep (R390). -/
def CommandWindow.limited {α : Type} (w : CommandWindow α) (new : List (Nat × BitVec 32)) : CommandWindow α :=
  if w.isOpen && (decide (64 < w.entries.length + max 1 w.quiet) || decide (2048 < w.prior.length + new.length)) then { w with replayable := false } else w

/-- The window can replay (R390, R391). -/
def CommandWindow.canReplay {α : Type} (w : CommandWindow α) : Bool := w.isOpen && w.replayable && decide (w.replays < 2)

/-- The first bad accumulator word that an entry reads, and whether the window has its prior value (R413). -/
def State.badWord {α : Type} (s : State) (g : Nat) (w : CommandWindow α) (reads : Bool) (is : List Nat) : Option (Nat × Bool) :=
  let kept (i : Nat) : Bool := w.prior.any (fun e => decide (e.1 = i))
  (is.find? (fun i => s.poisoned (accAt g i) && (reads || (w.isOpen && w.replayable && !kept i)))).map (fun i => (s.unitAddr (accAt g i), kept i))

/-- Accumulator words that an entry of the M queue writes. -/
def MEntry.words : MEntry → List Nat
  | .mma x => span x.c 1024
  | .maccz a n _ _ => span a (32 * (n + 1))
  | .mtacc _ a _ z _ _ => if z then span a 1024 else []
  | _ => []

/-- The entry at the head begins to be performed: it opens its window where it is marked, and tests the open one's limits (R389, R390). -/
def State.beginM (s : State) (g : Nat) : State :=
  let s := s.onCore g Core.openMwin
  match (s.core g).mHead with
  | some e => let new := s.newPrior g (s.core g).mwin e.words; s.onCore g (fun c => { c with mwin := c.mwin.limited new })
  | none => s

/-- Write accumulator words of a core, keeping the prior values that an open window needs (R390). -/
def State.writeAcc (s : State) (g a : Nat) (words : List (BitVec 32)) : State :=
  let new := s.newPrior g (s.core g).mwin (span a words.length)
  (s.onCore g (fun c => { c with mwin := c.mwin.addPrior new })).store (span (accAt g a) (4 * words.length)) (words.flatMap (fun x => leBytes 4 x.toNat))

/-- The entry at the head is performed: it leaves the queue, and an open window keeps it. -/
def Core.popM (c : Core) (e : MEntry) : Core :=
  ({ c with mq := c.mq.tail, mwin := c.mwin.addEntry e } : Core).closeIdle

/-- The first bad accumulator word that an entry of the M queue reads. -/
def State.badAcc (s : State) (g : Nat) (reads : Bool) (a n : Nat) : Option (Nat × Bool) := s.badWord g (s.core g).mwin reads (span a n)

/-- The cores that share a fault of the entry at the head: its quad where it is ganged (R392, R411). -/
def gangOf (g : Nat) : MEntry → List Nat
  | .mma x => if x.gang.isSome then quadOf g else [g]
  | _ => [g]

/-- PC of an entry. -/
def MEntry.pc : MEntry → Word
  | .mma x => x.pc
  | .maccz _ _ _ pc => pc
  | .mtacc _ _ _ _ _ pc => pc
  | _ => 0

/-- An entry consumes a bad unit: the windows replay, for a gang of all four, once the last member's record is in the log (records of one
die enter in order, R321), or cause 0x2C, where the entry ends and every member takes the highest class of the four (R385, R391,
R392, R413, R451). -/
def State.matrixError (s : State) (g : Nat) (e : MEntry) (addr array : Nat) (kept : Bool) : State :=
  let gs := gangOf g e
  if kept && gs.all (fun x => (s.core x).mwin.canReplay) then
    gs.foldl (fun s x =>
      (s.stopFor x .m 2).enter { s.taskRecord x .m false 0x2A 2 e.pc (BitVec.ofNat 64 addr) (BitVec.ofNat 64 ((s.core x).mwin.replays + 1)) with
        sequel := if some x = gs.getLast? then .replay gs false else .none }) s
  else
    let rcl := gs.foldl (fun n x => max n (s.rclOf x 0x2C)) 0
    let s := gs.foldl (fun s x => s.onCore x (fun c => { c with mq := c.mq.tail })) s
    gs.foldl (fun s x => s.faultAs x .m false 0x2C rcl e.pc (BitVec.ofNat 64 addr) (BitVec.ofNat 64 array)) s

/-! ### Tiles and flags -/

/-- Set a tile's bit. -/
def Core.tileFull (c : Core) (t : Nat) (full : Bool) : Core := c.setTile t { c.tile t with full := full }

/-- An entry sets a tile Empty; in an open window this waits for its end (R390). -/
def Core.releaseTile (c : Core) (t : Nat) : Core :=
  if c.mwin.isOpen then { c with mwin := { c.mwin with releases := if c.mwin.releases.contains t then c.mwin.releases else c.mwin.releases ++ [t] } }
  else c.tileFull t false

/-- The entry at the head is one that a replay performs again (R391). -/
def Core.replayed (c : Core) : Bool := decide (0 < c.mwin.quiet)

/-- An operand's tile is there (R280). -/
def Core.operandFull (c : Core) : Operand → Bool
  | .tile t => (c.tile t).full
  | .vault _ _ => true

/-- Tiles that an entry releases: its A, and its B where it supplies it (R280, R286). -/
def Mma.released (x : Mma) (supplies : Bool) : List Nat :=
  let t : Operand → List Nat := fun o => match o with | .tile t => [t] | .vault _ _ => []
  if x.cmode = 2 then (t x.a ++ (if supplies then t x.b else [])).eraseDups else []

/-! ### MMA and BMMA (R278 to R282) -/

/-- The invalid scale of R281: an E8 scale of 0xFF. Its record names the entry's accumulator index (R401; log entry 110). -/
def badScale (l : List (BitVec 8)) : Bool := l.contains 255

/-- Finish an entry with its operands read: the block, releases, flag (R278). -/
def State.finishMma (s : State) (g : Nat) (x : Mma) (a b : BitVec 32768) (supplies : Bool) : State :=
  let sc := x.scales.getD (0, [], 0, [])
  let words := x.block a b sc (fun i => s.acc g (x.c + i))
  let again := (s.core g).replayed
  (s.writeAcc g x.c words).onCore g (fun c =>
    let c := (x.released supplies).foldl Core.releaseTile c
    let c := c.popM (.mma x)
    if again then c else c.hwAdd x.flag 1)

/-- Read an entry's accumulator block where it must be; go on when nothing is bad. -/
def State.withAcc (s : State) (g : Nat) (x : Mma) (body : State → State) : State :=
  match s.badAcc g (x.cmode ≠ 1) x.c 1024 with
  | some (u, kept) => s.matrixError g (.mma x) u 1 (kept && (s.core g).mwin.isOpen)
  | none => body s

/-- Read an operand; go on when nothing is bad. -/
def State.withOperand (s : State) (g : Nat) (e : MEntry) (op : Operand) (n : Nat) (body : State → State) : State :=
  match s.readOperand g op n with
  | (s, some (u, array)) => s.matrixError g e u array true
  | (s, none) => body s

/-- An entry of one core at the head (R278 to R282). -/
def State.performMma (s : State) (g : Nat) (x : Mma) : State :=
  let c := s.core g
  if !c.operandFull x.a || !c.operandFull x.b || (x.scales.isNone && decide (c.scales.length < x.needs c true)) then s
  else s.withOperand g (.mma x) x.a x.aBytes (fun s => s.withOperand g (.mma x) x.b x.bBytes (fun s => s.withAcc g x (fun s =>
    let (c, y) := (s.core g).takeScales x true
    let s := s.setCore g c
    let sc := y.scales.getD (0, [], 0, [])
    if badScale sc.2.1 || badScale sc.2.2.2 then (s.onCore g (fun c => { c with mq := c.mq.tail })).taskFault g .m false 0x14 x.pc (BitVec.ofNat 64 x.c) 0
    else s.finishMma g y (s.operandBits g x.a) (s.operandBits g x.b) true)))

/-! ### Ganged entries (R285 to R287) -/

/-- The ganged entry at the head of a core's queue. -/
def Core.gangHead (c : Core) : Option Mma :=
  match c.mHead with
  | some (.mma x) => if x.gang.isSome then some x else none
  | _ => none

/-- The gang counter of an entry. -/
def Mma.counter (x : Mma) : Nat := match x.gang with | some (_, _, n) => n | none => 0
/-- Rank of a core's entry in its gang. -/
def Core.gangRank (c : Core) (x : Mma) : Nat :=
  match x.gang, c.task with
  | some (m, _, _), some t => (match t.members.getD m none with | some y => y.rank | none => 0)
  | _, _ => 0
/-- The core supplies B for its entry (R286). -/
def Core.suppliesB (c : Core) (x : Mma) : Bool := c.gangRank x = x.counter % 4

/-- A core's ganged entry has what it waits for of its own: its A, and where it supplies B its B, with their scales. -/
def Core.gangReady (c : Core) (x : Mma) : Bool :=
  let sup := c.suppliesB x
  c.operandFull x.a && (!sup || c.operandFull x.b) && (x.scales.isSome || decide (x.needs c sup ≤ c.scales.length))

/-- Two ganged entries agree (R285). -/
def Mma.agrees (x y : Mma) : Bool :=
  decide (x.aty = y.aty) && decide (x.bty = y.bty) && decide (x.btr = y.btr) && decide (x.scl = y.scl) && decide (x.cmode = y.cmode)
    && decide (x.binary = y.binary)

/-- The four entries start: the supplier's B and its scales go to every member (R286). -/
def State.startGang (s : State) (gs : List (Nat × Mma)) : State :=
  match gs.find? (fun e => (s.core e.1).suppliesB e.2) with
  | none => s
  | some (sg, sx) => s.withOperand sg (.mma sx) sx.b sx.bBytes (fun s =>
      let taken := gs.map (fun e => (e.1, (s.core e.1).takeScales e.2 (decide (e.1 = sg))))
      let bsc := ((taken.find? (fun e => e.1 = sg)).bind (fun e => e.2.2.scales)).getD (0, [], 0, [])
      let bits := s.operandBits sg sx.b
      let mine (x : Mma) : Nat × List (BitVec 8) × Nat × List (BitVec 8) := x.scales.getD (0, [], 0, [])
      match taken.find? (fun e => (decide (e.1 = sg) && badScale bsc.2.2.2) || badScale (mine e.2.2).2.1) with
      | some e => (gs.foldl (fun s x => s.onCore x.1 (fun c => { c with mq := c.mq.tail })) s).taskFault e.1 .m false 0x14 e.2.2.pc (BitVec.ofNat 64 e.2.2.c) 0
      | none => taken.foldl (fun s e => s.setCore e.1 { e.2.1 with mq := .work (.mma { e.2.2 with
          started := some bits, scales := some ((mine e.2.2).1, (mine e.2.2).2.1, bsc.2.2.1, bsc.2.2.2) }) :: e.2.1.mq.tail }) s)

/-- Every member has written its words of the entry: the completion flags (R287). -/
def State.gangFlags (s : State) (g n : Nat) : State :=
  let gs := quadOf g
  if gs.all (fun x => (s.core x).gangOwed.any (fun e => decide (e.1 = n) && e.2.2)) then
    gs.foldl (fun s x => s.onCore x (fun c =>
      let c' := { c with gangOwed := c.gangOwed.filter (fun e => decide (e.1 ≠ n)) }
      (c.gangOwed.filter (fun e => decide (e.1 = n))).foldl (fun c e => c.hwAdd e.2.1 1) c')) s
  else s

/-- A member has written its words; a replayed entry whose flags were added owes none (R287, R452). -/
def Core.oweGang (c : Core) (x : Mma) : Core :=
  let n := x.counter
  if c.gangOwed.any (fun e => decide (e.1 = n)) then
    { c with gangOwed := c.gangOwed.map (fun e => if e.1 = n then (e.1, e.2.1, true) else e) }
  else if c.replayed then c
  else { c with gangOwed := c.gangOwed ++ [(n, (match x.gang with | some (_, f, _) => f | none => 63), true)] }

/-- A started entry of one member is performed (R286). -/
def State.performGanged (s : State) (g : Nat) (x : Mma) (b : BitVec 32768) : State :=
  s.withOperand g (.mma x) x.a x.aBytes (fun s => s.withAcc g x (fun s =>
    let sup := (s.core g).suppliesB x
    ((s.onCore g (fun c => c.oweGang x)).finishMma g x (s.operandBits g x.a) b sup).gangFlags g x.counter))

/-! ### Tile, accumulator, flag and scale commands (R282, R288, R289) -/

/-- Address of a command's accumulator word is bad where MTACC reads it. -/
def State.withBlock (s : State) (g : Nat) (e : MEntry) (reads : Bool) (a n : Nat) (body : State → State) : State :=
  match s.badAcc g reads a n with
  | some (u, kept) => s.matrixError g e u 1 (kept && (s.core g).mwin.isOpen)
  | none => body s

/-- The tile that MTACC writes (R289): each row's 32 words converted and packed, the rest of the row zero. -/
def mtaccTile (ty : Nat) (word : Nat → BitVec 32) : BitVec 32768 :=
  let w := elemBits ty
  BitVec.ofNat 32768 (joinUnits 1024 ((span 0 32).map (fun m => joinUnits w ((span 0 32).map (fun n => streamConvert 0 ty none (word (32 * m + n)).toNat)))))

/-- An MTACC of the open window wrote the tile (R390; log entry 46). -/
def Core.windowWrote (c : Core) (t : Nat) : Bool :=
  c.mwin.isOpen && c.mwin.entries.any (fun e => match e with | .mtacc t' _ _ _ _ _ => decide (t' = t) | _ => false)

/-- Finish a command: it leaves the queue and adds its flag, unless it is replayed. -/
def State.finishM (s : State) (g : Nat) (e : MEntry) (flag : Nat) (f : Core → Core) : State :=
  s.onCore g (fun c =>
    let again := c.replayed
    let c := (if again then c else f c).popM e
    if again then c else c.hwAdd flag 1)

/-- M_COMMAND_PERFORM: a command at the head (R282, R288, R289). A replayed command writes its accumulator words again and
leaves tiles, flags and the scale queue as its first run left them (log entry 47). -/
def State.performCommand (s : State) (g : Nat) (e : MEntry) : State :=
  let c := s.core g
  let again := c.replayed
  match e with
  | .mma _ => s
  | .mtz t flag => if (c.tile t).full && !again then s else s.finishM g e flag (fun c => c.setTile t { full := true, data := 0, poison := [] })
  | .maccz a n flag _ => s.withBlock g e false a (32 * (n + 1)) (fun s => (s.writeAcc g a (List.replicate (32 * (n + 1)) 0)).finishM g e flag id)
  | .mtacc t a ty z flag _ =>
    if (c.tile t).full && !again then s
    else s.withBlock g e true a 1024 (fun s =>
      let bits := mtaccTile ty (fun i => s.acc g (a + i))
      (if z then s.writeAcc g a (List.replicate 1024 0) else s).finishM g e flag (fun c => c.setTile t { full := true, data := bits, poison := [] }))
  | .msetf t => if (c.tile t).full && !again then s else s.finishM g e 63 (fun c => c.tileFull t true)
  | .mtrel t => s.finishM g e 63 (fun c => if c.windowWrote t then c.releaseTile t else c.tileFull t false)
  | .mfladd f v => s.finishM g e 63 (fun c => c.strandAdd .m f v)
  | .mscq ga gb n =>
    if decide (c.scales.length < n) && !again then s
    else (s.finishM g e 63 (fun c => { c with scales := c.scales.drop n })).onCore g (fun c => { c with geoA := ga, geoB := gb })

/-! ### Events -/

/-- MATRIX_ENTRY_PERFORM (R278): the MMA or BMMA at the head; a ganged one once its gang has started. -/
def execMatrixEntryPerform (s : State) : Result :=
  let g := s.ev.core
  let s := s.beginM g
  .next (if (s.core g).heldStrands.contains .m then s else match (s.core g).mHead with
    | some (.mma x) =>
      (match x.gang, x.started with
       | none, _ => s.performMma g x
       | some _, some b => s.performGanged g x b
       | some _, none => s)
    | _ => s)

/-- GANG_ENTRY_START (R285, R286): the four members' entries of one gang count stand at their heads; that they agree comes before
what they wait for. -/
def execGangEntryStart (s : State) : Result :=
  let s := (quadOf s.ev.core).foldl State.beginM s
  let gs := (quadOf s.ev.core).filterMap (fun g => ((s.core g).gangHead).map (fun x => (g, x)))
  .next (match gs with
    | (_, x) :: _ =>
      let stopped (c : Core) : Bool := c.heldStrands.contains .m || (match c.task with | some t => t.stopped && !t.gangWait | none => false)
      if gs.length ≠ 4 || gs.any (fun e => stopped (s.core e.1) || e.2.started.isSome || decide (e.2.counter ≠ x.counter)) then s
      else if !gs.all (fun e => x.agrees e.2) then
        gs.foldl (fun s e => s.taskFault e.1 .m false 0x0D e.2.pc 0 (BitVec.ofNat 64 e.2.counter)) s
      else if !gs.all (fun e => (s.core e.1).gangReady e.2) then s
      else s.startGang gs
    | [] => s)

/-- M_COMMAND_PERFORM (R288). -/
def execMCommandPerform (s : State) : Result :=
  let g := s.ev.core
  let s := s.beginM g
  .next (if (s.core g).heldStrands.contains .m then s else match (s.core g).mHead with
    | some e => s.performCommand g e
    | none => s)

/-- A partner of the waiting ganged entry can never supply its own: its M strand is Unstarted or Ended and its queue holds no
ganged entry of the same count (R411). -/
def State.partnerLost (s : State) (g : Nat) : Bool :=
  match (s.core g).gangHead with
  | some x => x.started.isNone && (quadOf g).any (fun h =>
      let c := s.core h
      (c.strandM.status = .unstarted || c.strandM.status = .ended)
        && !c.mq.any (fun e => match e with | .work (.mma y) => y.gang.isSome && decide (y.counter = x.counter) | _ => false))
  | none => false

/-- GANG_PARTNER_TIMEOUT (R411). -/
def execGangPartnerTimeout (s : State) : Result :=
  let g := s.ev.core
  .next (match (s.core g).gangHead with
    | some x => if s.partnerLost g && (match (s.core g).task with | some t => !t.stopped | none => false) && decide (65536 ≤ (s.core g).gangStall) then s.taskFault g .m false 0x0D x.pc 0 (BitVec.ofNat 64 x.counter) else s
    | none => s)

end Sys2Proof.Machine
end

