-- ==== Sys2Proof/Machine/OpticStrand.lean ====
section
/-! DEFINITION. The O strand at issue: bus table, reference mode, windows, calibrations, status, control and flags (chapter 13,
R292 to R303). -/

namespace Sys2Proof.Machine

/-! ### Registers and control (R302) -/

/-- Target of an O branch. -/
def oxTarget (f : OX) (c : Core) : Word := longTarget c.strandO.pc f.imm
/-- OLI (R302). -/
def execOli (f : OX) (s : State) : Result := issueCore { k := .o } (fun c => c.setO f.od.toNat f.imm) s
/-- OADD (R302). -/
def execOadd (f : OX) (s : State) : Result :=
  issueCore { k := .o } (fun c => c.setO f.od.toNat (c.getO f.oa.toNat + c.getO f.ob.toNat + f.imm)) s
/-- OBR (R302). -/
def execObr (f : OX) (s : State) : Result :=
  branchIf { k := .o } (oxTarget f) (fun c => condHolds f.cond.toNat (c.getO f.oa.toNat) (c.getO f.ob.toNat)) s
/-- OLOOP (R302, R185). -/
def execOloop (f : OX) (s : State) : Result :=
  issue { k := .o, notLast := true } (loopBody .o (fun c => c.getO f.oa.toNat) (oxTarget f)) s
/-- OEND (R302). -/
def execOend (_f : OX) (s : State) : Result := issue { k := .o, notLast := true } (endStrand .o) s

/-- o[oa] + imm64 modulo 2^48 (R303). -/
def oxValue (f : OX) (c : Core) : BitVec 48 := (c.getO f.oa.toNat + f.imm).setWidth 48
/-- OFLADD (R303): at issue; the O strand's earlier instructions have completed or are merely queued. -/
def execOfladd (f : OX) (s : State) : Result :=
  issueCore { k := .o } (fun c => c.strandAdd .o f.flag.toNat (oxValue f c)) s
/-- OFLWAIT (R303): .SUB is cond[104]. -/
def execOflwait (f : OX) (s : State) : Result :=
  issue { k := .o } (fun s => flagWait .o f.flag.toNat (oxValue f s.me).toNat (f.cond.getLsbD 0) .none s) s

/-! ### Bus table, reference mode, calibrations (R294, R295) -/

/-- The inbound fibre of bus B4 to B7 is connected (R118). -/
def State.busConnected (s : State) (bus : Nat) : Bool := decide (bus < 4) || s.xfcon.getLsbD (bus - 4)

/-- ADDR of the optical causes: segment and bus (R437). -/
def opticAddr (bus : Nat) (seg : BitVec 32) : Word := BitVec.ofNat 64 (bus * 2 ^ 32 + seg.toNat)

/-- OCFG (R294). -/
def execOcfg (f : OC) (s : State) : Result :=
  issue { k := .o } (fun s =>
    let k := f.bus.toNat
    if !s.busConnected k then .trap 0x40 (opticAddr k 0) 0
    else .done (s.onMe (fun c => { c with buses := put none c.buses k (some { t := f.tm1.toNat + 1, div := f.div }) }))) s
/-- OREF (R295). -/
def execOref (f : OS) (s : State) : Result := issueCore { k := .o } (fun c => { c with refMode := f.kind.toNat }) s

/-- Put an entry at the tail of the window queue; a full queue holds issue (R293). -/
def enterO (e : OEntry) (after : Core → Core) (s : State) : Did :=
  if s.me.room 28 then .done (s.onMe (fun c => after { c with oq := c.oq ++ [.work e] })) else .wait .pool s

/-- OCAL (R295): 0 TRIM, 1 SKEW. -/
def execOcal (f : OS) (s : State) : Result := issue { k := .o } (enterO (.cal (f.kind = 1)) id) s

/-! ### OWIN (R296, R297) -/

/-- Row pitch (R103). -/
def rowPitch (t : Nat) : Nat := 32 * ((t + 31) / 32)

/-- OWIN (R296): the checks of R297 in order, then the captured window. DESIGN CHOICE (log entry 136), unsafe: the checks come before the
wait for room in the window queue, so an OWIN that breaks one faults while the queue is full; R293 and R111 give no order of the two. -/
def execOwin (f : OW) (s : State) : Result :=
  issue { k := .o } (fun s =>
    let c := s.me
    let k := f.bus.toNat
    let n := (c.getO f.seg.toNat).setWidth 32 + f.segoff
    let num := BitVec.ofNat 64 c.winCount
    match look none c.buses k with
    | none => .trap 0x40 (opticAddr k n) num
    | some b =>
      if !s.busConnected k then .trap 0x40 (opticAddr k n) num
      else
        let w := (c.getO f.wsrc.toNat).toNat
        let a := (c.getO f.acc.toNat).toNat
        let rows := f.nrow.toNat + 1
        let p := rowPitch b.t
        if 2 ^ 29 ≤ w ∨ w / 2 ^ 22 ≠ localOf s.cur then .trap 0x41 (opticAddr k n) num
        else if w % 32 ≠ 0 ∨ 2 ^ 22 < w % 2 ^ 22 + rows * p + 64 then .trap 0x22 (BitVec.ofNat 64 w) 0
        else if 2 ^ 20 ≤ a ∨ accWords < a + 32 * rows then .trap 0x27 (BitVec.ofNat 64 a) 0
        else
          let x : Window := { bus := k, seg := n, weights := w % 2 ^ 22, acc := a, row0 := f.row0.toNat, rows := rows, t := b.t, div := b.div,
                              ref := c.refMode, number := c.winCount, sh := f.sh.toNat, accumulate := f.mode = 1, tsm := f.tsm = 1,
                              flag := f.flag.toNat, pc := c.strandO.pc }
          enterO (.window x) (fun c => { c with winCount := c.winCount + 1 }) s) s

/-! ### OWAIT and OSTAT (R300, R301) -/

/-- The entry is window `w`. -/
def isWindow (w : Nat) : Entry OEntry → Bool
  | .work (.window x) => x.number = w
  | _ => false

/-- What OWAIT and OSTAT find of a window (R300). -/
inductive WindowFound where
  | unissued
  | pending
  | word (x : Word)

/-- The state of window `w` of the region: its status word where it is kept, else the code for one no longer kept (R300). -/
def Core.window (c : Core) (w : Nat) : WindowFound :=
  if c.winCount ≤ w then .unissued
  else if c.oq.any (isWindow w) then .pending
  else match c.statuses.find? (fun e => e.1 = w) with
    | some e => .word e.2
    | none => .word 0x0000000100000002

/-- OWAIT (R300): an unissued window traps with w and c. -/
def execOwait (f : OS) (s : State) : Result :=
  issue { k := .o } (fun s =>
    let w := s.me.getO f.oa.toNat
    match s.me.window w.toNat with
    | .unissued => .trap 0x0E w (BitVec.ofNat 64 s.me.winCount)
    | .pending => .wait .other s
    | .word x => .done (s.onMe (fun c => c.setO f.od.toNat x))) s

/-- OSTAT (R300). -/
def execOstat (f : OS) (s : State) : Result :=
  issueCore { k := .o } (fun c => c.setO f.od.toNat (match c.window (c.getO f.oa.toNat).toNat with
    | .unissued => 0x0000000100000003
    | .pending => 0x0000000100000001
    | .word x => x)) s

end Sys2Proof.Machine
end

