-- ==== Sys2Proof/Machine/LoadStore.lean ====
section
/-! DEFINITION. C strand: loads and stores at issue (R220 to R223). The accesses then wait in the core's list until they are
performed (MEMORY_ACCESS_COMPLETION). -/

namespace Sys2Proof.Machine

/-- Lanes translated and checked in ascending order: the targets, or the first that faults or needs a page (R221). -/
inductive LaneCheck where
  | ok (l : List (Nat × Target))
  | fault (lane cause : Nat) (addr : Word)
  | pageIn (tensor page : Nat)
  | walk (pa n : Nat)

/-- Check every active element before any is performed (R221). -/
def checkLanes (chk : Nat → Checked) : List Nat → LaneCheck
  | [] => .ok []
  | i :: is =>
    match chk i with
    | .fault c a => .fault i c a
    | .pageIn t p => .pageIn t p
    | .walk a n => .walk a n
    | .ok x => match checkLanes chk is with
      | .ok l => .ok ((i, x) :: l)
      | r => r

/-- The store's translation names host memory or registers, so it seals (R223). -/
def Target.outside (t : Target) : Bool := t.virtual && (t.space = 2 || t.space = 6)

/-- Seal when the condition holds (R42). -/
def State.sealIf (s : State) (b : Bool) : State := if b then s.sealMine else s

/-- wait and set of an MV word (R131). -/
def mvForm (f : MV) (refs : List Ref) : Form :=
  { k := .c, wait := f.wait, set := f.set.toNat, refs := refs, effect := true }

/-- The s-register of LDS and STS (R156). -/
def mvReg (f : MV) : Nat := f.reg.toNat % 64
/-- EA of LDV, STV, LDS and STS (R220). -/
def mvAddr (c : Core) (f : MV) : Word := c.getS f.base.toNat + BitVec.ofInt 64 f.off.toInt
/-- Bytes of LDS and STS by wd (R156). -/
def scalarBytes (wd : BitVec 2) : Nat := 2 ^ wd.toNat
/-- Bytes of an element of LDVX and STVX by wd (R156). -/
def gatherBytes (wd : BitVec 2) : Nat := 4 / 2 ^ wd.toNat
/-- The index register of LDVX and STVX, off22[37:28]. -/
def gatherIndex (f : MV) : Nat := f.off.toNat / 2 ^ 12

/-- LDS (R220). -/
def execLds (f : MV) (s : State) : Result :=
  issue (mvForm f [.s f.base.toNat, .s (mvReg f)]) (fun s =>
    let a := mvAddr s.me f
    let n := scalarBytes f.wd
    match s.check s.cur s.myCtx a n n (span 0 n) .load with
    | .fault c x => .trap c x 0
    | .pageIn t p => s.waitPage .c t p
    | .walk pa n => s.waitTable .c pa n
    | .ok t => .done (s.addAccesses .c [{ t.access a with kind := .load, dest := .s (mvReg f), slot := f.set.toNat }])) s

/-- STS (R220, R223): .SL is reg[53]. -/
def execSts (f : MV) (s : State) : Result :=
  issue (mvForm f [.s f.base.toNat, .s (mvReg f)]) (fun s =>
    let a := mvAddr s.me f
    let n := scalarBytes f.wd
    match s.check s.cur s.myCtx a n n (span 0 n) .store with
    | .fault c x => .trap c x 0
    | .pageIn t p => s.waitPage .c t p
    | .walk pa n => s.waitTable .c pa n
    | .ok t =>
      .done ((s.sealIf (f.reg.getLsbD 9 || t.outside)).addAccesses .c
        [{ t.access a with kind := .store (leBytes n (s.me.getS (mvReg f)).toNat), slot := f.set.toNat }])) s

/-- Active lane numbers. -/
def lanesOf (m : BitVec 32) : List Nat := (span 0 32).filter (fun i => m.getLsbD i)

/-- The 16-byte pieces of LDV and STV: the checked lanes of each piece (R126, R220). -/
def pieces (l : List (Nat × Target)) : List (List (Nat × Target)) :=
  ((span 0 8).map (fun p => l.filter (fun e => decide (e.1 / 4 = p)))).filter (fun x => !x.isEmpty)

/-- The pieces of LDV: a lattice page is read as one snapshot, so that each cell is (R67). -/
def loadPieces (l : List (Nat × Target)) : List (List (Nat × Target)) :=
  if l.any (fun e => e.2.lat ≠ 0) then [l] else pieces l

/-- One access for the lanes of a piece. -/
def pieceAccess (a : Word) (l : List (Nat × Target)) : Access :=
  match l with
  | [] => { id := 0, grp := 0, pc := 0 }
  | (i, t) :: _ => { t.access (a + BitVec.ofNat 64 (4 * i)) with addrs := l.flatMap (fun e => e.2.addrs) }

/-- A fault of a lane of LDV or STV names the lane's address (R401). -/
def LaneCheck.atLane (a : Word) : LaneCheck → LaneCheck
  | .fault i c _ => .fault i c (a + BitVec.ofNat 64 (4 * i))
  | r => r

/-- The lanes of LDV and STV at EA, 4 bytes each; EA is aligned to 16 in a vault and 128 in a tensor, and the bytes of all active
lanes lie in one tile (R61, R220). -/
def State.checkVec (s : State) (a : Word) (m : BitVec 32) (need : Need) : LaneCheck :=
  LaneCheck.atLane a <| checkLanes (fun i => s.check s.cur s.myCtx a 16 128 (span (4 * i) 4) need ((lanesOf m).head?.map (fun j => 4 * j))) (lanesOf m)

/-- LDV (R220, R221). -/
def execLdv (f : MV) (s : State) : Result :=
  issue (mvForm f [.s f.base.toNat, .v f.reg.toNat (activeOf s.me f.pg)]) (fun s =>
    let a := mvAddr s.me f
    match s.checkVec a (activeOf s.me f.pg) .load with
    | .fault i c x => .trap c x (BitVec.ofNat 64 i)
    | .pageIn t p => s.waitPage .c t p
    | .walk pa n => s.waitTable .c pa n
    | .ok l => .done (s.addAccesses .c ((loadPieces l).map (fun x =>
        { pieceAccess a x with kind := .load, dest := .lanes f.reg.toNat (x.map (·.1)), slot := f.set.toNat })))) s

/-- STV (R220, R221, R223): .SL is wd = 1. -/
def execStv (f : MV) (s : State) : Result :=
  issue (mvForm f [.s f.base.toNat, .v f.reg.toNat allLanes]) (fun s =>
    let a := mvAddr s.me f
    match s.checkVec a (activeOf s.me f.pg) .store with
    | .fault i c x => .trap c x (BitVec.ofNat 64 i)
    | .pageIn t p => s.waitPage .c t p
    | .walk pa n => s.waitTable .c pa n
    | .ok l =>
      let v := s.me.getV f.reg.toNat
      .done ((s.sealIf (f.wd = 1 || l.any (fun e => e.2.outside))).addAccesses .c ((pieces l).map (fun x =>
        { pieceAccess a x with kind := .store (x.flatMap (fun e => leBytes 4 (laneOf v e.1))), slot := f.set.toNat })))) s

/-- Address of a gathered or scattered lane (R220). -/
def gatherAddr (c : Core) (f : MV) (i : Nat) : Word :=
  c.getS f.base.toNat + BitVec.ofInt 64 (sInt 32 (laneOf (c.getV (gatherIndex f)) i))

/-- Check the lanes of LDVX and STVX (R221). -/
def State.checkGather (s : State) (f : MV) (need : Need) : LaneCheck :=
  let n := gatherBytes f.wd
  checkLanes (fun i => s.check s.cur s.myCtx (gatherAddr s.me f i) n n (span 0 n) need) (lanesOf (activeOf s.me f.pg))

/-- LDVX (R220, R221): one access a lane, zero-extended into its lane. -/
def execLdvx (f : MV) (s : State) : Result :=
  issue (mvForm f [.s f.base.toNat, .v (gatherIndex f) allLanes, .v f.reg.toNat (activeOf s.me f.pg)]) (fun s =>
    match s.checkGather f .load with
    | .fault i c x => .trap c x (BitVec.ofNat 64 i)
    | .pageIn t p => s.waitPage .c t p
    | .walk pa n => s.waitTable .c pa n
    | .ok l => .done (s.addAccesses .c (l.map (fun e =>
        { e.2.access (gatherAddr s.me f e.1) with kind := .load, dest := .lanes f.reg.toNat [e.1], slot := f.set.toNat })))) s

/-- STVX (R220, R221, R223): lanes in ascending order, so that the highest active lane wins a shared byte; .SL is
off22[16]. -/
def execStvx (f : MV) (s : State) : Result :=
  issue (mvForm f [.s f.base.toNat, .v (gatherIndex f) allLanes, .v f.reg.toNat allLanes]) (fun s =>
    match s.checkGather f .store with
    | .fault i c x => .trap c x (BitVec.ofNat 64 i)
    | .pageIn t p => s.waitPage .c t p
    | .walk pa n => s.waitTable .c pa n
    | .ok l =>
      let v := s.me.getV f.reg.toNat
      .done ((s.sealIf (f.off.getLsbD 0 || l.any (fun e => e.2.outside))).addAccesses .c (l.map (fun e =>
        { e.2.access (gatherAddr s.me f e.1) with
          kind := .store (leBytes (gatherBytes f.wd) (laneOf v e.1)), slot := f.set.toNat })))) s

end Sys2Proof.Machine
end

