-- ==== Sys2Proof/Machine/Transfers.lean ====
section
/-! DEFINITION. Performing transfer queue entries and copies: translation of each element, conversion, poison, waits at the
head of the queue, byte flags (R62, R65, R66, R72, R89, R254 to R262, R413, R418). -/

namespace Sys2Proof.Machine

/-! ### The elements of a transfer -/

/-- Coordinates of an element within its tile. -/
def tileCoords : Nat → List Nat → List Nat
  | _, [] => []
  | te, t :: ts => te % t :: tileCoords (te / t) ts

/-- Add coordinates. -/
def addCoords : List Nat → List Nat → List Nat
  | a :: as, b :: bs => (a + b) :: addCoords as bs
  | _, _ => []

/-- Replace a coordinate. -/
def setCoord (k v : Nat) (l : List Nat) : List Nat := modifyNth (fun _ => v) k l

/-- A gather or a scatter (R257). -/
def Transfer.indexed (x : Transfer) : Bool := x.op = .tgath || x.op = .tscat

/-- Height of a tile: its extent in the outermost dimension (R257). -/
def Desc.height (d : Desc) : Nat := d.tdim.getD (d.rank - 1) 1

/-- Tensor coordinates of element `te` of tile `j`; none for a pad row. Clipped coordinates lie outside DIM (R62, R257). -/
def Transfer.coordsAt (x : Transfer) (j te : Nat) : Option (List Nat) :=
  let d := x.desc
  let c := addCoords (tileStart d x.coords j) (tileCoords te d.tdim)
  if x.indexed then
    let r := (tileCoords te d.tdim).getD (d.rank - 1) 0
    let i := x.indices.getD (j * d.height + r) (-1)
    if i < 0 then none else some (setCoord (d.rank - 1) i.toNat c)
  else some c

/-- Elements of a tile, E (R255). -/
def Desc.tileElems (d : Desc) : Nat := 8 * d.tb / d.eb

/-- Stream element positions for a lane type (R256). -/
def laneCount (lt : Nat) : Nat := 1024 / regWidth lt

/-- Parts in which a tile moves: stream elements, rows of a gather or scatter, or the tile at once. Rows below 4 bytes go together, so that
each 4-byte piece has one writer (R217). -/
def Transfer.parts (x : Transfer) : Nat :=
  if x.kind = 0 then (x.desc.tileElems + laneCount x.lane - 1) / laneCount x.lane
  else if x.indexed then min x.desc.height (x.desc.tb / 4) else 1

/-- First element of a part, and how many it has. -/
def Transfer.partRange (x : Transfer) (i : Nat) : Nat × Nat :=
  let e := x.desc.tileElems
  let n := if x.kind = 0 then laneCount x.lane else e / x.parts
  (i * n, min n (e - i * n))

/-- Where an element stands: clipped or pad, or at a bit of a page. -/
inductive Elem where
  | pad
  | pageIn (page : Nat)
  | fault (cause : Nat) (addr : Word)
  /-- Its page entry stands on another chip and must be fetched first (R55). -/
  | walk (pa : Nat)
  | at (bit : Nat) (route : Route) (page : Page) (blockBit : Nat) (addr : Word)
  deriving DecidableEq, Repr

/-- The virtual address of an element that stands somewhere. -/
def Elem.vaddr : Elem → Word
  | .at _ _ _ _ a => a
  | _ => 0

/-- Translate and check the element at tensor coordinates for access number `i`; outside DIM nothing stands (R62 to R67). -/
def State.pointAt (s : State) (i g ctx : Nat) (d : Desc) (c : List Nat) (need : Need) : Elem :=
  if !insideOf c d.dim then .pad
  else
    let (tn, e) := d.place c
    let bit := tn * d.tileBits + e * d.eb
    let a := d.addrOf c
    let p := s.entryFor i g ctx (d.entryAddr (bit / 524288))
    if !s.tableHeld (d.entryAddr (bit / 524288)) 16 then .walk (d.entryAddr (bit / 524288))
    else if s.tableLost (d.entryAddr (bit / 524288)) 16 then .fault 0x26 a
    else if !p.v then (match s.denial g ctx d.tid (bit / 524288) with | some c => .fault c a | none => .pageIn (bit / 524288))
    else match s.pageFault d p need with
      | some cause => .fault cause a
      | none => .at (p.frame * 8 + bit % 524288) (s.routeOf g d p) p (bit % 524288) a

/-- Translate and check element `te` of tile `j` (R62 to R67, R254). -/
def State.elemAt (s : State) (g : Nat) (x : Transfer) (j te : Nat) (need : Need) : Elem :=
  match x.coordsAt j te with
  | none => .pad
  | some c => s.pointAt (if x.indexed then s.freeCtr + (tileCoords te x.desc.tdim).getD (x.desc.rank - 1) 0 else 2 ^ 70 + 8 * x.num + j) g x.ctx x.desc c need

/-- Byte addresses of an element of `eb` bits at a bit address. -/
def elemBytesAt (eb bit : Nat) : List Nat := if 8 ≤ eb then span (bit / 8) (eb / 8) else [bit / 8]

/-- The page carries E8 scales that a stream load multiplies in: the scale's byte (R65, R66). -/
def scaleByte (p : Page) (eb blockBit : Nat) : Option Nat :=
  if p.sgeo = 0 then none else some (p.scale + blockBit / (sgeoElems p.sgeo * eb))

/-! ### Reading bytes wherever they stand -/

/-- A byte address with the route of its page. -/
abbrev Where := Nat × Route

/-- The route of a scale area's bytes: its own CHIP and SPACE (R55, R65). -/
def State.areaRoute (s : State) (pa : Nat) : Route :=
  if paChip pa ≠ s.chip then .remote (paChip pa) else if paSpace pa = 6 then .register else .plain

/-- The route of a page for an agent outside the compute dies, which reads Keystone's replica: die 8 stands for Keystone (R67). -/
def Route.atKeystone : Route → Route
  | .replica _ lat => .replica 8 lat
  | r => r

/-- A replica holds the granule of a byte: a die's, or Keystone's for die 8. -/
def State.replicaHas (s : State) (d a : Nat) : Bool :=
  if d = 8 then (s.keystone? (granuleOf a)).isSome else ((s.die d).granule? (granuleOf a)).isSome
/-- A byte of a replica. -/
def State.replicaAt (s : State) (d a : Nat) : Nat :=
  if d = 8 then (match s.keystone? (granuleOf a) with | some v => granuleBits v (a % 64) 1 | none => 0) else (s.die d).replicaByte a
/-- A byte of a replica lies in a marked unit. -/
def State.replicaBad (s : State) (d a : Nat) : Bool :=
  if d = 8 then (s.keystoneMarks (granuleOf a)).contains (a % 64 / 8) else (s.die d).replicaMarked a

/-- An engine's read waits for the granule of a byte: its die fetches it from Keystone, and Keystone from the home chip (R67, R324). -/
def State.want (s : State) (d a lat : Nat) (home : BitVec 2) : State :=
  if d = 8 then s.askHome (granuleOf a) lat
  else s.onDie d (fun x => if x.wanted.any (fun e => decide (e.1 = granuleOf a)) then x else { x with wanted := x.wanted ++ [(granuleOf a, lat, home)] })

/-- Chips other than this one that hold some of the bytes. -/
def remoteChips (l : List Where) : List Nat :=
  (l.filterMap (fun w => match w.2 with | .remote c => some c | _ => none)).eraseDups

/-- Bytes of a list that stand at a chip. -/
def bytesAt (chip : Nat) (l : List Where) : List Nat :=
  ((l.filter (fun w => w.2 = .remote chip)).map (·.1)).eraseDups

/-- A list in parts of `n`, each with its number. -/
def parted {α : Type} (n : Nat) (l : List α) : List (Nat × List α) :=
  (span 0 ((l.length + n - 1) / n)).map (fun i => (i, (l.drop (n * i)).take n))

/-- Every byte can be read now: replicas are held, and other chips have answered. The state asks for what is still missing. -/
def State.readReady (s : State) (g q : Nat) (pc : Word) (home : BitVec 2) (l : List Where) : State × Bool :=
  let held := l.all (fun w => match w.2 with | .replica d _ => s.replicaHas d w.1 | _ => true)
  let s := l.foldl (fun s w => match w.2 with | .replica d lat => if s.replicaHas d w.1 then s else s.want d w.1 lat home | _ => s) s
  (remoteChips l).foldl (fun r c =>
    (parted requestBytes (bytesAt c l)).foldl (fun r e =>
      let id := engineAccess q c e.1 false
      match r.1.requestOf g .a id with
      | none => ((r.1.request g .a id c (e.2.headD 0) (.load 8 e.2) false (r.1.launchOn g) pc).getD r.1, false)
      | some x => (r.1, r.2 && (r.1.response x).isSome)) r) (s, held)

/-- An engine's request for a byte of another chip, and the byte's place in it. -/
def State.requestFor? (s : State) (g q : Nat) (l : List Where) (c a : Nat) : Option (Request × Nat) :=
  let i := (bytesAt c l).findIdx (fun b => b = a)
  (s.requestOf g .a (engineAccess q c (i / requestBytes) false)).map (fun r => (r, i % requestBytes))

/-- The byte at an address by its route. -/
def State.byteOf (s : State) (g q : Nat) (l : List Where) (w : Where) : Nat :=
  match w.2 with
  | .replica d _ => s.replicaAt d w.1
  | .remote c => match s.requestFor? g q l c w.1 with
    | some x => (((s.response x.1).bind (fun b => b[x.2]?)).getD 0).toNat
    | none => 0
  | _ => (s.anyByte w.1).toNat

/-- The byte lies in a poisoned unit, here or at its home, or its read ends with a poisoned TLP (R413, R447). -/
def State.markedAt (s : State) (g q : Nat) (l : List Where) (w : Where) : Bool :=
  match w.2 with
  | .replica d _ => s.replicaBad d w.1
  | .remote c => match s.requestFor? g q l c w.1 with | some x => x.1.marks.contains x.2 | none => false
  | _ => s.poisoned w.1 || (decide (paSpace w.1 = 2) && s.upsets.any (fun u => match u with
      | .poisonTlp h p a => decide (h = g) && decide (p = q) && decide (unitOf a = unitOf w.1)
      | _ => false))

/-- Address and array of the unit that a marked byte lies in (R437). -/
def State.unitName (s : State) (w : Where) : Nat × Nat :=
  match w.2 with
  | .replica _ _ => (s.chip * 2 ^ 52 + memKey w.1 / 8 * 8, 4)
  | .remote _ => (w.1 / unitSize w.1 * unitSize w.1, s.arrayOf w.1)
  | _ => (s.unitAddr w.1, s.arrayOf w.1)

/-- Some home answered an engine's request with an error: its cause, and ADDR and DATA of the record where the access has `a` and `d`
(R417, R437). -/
def State.engineRefused (s : State) (g q : Nat) (a d : Word) : Option (Nat × Word × Word) :=
  (s.fabric.requests.find? (fun r => !r.isSend && decide (r.core = g) && decide (2 ^ 65 ≤ r.access) && decide (engineQueue r.access = q)
    && (s.failure r).isSome)).bind (fun r => (s.failure r).map (fun c =>
      let w := s.errorWords r c a
      (c, w.1, if c = 0x2C ∨ c = 0x2D then w.2 else d)))

/-- The value of an element's bits. -/
def elemValue (byte : Nat → Nat) (eb bit : Nat) : Nat :=
  if 8 ≤ eb then joinUnits 8 ((span (bit / 8) (eb / 8)).map byte) else byte (bit / 8) / 2 ^ (bit % 8) % 2 ^ eb

/-! ### Writing elements -/

/-- Write elements of `eb` bits at bit addresses of this module, whole bytes as one store. -/
def State.putElems (s : State) (eb : Nat) (l : List (Nat × Nat)) : State :=
  if 8 ≤ eb then s.anyStore (l.flatMap (fun e => span (e.1 / 8) (eb / 8))) (l.flatMap (fun e => leBytes (eb / 8) e.2))
  else
    let bytes := (l.map (fun e => e.1 / 8)).eraseDups
    let val (bit : Nat) : Option Nat := (l.reverse.find? (fun e => e.1 = bit)).map (·.2)
    let parts (b : Nat) : List (Option Nat) := (span 0 (8 / eb)).map (fun i => val (8 * b + eb * i))
    let whole := bytes.filter (fun b => (parts b).all Option.isSome)
    let s := s.store whole (whole.map (fun b => BitVec.ofNat 8 (joinUnits eb ((parts b).map (fun v => v.getD 0)))))
    (l.filter (fun e => !whole.contains (e.1 / 8))).foldl (fun s e => s.writeUnit eb (e.1 / eb) e.2) s

/-- Elements to write, by route: those of other chips go by request, with the marks that bytes of theirs take; ready when every home
has answered. -/
def State.writeReady (s : State) (g q : Nat) (pc : Word) (eb : Nat) (l : List (Nat × Route × Nat)) (marks : List Where) : State × Bool :=
  let chips := (l.filterMap (fun e => match e.2.1 with | .remote c => some c | _ => none)).eraseDups
  chips.foldl (fun r c =>
    (parted (requestBytes / 8) (l.filter (fun e => e.2.1 = .remote c))).foldl (fun r part =>
      let id := engineAccess q c part.1 true
      let mine := part.2
      let u := if 8 ≤ eb then 8 else eb
      let addrs := if 8 ≤ eb then mine.flatMap (fun e => span (e.1 / 8) (eb / 8)) else mine.map (fun e => e.1 / eb)
      let val := joinUnits eb (mine.map (fun e => e.2.2))
      let bad := (marks.filter (fun w => decide (w.2 = .remote c) && mine.any (fun e => decide (e.1 / 8 ≤ w.1) && decide (w.1 < (e.1 + max 8 eb) / 8)))).map (·.1)
      match r.1.requestOf g .a id with
      | none => ((r.1.request g .a id c ((unitBytes u (addrs.take 1)).headD 0) (.store u addrs (leBytes ((addrs.length * u + 7) / 8) val) bad) false (r.1.launchOn g) pc).getD r.1, false)
      | some x => (r.1, r.2 && (r.1.response x).isSome)) r) (s, true)

/-- Mark the bytes of a list that stand on this module (R413). -/
def State.markLocal (s : State) (marks : List Where) : State :=
  s.markAll ((marks.filter (fun w => w.2 = .plain)).map (·.1))

/-- Write the elements that stand on this module. -/
def State.writeLocal (s : State) (eb : Nat) (l : List (Nat × Route × Nat)) : State :=
  s.putElems eb ((l.filter (fun e => match e.2.1 with | .remote _ => false | _ => true)).map (fun e => (e.1, e.2.2)))

/-! ### Progress of the head entry -/

/-- Replace the head of the transfer queue. -/
def Core.setHead (c : Core) (x : Transfer) : Core := { c with tq := .work x :: c.tq.tail }

/-- A transfer ends: the CLIP bit of a filled stream, the record of substitutions, its slot (R256, R259, R418). -/
def State.endTransfer (s : State) (g : Nat) (x : Transfer) : State :=
  let load := x.op = .tld || x.op = .tgath
  let s := s.onCore g (fun c =>
    let c := ({ c with tq := c.tq.tail } : Core).leavePages 16
    let c := if load && x.kind = 0 then c.setStream x.target { c.stream x.target with clip := x.clip } else c
    c.clearSlot .a x.slot)
  if x.subs = 0 then s else s.taskFault g .a false 0x2B x.pc x.subAddr (BitVec.ofNat 64 x.subs)

/-- One more part is moved; the last of a tile adds `count` to the byte flag, the last tile ends the entry (R259). -/
def State.advanceTransfer (s : State) (g : Nat) (x : Transfer) (count : Nat) : State :=
  let s := s.dropEngine g 16
  if x.part + 1 < x.parts then s.onCore g (fun c => c.setHead { x with part := x.part + 1 })
  else
    let x := { x with part := 0, done := x.done + 1 }
    let s := (s.onCore g (fun c => c.setHead x)).hwAdd g x.flag (BitVec.ofNat 48 count)
    if x.done < x.tiles then s else s.endTransfer g x

/-- A fault found while the entry is performed: it goes, and what it moved stays (R254, R386). Elements that it has substituted have their
record before (R418). -/
def State.faultTransfer (s : State) (g : Nat) (x : Transfer) (cause : Nat) (addr data : Word) : State :=
  let s := if x.subs = 0 then s else s.taskFault g .a false 0x2B x.pc x.subAddr (BitVec.ofNat 64 x.subs)
  ((s.dropEngine g 16).onCore g (fun c => ({ c with tq := c.tq.tail } : Core).leavePages 16)).taskFault g .a false cause x.pc addr data

/-- The entry waits at the head; in a stopped task nothing will end the wait, so it is cancelled (R409). -/
def State.waitTransfer (s : State) (g : Nat) : State :=
  match (s.core g).task with
  | some t => if t.stopped then s.onCore g (fun c => { c with tq := c.tq.tail }) else s
  | none => s

/-- The access unit halts for a page that the entry at the head of a queue needs (R72, R73). -/
def State.haltUnit (s : State) (g q : Nat) (pc : Word) (ctx tensor page : Nat) : State :=
  (s.requestPage { core := g, queue := q, pc := pc, launch := s.launchOn g } ctx tensor page).onCore g (fun c => { c with unitHalt := some (ctx, tensor, page) })

/-- Elements of the current part. -/
def State.partElems (s : State) (g : Nat) (x : Transfer) (need : Need) : List (Nat × Elem) :=
  let (lo, n) := x.partRange x.part
  (span lo n).map (fun te => (te, s.elemAt g x x.done te need))

/-- The first element that cannot go on: a page to wait for or a fault. -/
def firstStop (l : List (Nat × Elem)) : Option Elem :=
  (l.find? (fun e => match e.2 with | .pageIn _ => true | .walk _ => true | .fault _ _ => true | _ => false)).map (·.2)

/-- Bytes that an element stands in, its scale's included where `scales`. -/
def State.wheres (s : State) (eb : Nat) (scales : Bool) : Elem → List Where
  | .at bit r p bb _ =>
    (elemBytesAt eb bit).map (fun a => (a, r)) ++ ((if scales then scaleByte p eb bb else none).map (fun a => (a, s.areaRoute a))).toList
  | _ => []

/-- Bytes that the elements stand in. -/
def State.elemWheres (s : State) (eb : Nat) (scales : Bool) (l : List (Nat × Elem)) : List Where := l.flatMap (fun e => s.wheres eb scales e.2)

/-- Why some of the bytes cannot be reached (R56, R417, R447, R448). -/
def State.reach (s : State) (ws : List Where) : Option (Nat × Nat × Nat) :=
  (s.offLayout (ws.filterMap (fun w => match w.2 with | .replica _ _ => some w.1 | .register => some w.1 | _ => none))).orElse
    (fun _ => s.unreachable (ws.filterMap (fun w => match w.2 with | .plain => some w.1 | _ => none)))

/-- Why some element cannot be reached, with its address. -/
def State.reachElems (s : State) (eb : Nat) (scales : Bool) (l : List (Nat × Elem)) : Option ((Nat × Nat × Nat) × Word) :=
  l.findSome? (fun e => (s.reach (s.wheres eb scales e.2)).map (fun r => (r, e.2.vaddr)))

/-- Before data moves: a page-in halts the unit, a fault ends the entry, unreachable bytes end it, others are fetched. -/
def State.withElems (s : State) (g : Nat) (x : Transfer) (l : List (Nat × Elem)) (scales : Bool) (body : State → List Where → State) : State :=
  let j : Word := BitVec.ofNat 64 x.done
  match firstStop l with
  | some (.pageIn p) => s.haltUnit g 16 x.pc x.ctx x.desc.tid p
  | some (.walk pa) => s.askTable g .a pa 16
  | some (.fault cause a) => s.faultTransfer g x cause a j
  | _ =>
    match s.reachElems x.desc.eb scales l, s.engineRefused g 16 (x.desc.addrOf (tileStart x.desc x.coords x.done)) j with
    | some (e, a), _ => (s.noteUnreachable g e).faultTransfer g x e.1 (if e.1 = 0x26 then a else BitVec.ofNat 64 e.2.1) (if e.1 = 0x2D then 16 else j)
    | none, some e => s.faultTransfer g x e.1 e.2.1 e.2.2
    | none, none => body s (s.elemWheres x.desc.eb scales l)

/-- An element of a load, ready to deliver: its bits with the page format and scale, a pad, or a poisoned element. -/
inductive Got where
  | pad
  | val (v fmt : Nat) (scale : Option Nat)
  | bad (unit array : Nat) (addr : Word)
  deriving DecidableEq, Repr

/-- Read the elements of a part, as queue `q` asked for them. -/
def State.getElems (s : State) (g q : Nat) (eb : Nat) (scales : Bool) (ws : List Where) (l : List (Nat × Elem)) : List (Nat × Got) :=
  l.map (fun e => match e.2 with
    | .at bit r p bb a =>
      (match (s.wheres eb scales e.2).find? (s.markedAt g q ws) with
       | some u => (e.1, .bad (s.unitName u).1 (s.unitName u).2 a)
       | none =>
         (e.1, .val (elemValue (fun x => s.byteOf g q ws (x, r)) eb bit) p.fmt
           ((if scales then scaleByte p eb bb else none).map (fun x => s.byteOf g q ws (x, s.areaRoute x)))))
    | _ => (e.1, .pad))

/-- The first poisoned element. -/
def firstBadElem (l : List (Nat × Got)) : Option (Nat × Nat × Word) :=
  l.findSome? (fun e => match e.2 with | .bad u y a => some (u, y, a) | _ => none)

/-- Count substituted elements with the address of the first (R418). -/
def Transfer.note (x : Transfer) (l : List (Nat × Got)) : Transfer :=
  let n := (l.filter (fun e => match e.2 with | .bad _ _ _ => true | _ => false)).length
  match firstBadElem l with
  | some (_, _, a) => { x with subs := x.subs + n, subAddr := if x.subs = 0 then a else x.subAddr }
  | none => x
/-- Some element of the part was clipped, pad or substituted (R62, R257, R418). -/
def clipped (l : List (Nat × Got)) : Bool := l.any (fun e => match e.2 with | .val _ _ _ => false | _ => true)

/-! ### Loads -/

/-- A page format for conversion: raw bytes count as UINT8 (R66). -/
def pageType (fmt : Nat) : Nat := if fmt = 14 then 8 else fmt

/-- One lane of a stream load (R66, R89, R418). -/
def Transfer.laneValue (x : Transfer) : Got → Nat
  | .val v fmt scale => streamConvert (pageType fmt) x.lane scale v
  | .bad _ _ _ => if x.desc.pois = 1 then 0 else streamConvert (pageType x.desc.etype.toNat) x.lane none x.desc.pad.toNat
  | .pad => streamConvert (pageType x.desc.etype.toNat) x.lane none x.desc.pad.toNat

/-- A stream load pushes one stream element (R256, R66). -/
def State.loadStream (s : State) (g : Nat) (x : Transfer) : State :=
  if !(s.core g).room x.target then s.waitTransfer g
  else
    let eb := x.desc.eb
    let l := s.partElems g x .load
    s.withElems g x l true (fun s ws =>
      let (s, ok) := s.readReady g 16 x.pc x.desc.home ws
      if !ok then s
      else
        let got := s.getElems g 16 eb true ws l
        match got.find? (fun e => match e.2 with | .val _ _ (some 255) => true | _ => false) with
        | some e => s.faultTransfer g x 0x14 (x.desc.addrOf ((x.coordsAt x.done e.1).getD [])) 0
        | none => match firstBadElem got with
          | some (u, y, _) =>
            if x.desc.pois = 0 ∨ x.desc.pois = 3 then s.faultTransfer g x 0x2C (BitVec.ofNat 64 u) (BitVec.ofNat 64 y)
            else push s got
          | none => push s got)
where
  push (s : State) (got : List (Nat × Got)) : State :=
    let w := regWidth x.lane
    let data : Vec := BitVec.ofNat 1024 (joinUnits w (got.map (fun e => x.laneValue e.2 % 2 ^ w)))
    let x' := { x.note got with clip := x.clip || clipped got }
    (s.onCore g (fun c => let q := c.stream x.target; c.setStream x.target { q with elems := q.elems ++ [⟨x.lane, data⟩] })).advanceTransfer g x' x.desc.tb

/-- Bits of an element as a tile or vault load writes them. -/
def Transfer.rawValue (x : Transfer) : Got → Nat
  | .val v _ _ => v
  | .bad _ _ _ => if x.desc.pois = 1 then 0 else x.desc.pad.toNat
  | .pad => x.desc.pad.toNat

/-- A poisoned element goes on with its bits and its mark (R418, POIS 3). -/
def State.rawElem (s : State) (g : Nat) (eb : Nat) (ws : List Where) : Elem → Nat
  | .at bit r _ _ _ => elemValue (fun a => s.byteOf g 16 ws (a, r)) eb bit
  | _ => 0

/-- Replace elements of a tile register. -/
def Tile.putBits (t : Tile) (eb : Nat) (l : List (Nat × Nat)) : Tile :=
  { t with data := BitVec.ofNat 32768 (l.foldl (fun d e =>
      let sh := 2 ^ (eb * e.1)
      d - d / sh % 2 ^ eb * sh + e.2 % 2 ^ eb * sh) t.data.toNat) }

/-- A tile after part `lo` to `hi` (bits) of a load is written, units at `bad` marked: units that the part covers whole lose their
marks (R412); the last part writes the rest of the 4 KiB zero, from bit `tb`, and sets Full (R255). -/
def Tile.loaded (t : Tile) (eb : Nat) (l : List (Nat × Nat)) (lo hi tb : Nat) (bad : List Nat) (last : Bool) : Tile :=
  let d := (t.putBits eb l).data
  { full := last, data := if last then BitVec.ofNat 32768 (d.toNat % 2 ^ tb) else d,
    poison := ((t.poison.filter (fun u => !(decide (lo ≤ 64 * u) && decide (64 * u + 64 ≤ hi)) && !(last && decide (tb ≤ 64 * u)))) ++ bad).eraseDups }

/-- The vault end of a transfer names a peer vault that has closed since (R52). -/
def State.transferClosed (s : State) (g : Nat) (x : Transfer) : Bool :=
  let h := vaultCore g (BitVec.ofNat 64 x.target)
  decide (x.kind = 2) && decide (h ≠ g) && !(s.core h).serves x.ctx

/-- A load into a tile or the vault moves one part (R255, R413, R418). -/
def State.loadTile (s : State) (g : Nat) (x : Transfer) : State :=
  let n := x.target + x.done
  if x.kind = 1 && ((s.core g).tile n).full then s.waitTransfer g
  else if s.transferClosed g x then s.faultTransfer g x 0x21 (BitVec.ofNat 64 x.target) (BitVec.ofNat 64 x.done)
  else
    let eb := x.desc.eb
    let l := s.partElems g x .load
    s.withElems g x l false (fun s ws =>
      let (s, ok) := s.readReady g 16 x.pc x.desc.home ws
      if !ok then s
      else
        let got := s.getElems g 16 eb false ws l
        match firstBadElem got, decide (x.desc.pois = 0) with
        | some (u, y, _), true => s.faultTransfer g x 0x2C (BitVec.ofNat 64 u) (BitVec.ofNat 64 y)
        | _, _ =>
          let marks := decide (x.desc.pois = 3)
          let vals := (l.zip got).map (fun p => (p.1.1, match p.2.2 with | .bad _ _ _ => if marks then s.rawElem g eb ws p.1.2 else x.rawValue p.2.2 | y => x.rawValue y))
          let bad := got.filterMap (fun e => match e.2 with | .bad _ _ _ => if marks then some e.1 else none | _ => none)
          let x' := if marks then x else x.note got
          let s := if x.kind = 1 then
              let (lo, m) := x.partRange x.part
              s.onCore g (fun c => c.setTile n ((c.tile n).loaded eb vals (lo * eb) ((lo + m) * eb) x.desc.tileBits
                (bad.map (fun e => e * eb / 64)) (decide (x.part + 1 = x.parts))))
            else
              let a : Word := BitVec.ofNat 64 (x.target + x.done * x.desc.tb)
              let base := 8 * vaultAt (vaultCore g a) (vaultOfs a)
              (s.putElems eb (vals.map (fun v => (base + v.1 * eb, v.2)))).markAll (bad.map (fun e => (base + e * eb) / 8))
          s.advanceTransfer g x' x.desc.tb)

/-! ### Stores -/

/-- Elements of a part to write: those that are neither clipped nor pad, with their new bits. -/
def toWrite (l : List (Nat × Elem)) (val : Nat → Elem → Nat) : List (Nat × Route × Nat) :=
  l.filterMap (fun e => match e.2 with
    | .at bit r _ _ _ => some (bit, r, val e.1 e.2)
    | _ => none)

/-- Write a part once other chips have answered for theirs, mark what stood poisoned at the source, and go on. A row of a TSCAT whose
page was not resident at issue seals where it goes to SPACE 2 or 6 (R73, R247; log entry 113). -/
def State.storePart (s : State) (g : Nat) (x : Transfer) (out : List (Nat × Route × Nat)) (marks : List (Nat × Route)) (after : State → State) : State :=
  let s := if x.op = .tscat && out.any (fun e => e.2.1 = .register || (e.2.1 = .plain && decide (paSpace (e.1 / 8) = 2))) then s.onCore g Core.seal else s
  let bad : List Where := marks.flatMap (fun e => (elemBytesAt x.desc.eb e.1).map (fun a => (a, e.2)))
  let (s, ok) := s.writeReady g 16 x.pc x.desc.eb out bad
  if !ok then s
  else after ((s.writeLocal x.desc.eb out).markLocal bad)

/-- An element's page holds E8 scales: no lane is converted into it (R66). Of a page that is not yet resident the entry tells (log
entry 113). -/
def State.scalePage (s : State) (d : Desc) : Elem → Bool
  | .at _ _ p _ _ => decide (p.fmt = 13)
  | .pageIn page => decide ((s.readPage (d.entryAddr page)).fmt = 13)
  | _ => false

/-- A stream store pops one stream element (R256, R66). A tile with some row on a page of FMT 0xD is refused before any byte of it is
written. -/
def State.storeStream (s : State) (g : Nat) (x : Transfer) : State :=
  match ((s.core g).stream x.target).elems with
  | [] => s.waitTransfer g
  | e :: es =>
    let l := s.partElems g x .store
    let tile := if x.indexed && decide (x.part = 0) then (span 0 x.desc.tileElems).map (fun te => (te, s.elemAt g x x.done te .store)) else l
    let wrong := (BitVec.ofNat 64 (e.lane + x.lane * 16) : Word)
    if tile.any (fun y => s.scalePage x.desc y.2) && !(l.any (fun y => match y.2 with | .fault _ _ => true | _ => false)) then
      s.faultTransfer g x 0x0F (BitVec.ofNat 64 x.target) wrong
    else s.withElems g x l false (fun s _ =>
      if e.lane ≠ x.lane then s.faultTransfer g x 0x0F (BitVec.ofNat 64 x.target) wrong
      else
        let w := regWidth x.lane
        let (lo, _) := x.partRange x.part
        let out := toWrite l (fun te y => match y with
          | .at _ _ p _ _ => streamConvert x.lane (pageType p.fmt) none (e.data.toNat / 2 ^ (w * (te - lo)) % 2 ^ w)
          | _ => 0)
        s.storePart g x out [] (fun s =>
          (s.onCore g (fun c => c.setStream x.target { c.stream x.target with elems := es })).advanceTransfer g x x.desc.tb))

/-- A store from a tile or the vault moves one part; marks of its source go with the bytes (R255, R413). -/
def State.storeTile (s : State) (g : Nat) (x : Transfer) : State :=
  let n := x.target + x.done
  if x.kind = 1 && !((s.core g).tile n).full then s.waitTransfer g
  else if s.transferClosed g x then s.faultTransfer g x 0x21 (BitVec.ofNat 64 x.target) (BitVec.ofNat 64 x.done)
  else
    let eb := x.desc.eb
    let l := s.partElems g x .store
    s.withElems g x l false (fun s _ =>
      let a : Word := BitVec.ofNat 64 (x.target + x.done * x.desc.tb)
      let base := 8 * vaultAt (vaultCore g a) (vaultOfs a)
      let t := (s.core g).tile n
      let val (te : Nat) : Nat :=
        if x.kind = 1 then t.data.toNat / 2 ^ (eb * te) % 2 ^ eb else elemValue (fun b => (s.byte b).toNat) eb (base + te * eb)
      let bad (te : Nat) : Bool :=
        if x.kind = 1 then t.poison.contains (te * eb / 64) else (elemBytesAt eb (base + te * eb)).any s.poisoned
      let marks := l.filterMap (fun e => match e.2 with | .at bit r _ _ _ => if bad e.1 then some (bit, r) else none | _ => none)
      s.storePart g x (toWrite l (fun te _ => val te)) marks (fun s =>
        let last := decide (x.part + 1 = x.parts)
        (if x.kind = 1 && last then s.onCore g (fun c => c.setTile n { c.tile n with full := false }) else s).advanceTransfer g x x.desc.tb))

/-! ### Prefetch and scales -/

/-- TPREF: a tile's lines are filled or skipped; only its count shows (R258). -/
def State.prefetch (s : State) (g : Nat) (x : Transfer) : State :=
  s.advanceTransfer g { x with part := x.parts } x.desc.tb

/-- SCLD pushes the scales of one tile (R258). -/
def State.loadScales (s : State) (g : Nat) (x : Transfer) : State :=
  let d := x.desc
  let l := [(0, s.elemAt g x x.done 0 .load)]
  s.withElems g x l false (fun s _ =>
    match l with
    | [(_, .at _ _ p bb a)] =>
      if p.sgeo = 0 then s.faultTransfer g x 0x13 a 0
      else
        let block := sgeoElems p.sgeo * d.eb
        let n := d.tileBits / block
        if 1024 < (s.core g).scales.length + n then s.waitTransfer g
        else
          let ws : List Where := (span (p.scale + bb / block) n).map (fun b => (b, s.areaRoute b))
          match s.reach ws with
          | some e => (s.noteUnreachable g e).faultTransfer g x e.1 (if e.1 = 0x26 then a else BitVec.ofNat 64 e.2.1) (if e.1 = 0x2D then 16 else BitVec.ofNat 64 x.done)
          | none =>
          let (s, ok) := s.readReady g 16 x.pc x.desc.home ws
          if !ok then s
          else match ws.find? (s.markedAt g 16 ws) with
            | some w => s.faultTransfer g x 0x2C (BitVec.ofNat 64 (s.unitName w).1) (BitVec.ofNat 64 (s.unitName w).2)
            | none =>
              (s.onCore g (fun c => { c with scales := c.scales ++ ws.map (fun w => BitVec.ofNat 8 (s.byteOf g 16 ws w)) })).advanceTransfer g
                { x with part := x.parts } n
    | _ => s.advanceTransfer g { x with part := x.parts } 0)

/-- TRANSFER_ENTRY_PERFORM (R259): the head entry moves one part. -/
def execTransferEntryPerform (s : State) : Result :=
  let g := s.ev.core
  .next (match (s.core g).tq with
    | .work x :: _ =>
      (match x.op, x.kind with
       | .tpref, _ => s.prefetch g x
       | .scld, _ => s.loadScales g x
       | .tst, 0 => s.storeStream g x
       | .tscat, 0 => s.storeStream g x
       | .tst, _ => s.storeTile g x
       | .tscat, _ => s.storeTile g x
       | _, 0 => s.loadStream g x
       | _, _ => s.loadTile g x)
    | _ => s)

/-! ### Copies (R260 to R262) -/

/-- COPY_TIME_RELEASE (R262): also as TIME passes; here for a copy whose channel had no room then. -/
def execCopyTimeRelease (s : State) : Result :=
  .next (s.onCore s.ev.core (fun c => c.releaseCopies (s.timeOf s.ev.core)))

/-- A copy leaves its channel: its identifier is no longer live (R261). -/
def Core.endCopy (c : Core) (ch : Nat) (x : Copy) (ok : Bool) : Core :=
  let c := (c.setChannel ch (let q := c.channel ch; { q with queue := q.queue.tail, live := q.live.filter (fun t => decide (t ≠ x.tid)) })).leavePages (17 + ch)
  if ok then c.clearSlot .a x.slot else c

/-- A fault while a copy is performed. -/
def State.faultCopy (s : State) (g ch : Nat) (x : Copy) (cause : Nat) (addr : Word) (data : Word := 0) : State :=
  ((s.dropEngine g (17 + ch)).onCore g (fun c => c.endCopy ch x false)).taskFault g .a false cause x.pc addr data

/-- Check `n` bytes from an address one by one. -/
def State.checkBytes (s : State) (g ctx : Nat) (a : Word) (need : Need) : Nat → LaneCheck
  | n => checkLanes (fun i => s.check g ctx (a + BitVec.ofNat 64 i) 1 1 [0] need) (span 0 n)

/-- Units of checked bytes with their route, the unit width and the address. -/
def copyUnits (l : List (Nat × Target)) : List (Route × Nat × List Nat) := l.map (fun e => (e.2.route, e.2.unit, e.2.addrs))

/-- Bytes of this module or elsewhere that checked units stand in. -/
def unitWheres (l : List (Route × Nat × List Nat)) : List Where :=
  l.flatMap (fun e => (unitBytes e.2.1 e.2.2).map (fun a => (a, e.1)))

/-- HOME of the tensor that checked bytes lie in. -/
def unitsHome (l : List (Nat × Target)) : BitVec 2 := match l with | e :: _ => e.2.home | [] => 0

/-- Why some checked bytes from address `a` cannot be reached; an address outside its space's layout is named by `a` (R56). -/
def State.unitsReach (s : State) (a : Word) (l : List (Route × Nat × List Nat)) : Option (Nat × Nat × Nat) :=
  ((span 0 l.length).zip l).findSome? (fun e => (s.reach ((unitBytes e.2.2.1 e.2.2.2).map (fun b => (b, e.2.1)))).map (fun r =>
    if r.1 = 0x26 then (r.1, (a + BitVec.ofNat 64 e.1).toNat, r.2.2) else r))

/-- The byte that a checked unit holds. -/
def State.unitByte (s : State) (g q : Nat) (ws : List Where) (e : Route × Nat × List Nat) : Nat :=
  if e.2.1 = 8 then s.byteOf g q ws (e.2.2.headD 0, e.1)
  else joinUnits e.2.1 (e.2.2.map (fun u => s.byteOf g q ws (u * e.2.1 / 8, e.1) / 2 ^ (u * e.2.1 % 8) % 2 ^ e.2.1))

/-- Some byte of a checked unit is poisoned. -/
def State.unitMarked (s : State) (g q : Nat) (ws : List Where) (e : Route × Nat × List Nat) : Bool :=
  (unitBytes e.2.1 e.2.2).any (fun a => s.markedAt g q ws (a, e.1))

/-- What writing byte values at checked units writes: the unit width, and bit address, route and value of each. -/
def unitOuts (dst : List (Route × Nat × List Nat)) (vals : List Nat) : Nat × List (Nat × Route × Nat) :=
  let u := match dst with | e :: _ => e.2.1 | [] => 8
  (u, (dst.zip vals).flatMap (fun e =>
    ((span 0 e.1.2.2.length).zip e.1.2.2).map (fun x => (x.2 * e.1.2.1, e.1.1, e.2 / 2 ^ (e.1.2.1 * x.1) % 2 ^ e.1.2.1))))

/-- Bytes to mark: units whose value came from a marked one. -/
def unitMarks (dst : List (Route × Nat × List Nat)) (bad : List Bool) : List Where :=
  (dst.zip bad).flatMap (fun e => if e.2 then (unitBytes e.1.2.1 e.1.2.2).map (fun a => (a, e.1.1)) else [])

/-- Bytes that one event of a copy moves: up to 4,096, ending where a 4,096-byte block of its source ends, so that no element and no
lattice cell is read in two (R67, R260). -/
def Copy.step (x : Copy) : Nat := min (4096 - (x.src.toNat + x.pos) % 4096) (x.count - x.pos)

/-- COPY_ENTRY_PERFORM (R260, R261): the head copy of a channel moves its next bytes. -/
def execCopyEntryPerform (s : State) : Result :=
  let g := s.ev.core
  let ch := s.ev.num
  .next (match ((s.core g).channel ch).queue with
    | .work x :: _ =>
      let n := x.step
      let p : Word := BitVec.ofNat 64 x.pos
      let q := 17 + ch
      (match s.checkBytes g x.ctx (x.src + p) .load n, s.checkBytes g x.ctx (x.dst + p) .store n with
       | .fault _ c a, _ => s.faultCopy g ch x c a
       | .pageIn t pg, _ => s.haltUnit g q x.pc x.ctx t pg
       | .walk pa k, _ => s.askTable g .a pa k
       | .ok _, .fault _ c a => s.faultCopy g ch x c a
       | .ok _, .pageIn t pg => s.haltUnit g q x.pc x.ctx t pg
       | .ok _, .walk pa k => s.askTable g .a pa k
       | .ok src, .ok dst =>
         let home := unitsHome src
         let src := copyUnits src
         let dst := copyUnits dst
         let ws := unitWheres src
         match (s.unitsReach (x.src + p) src).orElse (fun _ => s.unitsReach (x.dst + p) dst), s.engineRefused g q (x.src + p) 0 with
         | some e, _ => (s.noteUnreachable g e).faultCopy g ch x e.1 (BitVec.ofNat 64 e.2.1) (BitVec.ofNat 64 e.2.2)
         | none, some e => s.faultCopy g ch x e.1 e.2.1 e.2.2
         | none, none =>
           let (s, ok) := s.readReady g q x.pc home ws
           if !ok then s
           else
             let bad := unitMarks dst (src.map (s.unitMarked g q ws))
             let (u, out) := unitOuts dst (src.map (s.unitByte g q ws))
             let (s, ok) := s.writeReady g q x.pc u out bad
             if !ok then s
             else
               let s := (((s.writeLocal u out).markLocal bad).dropEngine g q).hwAdd g x.flag (BitVec.ofNat 48 n)
               if x.pos + n < x.count then
                 s.onCore g (fun c => c.setChannel ch (let y := c.channel ch; { y with queue := .work { x with pos := x.pos + n } :: y.queue.tail }))
               else s.onCore g (fun c => c.endCopy ch x true))
    | _ => s)

end Sys2Proof.Machine
end

