-- ==== Sys2Proof/Machine/Sends.lean ====
section
/-! DEFINITION. Sends and collective plans: reading a send's source, its pieces at the destination core, completions, and the
plans that port processors run (R263 to R266, R366, R371, R413, R424, R442, R445). -/

namespace Sys2Proof.Machine

/-! ### Reading a source -/

/-- Bytes of a task's region for queue `q` of its core: a fault, a wait, or the bytes with the positions of poisoned ones. -/
inductive SourceRead where
  | fault (cause : Nat) (addr data : Word)
  | wait
  | bytes (l : List Byte) (marks : List Nat)

/-- Read `n` bytes at an address for queue `q` (R66, R67, R413). -/
def State.readSource (s : State) (g q ctx : Nat) (pc : Word) (a : Word) (n : Nat) : State × SourceRead :=
  match s.checkBytes g ctx a .load n with
  | .fault _ c x => (s, .fault c x 0)
  | .pageIn t p => (s.haltUnit g q pc ctx t p, .wait)
  | .walk pa k => (s.askTable g .a pa k, .wait)
  | .ok l =>
    let home := unitsHome l
    let l := copyUnits l
    let ws := unitWheres l
    match s.unitsReach a l, s.engineRefused g q a 0 with
    | some e, _ => (s.noteUnreachable g e, .fault e.1 (BitVec.ofNat 64 e.2.1) (BitVec.ofNat 64 e.2.2))
    | none, some e => (s, .fault e.1 e.2.1 e.2.2)
    | none, none =>
      let (s, ok) := s.readReady g q pc home ws
      if !ok then (s, .wait)
      else
        (s.dropEngine g q, .bytes (l.map (fun e => BitVec.ofNat 8 (s.unitByte g q ws e)))
          (((span 0 n).zip l).filterMap (fun e => if s.unitMarked g q ws e.2 then some e.1 else none)))

/-! ### Destinations (R263, R371) -/

/-- Why a core does not accept send bytes: it is not present, or runs a task of another context (R263). -/
def State.sendRefused (s : State) (g ctx : Nat) (dst : Word) : Option Nat :=
  let c := s.core g
  if !c.present then some 0x20
  else match c.task with
    | some t => if t.ctx = ctx then none else some (if tensorOf dst = 0 then 0x21 else 0x24)
    | none => none

/-- The first fault of a whole destination; a page still to come is no fault (R424). -/
def State.destFault (s : State) (g ctx : Nat) (dst : Word) (n : Nat) : Option (Nat × Word) :=
  match s.sendRefused g ctx dst with
  | some c => some (c, dst)
  | none => match s.checkBytes g ctx dst .store n with
    | .fault _ c a => some (c, a)
    | _ => none

/-- Positions of a list that fall in `n` from `lo`, counted from `lo`. -/
def marksIn (lo n : Nat) (l : List Nat) : List Nat := l.filterMap (fun m => if lo ≤ m ∧ m < lo + n then some (m - lo) else none)

/-- Put the bytes of a send on their way to a core, in pieces of 32. -/
def State.addPieces (s : State) (p : Piece) : State :=
  let n := p.bytes.length
  let l := (span 0 ((n + 31) / 32)).map (fun i =>
    { p with id := s.fabric.nextPiece + i, dst := p.dst + BitVec.ofNat 64 (32 * i), bytes := (p.bytes.drop (32 * i)).take 32,
             marks := marksIn (32 * i) 32 p.marks })
  s.onFabric (fun f => { f with pieces := f.pieces ++ l, nextPiece := f.nextPiece + l.length })

/-- Pieces that a byte count makes. -/
def pieceCount (n : Nat) : Nat := (n + 31) / 32

/-- The members of a multicast set of a launch (R37). -/
def State.multicastMembers (s : State) (l group : Nat) : List (Nat × Nat) :=
  match s.launch? l with
  | some x => (match x.group? group with | some g => g.members | none => [])
  | none => []

/-- The head of the send queue starts and keeps its place until it is performed (R142). -/
def Core.startHead (c : Core) (x : Send) : Core := { c with sq := .work { x with begun := true } :: c.sq.tail }

/-- The send at the head flies (R265). -/
def State.fly (s : State) (g : Nat) (x : Send) (owed : Nat) : State :=
  s.onCore g (fun c => { c.startHead x with flying := c.flying ++ [{ send := x, core := g, owed := owed, localDone := false }] })

/-- A send that cannot start ends with a fault. -/
def State.dropSend (s : State) (g : Nat) (x : Send) (cause : Nat) (addr data : Word) : State :=
  ((s.dropEngine g 25).onCore g Core.popSend).taskFault g .a false cause x.pc addr data

/-- Requests carry what a send's staging still holds, as far as the limit of outstanding requests lets them (R358, R440). -/
def State.pumpSend (s : State) (g id : Nat) : Nat → State
  | 0 => s
  | fuel + 1 =>
    match (s.core g).flying.find? (fun f => decide (f.send.id = id)) with
    | none => s
    | some f =>
      let x := f.send
      if f.left.isEmpty then s
      else
        let n := min requestBytes f.left.length
        let dst := x.dst + BitVec.ofNat 64 f.leftAt
        match s.request g .a x.id x.chip dst.toNat (.send dst x.gcore x.rflag x.ctx (f.left.take n) (marksIn 0 n f.leftMarks)) true x.launch x.pc with
        | none => s
        | some t => (t.onCore g (fun c => { c with flying := c.flying.map (fun f => if f.send.id = id then
            { f with owed := f.owed + 1, leftAt := f.leftAt + n, left := f.left.drop n, leftMarks := marksIn n f.left.length f.leftMarks } else f) })).pumpSend g id fuel

/-- Requests that a byte count makes at most. -/
def requestCount (n : Nat) : Nat := n / requestBytes + 1

/-- A send starts with its source read: to a core of this chip, to the members of a multicast set, or to another chip. -/
def State.startSend (s : State) (g : Nat) (x : Send) (bytes : List Byte) (marks : List Nat) : State :=
  let p : Piece := { id := 0, core := x.gcore, ctx := x.ctx, dst := x.dst, bytes := bytes, marks := marks, rflag := x.rflag, sender := some (g, x.id) }
  if x.mc then
    let ms := s.multicastMembers x.launch (x.gcore % 256)
    match (ms.filterMap (fun m => s.coreOf x.launch m.1 m.2)).findSome? (fun h => s.destFault h x.ctx x.dst x.count) with
    | some (c, a) => s.dropSend g x c a 0
    | none => ms.foldl (fun s m => s.addPieces { p with member := some (x.launch, m.1, m.2) }) (s.fly g x (ms.length * pieceCount x.count))
  else if x.chip = s.chip then
    match s.destFault x.gcore x.ctx x.dst x.count with
    | some (c, a) => s.dropSend g x c a 0
    | none => (s.fly g x (pieceCount x.count)).addPieces p
  else
    ((s.fly g x 0).onCore g (fun c => { c with flying := c.flying.map (fun f => if f.send.id = x.id then { f with left := bytes, leftMarks := marks } else f) })).pumpSend
      g x.id (requestCount x.count)

/-! ### Plans (R366) -/

/-- A plan begins to close: its status word is to be written (R366). -/
def State.closePlan (s : State) (p : Plan) (failed : Bool) : State :=
  s.onPlan p.core p.send.id (fun p => { p with closing := some failed })

/-- How far a plan's status word has come. -/
inductive StatusWrite where
  | done
  | wait
  | fault (cause : Nat) (addr data : Word)

/-- Write a plan's status word, wherever its page stands: done, OVF, failed (R366). -/
def State.planStatus (s : State) (p : Plan) (failed : Bool) : State × StatusWrite :=
  let g := p.core
  let a : Word := p.send.plan + 0x48
  match s.checkBytes g p.send.ctx a .store 8 with
  | .fault _ c x => (s, .fault c x 0)
  | .pageIn t pg => (s.requestPage { core := g, queue := 31, pc := p.send.pc, launch := p.send.launch } p.send.ctx t pg, .wait)
  | .walk pa k => (s.askTable g .a pa k, .wait)
  | .ok l =>
    let dst := copyUnits l
    match s.unitsReach a dst, s.engineRefused g 31 a 0 with
    | some e, _ => (s.noteUnreachable g e, .fault e.1 (BitVec.ofNat 64 e.2.1) (BitVec.ofNat 64 e.2.2))
    | none, some e => (s.dropEngine g 31, .fault e.1 e.2.1 e.2.2)
    | none, none =>
      let v := 1 + (if p.ovf then 2 else 0) + (if failed then 4 else 0)
      let (u, out) := unitOuts dst ((leBytes 8 v).map BitVec.toNat)
      let (s, ok) := s.writeReady g 31 p.send.pc u out []
      if ok then ((s.writeLocal u out).dropEngine g 31, .done) else (s, .wait)

/-- The plan header is as R366 lays it out. -/
def planOk (a : Word) (h : List Byte) : Bool :=
  let w := fieldAt h 0 8
  decide (a.toNat % 64 = 0) && decide (1 ≤ w % 256) && decide (w % 256 ≤ 64) && decide (w / 256 % 256 ≤ 8) && decide (w / 2 ^ 48 = 0)
    && decide (fieldAt h 0x50 48 = 0)
    && (span 0 8).all (fun i =>
      let c := fieldAt h (8 + 8 * i) 8
      if i < w / 256 % 256 then decide (24 ≤ c % 32) && decide (c / 32 % 2 ^ 47 = 0) else decide (c = 0))

/-- A plan as its port processor reads it; one that is not laid out so fails (log entry 44). -/
def readPlan (g : Nat) (x : Send) (h : List Byte) : Plan :=
  let w := fieldAt h 0 8
  { core := g, send := x, tag := BitVec.ofNat 32 (w / 2 ^ 16),
    circuits := (span 0 (w / 256 % 256)).map (fun i => let c := fieldAt h (8 + 8 * i) 8; (c / 2 ^ 52, c % 32)),
    steps := w % 256, failed := !planOk x.plan h }

/-- The plan of an XCOLL at the head of the send queue starts (R266, R366). -/
def State.startPlan (s : State) (g : Nat) (x : Send) : State :=
  match s.readSource g 25 x.ctx x.pc x.plan 128 with
  | (s, .fault c a d) => s.dropSend g x c a d
  | (s, .wait) => s
  | (s, .bytes h _) => (s.onCore g (fun c => c.startHead x)).onFabric (fun f => { f with plans := f.plans ++ [readPlan g x h] })

/-- Ask for every circuit of a plan, or release every one it holds. -/
def State.planCircuits (s : State) (p : Plan) (release : Bool) : State :=
  (p.circuits.filter (fun c => !release || p.up.contains c.2)).foldl (fun s c => s.askCircuit c.2 c.1 release (.plan p.core p.send.id)) s

/-- A plan leaves its port processor. -/
def State.endPlan (s : State) (p : Plan) : State :=
  (s.onCore p.core (fun c => c.endSend p.send.id)).onFabric (fun f =>
    { f with plans := f.plans.filter (fun q => !(decide (q.core = p.core) && decide (q.send.id = p.send.id))) })

/-- A plan fails: its circuits are released, those still asked for or being set up too, and its status is to be written (R445). -/
def State.failPlan (s : State) (p : Plan) : State :=
  let mine : Asker := .plan p.core p.send.id
  let s := (span 24 8).foldl (fun s i => s.onPort i (fun x =>
    let x := { x with asks := x.asks.filter (fun a => decide (a.asker ≠ mine)) }
    if x.asker = mine ∧ (x.circuit = .setup ∨ x.circuit = .wait ∨ x.circuit = .locking) then
      { x with asker := .none, asks := ⟨x.peer, true, .none⟩ :: x.asks } else x)) s
  let s := p.up.foldl (fun s i => s.askCircuit i (s.fabric.port i).peer true .none) s
  s.closePlan p true

/-- A closing plan's status is written, then it ends: with cause 0x66 and its launch failed, or with its flag and slot (R266, R445). -/
def State.finishPlan (s : State) (p : Plan) (failed : Bool) : State :=
  let fail (s : State) : State := (s.endPlan p).lateFault p.core .a p.send.launch 0x66 p.send.pc 0 0
  if p.mute then fail s
  else match s.planStatus p failed with
    | (s, .wait) => s
    | (s, .fault c a d) => fail (s.lateFault p.core .a p.send.launch c p.send.pc a d)
    | (s, .done) => if failed then fail s else (s.endPlan p).onCore p.core (fun c => (c.hwAdd p.send.flag 1).clearSlot .a p.send.slot)

/-- A step is laid out as R364 and R366 give: [15:12] of every hop entry and the rest of the step are zero. -/
def stepOk (h : List Byte) : Bool :=
  decide (fieldAt h 52 12 = 0) && (span 0 16).all (fun i => decide (fieldAt h (2 * i) 2 < 4096))

/-- Bytes of a step's local write: the field at offset 48. -/
def stepBytes (h : List Byte) : Nat := fieldAt h 48 4

/-- Read step `j` of a plan. -/
def State.planStep (s : State) (p : Plan) (j : Nat) : State × SourceRead :=
  s.readSource p.core 26 p.send.ctx p.send.pc (p.send.plan + BitVec.ofNat 64 (0x80 + 64 * j)) 64

/-- Bytes of a step that one route-carrying packet holds beside its hop entries: whole elements, within 256 flits (R358, R364). -/
def stepPart : Nat := 61396

/-- Run step `next`: its source bytes leave in route-carrying packets (R364, R366). -/
def State.runStep (s : State) (p : Plan) : State :=
  let fail (s : State) (c : Nat) (a d : Word) : State := (s.failPlan p).lateFault p.core .a p.send.launch c p.send.pc a d
  match s.planStep p p.next with
  | (s, .fault c a d) => fail s c a d
  | (s, .wait) => s
  | (s, .bytes h _) =>
    if !stepOk h then s.failPlan p
    else
    let n := stepBytes h
    let after (s : State) : State := s.onPlan p.core p.send.id (fun p => { p with next := p.next + 1 })
    if n = 0 then after s
    else match s.readSource p.core 26 p.send.ctx p.send.pc (p.send.src + BitVec.ofNat 64 (fieldAt h 32 8)) n with
      | (s, .fault c a d) => fail s c a d
      | (s, .wait) => s
      | (s, .bytes l _) =>
        after ((parted stepPart l).foldl (fun s e =>
          s.inject { kind := .collective, src := 0, dst := s.chip, route := (span 0 16).map (fun i => BitVec.ofNat 16 (fieldAt h (2 * i) 2)),
                     payload := e.2, wire := p.send.wire, tag := p.tag, step := p.next, offset := stepPart * e.1 }) s)

/-- The local write of every step is performed (log entry 45). -/
def State.planWritten (s : State) (p : Plan) : Bool :=
  (span 0 p.steps).all (fun j => match (s.planStep p j).2 with
    | .bytes h _ => (span 0 ((stepBytes h + stepPart - 1) / stepPart)).all (fun i => p.written.contains (j, stepPart * i))
    | _ => false)

/-- A collective packet that is delivered here is written where its step says, and its OVF is kept (R364 to R366). -/
def State.planDelivery (s : State) (p : Plan) (k : Packet) : State × Bool :=
  match s.planStep p k.step with
  | (_, .bytes h _) =>
    let dst : Word := p.send.dst + BitVec.ofNat 64 (fieldAt h 40 8 + k.offset)
    (match s.checkBytes p.core p.send.ctx dst .store k.payload.length with
     | .ok l =>
       let (u, out) := unitOuts (copyUnits l) (k.payload.map BitVec.toNat)
       let (s, ok) := s.writeReady p.core 27 p.send.pc u out []
       if !ok then (s, false)
       else (((s.writeLocal u out).dropEngine p.core 27).onPlan p.core p.send.id (fun p =>
         { p with ovf := p.ovf || k.ovf, written := p.written ++ [(k.step, k.offset)] }), true)
     | .pageIn t pg => (s.requestPage { core := p.core, queue := 27, pc := p.send.pc, launch := p.send.launch } p.send.ctx t pg, false)
     | .walk pa k => (s.askTable p.core .a pa k, false)
     | .fault _ c a => ((s.failPlan p).lateFault p.core .a p.send.launch c p.send.pc a 0, true))
  | _ => (s, false)

/-! ### Events -/

/-- SEND_START (R265). -/
def execSendStart (s : State) : Result :=
  let g := s.ev.core
  .next (match (s.core g).sq with
    | .work x :: _ =>
      if x.begun then s
      else if x.coll then s.startPlan g x
      else (match s.readSource g 25 x.ctx x.pc x.src x.count with
        | (s, .fault c a d) => s.dropSend g x c a d
        | (s, .wait) => s
        | (s, .bytes l m) => s.startSend g x l m)
    | _ => s)

/-- Local completion: the flag, the slot (R265). -/
def State.sendDone (s : State) (g : Nat) (x : Send) : State :=
  s.onCore g (fun c => (({ c with flying := c.flying.map (fun f => if f.send.id = x.id then { f with localDone := true } else f) } : Core).hwAdd x.flag
    (BitVec.ofNat 48 x.count)).clearSlot .a x.slot)

/-- SEND_LOCAL_COMPLETION (R265): a ZC = 0 send whose bytes are all read. -/
def execSendLocalCompletion (s : State) : Result :=
  let g := s.ev.core
  .next (match (s.core g).flying.find? (fun f => f.send.id = s.ev.num) with
    | some f => if f.localDone || f.send.zc then s else s.sendDone g f.send
    | none => s)

/-- SEND_ACK (R265): every destination has acknowledged every byte. -/
def execSendAck (s : State) : Result :=
  let g := s.ev.core
  let s := (s.settleRequests).pumpSend g s.ev.num 1024
  .next (match (s.core g).flying.find? (fun f => f.send.id = s.ev.num) with
    | some f =>
      if !f.left.isEmpty || f.owed ≠ 0 || (!f.localDone && !f.send.zc) then s
      else (if f.localDone then s else s.sendDone g f.send).onCore g (fun c => c.endSend f.send.id)
    | none => s)

/-- The launch and the instruction of the send of this chip that a piece belongs to (R442). -/
def State.pieceSender (s : State) (p : Piece) : Nat × Word :=
  match p.sender.bind (fun e => (s.core e.1).flying.find? (fun f => decide (f.send.id = e.2))) with
  | some f => (f.send.launch, f.send.pc)
  | none => (0, 0)

/-- Perform a piece at a core: its bytes, their marks, its part of RFLAG's addition (R144, R263, R371, R413). -/
def State.deliverPiece (s : State) (p : Piece) (g : Nat) : State :=
  match s.sendRefused g p.ctx p.dst with
  | some c => s.failPiece p c p.dst
  | none => match s.checkBytes g p.ctx p.dst .store p.bytes.length with
    | .fault _ c a => s.failPiece p c a
    | .pageIn t pg => s.requestPage { core := g, launch := s.launchOn g } p.ctx t pg
    | .walk pa k => s.askTable g .a pa k
    | .ok l =>
      let dst := copyUnits l
      let q := 64 + p.id
      match s.unitsReach p.dst dst, s.engineRefused g q p.dst 0 with
      | some e, _ => (s.noteUnreachable g e).failPiece p e.1 (BitVec.ofNat 64 e.2.1) (BitVec.ofNat 64 e.2.2)
      | none, some e => (s.dropEngine g q).failPiece p e.1 e.2.1 e.2.2
      | none, none =>
        let (u, out) := unitOuts dst (p.bytes.map BitVec.toNat)
        let bad := unitMarks dst ((span 0 p.bytes.length).map (fun i => p.marks.contains i))
        let (s, ok) := s.writeReady g q (s.pieceSender p).2 u out bad
        if !ok then s
        else
          let s := ((s.writeLocal u out).markLocal bad).dropEngine g q
          let mine := match (s.core g).task with | some t => decide (t.ctx = p.ctx) | none => false
          (if mine then s.hwAdd g p.rflag (BitVec.ofNat 48 p.bytes.length) else s).donePiece p

/-- SEND_DELIVERY (R371): piece `k` is performed at its core; a member without a running task receives nothing (R263). -/
def execSendDelivery (s : State) : Result :=
  .next (match s.fabric.pieces[s.ev.num]? with
    | none => s
    | some p => match p.member with
      | none => s.deliverPiece p p.core
      | some (l, st, i) => match s.coreOf l st i with
        | some g => s.deliverPiece p g
        | none => s.donePiece p)

/-- COLLECTIVE_PLAN_RUN (R366): the plan's circuits, its steps in order, then its completion (R266). -/
def execCollectivePlanRun (s : State) : Result :=
  .next (match s.fabric.plans[s.ev.num]? with
    | none => s
    | some p =>
      match p.closing with
      | some failed => s.finishPlan p failed
      | none =>
      if p.failed then s.failPlan p
      else if !p.asked then (s.onPlan p.core p.send.id (fun p => { p with asked := true })).planCircuits p false
      else if p.up.length < p.circuits.length then s
      else if p.next < p.steps then s.runStep p
      else if !p.released then
        if s.planWritten p then (s.onPlan p.core p.send.id (fun p => { p with released := true })).planCircuits p true else s
      else if p.down.length < p.circuits.length then s
      else s.closePlan p false)

end Sys2Proof.Machine
end

