-- ==== Sys2Proof/Machine/OpticsEvents.lean ====
section
/-! DEFINITION. The optical engine: sequencers and segments, windows of a core, calibrations, lasers (chapter 5, R97 to R122, R269,
R296 to R300, R389 to R391, R419, R430 to R433). -/

namespace Sys2Proof.Machine

/-! ### Columns of activations (R100, R101) -/

/-- A column is bad, or holds numbers by symbol. -/
inductive Column where
  | nonFinite
  | values (l : List Num)

/-- |x| ≤ 31 × 2^k. -/
def within31 (k : Int) : Num → Bool
  | .fin _ m e => if k ≤ e then decide (m * 2 ^ (e - k).toNat ≤ 31) else decide (m ≤ 31 * 2 ^ (k - e).toNat)
  | _ => false

/-- ea of a column: the smallest exponent that brings every magnitude to at most 31, at least −126 (R100). -/
def columnExp (l : List Num) : Int :=
  match maxLog2 l with
  | none => -126
  | some f =>
    let ok (k : Int) : Bool := l.all (within31 k)
    let k := if ok (f - 5) then f - 5 else if ok (f - 4) then f - 4 else f - 3
    if k < -126 then -126 else k

/-- One activation code (R100). -/
def actCode (ea : Int) : Num → Int
  | .fin n m e => saturate (roundInt 0 n m (e - ea)).1 (-31) 31
  | _ => 0

/-- ea and the codes of a column (R100, R101). -/
def actColumn (t : Nat) : Column → Int × List Int
  | .nonFinite => (-128, (span 0 t).map (fun _ => 0))
  | .values l => let ea := columnExp l; (ea, l.map (actCode ea))

/-- The signed weight of symbol `t` in a reference mode (R119). -/
def refWeight (mode t : Nat) : Int := if mode = 0 then 1 else if mode = 1 then (if t % 2 = 0 then 1 else -1) else 0
/-- Σ of a column's codes by reference weights of ±1. -/
def refSum (mode : Nat) (codes : List Int) : Int := ((span 0 codes.length).zip codes).foldl (fun n e => n + refWeight mode e.1 * e.2) 0

/-- What a read of activations met. -/
structure ActRead where
  cols : List Column
  /-- Elements whose unit is poisoned, with the address of the first, and whether some E8 scale was 0xFF. -/
  bad : Nat := 0
  badAddr : Word := 0
  /-- The address of the first element whose E8 scale is 0xFF. -/
  badScale : Option Word := none

/-- The outcome of forming a segment's codes. -/
inductive Codes where
  | wait
  | fault (cause : Nat) (addr data : Word)
  | ready (r : ActRead)

/-- An element as the sequencer, an agent outside the compute dies, reads it (R67). -/
def Elem.atKeystone : Elem → Elem
  | .at bit r p bb a => .at bit r.atKeystone p bb a
  | e => e

/-- Read segment `j` of a BCAST from its source tensor: pages to come and other chips make it wait (R100, R269). DESIGN CHOICE (log entry
133), unsafe: R269's checks at issue do not name the source's descriptor; one found invalid as the codes are formed is a translation
fault, 0x24, since R383 has 0x11 as precise only. -/
def State.formCodes (s : State) (b : Bcast) (j : Nat) : State × Codes :=
  if !s.tableHeld (s.descAddr b.ctx b.tensor) 64 then (s.askTable b.core .a (s.descAddr b.ctx b.tensor) 64, .wait)
  else match s.desc? b.ctx b.tensor with
  | none => (s, .fault 0x24 (flatAt b.tensor 0) 0)
  | some d =>
    if d.rank ≠ 2 then (s, .fault 0x24 (flatAt b.tensor 0) 0)
    else
      let lanes := (span 0 32).filter (fun i => b.mask.getLsbD i)
      let pts := lanes.flatMap (fun i => (span 0 b.t).map (fun t => s.pointAt s.freeCtr b.core b.ctx d [b.k0 + j * b.t + t, i] .load))
      let l := (span 0 pts.length).zip (pts.map Elem.atKeystone)
      match firstStop l with
      | some (.pageIn p) => (s.requestPage { core := b.core, queue := 32 + b.bus, pc := b.pc, launch := b.launch } b.ctx b.tensor p, .wait)
      | some (.walk pa) => (s.askTable b.core .a pa 16, .wait)
      | some (.fault c a) => (s, .fault c a 0)
      | _ =>
        let ws := s.elemWheres d.eb true l
        let q := 32 + b.bus
        match s.reachElems d.eb true l, s.engineRefused b.core q (flatAt b.tensor 0) 0 with
        | some (e, a), _ => (s.noteUnreachable b.core e, .fault e.1 (if e.1 = 0x26 then a else BitVec.ofNat 64 e.2.1) (BitVec.ofNat 64 e.2.2))
        | none, some e => (s, .fault e.1 e.2.1 e.2.2)
        | none, none =>
          let (s, ok) := s.readReady b.core q b.pc d.home ws
          if !ok then (s, .wait)
          else
            let got := s.getElems b.core q d.eb true ws l
            let col (k : Nat) : Column :=
              let mine := (got.drop (k * b.t)).take b.t
              if mine.any (fun e => match e.2 with | .bad _ _ _ => true | .val _ _ (some 255) => true | _ => false) then .nonFinite
              else
                let vals := mine.map (fun e => match e.2 with
                  | .val v fmt scale => (readNum (pageType fmt) false v).scaled (scale.getD 127)
                  | _ => .fin false 0 0)
                if vals.any (fun v => match v with | .fin _ _ _ => false | _ => true) then .nonFinite else .values vals
            let cols := (span 0 32).map (fun i => if b.mask.getLsbD i then col (lanes.findIdx (fun x => x = i)) else .values ((span 0 b.t).map (fun _ => .fin false 0 0)))
            let bads := got.filter (fun e => match e.2 with | .bad _ _ _ => true | _ => false)
            (s.dropEngine b.core q,
             .ready { cols := cols, bad := bads.length, badAddr := (match firstBadElem got with | some (_, _, a) => a | none => 0),
                      badScale := (l.zip got).findSome? (fun e => match e.2.2 with | .val _ _ (some 255) => some e.1.2.vaddr | _ => none) })

/-- The marker frame and codes of a segment (R99 to R101, R119). -/
def frameOf (b : Bcast) (j : Nat) (re : Option Nat) (r : ActRead) : Frame :=
  let cols := r.cols.map (actColumn b.t)
  { seg := b.n0 + BitVec.ofNat 32 j, t := b.t, div := b.div, mask := b.mask, ea := cols.map (·.1), re := re, ref := b.ref,
    rs := ((span 0 32).zip cols).map (fun e => if b.mask.getLsbD e.1 && decide (e.2.1 ≠ -128) then refSum b.ref e.2.2 else 0),
    codes := cols.map (·.2) }

/-- The record of substituted activations is against the BCAST's task, whether it runs still or has left its core (R419). -/
def State.substituted (s : State) (b : Bcast) (addr data : Word) : State :=
  let mine := match (s.core b.core).task with | some t => decide ((t.launch, t.stage, t.tidx) = (b.launch, b.stage, b.tidx)) | none => false
  if mine then s.taskFault b.core .a false 0x2B b.pc addr data
  else s.enter { s.deviceRecord (dieOf b.core) 0x2B addr data with
    tag := s.tagOf b.launch, ctx := b.ctx, tv := true, strand := 1, stg := b.stage, gcore := b.core, tidx := b.tidx, pc := b.pc }

/-- Records of bad activations (R100, R419). -/
def State.actRecords (s : State) (b : Bcast) (r : ActRead) : State :=
  let s := if r.bad = 0 then s else s.substituted b r.badAddr (BitVec.ofNat 64 r.bad)
  match r.badScale with | some a => s.lateFault b.core .a b.launch 0x14 b.pc a 0 | none => s

/-! ### Arms (R112, R117) -/

/-- The head of a core's window queue. -/
def Core.headWindow (c : Core) : Option Window := match c.oq with | .work (.window w) :: _ => some w | _ => none
/-- Change the head window. -/
def Core.onHead (c : Core) (f : Window → Window) : Core :=
  match c.oq with
  | .work (.window w) :: rest => { c with oq := .work (.window (f w)) :: rest }
  | _ => c

/-- A core's head window is ready for segment `n` of a bus. -/
def Core.armedFor (c : Core) (bus : Nat) (n : BitVec 32) : Bool :=
  match c.headWindow with
  | some w => w.ready && decide (w.bus = bus) && decide (w.seg = n)
  | none => false

/-- The task of a group member has ended (R112): its stage has given out its index and neither runs nor holds it again, or will
give out no more. -/
def State.memberEnded (s : State) (l st i : Nat) : Bool :=
  match s.launch? l with
  | none => true
  | some x => match x.stages[st]? with
    | none => true
    | some y => (s.coreOf l st i).isNone && !y.requeued.any (fun r => decide (r.task.tidx = i))
        && !s.cores.any (fun c => match c.2.staged with | some t => t.launch = l && t.stage = st && t.tidx = i | none => false)
        && (y.completed || (decide (i < y.nextIdx) && !y.returned.contains i))

/-- Every member of an arm set whose task has not ended is armed for a segment (R112). -/
def State.setArmed (s : State) (l group bus : Nat) (n : BitVec 32) : Bool :=
  match s.launch? l with
  | none => true
  | some x => match x.group? group with
    | none => true
    | some g => g.members.all (fun m => s.memberEnded l m.1 m.2 ||
        (match s.coreOf l m.1 m.2 with | some c => (s.core c).armedFor bus n | none => false))

/-- The cores of an arm set's running members. -/
def State.setCores (s : State) (l group : Nat) : List Nat :=
  match s.launch? l with
  | some x => (match x.group? group with | some g => g.members.filterMap (fun m => s.coreOf l m.1 m.2) | none => [])
  | none => []

/-- The local arm set of a remote bus is armed for a segment: the chip to tell, and its bus (R117). -/
def State.remoteSetArmed (s : State) (bus : Nat) (n : BitVec 32) : Option (Nat × Nat) :=
  match (s.bus bus).armSet with
  | some (ctx, head, group, chip, k) =>
    (match s.launches.find? (fun l => l.ctx = ctx && decide (l.head = head) && decide (l.state = .running)) with
     | some l => if s.setArmed l.id group bus n then some (chip, k) else none
     | none => none)
  | none => none

/-- Send the arm flit of a remote bus to the module whose outbound fibre enters it, naming the bus there (R17, R117). -/
def State.sendArm (s : State) (bus : Nat) (n : BitVec 32) : State :=
  match s.remoteSetArmed bus n with
  | some (chip, k) => (s.injectControl { kind := .arm, src := 0, dst := chip, addr := k, tag := n }).onBus bus
      (fun x => { x with armSent := some (n, (s.die 8).time.toNat) })
  | none => s

/-! ### SKW at the commit (R121, R431) -/

/-- SKW 0 says a trim within the last 10 ms: past them, the core's drift is measured before the next commit (R121). -/
def State.driftOwed (s : State) (g : Nat) (c : Core) : Bool :=
  c.present && decide (c.skw = 0) && decide (c.trimmedAt + 10000000 < (s.die (dieOf g)).time.toNat)

/-- A commit would find SKW at 2 on this core, which has not run TRIM for it yet (R431). -/
def Core.trimFirst (c : Core) (k : Nat) (n : BitVec 32) : Bool :=
  c.armedFor k n && decide (c.skw = 2) && (match c.headWindow with | some w => !w.trimmed | none => false)

/-- TRIM runs ahead of the head window (R431). -/
def Core.oweTrim (c : Core) : Core := ({ c with owedCal := some false } : Core).onHead (fun w => { w with ready := false, trimmed := true })

/-! ### Missed windows and re-emission (R113, R116) -/

/-- A kept BCAST that covers a segment, and which of its segments it is. -/
def Bus.keptFor (b : Bus) (n : BitVec 32) : Option (Bcast × Nat) :=
  (b.kept.find? (fun j => decide ((n - j.cmd.n0).toNat < j.cmd.n))).map (fun j => (j.cmd, (n - j.cmd.n0).toNat))

/-- The record of a window's fault, and its recovery; the window leaves the queue (R300, R437). -/
def State.windowFault (s : State) (g : Nat) (w : Window) (cause : Nat) : State :=
  (s.onCore g (fun c => { c with oq := c.oq.tail })).taskFault g .o false cause w.pc (opticAddr w.bus w.seg) (BitVec.ofNat 64 w.number)

/-- A head window that its segment has passed: the sequencer sends it again for this core, or the window faults (R113, R116). On a
remote bus the event says whether the source module will send it again; where not, the window faults (log entry 48). -/
def State.missed (s : State) (g : Nat) (w : Window) : State :=
  if 4 ≤ w.bus then (if s.ev.flag then s else s.windowFault g w 0x42)
  else if (s.bus w.bus).wanted.contains (g, w.seg) then s
  else if ((s.bus w.bus).keptFor w.seg).isSome then s.onBus w.bus (fun b => { b with wanted := b.wanted ++ [(g, w.seg)] })
  else s.windowFault g w 0x42

/-- A first emission of this segment is still on its way to the core. -/
def Bus.onWay (b : Bus) (g : Nat) (n : BitVec 32) : Bool :=
  b.flights.any (fun f => decide (f.frame.seg = n) && f.frame.re.isNone && !f.reached.contains g)

/-- The bus has emitted this segment or a later one at first emission. -/
def Bus.passed (b : Bus) (n : BitVec 32) : Bool := match b.lastEmitted with | some e => decide (e = n) || after e n | none => false

/-! ### Sequencer events -/

/-- A frame leaves on the bus; an error that waits for its segment spoils this one frame (R433). -/
def State.launchFrame (s : State) (k : Nat) (f : Frame) (cmd : Option Bcast) : State :=
  let bad := s.upsets.contains (.badMarker k f.seg)
  ({ s with upsets := s.upsets.erase (.badMarker k f.seg) } : State).onBus k (fun x =>
    { x with flights := x.flights ++ [{ frame := { f with crcOk := !bad }, cmd := cmd,
                                        skws := (s.cores.map (fun c => (c.1, c.2.skw))).filter (fun e => decide (e.2 ≠ 3)) }] })

/-- BCAST_ACCEPT (R102, R269). -/
def execBcastAccept (s : State) : Result :=
  let g := s.ev.core
  .next (match (s.core g).bq with
    | .work b :: _ =>
      let t := s.onCore g (fun c => ({ c with bq := c.bq.tail } : Core).clearSlot .a b.slot)
      if (match (s.bus b.bus).lastQueued with | some l => after b.n0 l | none => true) = true then
        t.onBus b.bus (fun x => { x with lastQueued := some (b.n0 + BitVec.ofNat 32 (b.n - 1)), jobs := x.jobs ++ [{ cmd := b }],
                                         kept := (x.kept ++ [({ cmd := b } : Job)]).drop (x.kept.length + 1 - 64) })
      else t.taskFault g .a false 0x43 b.pc (opticAddr b.bus b.n0) 0
    | _ => s)

/-- A job ends with a fault found as its codes were formed. -/
def State.failJob (s : State) (b : Bcast) (cause : Nat) (addr data : Word) : State :=
  ((s.dropEngine b.core (32 + b.bus)).onBus b.bus (fun x => { x with jobs := x.jobs.tail })).lateFault b.core .a b.launch cause b.pc addr data

/-- SEGMENT_EMISSION_COMMIT (R112, R116, R121, R431, R432): no re-emission is asked for, every arm is counted, the codes are formed, the
laser has power. A core whose window would be committed with SKW 2 runs TRIM first. -/
def execSegmentEmissionCommit (s : State) : Result :=
  let k := s.ev.num
  let x := s.bus k
  .next (match x.jobs with
    | [] => s
    | j :: rest =>
      let b := j.cmd
      let n := b.n0 + BitVec.ofNat 32 j.next
      if x.lpc = 3 || !x.wanted.isEmpty || !s.setArmed b.launch b.group k n
          || !(x.subs.all (fun e => decide (e.2 = 0) || x.arms.contains (n, e.2 - 1))) || s.cores.any (fun c => s.driftOwed c.1 c.2) then s
      else if s.cores.any (fun c => c.2.trimFirst k n) then s.mapCores (fun _ c => if c.trimFirst k n then c.oweTrim else c)
      else match s.formCodes b j.next with
        | (s, .wait) => s
        | (s, .fault c a d) => s.failJob b c a d
        | (s, .ready r) =>
          let f := frameOf b j.next none r
          let s := (s.setCores b.launch b.group).foldl (fun s g =>
            if (s.core g).armedFor k n then s.onCore g (fun c => c.onHead (fun w => { w with begun := true })) else s) s
          ((s.launchFrame k f (some b)).onBus k (fun x => { x with
            lastEmitted := some n, arms := x.arms.filter (fun a => decide (a.1 ≠ n)),
            jobs := if j.next + 1 < b.n then { j with next := j.next + 1 } :: rest else rest })).actRecords b r)

/-- RE_EMISSION (R116); after a loss of power, once the laser reads LPC 0 or 1 (R432). -/
def execReEmission (s : State) : Result :=
  let k := s.ev.num
  let g := s.ev.core
  let x := s.bus k
  .next (match x.wanted.find? (fun e => e.1 = g) with
    | none => s
    | some (_, n) =>
      let drop (s : State) : State := s.onBus k (fun x => { x with wanted := x.wanted.filter (fun e => decide (e ≠ (g, n))) })
      match x.keptFor n with
      | none => (match (s.core g).headWindow with
        | some w => if w.bus = k ∧ w.seg = n ∧ !w.begun then (drop s).windowFault g w 0x42 else drop s
        | none => drop s)
      | some (b, j) =>
        if x.lpc = 3 || x.dark || s.cores.any (fun c => s.driftOwed c.1 c.2) then s
        else match s.formCodes b j with
          | (s, .wait) => s
          | (s, .fault c a d) => (drop s).lateFault b.core .a b.launch c b.pc a d
          | (s, .ready r) =>
            ((drop s).launchFrame k (frameOf b j (some g) r) none).actRecords b r)

/-- SEGMENT_SENT (R269): the oldest segment's last symbol is sent once its marker has reached every core that waits on the bus.
DEDUCED (log entry 107), unsafe: AT.flag is counted where a task of the BCAST's launch runs on its core, whether or not the BCAST's own
task was discarded or ended meanwhile; R47 and R269 do not say. -/
def execSegmentSent (s : State) : Result :=
  let k := s.ev.num
  .next (match (s.bus k).flights with
    | [] => s
    | f :: rest =>
      let waiting (c : Core) : Bool := match c.headWindow with | some w => decide (w.bus = k) && w.frame.isNone | none => false
      if s.cores.any (fun c => waiting c.2 && !f.reached.contains c.1) then s
      else
        let s := s.onBus k (fun x => { x with flights := rest })
        match f.cmd with
        | some b => if s.launchOn b.core = b.launch ∧ (s.core b.core).task.isSome then s.hwAdd b.core b.flag 1 else s
        | none => s)

/-- A subscribed module's arm for a segment: one per module and segment (R117, R443). -/
def State.armFrom (s : State) (bus : Nat) (n : BitVec 32) (chip : Nat) : State :=
  s.onBus bus (fun x =>
    if x.subs.any (fun e => decide (e.2 = chip + 1)) && !x.arms.contains (n, chip) && !x.passed n then { x with arms := x.arms ++ [(n, chip)] } else x)

/-- REMOTE_ARM_FLIT (R117, R443). -/
def execRemoteArmFlit (s : State) : Result := .next (s.armFrom s.ev.num (BitVec.ofNat 32 s.ev.num2) s.ev.num3)

/-- ARM_FLIT_RESEND (R443): 20 µs after the last arm, until the marker frame of its segment arrives. -/
def execArmFlitResend (s : State) : Result :=
  .next (match (s.bus s.ev.num).armSent with
    | none => s
    | some (n, at_) => if (s.bus s.ev.num).passed n ∨ (s.die 8).time.toNat < at_ + 20000 then s else s.sendArm s.ev.num n)

/-! ### Windows -/

/-- A window consumes a bad unit (R391, R413). -/
def State.windowError (s : State) (g : Nat) (w : Window) (addr array : Nat) (kept : Bool) : State :=
  if kept && (s.core g).owin.canReplay then
    (s.stopFor g .o 2).enter { s.taskRecord g .o false 0x2A 2 w.pc (BitVec.ofNat 64 addr) (BitVec.ofNat 64 ((s.core g).owin.replays + 1)) with
      sequel := .replay [g] true }
  else (s.onCore g (fun c => { c with oq := c.oq.tail })).taskFault g .o false 0x2C w.pc (BitVec.ofNat 64 addr) (BitVec.ofNat 64 array)

/-- The weight-fetch path fetches a head window's ew bytes and its codes up to symbol `n` (R104, R298); a bad unit is consumed
(R413). -/
def State.fetchWeights (s : State) (g : Nat) (w : Window) (n : Nat) : Except State State :=
  let p := rowPitch w.t
  let ews := if w.ew.isEmpty then span (vaultAt g (w.weights + w.rows * p)) w.rows else []
  let cols := (span w.cols.length (n - w.cols.length)).map (fun t => (span 0 w.rows).map (fun i => vaultAt g (w.weights + i * p + t)))
  match (ews ++ cols.flatten).find? s.poisoned with
  | some a => .error (s.windowError g w (s.unitAddr a) 0 true)
  | none => .ok (s.onCore g (fun c => c.onHead (fun w =>
      { w with ew := if w.ew.isEmpty then s.load ews else w.ew, cols := w.cols ++ cols.map s.load })))

/-- WINDOW_HEAD_READY (R111, R298, R431): the receivers are tuned, no calibration runs or is owed; a segment already past is
missed. A marked window opens its command window before it is ready (R389). -/
def execWindowHeadReady (s : State) : Result :=
  let g := s.ev.core
  let c := s.core g
  .next (match c.headWindow with
    | none => s
    | some w =>
      if w.ready && !w.begun && decide (4 ≤ w.bus) && (s.bus w.bus).passed w.seg && !(s.bus w.bus).onWay g w.seg then s.missed g w
      else if w.ready || c.calibrating.isSome || c.owedCal.isSome then s
      else if c.skw = 2 && !w.trimmed then s.onCore g Core.oweTrim
      else
        let s := s.onCore g (fun c =>
          let c := if w.tsm && (!c.owin.isOpen || !c.owin.entries.isEmpty) && decide (c.owin.quiet = 0) then { c.closeOwin with owin := { isOpen := true } } else c
          ({ c with tuned := some w.bus, owin := c.owin.limited [] } : Core).onHead (fun w => { w with ready := true }))
        match s.fetchWeights g w (min w.t 32) with
        | .error s => s
        | .ok s =>
        let s := if 4 ≤ w.bus then s.sendArm w.bus w.seg else s
        let b := s.bus w.bus
        if b.passed w.seg && !b.onWay g w.seg then s.missed g w else s)

/-- A marker frame reaches a core's head window (R113, R116, R433). -/
def State.arrive1 (s : State) (g k : Nat) (f : Frame) (skw : BitVec 2) (w : Window) : State :=
  let mine := match f.re with | some c => decide (c = g) | none => true
  if w.bus ≠ k || !mine || w.frame.isSome then s
  else if w.seg = f.seg then
    if !w.ready then (if f.re.isSome then s else s.missed g w)
    else if !f.crcOk then s.windowFault g w 0x45
    else if w.t ≠ f.t ∨ w.div ≠ f.div then s.windowFault g w 0x40
    else s.onCore g (fun c => c.onHead (fun w => { w with begun := true, frame := some f, skw := skw }))
  else if f.re.isNone && after f.seg w.seg && !w.begun then s.missed g w
  else s

/-- MARKER_FRAME_ARRIVAL (R113): the oldest marker of the bus that has not reached the core. With none on its way, the codes of the
symbols that follow stream from the vault as far as the event says (R298). -/
def execMarkerFrameArrival (s : State) : Result :=
  let g := s.ev.core
  let k := s.ev.num
  .next (match (s.bus k).flights.findIdx? (fun f => !f.reached.contains g) with
    | none => (match (s.core g).headWindow with
      | some w => if w.frame.isSome && decide (w.bus = k) then (match s.fetchWeights g w (min w.t s.ev.num2) with | .error t => t | .ok t => t) else s
      | none => s)
    | some i => match (s.bus k).flights[i]? with
      | none => s
      | some f =>
        let t := s.onBus k (fun x => { x with flights := modifyNth (fun f => { f with reached := f.reached ++ [g] }) i x.flights })
        match (s.core g).headWindow with
        | some w => t.arrive1 g k f.frame (look 3 f.skws g) w
        | none => t)

/-! ### A window's updates (R105 to R109, R119, R120) -/

/-- Round n / 2^k to the nearest integer, ties to even. -/
def rheDiv (n : Int) (k : Nat) : Int := (roundInt 0 (decide (n < 0)) n.natAbs (-(k : Int))).1

/-- The code delivered for an ideal sum S: within Allowed(y, g) of R107 where the bound holds, else any 12-bit code. `free` is the
free value that picks it. -/
def deliveredCode (bounded : Bool) (t sh : Nat) (S : Int) (free : Nat) : Int :=
  let cand : Int := (free % 4096 : Nat) - 2048
  if !bounded then cand
  else
    let lo := saturate (rheDiv (4 * S - 8 - (t : Int)) (sh + 2)) (-2048) 2047
    let hi := saturate (rheDiv (4 * S + 8 + (t : Int)) (sh + 2)) (-2048) 2047
    if cand < lo then lo else if hi < cand then hi else cand

/-- shref of R119. -/
def refShift (t : Nat) : Nat := ((span 0 11).find? (fun k => decide (961 * t ≤ 2047 * 2 ^ k))).getD 10

/-- Σ of products of weights and codes (R105). -/
def dotSum (w a : List Int) : Int := (w.zip a).foldl (fun n e => n + e.1 * e.2) 0

/-- The term c × 2^e (R109). -/
def termNum (c e : Int) : Num := .fin (decide (c < 0)) c.natAbs e

/-- One word of an update and whether it overflowed from finite inputs (R109). -/
def updateWord (accumulate : Bool) (old : BitVec 32) (term : Num) : Nat × Bool :=
  let x := readFloat fp32 false old.toNat
  let v := if accumulate then (addNum 0 x term).1 else term
  let r := (deliver fp32 0 false v).1
  let fin := match x with | .fin _ _ _ => true | _ => !accumulate
  (r, fin && decide (r % 2 ^ 31 = fp32.infBits))

/-- What a window's conversion gives: words to write, the SAT mask, OVF. -/
structure WindowResult where
  words : List (Nat × Nat)
  sat : Nat
  ovf : Bool

/-- The window performs row by row (R103 to R109). Free values are numbered from `ctr`. -/
def windowUpdates (w : Window) (f : Frame) (bounded : Bool) (ctr : Nat) (weight : Nat → Nat → Int) (ew : Nat → Int) (acc : Nat → BitVec 32) : WindowResult :=
  let lanes := (span 0 32).filter (fun b => f.mask.getLsbD b)
  let one (i b : Nat) : (Nat × Nat) × Bool × Bool :=
    let a := w.acc + 32 * i + b
    let ea := f.ea.getD b 0
    if ea = -128 then ((a, 0x7FC00000), false, false)
    else
      let c := deliveredCode bounded w.t w.sh (dotSum ((span 0 w.t).map (weight i)) (f.codes.getD b [])) (Config.free (ctr + 32 * i + b))
      let r := updateWord w.accumulate (acc a) (termNum c ((w.sh : Int) + ew i + ea))
      ((a, r.1), decide (c = -2048) || decide (c = 2047), r.2)
  let all := (span 0 w.rows).flatMap (fun i => lanes.map (fun b => (b, one i b)))
  { words := all.map (fun e => e.2.1), sat := lanes.foldl (fun n b => if all.any (fun e => decide (e.1 = b) && e.2.2.1) then n + 2 ^ b else n) 0,
    ovf := all.any (fun e => e.2.2.2) }

/-- The window forms no deviations: mode 2, or the frame's sums are of another mode (R295). -/
def noRef (w : Window) (f : Frame) : Bool := decide (w.ref = 2) || decide (f.ref ≠ w.ref)

/-- The reference row: the largest deviation, and whether it passes the bound (R119, R120). -/
def refRow (w : Window) (f : Frame) (bounded : Bool) (ctr : Nat) : Nat × Bool :=
  let k := refShift w.t
  let devs := ((span 0 32).filter (fun b => f.mask.getLsbD b && decide (f.ea.getD b 0 ≠ -128))).map (fun b =>
    let ideal := 31 * refSum w.ref (f.codes.getD b [])
    (deliveredCode bounded w.t k ideal (Config.free (ctr + b)) * 2 ^ k - 31 * f.rs.getD b 0).natAbs)
  (min 4095 (devs.foldl max 0), devs.any (fun d => decide (2 * 2 ^ k + 8 + w.t < 4 * d)))

/-- The status word (R120). -/
def statusWord (w : Window) (f : Frame) (r : WindowResult) (dev : Nat) (devx : Bool) (skw lpc : Nat) : Word :=
  let bit (b : Bool) (n : Nat) : Nat := if b then 2 ^ n else 0
  let nfc := (span 0 32).any (fun b => f.mask.getLsbD b && decide (f.ea.getD b 0 = -128))
  let nref := noRef w f
  BitVec.ofNat 64 (w.seg.toNat % 256 * 2 ^ 56 + w.bus * 2 ^ 53 + bit r.ovf 52 + bit nfc 51 + bit nref 50 + skw * 2 ^ 48 + lpc * 2 ^ 46
    + bit (devx && !nref) 45 + (if nref then 0 else dev) * 2 ^ 33 + r.sat)

/-- After a window: what DEVX asks for; `bounded` says that LPC and SKW are 0 or 1 (R430, R431). -/
def State.afterDevx (s : State) (g : Nat) (w : Window) (devx bounded : Bool) (dev : Nat) : State :=
  if !devx then s.onCore g (fun c => { c with devx := false })
  else
    let s := if bounded then s.enter (s.taskRecord g .o false 0x47 0 w.pc (BitVec.ofNat 64 (w.bus * 2 ^ 32)) (BitVec.ofNat 64 dev)) else s
    s.onCore g (fun c => { c with owedCal := some c.devx, devx := true })

/-- Keep a window's status word, among the 16 latest (R120). -/
def Core.keepStatus (c : Core) (n : Nat) (word : Word) : Core :=
  let old := c.statuses.filter (fun e => decide (e.1 ≠ n))
  { c with statuses := (old ++ [(n, word)]).drop (old.length + 1 - 16) }

/-- A window that is performed tests the open command window's limits with the words that it is to write (R390). -/
def State.limitO (s : State) (g : Nat) (is : List Nat) : State := s.onCore g (fun c => { c with owin := c.owin.limited (s.newPrior g c.owin is) })

/-- Perform a received window (R105 to R110, R119, R120, R390, R430). -/
def State.performWindow (s : State) (g : Nat) (w : Window) (f : Frame) : State :=
  let lpc := (s.bus w.bus).lpc
  let lanes := (span 0 32).filter (fun b => f.mask.getLsbD b)
  let is := (span 0 w.rows).flatMap (fun i => lanes.map (fun b => w.acc + 32 * i + b))
  if lpc = 3 then s.windowFault g w 0x46
  else match (s.limitO g is).fetchWeights g w w.t with
    | .error s => s
    | .ok s =>
      let c := s.core g
      match s.badWord g c.owin w.accumulate is with
      | some (u, kept) => s.windowError g w u 1 (kept && c.owin.isOpen)
      | none =>
        let bounded := lpc.toNat ≤ 1 && w.skw.toNat ≤ 1
        let y := ((s.core g).headWindow).getD w
        let (dev, devx) := refRow w f (bounded && !s.upsets.contains (.deviation g)) (s.freeCtr + 32 * w.rows)
        let s := { s with upsets := s.upsets.erase (.deviation g) }
        let r := windowUpdates w f (bounded && (!devx || noRef w f)) s.freeCtr (fun i t => oscValue (((y.cols.getD t []).getD i 0).toNat % 64))
          (fun i => sInt 8 (y.ew.getD i 0).toNat) (s.acc g)
        let new := s.newPrior g c.owin is
        let again := decide (0 < c.owin.quiet)
        let word := statusWord w f r dev devx w.skw.toNat lpc.toNat
        let s := s.onCore g (fun c => { c with owin := c.owin.addPrior new })
        let s := { s with freeCtr := s.freeCtr + 32 * w.rows + 32 }
        let s := s.store (r.words.flatMap (fun e => span (accAt g e.1) 4)) (r.words.flatMap (fun e => leBytes 4 e.2))
        let s := s.onCore g (fun c =>
          let c := ({ c with oq := c.oq.tail, owin := c.owin.addEntry (.window w) } : Core).keepStatus w.number word
          (if again then c else c.hwAdd w.flag 1).closeIdle)
        let s := if r.sat = 0 then s else s.strataAdd 12 (dieOf g) 0 1
        s.afterDevx g w (devx && !noRef w f) bounded dev

/-- WINDOW_COMPLETION (R110). -/
def execWindowCompletion (s : State) : Result :=
  let g := s.ev.core
  .next (match (s.core g).headWindow with
    | some w => (match w.frame with | some f => s.performWindow g w f | none => s)
    | none => s)

/-! ### Calibrations (R122, R431) -/

/-- CALIBRATION_RUN (R122): one owed ahead of the next window, one at the head of the queue, or a TRIM that firmware enters between
windows; false is TRIM, true SKEW. -/
def execCalibrationRun (s : State) : Result :=
  let g := s.ev.core
  let c := s.core g
  let begun := match c.headWindow with | some w => w.begun | none => false
  .next (if c.calibrating.isSome || begun then s
    else
      let (kind, own) := match c.owedCal, c.oq with | some k, _ => (k, false) | none, .work (.cal k) :: _ => (k, true) | none, _ => (false, false)
      s.onCore g (fun c => ({ c with calibrating := some kind, calHead := own } : Core).onHead (fun w => { w with ready := false })))

/-- Logical row's physical row (R431). -/
def Core.physical (c : Core) (row : Nat) : Nat := match c.rowMap.find? (fun e => e.1 = row) with | some e => e.2 | none => row
/-- An unused good physical row of the 68. -/
def Core.spareRow (c : Core) : Option Nat :=
  (span 0 68).find? (fun p => !c.badRows.contains p && !(span 0 64).any (fun l => decide (c.physical l = p)))

/-- Move the logical row of a failed physical row; none left leaves SKW 2 (R431). -/
def State.moveRow (s : State) (g : Nat) (r : State × Bool) (p : Nat) : State × Bool :=
  let s' := r.1.onCore g (fun c => { c with badRows := if c.badRows.contains p then c.badRows else c.badRows ++ [p] })
  match (span 0 64).find? (fun l => decide ((s.core g).physical l = p)) with
  | none => (s', r.2)
  | some l => match (s'.core g).spareRow with
    | none => (s', false)
    | some n =>
      let s' := s'.onCore g (fun c => { c with rowMap := place l n c.rowMap })
      (s'.enter { s'.deviceRecord (dieOf g) 0x4A (BitVec.ofNat 64 g) (BitVec.ofNat 64 (l + p * 2 ^ 8 + n * 2 ^ 16)) with gcore := g }, r.2)

/-- The bus that a failed calibration's record names: the head window's, else the one tuned last. DESIGN CHOICE (log entry 134), unsafe:
a calibration uses no bus (R122), and R437 gives the record one. -/
def Core.calBus (c : Core) : Nat := match c.headWindow with | some w => w.bus | none => c.tuned.getD 0
/-- DEVMAX of the core's latest status word (R120, R437; log entry 134). -/
def Core.lastDevmax (c : Core) : Nat := match c.statuses.getLast? with | some e => e.2.toNat / 2 ^ 33 % 2 ^ 12 | none => 0

/-- CALIBRATION_COMPLETE (R122, R431): failed rows move; SKW is 0, or stays 2 with cause 0x48 and no new task. -/
def execCalibrationComplete (s : State) : Result :=
  let g := s.ev.core
  .next (if (s.core g).calibrating.isNone then s
    else
      let (s, moved) := s.ev.nums.foldl (s.moveRow g) (s, true)
      let good := s.ev.flag && moved
      let s := s.onCore g (fun c =>
        { c with calibrating := none, calHead := false, skw := if good then 0 else 2, resting := !good, owedCal := none,
                 trimmedAt := if good then (s.die (dieOf g)).time.toNat else c.trimmedAt,
                 oq := if c.calHead then (match c.oq with | .work (.cal _) :: rest => rest | q => q) else c.oq })
      let s := s.onCore g Core.closeIdle
      if good then s else s.enter { s.deviceRecord (dieOf g) 0x48 (BitVec.ofNat 64 ((s.core g).calBus * 2 ^ 32)) (BitVec.ofNat 64 (s.core g).lastDevmax) with gcore := g })

/-- SKEW_DRIFT_MEASURED (R121): from 0 or 1, drift within tolerance or a recalibration due. -/
def execSkewDriftMeasured (s : State) : Result :=
  .next (s.onCore s.ev.core (fun c => if c.skw.toNat ≤ 1 then { c with skw := if s.ev.flag then 1 else 2 } else c))

/-! ### Lasers (R430, R432) -/

/-- Windows on a bus that satisfy a condition, by core. -/
def State.windowsOn (s : State) (k : Nat) (p : Window → Bool) : List (Nat × Window) :=
  s.cores.flatMap (fun c => c.2.oq.filterMap (fun e => match e with
    | .work (.window w) => if w.bus = k && p w then some (c.1, w) else none
    | _ => none))

/-- LASER_POWER_CHANGE (R430, R432): a record on each change; windows that are integrating when power is lost fault. While the lasers are
off nothing is reported (R378). -/
def execLaserPowerChange (s : State) : Result :=
  let k := s.ev.num
  let v : BitVec 2 := BitVec.ofNat 2 s.ev.num2
  .next (if v = (s.bus k).lpc || decide (8 ≤ k) then s
    else
      let s := s.onBus k (fun b => { b with lpc := v, lost := b.lost && decide (2 ≤ v.toNat), dark := decide (v = 3) || (b.dark && decide (v = 2)), since := (s.die 8).time.toNat,
                                            steadySince := if decide (v.toNat ≤ 1) = decide (b.lpc.toNat ≤ 1) then b.steadySince else (s.die 8).time.toNat })
      let s := if s.mgmt.lasersOff then s else s.notice 8 0x49 (BitVec.ofNat 64 (k * 2 ^ 32)) (v.setWidth 64)
      if v = 3 && !s.mgmt.lasersOff then (s.windowsOn k (fun w => w.frame.isSome)).foldl (fun s e => s.windowFault e.1 e.2 0x46) s else s)

/-- A launch fails with first cause 0x46, in one record (R385, R432). -/
def State.failLaunchOptics (s : State) (g l : Nat) (k : StrandKind) (pc : Word) (bus : Nat) (n : BitVec 32) (num : Word) : State :=
  if s.launchFailing l || s.failQueued l || (s.launch? l).isNone then s
  else (if s.launchOn g = l then s.stopFor g k 6 else s).enter { s.taskRecord g k false 0x46 6 pc (opticAddr bus n) num with
    tag := s.tagOf l, lfail := true, ends := some l, sequel := .fail [l] 0x46 }

/-- The BCAST commands with segments of a bus not yet emitted, those still in the queues of cores among them, each with the first such
segment (R432). -/
def State.unemitted (s : State) (k : Nat) : List (Bcast × BitVec 32) :=
  (s.bus k).jobs.map (fun j => (j.cmd, j.cmd.n0 + BitVec.ofNat 32 j.next))
    ++ s.cores.flatMap (fun c => c.2.bq.filterMap (fun e => match e with | .work b => if b.bus = k then some (b, b.n0) else none | .fence _ => none))

/-- LASER_POWER_LOST_EXPIRY (R432; R378 while the lasers are off). -/
def execLaserPowerLostExpiry (s : State) : Result :=
  let k := s.ev.num
  .next (if (s.bus k).lpc ≠ 3 || decide (8 ≤ k) || s.mgmt.lasersOff || decide ((s.die 8).time.toNat < (s.bus k).since + 100000000) then s
    else
      let owed := s.unemitted k
      let s := s.onBus k (fun b => { b with lost := true })
      let s := if 4 ≤ k then { s with xfcon := s.xfcon &&& ~~~ BitVec.ofNat 4 (2 ^ (k - 4)) } else s
      let s := (s.windowsOn k (fun w => w.frame.isNone)).foldl (fun (s : State) (e : Nat × Window) => s.failLaunchOptics e.1 (s.launchOn e.1) .o e.2.pc k e.2.seg (BitVec.ofNat 64 e.2.number)) s
      owed.foldl (fun (s : State) (e : Bcast × BitVec 32) => s.failLaunchOptics e.1.core e.1.launch .a e.1.pc k e.2 0) s)

end Sys2Proof.Machine
end

