-- ==== Sys2Proof/Machine/FabricEvents.lean ====
section
/-! DEFINITION. The Bamyth fabric: routing and router adders, requests at their home, responses and requester timers, control packets,
port states and circuits (R357 to R369, R438 to R446). -/

namespace Sys2Proof.Machine

/-! ### Routes (R361, R362) -/

/-- Control class: sent twice, on link-disjoint paths (R361). -/
def PacketKind.isControl : PacketKind → Bool
  | .control => true
  | .fetch => true
  | .granule => true
  | .setup => true
  | .ack => true
  | .busy => true
  | .teardown => true
  | .drain => true
  | .drainAck => true
  | .arm => true
  | _ => false

/-- The number of a packet's class among the VCs, and of its kind among TYPE values: request 0, response 1, control 2, collective 3
(R358). -/
def PacketKind.vcClass (k : PacketKind) : Nat :=
  match k with
  | .request => 0
  | .send => 0
  | .collective => 3
  | _ => if k.isControl then 2 else 1

/-- The number that names a kind to `Config.packetType`. -/
def PacketKind.number : PacketKind → Nat
  | .request => 0
  | .response => 1
  | .send => 2
  | .control => 3
  | .fetch => 4
  | .granule => 5
  | .collective => 6
  | .setup => 7
  | .ack => 8
  | .busy => 9
  | .teardown => 10
  | .drain => 11
  | .drainAck => 12
  | .arm => 13
  | .routeBroken => 14
  | .targetHalted => 15
  | .busyReply => 16

/-- The VC of a packet at a chip: 4 to 7 where it neither starts nor ends there (R358). -/
def Packet.vc (p : Packet) (chip : Nat) : Nat := p.kind.vcClass + (if p.src ≠ chip ∧ p.dst ≠ chip then 4 else 0)

/-- Bytes that a request carries as payload: data to store or send, and the operands of an atomic (R358; log entry 132). -/
def RequestKind.carried : RequestKind → Nat
  | .load _ _ => 0
  | .store _ _ bytes _ => bytes.length
  | .atomic _ ty cas _ _ _ _ _ _ _ => (if cas then 2 else 1) * atomicBytes ty
  | .send _ _ _ _ bytes _ => bytes.length

/-- Payload bytes of a packet: its own, those of its request, and the 26 that hold hop entries of a collective (R358, R364). -/
def Packet.size (p : Packet) : Nat :=
  p.payload.length + (match p.what with | some k => k.carried | none => 0) + (if p.kind = .collective then 26 else 0)

/-- Flits of a packet: 224 payload bytes in the first, 240 in each later one (R358). -/
def Packet.flits (p : Packet) : Nat := 1 + (p.size - 224 + 239) / 240

/-- Hop entry `i` that a collective packet still carries; zero where there is none (R364). -/
def Packet.hop (p : Packet) (i : Nat) : Nat := (p.route.getD i 0).toNat

/-- Header bytes 10 to 15: the first hop entries of a collective, the issue time of a request in bytes 12 to 15, else zero (R358, R364,
R438; log entry 132). -/
def Packet.headerTail (p : Packet) : List Byte :=
  if p.kind = .collective then (span 0 3).flatMap (fun i => leBytes 2 (p.hop i))
  else if p.what.isSome then leBytes 2 0 ++ leBytes 4 p.issued
  else leBytes 6 0

/-- Payload of a packet as its flits carry it: a collective's further hop entries in the first 26 bytes, then its data (R364). -/
def Packet.body (p : Packet) : List Byte :=
  (if p.kind = .collective then (span 3 13).flatMap (fun i => leBytes 2 (p.hop i)) else []) ++ p.payload

/-- Header bytes 0 to 15 of a packet's first flit at a chip (R358). -/
def Packet.header (p : Packet) (chip : Nat) : List Byte :=
  let bit (b : Bool) (n : Nat) : Nat := if b then 2 ^ n else 0
  leBytes 2 (p.dst % 4096 + 4096 * p.vc chip) ++
    leBytes 2 (p.src % 4096 + bit p.bank 12 + bit p.alt 13 + bit p.ovf 14 + bit p.kind.isControl 15) ++
    leBytes 4 p.seq ++ [Config.packetType p.kind.number, BitVec.ofNat 8 (p.flits - 1)] ++ p.headerTail

/-- The port may be chosen by routes: UP, and for an express port its circuit is UP (R362, R368). -/
def Fabric.usable (f : Fabric) (p : Nat) : Bool :=
  (f.port p).state = .up && (decide (p < 24) || decide ((f.port p).circuit = .up) || decide ((f.port p).far = .up))

/-- The port takes a packet: DRAIN and DRAIN_ACK still leave through a port that drains (R367; log entry 69). -/
def Fabric.takes (f : Fabric) (k : PacketKind) (p : Nat) : Bool :=
  f.usable p || ((k = .drain || k = .drainAck) && decide ((f.port p).state = .draining))

/-- The direction in which a destination coordinate lies, and whether it differs: the fewer hops, a tie to + (R362). -/
def axisDir (axis here there extent : Nat) : Option Nat :=
  if here = there then none
  else if 2 * ((there + extent - here) % extent) ≤ extent then some (2 * axis) else some (2 * axis + 1)

/-- The first axis on which the destination differs, in order x, y, z or z, y, x. -/
def Fabric.firstDir (f : Fabric) (bank : Bool) (dst : Nat) (back : Bool) : Nat :=
  let d := (f.def_ bank).toNat
  let self := d % 4096
  let l := [axisDir 0 (self % 16) (dst % 16) (d / 4096 % 16 + 1), axisDir 1 (self / 16 % 16) (dst / 16 % 16) (d / 2 ^ 16 % 16 + 1),
            axisDir 2 (self / 256) (dst / 256) (d / 2 ^ 20 % 16 + 1)]
  ((if back then l.reverse else l).findSome? id).getD 0

/-- The port that a packet for another chip takes: control copies their own lanes, an override where the packet is not ALT, else
lane 0 in dimension order (R361, R362). -/
def Fabric.route (f : Fabric) (p : Packet) : Nat :=
  if p.kind.isControl then 4 * f.firstDir p.bank p.dst p.pathB + (if p.pathB then 2 else 0)
  else
    let e := look 0 (f.ovr p.bank) p.dst
    if e.getLsbD 5 && !p.alt then e.toNat % 32 else 4 * f.firstDir p.bank p.dst p.alt

/-- A packet leaves this chip's routers. -/
def State.takePacket (s : State) (p : Packet) : State := s.onFabric (fun f => { f with packets := f.packets.erase p })
/-- A packet goes to a port's outbound queue. -/
def State.outTo (s : State) (port : Nat) (p : Packet) : State := s.onFabric (fun f => { f with outbound := f.outbound ++ [(port, p)] })

/-- One more ROUTE_BROKEN reply of this chip, for a port: one record per ms at most, with the count since the one before (R441). -/
def State.countBroken (s : State) (port : Nat) : State :=
  let n := s.fabric.brokenCount + 1
  let now := s.keystoneTime
  if (match s.fabric.brokenAt with | some t => decide (t + 1000000 ≤ now) | none => true) then
    (s.onFabric (fun f => { f with brokenCount := 0, brokenAt := some now })).notice (9 + port / 8) 0x61 (BitVec.ofNat 64 port) (BitVec.ofNat 64 n)
  else s.onFabric (fun f => { f with brokenCount := n })

/-- The chosen port is not UP: the packet is dropped and its source told whether a request, a collective or another packet was lost
(R362). A lost reply of that kind is not replied to. -/
def State.breakRoute (s : State) (p : Packet) (port : Nat) : State :=
  let s := s.takePacket p
  if p.kind = .routeBroken then s
  else (s.countBroken port).inject
    { kind := .routeBroken, src := 0, dst := p.src, seq := p.seq, addr := p.dst, tag := p.tag,
      step := match p.kind with | .request => 0 | .collective => 1 | _ => 2 }

/-! ### Replies (R359, R440, R441, R446) -/

/-- The request that a reply from a chip answers. -/
def State.requestFor (s : State) (chip seq : Nat) : Option Request := s.fabric.requests.find? (fun r => decide (r.chip = chip) && decide (r.seq = seq))

/-- The request has its response, or its error reply. -/
def Request.settled (r : Request) : Bool := r.answered.isSome || r.refused.isSome

/-- The first response of a request is kept; later ones are discarded (R440). An error reply carries the address that it names. -/
def State.answer (s : State) (r : Request) (ok : Bool) (bytes : List Byte) (cause : Nat) (marks : List Nat := []) : State :=
  if r.settled then s
  else (s.onRequest r.id (fun r =>
    if ok then { r with answered := some bytes, marks := marks, timing := false }
    else { r with refused := some cause, errorAt := leNat (bytes.take 8), timing := false })).settleRequests

/-- BUSY stops the timer (R446). A later reply to an answered request is discarded (R440). -/
def State.holdRequest (s : State) (r : Request) : State :=
  if r.settled then s else s.onRequest r.id (fun r => { r with timing := false, busy := true, busyAt := s.timeOf r.core })

/-- TARGET_HALTED ends the request (R442, R446). -/
def State.haltRequest (s : State) (r : Request) : State :=
  if r.settled then s else s.endRequest r 0x62 (BitVec.ofNat 64 r.addr) (BitVec.ofNat 64 r.chip)

/-- A plan that lost a packet fails (R445). -/
def State.losePlan (s : State) (tag : BitVec 32) : State :=
  s.onFabric (fun f => { f with plans := f.plans.map (fun p => if p.tag = tag then { p with failed := true } else p) })

/-- The chip is halted for debug while a core of it is (R369, R379). -/
def State.chipHalted (s : State) : Bool := s.cores.any (fun c => c.2.halted)

/-- A packet for this chip is delivered: requests and control packets wait to be served, replies find their requests. -/
def State.deliverPacket (s : State) (p : Packet) : State :=
  let t := s.takePacket p
  match p.kind with
  | .collective => s
  | .response => (match s.requestFor p.src p.seq with
    | some r => t.answer r (decide (p.tag = 0)) p.payload p.tag.toNat p.marks
    | none => t)
  | .routeBroken =>
    if p.step = 1 then t.losePlan p.tag
    else if p.step = 0 then (match s.requestFor p.addr p.seq with
      | some r => if r.settled then t else t.expire r (some p.src)
      | none => t)
    else t
  | .busyReply => (match s.requestFor p.src p.seq with | some r => t.holdRequest r | none => t)
  | .targetHalted => (match s.requestFor p.src p.seq with | some r => t.haltRequest r | none => t)
  | _ => t.onFabric (fun f => { f with
      ingress := f.ingress ++ [(s.keystoneTime, { p with held := s.chipHalted && p.what.isSome && !s.expired p })] })

/-- Change the cross-points of the circuit that a chip's SETUP from a port asked for (R368). -/
def State.onCross (s : State) (src dst port : Nat) (f : CrossPoint → Option CrossPoint) : State :=
  s.onFabric (fun x => { x with reserved := x.reserved.filterMap (fun c => if c.src = src ∧ c.dst = dst ∧ c.port = port then f c else some c) })

/-- A circuit packet passes: ACK commits its hop, TEARDOWN releases it, and BUSY releases what the SETUP of its end had reserved
(R368). -/
def State.passCircuit (s : State) (p : Packet) : State :=
  match p.kind with
  | .ack => if p.step = 1 then s else s.onCross p.dst p.src p.addr (fun c => some { c with committed := true })
  | .busy => s.onCross p.dst p.src p.addr (fun c => if c.committed then some c else none)
  | .teardown => s.onCross p.src p.dst p.addr (fun _ => none)
  | _ => s

/-- What a SETUP from `src` to `dst` for the requester's port `port` meets at the cross-point to `out` (R368). Of two SETUPs for one pair
the lower chip's takes or keeps the reservation, and the other's chip receives BUSY. -/
def State.crossPoint (s : State) (src dst out port : Nat) : State × Bool :=
  let busy (s : State) (to' p : Nat) : State := s.injectControl { kind := .busy, src := 0, dst := to', addr := p }
  let mine : CrossPoint := { out := out, src := src, dst := dst, port := port }
  match s.fabric.reserved.find? (fun e => e.out = out) with
  | none => (s.onFabric (fun f => { f with reserved := f.reserved ++ [mine] }), true)
  | some e =>
    if e.src = src ∧ e.dst = dst ∧ e.port = port then (s, true)
    else if e.src = dst ∧ e.dst = src ∧ !e.committed ∧ src < dst then
      ((busy (s.onFabric (fun f => { f with reserved := f.reserved.erase e })) dst e.port).onFabric (fun f => { f with reserved := f.reserved ++ [mine] }), true)
    else (busy s src port, false)

/-- A packet leaves for a port. The first copy of a SETUP reserves its cross-point there, or ends in BUSY (R368; log entry 65). -/
def State.hop (s : State) (p : Packet) (port : Nat) : State :=
  if p.kind = .setup ∧ p.pathB = false then
    let r := s.crossPoint p.src p.dst port p.addr
    if r.2 then r.1.outTo port p else r.1
  else (s.passCircuit p).outTo port p

/-- PACKET_HOP (R362). -/
def execPacketHop (s : State) : Result :=
  .next (match s.fabric.packets[s.ev.num]? with
    | none => s
    | some p =>
      if p.kind = .collective then s
      else if p.dst = s.chip then s.deliverPacket p
      else
        let port := s.fabric.route p
        if s.fabric.takes p.kind port then (s.takePacket p).hop p port else s.breakRoute p port)

/-! ### Route-carrying packets (R364, R365) -/

/-- Add two elements in a wire format: the result and whether it saturated (R365). -/
def addWire (wire a b : Nat) : Nat × Bool :=
  match wire with
  | 0 => ((deliver fp32 0 false (addNum 0 (readFloat fp32 false a) (readFloat fp32 false b)).1).1, false)
  | 1 =>
    let r := (addNum 0 (readFloat bf16 false a) (readFloat bf16 false b)).1
    let d := deliver bf16 0 true r
    (d.1, match r with | .fin _ _ _ => decide (d.2 &&& fOF ≠ 0) | _ => false)
  | _ =>
    let v : Int := (BitVec.ofNat 32 a).toInt + (BitVec.ofNat 32 b).toInt
    let w := saturate v (-(2 ^ 31)) (2 ^ 31 - 1)
    ((BitVec.ofInt 32 w).toNat, decide (w ≠ v))

/-- Bytes of an element of a wire format. -/
def wireBytes (wire : Nat) : Nat := if wire = 1 then 2 else 4

/-- Add two payloads element by element. -/
def addPayloads (wire : Nat) (x y : List Byte) : List Byte × Bool :=
  let n := wireBytes wire
  let l := (span 0 (x.length / n)).map (fun i => addWire wire (leNat ((x.drop (n * i)).take n)) (leNat ((y.drop (n * i)).take n)))
  (l.flatMap (fun e => leBytes n e.1), l.any (fun e => e.2))

/-- The packet that a reduce-add waits for (R364). -/
def Packet.partner (p q : Packet) : Bool := decide (p.tag = q.tag) && decide (p.step = q.step) && decide (p.offset = q.offset)

/-- Send a route-carrying packet on through a port. -/
def State.carryOn (s : State) (p : Packet) (port : Nat) : State := if s.fabric.usable port then s.outTo port p else s.breakRoute p port

/-- ROUTE_CARRYING_HOP (R364): the first entry is popped. A delivery for a plan that has not begun here waits. -/
def execRouteCarryingHop (s : State) : Result :=
  .next (match s.fabric.packets[s.ev.num]? with
    | none => s
    | some p =>
      if p.kind ≠ .collective then s
      else match p.route with
        | [] => s.breakRoute p 0
        | e :: rest =>
          let q := { p with route := rest }
          let port := e.toNat % 32
          let t := s.takePacket p
          match e.toNat / 32 % 4 with
          | 0 => t.carryOn q port
          | 1 => (match s.fabric.adders.find? q.partner with
            | some o =>
              let r := addPayloads q.wire o.payload q.payload
              (t.onFabric (fun f => { f with adders := f.adders.erase o })).carryOn { q with payload := r.1, ovf := q.ovf || o.ovf || r.2 } port
            | none => t.onFabric (fun f => { f with adders := f.adders ++ [q] }))
          | 2 => (match s.fabric.plans.find? (fun x => x.tag = p.tag) with
            | some x => let r := s.planDelivery x p; if r.2 then r.1.takePacket p else r.1
            | none => s)
          | _ => (t.carryOn q port).carryOn q (e.toNat / 128 % 32))

/-! ### Flits (R358, R444) -/

/-- A packet is lost on its way: a collective one fails its plan (R366, R445). -/
def State.losePacket (s : State) (p : Packet) : State := if p.kind = .collective then s.losePlan p.tag else s

/-- FLIT_UNCORRECTABLE (R358, R444): flit `num3` of a packet, and so the packet, is discarded; beyond the limit of one ms the port
drains. -/
def execFlitUncorrectable (s : State) : Result :=
  let port := s.ev.num
  let now := s.portTime port
  .next (match s.fabric.packets[s.ev.num2]? with
    | none => s
    | some p =>
      if p.flits ≤ s.ev.num3 then s
      else
      let s := ((s.takePacket p).losePacket p).onPort port (fun x =>
        if now < x.errorsSince + 1000000 then { x with errors := x.errors + 1 } else { x with errors := 1, errorsSince := now })
      let x := s.fabric.port port
      let lim := s.fabric.ferrlim.toNat
      if lim ≠ 0 && decide (lim < x.errors) && decide (x.state = .up) then (s.beginDrain port none).notice (9 + port / 8) 0x78 0 0 else s)

/-! ### Requests at their home (R360, R369, R438, R446) -/

/-- A request that is performed once only (R360). -/
def RequestKind.once : RequestKind → Bool
  | .atomic op _ cas _ _ _ _ _ _ _ => cas || decide (op ≠ 10)
  | .send _ _ _ _ _ _ => true
  | _ => false

/-- SEQ `a` is later than `b` (R358). -/
def laterSeq (a b : Nat) : Bool := decide (0 < (a + 2 ^ 32 - b) % 2 ^ 32) && decide ((a + 2 ^ 32 - b) % 2 ^ 32 < 2 ^ 31)

/-- The lowest SEQ of a window. -/
def lowestSeq : List Kept → Nat
  | [] => 0
  | k :: l => l.foldl (fun m e => if laterSeq m e.seq then e.seq else m) k.seq

/-- A window with one more SEQ keeps the 1,024 highest. -/
def keepSeq (l : List Kept) (seq : Nat) : List Kept :=
  let l := l ++ [{ seq := seq }]
  if 1024 < l.length then l.filter (fun e => decide (e.seq ≠ lowestSeq l)) else l

/-- The home cannot reach the bytes of a request: lost metadata poisons its lines (R417), and the error goes back with its address. -/
def State.refuse (s : State) (p : Packet) (e : Nat × Nat × Nat) : State := (s.noteUnreachable 0 e).respondError p.src p.seq e.1 e.2.1

/-- The home performs a request and answers, or for a send puts its bytes on their way (R360, R263). -/
def State.serve (s : State) (p : Packet) (k : RequestKind) : State :=
  match k with
  | .load unit addrs =>
    let bytes := unitBytes unit addrs
    (match s.unreachable bytes with
     | some e => s.refuse p e
     | none =>
       let vals := if unit = 8 then (s.anyLoad addrs).map BitVec.toNat else addrs.map (s.readUnit unit)
       s.respond p.src p.seq 0 (leBytes ((addrs.length * unit + 7) / 8) (joinUnits unit vals))
         ((span 0 addrs.length).filter (fun i => s.poisoned (bytes.getD i 0))))
  | .store unit addrs bytes marks =>
    (match s.unreachable (unitBytes unit addrs) with
     | some e => s.refuse p e
     | none => ((if unit = 8 then s.anyStore addrs bytes else s.storeUnits unit addrs (leNat bytes)).markAll marks).respond p.src p.seq 0 [])
  | .atomic op ty cas operand expected unit addrs home ctx returns =>
    let n := atomicBytes ty
    let bytes := unitBytes unit addrs
    (match s.unreachable bytes, s.firstPoison bytes with
     | some e, _ => s.refuse p e
     | none, some a => s.respondError p.src p.seq 0x2C (s.unitAddr a)
     | none, none =>
       let m := s.loadUnits unit addrs
       let r := atomicNew op ty cas operand expected m
       let s := if op = 10 && !cas then s else s.storeUnits unit addrs r.1
       if returns then s.respond p.src p.seq 0 (leBytes n m ++ leBytes 1 r.2.toNat)
       else (s.accrueUnit (unitFor (bytes.headD 0) home) ctx r.2).respond p.src p.seq 0 (leBytes n m))
  | .send dst gcore rflag ctx bytes marks =>
    (match s.destFault gcore ctx dst bytes.length with
     | some (c, a) => s.respondError p.src p.seq c a.toNat
     | none => s.addPieces { id := 0, core := gcore, ctx := ctx, dst := dst, bytes := bytes, marks := marks, rflag := rflag, sender := none,
                             reply := some (p.src, p.seq) })

/-- The request leaves the ingress. -/
def State.takeIngress (s : State) (e : Nat × Packet) : State := s.onFabric (fun f => { f with ingress := f.ingress.erase e })

/-- Every task has gone, begun entries and committed windows have ended, and no sum is pending: steps 1 and 2 of a checkpoint are
done (R356). -/
def State.isQuiet (s : State) : Bool :=
  s.cores.all (fun c => c.2.task.isNone && c.2.staged.isNone && s.queuesDone c.1) && s.buses.all (fun b => decide (4 ≤ b.1) || b.2.flights.all (fun f => f.sent))
    && s.dies.all (fun d => d.2.qua.isEmpty)

/-- A checkpoint holds new requests from the end of its step 2 (R356). -/
def State.checkpointHolds (s : State) : Bool := s.host.checkpoint.isSome && s.isQuiet

/-- REQUEST_AT_HOME (R360): older than FLIFE it is discarded, unless a halt held it (R369, R438); in the window it is answered again, else it is performed. A
module that has stopped answers nothing (R384). -/
def execRequestAtHome (s : State) : Result :=
  .next (match s.fabric.ingress[s.ev.num]? with
    | none => s
    | some e =>
      let p := e.2
      match p.what with
      | none => s
      | some k =>
        let t := s.takeIngress e
        if s.chipHalted || s.mgmt.down then s
        else if !p.held && s.expired p then t
        else if s.checkpointHolds then t.inject { kind := .busyReply, src := 0, dst := p.src, seq := p.seq }
        else if !k.once then t.serve p k
        else
          let w := look [] s.fabric.windows p.src
          match w.find? (fun x => x.seq = p.seq) with
          | some x => (match x.cause with
            | some c => t.inject { kind := .response, src := 0, dst := p.src, seq := p.seq, payload := x.bytes, marks := x.marks, tag := BitVec.ofNat 32 c }
            | none => t)
          | none =>
            if decide (1024 ≤ w.length) && !laterSeq p.seq (lowestSeq w) then t
            else (t.onFabric (fun f => { f with windows := put [] f.windows p.src (keepSeq w p.seq) })).serve p k)

/-- HALTED_REQUEST_EXPIRY (R369): held 100 µs at a halted chip. -/
def execHaltedRequestExpiry (s : State) : Result :=
  .next (match s.fabric.ingress[s.ev.num]? with
    | none => s
    | some e =>
      if s.chipHalted && e.2.what.isSome && e.2.held && decide (e.1 + 100000 ≤ s.keystoneTime) then
        (s.takeIngress e).inject { kind := .targetHalted, src := 0, dst := e.2.src, seq := e.2.seq }
      else s)

/-! ### Requester events -/

/-- An outstanding request by number. -/
def State.request? (s : State) (id : Nat) : Option Request := s.fabric.requests.find? (fun r => r.id = id)

/-- RESPONSE_ARRIVAL (R440). -/
def execResponseArrival (s : State) : Result :=
  .next (match s.request? s.ev.num with
    | some r => s.answer r s.ev.flag s.ev.bytes s.ev.num2
    | none => s)

/-- REQUESTER_TIMER_EXPIRY (R359). -/
def execRequesterTimerExpiry (s : State) : Result :=
  .next (match s.request? s.ev.num with
    | some r => if r.timing && decide (r.issued + 1000 * s.fabric.ftout.toNat ≤ s.timeOf r.core) then s.expire r none else s
    | none => s)

/-- ROUTE_BROKEN (R441). -/
def execRouteBroken (s : State) : Result :=
  .next (match s.request? s.ev.num with
    | some r => if r.settled then s else s.expire r (some s.ev.num2)
    | none => s)

/-- BUSY_REPLY (R446). -/
def execBusyReply (s : State) : Result :=
  .next (match s.request? s.ev.num with
    | some r => s.holdRequest r
    | none => s)

/-- BUSY_REISSUE (R446): 100 µs after the reply, not counted against FRETRY. -/
def execBusyReissue (s : State) : Result :=
  .next (match s.request? s.ev.num with
    | some r => if r.busy && decide (r.busyAt + 100000 ≤ s.timeOf r.core) then s.reissue r false else s
    | none => s)

/-- TARGET_HALTED (R446). -/
def execTargetHalted (s : State) : Result :=
  .next (match s.request? s.ev.num with
    | some r => s.haltRequest r
    | none => s)

/-! ### Port states (R367, R444) -/

/-- A port command completes with its record. -/
def State.portDone (s : State) (c : PortCommand) : State := s.completeCommand c.queue c.index c.tag c.irq

/-- A port takes its next waiting command: DRAIN_PORT completes at once unless the port is UP, RETRAIN_PORT trains a drained or
failed port and completes at once on one that is UP. A port that drains takes none, one that trains completes DRAIN_PORT. -/
def State.pumpPort (s : State) (port : Nat) : Nat → State
  | 0 => s
  | fuel + 1 =>
    let x := s.fabric.port port
    match x.waiting with
    | [] => s
    | c :: rest =>
      let t := s.onPort port (fun x => { x with waiting := rest })
      match x.state, c.drain with
      | .draining, _ => s
      | .training, false => s
      | .up, true => t.beginDrain port (some c)
      | .up, false => (t.portDone c).pumpPort port fuel
      | _, true => (t.portDone c).pumpPort port fuel
      | _, false => t.onPort port (fun x => { x with state := .training, since := s.portTime port, active := some c })

/-- A port enters a final state: its command completes, and the next is taken. -/
def State.portEnds (s : State) (port : Nat) (st : PortState) : State :=
  let x := s.fabric.port port
  let s := s.onPort port (fun x => { x with state := st, since := s.portTime port, active := none })
  let s := match x.active with | some c => s.portDone c | none => s
  s.pumpPort port (x.waiting.length + 1)

/-- A DRAIN_PORT or RETRAIN_PORT command at HEAD. -/
def State.portCommand (s : State) (n : Nat) (drain : Bool) : State :=
  let port := s.cmdWord n 1 % 32
  let c : PortCommand := ⟨n, (s.queue n).head, s.cmdTag n, s.cmdIrq n, drain⟩
  let x := s.fabric.port port
  ((s.accept n none).onPort port (fun x => { x with waiting := x.waiting ++ [c] })).pumpPort port (x.waiting.length + 1)

/-- DRAIN_PORT (R367). -/
def execDrainPort (s : State) : Result := .next (s.withCommand s.ev.num 3 (fun s => s.portCommand s.ev.num true))
/-- RETRAIN_PORT (R367). -/
def execRetrainPort (s : State) : Result := .next (s.withCommand s.ev.num 4 (fun s => s.portCommand s.ev.num false))

/-- A port whose circuit comes UP is UP (R368): a command that waits for that state completes, and one that drained the port drains it
again. -/
def State.portUp (s : State) (port : Nat) : State :=
  let x := s.fabric.port port
  (match x.active with
   | some c => if c.drain then s.onPort port (fun x => { x with active := none, waiting := c :: x.waiting }) else s
   | none => s).portEnds port .up

/-- The peer's DRAIN: it is acknowledged, and the port takes the same path (R367). -/
def State.peerDrains (s : State) (port : Nat) : State :=
  let s := s.injectControl { kind := .drainAck, src := 0, dst := s.portPeer port, addr := portEnd port }
  if (s.fabric.port port).state = .up then s.beginDrain port none else s

/-- DRAIN_PACKET_ARRIVAL (R367). -/
def execDrainPacketArrival (s : State) : Result := .next (s.peerDrains s.ev.num)

/-- PORT_DRAINED (R367): the outbound queue is empty, every credit is back and the peer has acknowledged. -/
def execPortDrained (s : State) : Result :=
  let port := s.ev.num
  let x := s.fabric.port port
  .next (if x.state = .draining ∧ x.acked ∧ x.credits = 0 ∧ !s.fabric.outbound.any (fun e => e.1 = port) then s.portEnds port .drained else s)

/-- DRAIN_TIMEOUT (R367, R444): after 100 µs what is queued is discarded, with a record. -/
def execDrainTimeout (s : State) : Result :=
  let port := s.ev.num
  let x := s.fabric.port port
  .next (
    if x.state ≠ .draining ∨ s.portTime port < x.since + 100000 then s
    else
      let queued := s.fabric.outbound.filter (fun e => decide (e.1 = port))
      let lost := !queued.isEmpty
      let s := queued.foldl (fun s e => s.losePacket e.2) s
      let s := s.onFabric (fun f => { f with outbound := f.outbound.filter (fun e => decide (e.1 ≠ port)) })
      let s := if lost then s.enter { s.deviceRecord (9 + port / 8) 0x67 0 0 with tag := (x.active.map (fun c => c.tag)).getD 0 } else s
      s.portEnds port .drained)

/-- TRAINING_PASS (R367): within 2 ms. -/
def execTrainingPass (s : State) : Result :=
  let port := s.ev.num
  let x := s.fabric.port port
  .next (if x.state = .training ∧ s.portTime port ≤ x.since + 2000000 then s.portEnds port .up else s)

/-- TRAINING_TIMEOUT (R367, R444): its record, with failure, completes the command. -/
def execTrainingTimeout (s : State) : Result :=
  let port := s.ev.num
  let x := s.fabric.port port
  let r := s.deviceRecord (9 + port / 8) 0x68 0 0
  .next (if x.state = .training then
      ((s.enter (match x.active with
        | some c => { r with tag := c.tag, ctx := c.queue, irq := c.irq, done := some (c.queue, c.index) }
        | none => r)).onPort port (fun x => { x with active := none })).portEnds port .failed
    else s)

/-! ### Circuits (R368, R445) -/

/-- CIRCUIT (R368): the operands of XCIRC. -/
def execCircuit (s : State) : Result :=
  .next (s.withCommand s.ev.num 2 (fun s =>
    let n := s.ev.num
    let w := s.cmdWord n 1
    (s.accept n none).askCircuit (w % 32) (w / 2 ^ 52) (decide (w / 256 % 2 = 1)) (.command n (s.queue n).head (s.cmdTag n) (s.cmdIrq n))))

/-- A circuit's end lets the next request in. -/
def State.circuitIdle (s : State) (port : Nat) : State :=
  (s.onPort port (fun x => { x with circuit := .idle, circuitSince := s.portTime port, asker := .none })).pumpPortCircuit port

/-- Set-up has failed: its record, which ends a command that asked for it with failure, and what else asked for it (R445). -/
def State.setupFails (s : State) (port : Nat) : State :=
  let x := s.fabric.port port
  let addr : Word := BitVec.ofNat 64 (x.peer * 2 ^ 52 + port)
  let data : Word := BitVec.ofNat 64 x.tries
  let s := match x.asker with
    | .none => s
    | .xcirc g _ _ launch pc =>
      if s.launchOn g = launch ∧ (s.core g).task.isSome then s.taskFault g .a false 0x65 pc addr data
      else s.enter { s.deviceRecord (dieOf g) 0x65 addr data with tag := s.tagOf launch }
    | .command q index tag irq => s.enter { s.deviceRecord (9 + port / 8) 0x65 addr data with tag := tag, ctx := q, irq := irq, done := some (q, index) }
    | .plan g id => s.enter (s.taskRecord g .a false 0x65 5
        (match s.fabric.plans.find? (fun (q : Plan) => decide (q.core = g) && decide (q.send.id = id)) with | some q => q.send.pc | none => 0) addr data)
  (s.circuitEnds port x.asker false false).circuitIdle port

/-- One try has failed: this chip's hop releases, and the next try waits (R368, R445). -/
def State.tryFails (s : State) (port : Nat) : State :=
  let x := s.fabric.port port
  let s := (s.onPort port (fun x => { x with tries := x.tries + 1 })).onCross s.chip x.peer port (fun c => if c.committed then some c else none)
  if 8 ≤ (s.fabric.port port).tries then s.setupFails port
  else s.onPort port (fun x => { x with circuit := .wait, circuitSince := s.portTime port })

/-- CIRCUIT_ACK (R368): every hop has committed, and the path lights. -/
def State.circuitAcked (s : State) (port : Nat) : State :=
  if (s.fabric.port port).circuit = .setup then s.onPort port (fun x => { x with circuit := .locking, circuitSince := s.portTime port }) else s
/-- CIRCUIT_BUSY (R368): a hop was reserved. -/
def State.circuitBusy (s : State) (port : Nat) : State := if (s.fabric.port port).circuit = .setup then s.tryFails port else s
/-- TEARDOWN is acknowledged: the circuit is gone (R368). Its port goes on draining by R367. -/
def State.tornDown (s : State) (port : Nat) : State :=
  let x := s.fabric.port port
  if x.circuit = .tearing then (s.circuitEnds port x.asker true true).circuitIdle port else s

/-- CIRCUIT_ACK (R368). -/
def execCircuitAck (s : State) : Result := .next (s.circuitAcked s.ev.num)
/-- CIRCUIT_BUSY (R368). -/
def execCircuitBusy (s : State) : Result := .next (s.circuitBusy s.ev.num)
/-- TEARDOWN_ACK (R368). -/
def execTeardownAck (s : State) : Result := .next (s.tornDown s.ev.num)

/-- SETUP_REPLY_TIMEOUT (R445): 50 µs without a reply count as BUSY. -/
def execSetupReplyTimeout (s : State) : Result :=
  let port := s.ev.num
  let x := s.fabric.port port
  .next (if x.circuit = .setup ∧ x.circuitSince + 50000 ≤ s.portTime port then s.tryFails port else s)

/-- CIRCUIT_BACKOFF_END (R368): 2 × 2^i µs and (chip mod 8) × 250 ns after failed try i, from 0 (R6). -/
def execCircuitBackoffEnd (s : State) : Result :=
  let port := s.ev.num
  let x := s.fabric.port port
  .next (if x.circuit = .wait ∧ x.circuitSince + 2000 * 2 ^ (x.tries - 1) + s.chip % 8 * 250 ≤ s.portTime port then s.sendSetup port else s)

/-- CIRCUIT_FEC_LOCK (R368): within 20 µs; the port is UP. The end that another chip's SETUP joined locks by the same event. -/
def execCircuitFecLock (s : State) : Result :=
  let port := s.ev.num
  let x := s.fabric.port port
  .next (if x.circuit = .locking ∧ s.portTime port ≤ x.circuitSince + 20000 then
      ((((s.onPort port (fun x => { x with circuit := .up, circuitSince := s.portTime port, asker := .none })).portUp port).circuitEnds
        port x.asker true false).pumpPortCircuit port)
    else if x.far = .locking ∧ s.portTime port ≤ x.farSince + 20000 then
      ((s.onPort port (fun x => { x with far := .up, farSince := s.portTime port })).portUp port).pumpPortCircuit port
    else s)

/-- CIRCUIT_LOCK_TIMEOUT (R368): the set-up fails. -/
def execCircuitLockTimeout (s : State) : Result :=
  let port := s.ev.num
  let x := s.fabric.port port
  .next (if x.circuit = .locking ∧ x.circuitSince + 20000 ≤ s.portTime port then
      (s.onPort port (fun x => { x with tries := x.tries + 1 })).setupFails port
    else if x.far = .locking ∧ x.farSince + 20000 ≤ s.portTime port then
      (s.onPort port (fun x => { x with far := .idle })).onCross x.farPeer s.chip x.farPort (fun _ => none)
    else s)

/-- A SETUP ends at this chip's port `out`: where no circuit holds the port it is joined to the requester's and ACK goes back, else BUSY.
A set-up of the port for the same pair that is out gives way to a lower chip's: it receives BUSY for its try (R368; log entry 65). -/
def State.lightEnd (s : State) (src out port : Nat) : State :=
  let x := s.fabric.port out
  let join (s : State) : State :=
    (s.onPort out (fun x => { x with far := .locking, farSince := s.portTime out, farPeer := src, farPort := port })).injectControl
      { kind := .ack, src := 0, dst := src, addr := port }
  if x.far ≠ .idle then s.injectControl { kind := .busy, src := 0, dst := src, addr := port }
  else if x.circuit = .idle ∨ x.circuit = .wait then join s
  else if x.circuit = .setup ∧ x.peer = src ∧ src < s.chip then join (s.tryFails out)
  else s.injectControl { kind := .busy, src := 0, dst := src, addr := port }

/-- A SETUP from `src` to `dst` reaches this chip: the cross-point to `out` is reserved, or BUSY goes back; at its end the port is joined
(R368). `port` names the requester's port. -/
def State.setupHop (s : State) (src dst out port : Nat) : State :=
  let r := s.crossPoint src dst out port
  if r.2 && decide (dst = s.chip) then r.1.lightEnd src out port else r.1

/-- CIRCUIT_SETUP_HOP (R368). -/
def execCircuitSetupHop (s : State) : Result := .next (s.setupHop s.ev.num s.ev.num2 s.ev.num4 s.ev.num3)

/-- A TEARDOWN from the requester of a circuit for its port: the circuit of that port goes here, with its hops' reservations, and it is
acknowledged; the port drains at the peer's DRAIN (R367, R368). -/
def State.peerTeardown (s : State) (src port : Nat) : State :=
  let s := (span 24 8).foldl (fun s p =>
    s.onPort p (fun x => if x.far ≠ .idle ∧ x.farPeer = src ∧ x.farPort = port then { x with far := .idle } else x)) s
  (s.onCross src s.chip port (fun _ => none)).injectControl { kind := .ack, src := 0, dst := src, addr := port, step := 1 }

/-! ### Control packets (R361, R443) -/

/-- Paths of a source, as keys of the silent count. -/
def pathKey (src : Nat) (b : Bool) : Nat := 2 * src + (if b then 1 else 0)

/-- A copy came by one path: that path is not silent. -/
def Fabric.heard (f : Fabric) (src : Nat) (b : Bool) : Fabric := { f with silent := put 0 f.silent (pathKey src b) 0 }

/-- A first copy: the other path has one more packet without its copy; the sixteenth in a row is recorded (R443). -/
def State.countSilent (s : State) (src : Nat) (b : Bool) : State :=
  let k := pathKey src (!b)
  let n := look 0 s.fabric.silent k + 1
  let s := s.onFabric (fun f => { f with silent := put 0 f.silent k n })
  if n = 16 then s.notice 8 0x69 (BitVec.ofNat 64 (src + (if b then 0 else 65536))) 0 else s

/-- What a control packet does once (R361). -/
def State.deliverControl (s : State) (p : Packet) : State :=
  match p.kind with
  | .setup => s.setupHop p.src s.chip p.addr p.addr
  | .ack => if p.step = 1 then s.tornDown p.addr else (s.passCircuit p).circuitAcked p.addr
  | .busy => (s.passCircuit p).circuitBusy p.addr
  | .teardown => s.peerTeardown p.src p.addr
  | .drain => s.peerDrains p.addr
  | .drainAck => s.onPort p.addr (fun x => { x with acked := true })
  | .arm => s.armFrom p.addr p.tag p.src
  | .control => s.podPacket p
  | .fetch => s.serveFetch p
  | .granule => s.takeGranule p
  | _ => s

/-- CONTROL_PACKET_ARRIVAL (R361): the first good copy of each (SRC, SEQ) is delivered, in a window of 1,024. -/
def execControlPacketArrival (s : State) : Result :=
  .next (match s.fabric.ingress[s.ev.num]? with
    | none => s
    | some e =>
      let p := e.2
      if !p.kind.isControl then s
      else
        let t := (s.takeIngress e).onFabric (fun f => f.heard p.src p.pathB)
        let w := look [] s.fabric.control p.src
        if w.contains p.seq then t
        else
          let t := t.onFabric (fun f => { f with control := put [] f.control p.src ((w ++ [p.seq]).drop (w.length + 1 - 1024)) })
          (t.countSilent p.src p.pathB).deliverControl p)

end Sys2Proof.Machine
end

