-- ==== Sys2Proof/Machine/Stall.lean ====
section
/-! DEFINITION. The stall monitor of a core (R405). -/

namespace Sys2Proof.Machine

/-- Core-local conditions that strands and entries wait on (R405). -/
structure Waits where
  tiles : List Nat := []
  streams : List Nat := []
  scale : Bool := false
  pool : Bool := false
  deriving DecidableEq, Repr

/-- Both waits. -/
def Waits.and (x y : Waits) : Waits :=
  { tiles := x.tiles ++ y.tiles, streams := x.streams ++ y.streams, scale := x.scale || y.scale, pool := x.pool || y.pool }

/-- What a blocked strand waits on; none where that is nothing the monitor judges. -/
def Strand.waits (x : Strand) : Option Waits :=
  match x.status, x.hold with
  | .blocked, .tile t => some { tiles := [t] }
  | .blocked, .stream n => some { streams := [n] }
  | .blocked, .scale => some { scale := true }
  | .blocked, .pool => some { pool := true }
  | _, _ => none

/-- SCLD at the head waits for scale-queue room (R258). -/
def State.scalesWait (s : State) (g : Nat) (x : Transfer) : Bool :=
  match s.elemAt g x x.done 0 .load with
  | .at _ _ p _ _ => p.sgeo ≠ 0 && decide (1024 < (s.core g).scales.length + x.desc.tileBits / (sgeoElems p.sgeo * x.desc.eb))
  | _ => false

/-- What the head of the transfer queue waits on. -/
def State.transferWaits (s : State) (g : Nat) : Option Waits :=
  let c := s.core g
  match c.tq with
  | [] => some {}
  | .fence _ :: _ => none
  | .work x :: _ =>
    let n := x.target + x.done
    match x.op, x.kind with
    | .tpref, _ => none
    | .scld, _ => if s.scalesWait g x then some { scale := true } else none
    | .tst, 0 => if (c.stream x.target).elems.isEmpty then some { streams := [x.target] } else none
    | .tscat, 0 => if (c.stream x.target).elems.isEmpty then some { streams := [x.target] } else none
    | .tst, 1 => if (c.tile n).full then none else some { tiles := [n] }
    | .tst, _ => none
    | .tscat, _ => none
    | _, 0 => if c.room x.target then none else some { streams := [x.target] }
    | .tgath, 1 => none
    | _, 1 => if (c.tile n).full then some { tiles := [n] } else none
    | _, _ => none

/-- Tiles of an operand that is not there. -/
def Core.missing (c : Core) (o : Operand) : List Nat :=
  match o with
  | .tile t => if (c.tile t).full then [] else [t]
  | .vault _ _ => []

/-- What the head of the M queue waits on; a ganged entry's wait is not core-local (R411). -/
def Core.matrixWaits (c : Core) : Option Waits :=
  match c.mq with
  | [] => some {}
  | .work (.mma x) :: _ =>
    let ts := (c.missing x.a ++ c.missing x.b).eraseDups
    let sc := x.scales.isNone && decide (c.scales.length < x.needs c true)
    if x.gang.isSome then none
    else if !ts.isEmpty then some { tiles := ts, scale := sc }
    else if sc then some { scale := true } else none
  | .work (.mtacc t _ _ _ _ _) :: _ => if (c.tile t).full && !c.replayed then some { tiles := [t] } else none
  | .work (.mscq _ _ n) :: _ => if decide (c.scales.length < n) && !c.replayed then some { scale := true } else none
  | _ => none

/-- No other entry of the core is performing or waiting. -/
def State.otherQueuesIdle (s : State) (g : Nat) : Bool :=
  let c := s.core g
  c.ch.all (fun e => e.2.queue.isEmpty) && c.sq.isEmpty && c.bq.isEmpty && c.oq.isEmpty && c.triggers.isEmpty && c.timed.isEmpty
    && c.items.isEmpty && c.fences.isEmpty && c.flying.all (fun f => f.localDone) && s.bcastsDone g
    && s.fabric.plans.all (fun p => decide (p.core ≠ g))

/-- Join the waits of a list where every one is judged. -/
def allWaits : List (Option Waits) → Option Waits
  | [] => some {}
  | none :: _ => none
  | some w :: l => (allWaits l).map w.and

/-- Every live strand of the running task and every queue head waits on a core-local condition, and something waits: a strand, or an
entry that its strands have left behind. -/
def State.stallWaits (s : State) (g : Nat) : Option Waits :=
  let c := s.core g
  let l := [c.strandC, c.strandA, c.strandM, c.strandO].filter Strand.live
  if (l.isEmpty && c.tq.isEmpty && c.mq.isEmpty) || !c.heldStrands.isEmpty || !s.otherQueuesIdle g then none
  else allWaits (l.map Strand.waits ++ [s.transferWaits g, c.matrixWaits])

/-- What a change of resets the count: tile bits, streams, the scale queue and pool shares. -/
def Core.stallDigest (c : Core) : List Nat :=
  (span 0 16).map (fun t => if (c.tile t).full then 1 else 0) ++ (span 0 16).map (fun n => (c.stream n).elems.length)
    ++ c.scales.length :: (span 0 31).flatMap (fun q => [c.used q, (c.share q).min, (c.share q).cap])

/-- The count after `n` ccy, with what the monitor saw. -/
def State.countStall (s : State) (g n : Nat) : Nat × List Nat :=
  let c := s.core g
  let d := c.stallDigest
  (match s.stallWaits g with
   | some _ => if c.stallSeen = d then c.stall + n else n
   | none => 0, d)

/-- Bits of a list of numbers below 16. -/
def maskOf (l : List Nat) : Nat := l.eraseDups.foldl (fun n t => n + 2 ^ t) 0

/-- ADDR of the monitor's record. -/
def Core.stallAddr (c : Core) (w : Waits) : Word :=
  let blocked (x : Strand) (i : Nat) : Nat := if x.status = .blocked then 2 ^ i else 0
  BitVec.ofNat 64 (maskOf w.tiles + 2 ^ 16 * maskOf w.streams + blocked c.strandC 32 + blocked c.strandA 33 + blocked c.strandM 34
    + blocked c.strandO 35 + (if w.scale then 2 ^ 36 else 0) + (if w.pool then 2 ^ 37 else 0))

/-- The lowest-numbered blocked strand. DESIGN CHOICE (log entry 84), unsafe: C where none is blocked; R405 names none then. -/
def Core.firstBlocked (c : Core) : StrandKind :=
  if c.strandC.status = .blocked then .c else if c.strandA.status = .blocked then .a
  else if c.strandM.status = .blocked then .m else if c.strandO.status = .blocked then .o else .c

/-- STALL_LIMIT (R405): once for a task; DATA is the count (R401). -/
def execStallLimit (s : State) : Result :=
  let g := s.ev.core
  let c := s.core g
  let limit := (s.die (dieOf g)).dlk.toNat * 1024
  .next (match s.stallWaits g with
    | some w =>
      if limit = 0 ∨ c.stall < limit ∨ c.halted ∨ (c.task.map (fun t => t.stopped)).getD true then s
      else
        let k := c.firstBlocked
        s.taskFault g k false (if w.pool then 0x1C else if w.scale then 0x1B else 0x1A) (c.strand k).pc (c.stallAddr w) (BitVec.ofNat 64 c.stall)
    | none => s)

end Sys2Proof.Machine
end

