-- ==== Sys2Proof/Machine/Environment.lean ====
section
/-! DEFINITION. Time passing and the outside world acting without a row of its own (R20, R195, R337, R405; log entry 6). -/

namespace Sys2Proof.Machine

/-- Timed copies of a die's cores whose time TIME has reached enter their channels (R262). -/
def State.releaseTimed (s : State) (d : Nat) : State :=
  let now := (s.die d).time.toNat
  s.mapCores (fun g c => if dieOf g = d then c.releaseCopies now else c)

/-- How far a die's TIME goes of `n` ns: Keystone's not past what is due (R325, R328), a commit of the conversion pairs in each ms among
it (R22). -/
def State.nsRoom (s : State) (d n : Nat) : Nat := if d = 8 then min n (s.timeLimit - s.keystoneTime) else n

/-- A pair converts a TIME to within 8 ns of another (R22). -/
def pairHolds (ofs rate from_ to_ : Word) : Bool :=
  let gap := (ofs + BitVec.ofNat 64 (from_.toNat * rate.toNat / 2 ^ 40) - to_).toInt
  decide (-8 ≤ gap) && decide (gap ≤ 8)

/-- The pairs of every die hold now (R22). -/
def State.conversionsHold (s : State) : Bool :=
  (span 0 13).all (fun d => (span 0 13).all (fun i =>
    pairHolds (look 0 (s.die d).tofs i) (look (BitVec.ofNat 64 (2 ^ 40)) (s.die d).trate i) (s.die i).time (s.die d).time))

/-- TIME advances on one die, or on all of them where `d` is 13 or more. -/
def State.tick (s : State) (d n : Nat) : State :=
  let one (s : State) (d : Nat) : State := s.onDie d (fun x => { x with time := x.time + BitVec.ofNat 64 n })
  if d < 13 then one s d else (span 0 13).foldl one s

/-- A die's TIME advances (R20), or every die's where `d` is 13 or more; after bring-up only as far as the conversion pairs hold
(R22). -/
def State.passNs (s : State) (d n : Nat) : State :=
  let t := s.tick d (s.nsRoom (if d < 13 then d else 8) n)
  if s.mgmt.ready && !t.conversionsHold then s
  else if d < 13 then t.releaseTimed d else (span 0 13).foldl State.releaseTimed t

/-- What `n` leaves up to a limit that a count approaches. -/
def upTo (limit count n : Nat) : Nat := min n (limit - count)

/-- How many of `n` ccy pass on a core: none past the ccy in which a region reaches its bound, the stall monitor its limit or the wait for
a partner its end, before the fault of it is taken (R44, R405, R411). -/
def State.ccyRoom (s : State) (g n : Nat) : Nat :=
  let c := s.core g
  let limit := (s.die (dieOf g)).dlk.toNat * 1024
  match c.task with
  | none => n
  | some t =>
    if c.halted || t.stopped then n
    else
      let n := if t.region = .sealedPending then upTo t.bound t.boundCount n else n
      let n := if limit ≠ 0 && (s.stallWaits g).isSome then upTo limit (if c.stallSeen = c.stallDigest then c.stall else 0) n else n
      if s.partnerLost g then upTo 65536 c.gangStall n else n

/-- Compute cycles of a core: CCNT, the region bound, the stall count and the gang wait; none counts while the core is halted
(R195, R197, R405, R409, R411). Instructions that wait on a flag are tested at the end of a ccy in which it changed (R233). -/
def State.passCcy (s : State) (g n : Nat) : State :=
  let n := s.ccyRoom g n
  let s := if n = 0 then s else s.onCore g Core.endCcy
  let st := s.countStall g n
  let lost := s.partnerLost g
  s.onCore g (fun c =>
    if c.halted || c.task.isNone then c
    else
      let c := c.onTask (fun t => if t.region = .sealedPending then { t with boundCount := t.boundCount + n } else t)
      { c with ccnt := c.ccnt + BitVec.ofNat 64 n, stall := st.1, stallSeen := st.2, gangStall := if lost then c.gangStall + n else 0 })

/-- How many of `n` kcy pass: none while a decay or a period is due, and not past the next kcy that may have one: HALF is 12 or more
(R311, R337). -/
def State.kcyRoom (s : State) (n : Nat) : Nat := if s.decayDue || s.periodDue then 0 else min n (4096 - s.mgmt.kcy.toNat % 4096)

/-- Keystone cycles: the count of R337 and WaitKcy of the stages that wait (R49). -/
def State.passKcy (s : State) (n : Nat) : State :=
  let n := s.kcyRoom n
  State.settleVersion { s with
    mgmt := { s.mgmt with kcy := s.mgmt.kcy + BitVec.ofNat 64 n },
    launches := s.launches.map (fun l => { l with stages := l.stages.map (fun st => if st.waiting then { st with waitKcy := st.waitKcy + n } else st) }) }

/-- A corrected error of an array at an address: Strata counts it, and it waits for firmware's record (R414). -/
def State.countCorrected (s : State) (array a : Nat) : State :=
  let s := s.strataAdd (1 + Config.strataBin 9 0x70 array 0 / 2 ^ 16 % 8) array 0 1
  { s with mgmt := { s.mgmt with corrected := put (0, 0) s.mgmt.corrected array (a, (look (0, 0) s.mgmt.corrected array).2 + 1) } }

/-- A die's granule is uncorrectable: without joins to carry up it is dropped and fetched again, else they are lost (R426). -/
def State.loseGranule (s : State) (d a : Nat) : State :=
  match (s.die d).granule? (granuleOf a) with
  | none => s
  | some x =>
    if x.dirty then (s.notice d 0x79 (BitVec.ofNat 64 (a / 8 * 8)) 4).moduleStop
    else (s.onDie d (fun y => { y with granules := drop (granuleOf a) y.granules })).countCorrected 4 (a / 8 * 8)

/-- A Keystone replica line is uncorrectable: it is rebuilt from its frame and every die's replica (R426). -/
def State.rebuildLine (s : State) (a : Nat) : State :=
  (s.dies.foldl (fun s e => match e.2.granule? (granuleOf a) with
    | some x => if x.home0 then s else s.mergeAtKeystone (granuleOf a) x.lat x.pod x.value
    | none => s) s).countCorrected 2 a

/-- The host's access returns. -/
def State.reply (s : State) (r : Option (List Byte)) : State := { s with host := { s.host with replies := s.host.replies ++ [r] } }

/-- A host write to a BAR waits behind a write that a checkpoint holds: the DX9 performs writes in the order in which they arrive
(R351). -/
def State.writeWaits (s : State) (op : HostOp) : Bool :=
  let isWrite (op : HostOp) : Bool := match op with | .write _ => true | _ => false
  isWrite op && s.host.waiting.any (fun e => isWrite e.2.2)

/-- A host access to BAR0, the register BAR at the same offsets: 8 bytes and aligned within its 64 MiB, else Unsupported Request with no
effect, as for an AtomicOp (R348 to R350). In a module that has stopped only the mailbox answers (R384). -/
def State.hostBar0 (s : State) (o : Nat) (op : HostOp) : State :=
  if !s.host.linkUp || (s.mgmt.down && !((registerOf o).map inMailbox).getD false) then s
  else if o % 8 ≠ 0 ∨ 2 ^ 26 ≤ o then s.reply none
  else match op with
    | .read n => if n = 8 then s.reply (some (leBytes 8 (s.readBar o).toNat)) else s.reply none
    | .write b => if b.length = 8 then s.writeBar o (BitVec.ofNat 64 (leNat b)) else s.reply none
    | .atomicOp => s.reply none

/-! ### The clock (R377, R378) -/

/-- Change the management registers. -/
def State.onMgmt (s : State) (f : Mgmt → Mgmt) : State := { s with mgmt := f s.mgmt }

/-- A firmware image is accepted: its signature holds, its key hashes to the fused value, and its security version is not below the
rollback counter (R376). -/
def Mgmt.accepts (m : Mgmt) (i : FwImage) : Bool := i.signed && decide (i.key = m.fusedKey) && decide (m.rollback ≤ i.version)

/-- The compute clock in use: the lower of hardware's step and firmware's, and 1.0 GHz while a die's temperature forces it. -/
def State.setClock (s : State) : State :=
  let forced := s.dies.any (fun d => d.2.hot = 2)
  s.onMgmt (fun m => let n := min m.hwStep m.fwStep; { m with clk := BitVec.ofNat 8 (if forced then min 10 n else n) })

/-- Firmware's policy sets its step, from 1.0 GHz to the grade's frequency (R377). -/
def State.setFirmwareStep (s : State) (n : Nat) : State :=
  if 10 ≤ n ∧ n ≤ s.mgmt.grade.toNat then (s.onMgmt (fun m => { m with fwStep := n })).setClock else s

/-! ### What happens outside -/

/-- The outside world acts (log entry 6). -/
def State.applyUpset (s : State) (u : Upset) : State :=
  match u with
  | .poison a => s.markPoison a
  | .poisonTile g t i => s.onCore g (fun c => let x := c.tile t; c.setTile t { x with poison := if x.poison.contains i then x.poison else x.poison ++ [i] })
  | .corrected a x => s.countCorrected a x
  | .badGranule d a => s.loseGranule d a
  | .badLine a => s.rebuildLine a
  | .remoteSegment b f =>
    if b < 4 ∨ 8 ≤ b ∨ !s.busConnected b ∨ s.cores.any (fun c => s.driftOwed c.1 c.2) then s
    else
      let skws := (s.cores.map (fun c => (c.1, c.2.skw))).filter (fun e => decide (e.2 ≠ 3))
      s.onBus b (fun x => { x with flights := x.flights ++ [{ frame := f, skws := skws }], lastEmitted := if f.re.isSome then x.lastEmitted else some f.seg })
  | .badMarker k n =>
    (match (s.bus k).flights.findIdx? (fun f => decide (f.frame.seg = n)) with
     | some i => s.onBus k (fun x => { x with flights := modifyNth (fun f => { f with frame := { f.frame with crcOk := false } }) i x.flights })
     | none => { s with upsets := s.upsets ++ [.badMarker k n] })
  | .msixControl on mask => s.onLog (fun e => e.setControl on mask)
  | .transmit p =>
    (match s.fabric.outbound.find? (fun e => e.1 = p) with
     | some e => ({ s with fabric := { s.fabric with outbound := s.fabric.outbound.erase e, sent := s.fabric.sent ++ [e] } }).onPort p
         (fun x => { x with credits := x.credits + e.2.flits })
     | none => s)
  | .credit p n => s.onPort p (fun x => { x with credits := x.credits - n })
  | .chipTime c ofs rate => s.onFabric (fun f => { f with conv := put (0, BitVec.ofNat 64 (2 ^ 40)) f.conv c (ofs, rate) })
  | .othersExchanged t => { s with flow := { s.flow with othersAt := max s.flow.othersAt (min t s.keystoneTime) } }
  | .frames d n => if d < 8 then { s with frames := put 0 s.frames d (look 0 s.frames d + n) } else s
  | .bar2Size n => if 26 ≤ n ∧ n ≤ 36 then { s with host := { s.host with bar2 := n } } else s
  | .bar0 o op => if s.host.linkUp && s.writeWaits op then { s with host := { s.host with waiting := s.host.waiting ++ [(0, o, op)] } } else s.hostBar0 o op
  | .packet p => { s with fabric := { s.fabric with packets := s.fabric.packets ++ [p] } }
  | .hostWrite a b => if paSpace a = 2 then s.store [a] [b] else s
  | .rewriteEntry ctx tensor page w0 w1 =>
    (match s.desc? ctx tensor with
     | some d =>
       let a := d.entryAddr page
       let old := s.readPage a
       let s := if old.v then { s with stale := (ctx, a, old) :: s.stale } else s
       (s.writeTable a 8 w0.toNat).writeTable (a + 8) 8 w1.toNat
     | none => s)
  | .firmwareStep n => s.setFirmwareStep n
  | .strata p i b n => if p ≤ 14 then s.strataAdd p i b n else s
  | .loadSchedule i => if s.mgmt.accepts i then s.onMgmt (fun m => { m with schedule := some i.release }) else s
  | .firmwareNotice a d => s.notice 8 0x87 a d
  | _ => { s with upsets := s.upsets ++ [u] }

end Sys2Proof.Machine
end

