-- ==== Sys2Proof/Machine/Paging.lean ====
section
/-! DEFINITION. The pager and firmware's changes of live page entries: page-ins, migrations, changes of lattice type (R69, R71 to
R74, R322, R421 to R425, R448). -/

namespace Sys2Proof.Machine

/-! ### Page-ins (R72, R421) -/

/-- The page that a strand of a core waits on: the access unit's, or the strand's own. -/
def Core.waitsPage (c : Core) (k : StrandKind) : Option (Nat × Nat × Nat) :=
  match (c.strand k).hold, k, c.unitHalt with
  | .pageIn ctx t p, _, _ => some (ctx, t, p)
  | _, .a, some h => some h
  | _, _, _ => none

/-- The request is served: access units that halted for the page go on. -/
def State.endPageIn (s : State) (r : Nat × Nat × Nat) : State :=
  ({ s with pageReqs := s.pageReqs.filter (fun q => decide ((q.ctx, q.tensor, q.page) ≠ r)) }).mapCores (fun _ c =>
    if c.unitHalt = some r then { c with unitHalt := none } else c)

/-- The page is not made resident for a core: its access faults when it is tried again. -/
def State.deny (s : State) (g : Nat) (r : Nat × Nat × Nat) (cause : Nat) (data : Word) : State :=
  (s.endPageIn r).onCore g (fun c => { c with denied := c.denied ++ [{ ctx := r.1, tensor := r.2.1, page := r.2.2, cause := cause, data := data }] })

/-- The request that the event serves: the one that a strand of its core waits on, or one by its place in the list. -/
def State.servedPage (s : State) : Option PageReq :=
  match (s.core s.ev.core).waitsPage s.ev.strand with
  | some r => s.pageReqs.find? (fun q => decide ((q.ctx, q.tensor, q.page) = r))
  | none => s.pageReqs[s.ev.num]?

/-- PAGE_IN_COMPLETE (R421, R422, R448), for the instruction or entry that asked first: a frame is lacking only where nothing of R73's
order is left. -/
def execPageInComplete (s : State) : Result :=
  .next (match s.servedPage with
    | none => s
    | some q =>
      let r := (q.ctx, q.tensor, q.page)
      let g := q.who.core
      match s.ev.page with
      | .notMapped => s.deny g r 0x24 0
      | .noFrame need got =>
        if (decide (q.who.queue ≠ 255) && decide (0 < (s.core g).reserve)) || decide (0 < s.spareFrames (dieOf g)) || s.residents.any (s.canGive (dieOf g))
            || decide (got ≠ ((s.core g).footprintOf q.who).length) || decide (need ≤ got) then s
        else (s.returnFrames q.who).deny g r 0x29 (BitVec.ofNat 64 (need % 256 + got % 256 * 256))
      | .tierLost => if s.host.tierUp then s else s.deny g r 0x6B 0
      | .valid => (match s.desc? q.ctx q.tensor with
        | some d => if paChip (d.entryAddr q.page) = s.chip && !(s.readPage (d.entryAddr q.page)).v then s else s.endPageIn r
        | none => s.endPageIn r)
      | .refill c t p back => (s.refillFrom g c t p back).getD s
      | .resident w0 w1 src took =>
        match s.makeResident q.who q.ctx q.tensor q.page w0 w1 src took with
        | some t => t.endPageIn r
        | none => s)

/-! ### Live entries -/

/-- A granule lies in a frame. -/
def inFrame (frame k : Nat) : Bool := decide (frame ≤ 64 * k) && decide (64 * k < frame + pageBytes)

/-- A granule number as its page moves. -/
def moveGranule (old new k : Nat) : Nat := if inFrame old k then k - old / 64 + new / 64 else k

/-- Insert the pairs of a map in the order of their keys. -/
def resort {α : Type} (l : List (Nat × α)) : Sparse α := l.foldl (fun m e => place e.1 e.2 m) []

/-- Replicas, parked loads and exchange lists follow a page to its new frame; a HOME 0 copy and what parks on it go to the new home
die (R71, R324, R335). -/
def State.moveReplicas (s : State) (old new : Nat) : State :=
  let f := moveGranule old new
  let away (k : Nat) (home0 : Bool) : Bool := home0 && inFrame old k
  let copies := s.dies.flatMap (fun d => (d.2.granules.filter (fun e => away e.1 e.2.home0)).map (fun e => (f e.1, e.2)))
  let loads := s.dies.flatMap (fun d => d.2.parked.filter (fun p => away (granuleOf p.cell) (p.home = 0)))
  let at' (p : Parked) : Parked := if inFrame old (granuleOf p.cell) then { p with cell := p.cell - old + new } else p
  let s := s.mapDies (fun _ d => { d with
    granules := resort ((d.granules.filter (fun e => !away e.1 e.2.home0)).map (fun e => (f e.1, e.2))),
    parked := (d.parked.filter (fun p => !away (granuleOf p.cell) (p.home = 0))).map at',
    wanted := d.wanted.map (fun e => (f e.1, e.2)) })
  let s := copies.foldl (fun s e => s.onDie (homeDie new) (fun x => x.setGranule e.1 e.2)) s
  let s := s.onDie (homeDie new) (fun x => { x with parked := x.parked ++ loads.map at' })
  { s with flow := { s.flow with shadow := resort (s.flow.shadow.map (fun e => (f e.1, e.2))), known := resort (s.flow.known.map (fun e => (f e.1, e.2))),
                                 podDirty := s.flow.podDirty.map (fun e => (f e.1, e.2)) } }

/-- When a page moved last. -/
def State.movesOf (s : State) (ctx entry : Nat) : List Nat :=
  match s.moves.find? (fun m => decide (m.ctx = ctx) && decide (m.entry = entry)) with | some m => m.times | none => []

/-- Moves of a page in the ms before `now` (R71). -/
def recentMoves (l : List Nat) (now : Nat) : List Nat := l.filter (fun t => decide (now < t + 1000000))
/-- A page stays where it is: its last four moves fell within 1 ms, and 16 ms have not passed since (R71). -/
def movesHeld (l : List Nat) (now : Nat) : Bool :=
  match l with
  | [a, _, _, d] => decide (d < a + 1000000) && decide (now < d + 16000000)
  | _ => false

/-- PAGE_MIGRATION (R71, R335, R412): an unpinned page with moves left goes to a new frame once nothing begun is left at the old one; a
lattice page stays on its chip. MIG counts the moves of the ms. A page that comes from another chip brings its marks, by unit. -/
def execPageMigration (s : State) : Result :=
  let ctx := s.ev.num
  let new := s.ev.word.toNat / pageBytes * pageBytes
  let now := s.keystoneTime
  .next (match s.desc? ctx s.ev.num2 with
    | none => s
    | some d =>
      let entry := d.entryAddr s.ev.num3
      let p := s.readPage entry
      let times := s.movesOf ctx entry
      let asked := s.pageReqs.any (fun q => decide ((q.ctx, q.tensor, q.page) = (ctx, s.ev.num2, s.ev.num3)))
      let here := decide (paChip p.frame = s.chip)
      let there := decide (paChip new = s.chip)
      if !p.v || p.pin || movesHeld times now || asked || s.frameBusy p.frame || (there && !s.mapped new) || decide (paSpace new = 6)
          || decide (paSpace p.frame = 6) || (!here && there && decide (s.ev.bytes.length ≠ pageBytes))
          || (decide (p.lat ≠ 0) && decide (paChip p.frame ≠ paChip new)) then s
      else
        let w0 := s.tableLE entry 8
        let w1 := s.tableLE (entry + 8) 8
        let s := if !there then s else if here then s.copyFrame p.frame new
          else (s.store (span new pageBytes) s.ev.bytes).markAll ((s.ev.nums.filter (fun i => decide (i < 2048))).map (fun i => new + 32 * i))
        let s := (s.countFrames p.frame (fun n => n + 1)).countFrames new (fun n => n - 1)
        let latest : Moves := { ctx := ctx, entry := entry, times := (times ++ [now]).drop (times.length - 3) }
        let s := { s with moves := s.moves.filter (fun (m : Moves) => !(decide (m.ctx = ctx) && decide (m.entry = entry))) ++ [latest] }
        (s.moveReplicas p.frame new).writeEntry ctx entry (BitVec.ofNat 64 (new + w0 % 65536))
          (BitVec.ofNat 64 (w1 - p.mig * 16 + min 7 ((recentMoves times now).length + 1) * 16)))

/-- Merge a die's replicas of a frame into it (R322, step 3). -/
def State.gatherFrame (s : State) (frame d : Nat) : State :=
  ((s.die d).granules.filter (fun e => inFrame frame e.1)).foldl (fun s e =>
    (s.mergeAtKeystone e.1 e.2.lat e.2.pod e.2.value).markKeystone e.1 e.2.poison) s

/-- A chip that is not the home of a frame sends what its Keystone replicas hold to the home chip, which merges it, and says that it has
(R322, step 3). DESIGN CHOICE (log entry 138), unsafe: how chips tell one another is not in the spec. -/
def State.sendShadows (s : State) (frame : Nat) : State :=
  if paChip frame = s.chip then s
  else ((s.flow.shadow.filter (fun e => inFrame frame e.1)).foldl (fun s e =>
    s.injectControl (s.granulePacket .control (paChip frame) e.1 e.2.lat 4 0)) s).injectControl
      { kind := .control, src := 0, dst := paChip frame, addr := frame, step := 5 }

/-- Every other chip of the pod has merged what it held of a frame into this home chip's copy (R322, step 3; log entry 138). -/
def State.othersMerged (s : State) (frame : Nat) : Bool :=
  let (x, y, z) := s.extents
  (span 0 z).all (fun k => (span 0 y).all (fun j => (span 0 x).all (fun i =>
    let c := i + 16 * j + 256 * k
    decide (c = s.chip) || s.flow.merged.contains (frame, c))))

/-- Drop the replicas of a frame (R322, step 4). -/
def State.dropReplicas (s : State) (frame : Nat) : State :=
  let keep {α : Type} (m : Sparse α) : Sparse α := m.filter (fun e => !inFrame frame e.1)
  let s := s.mapDies (fun _ d =>
    { d with granules := keep d.granules, wanted := d.wanted.filter (fun e => !inFrame frame e.1),
             parked := d.parked.filter (fun p => !inFrame frame (granuleOf p.cell)) })
  { s with flow := { s.flow with shadow := keep s.flow.shadow, known := keep s.flow.known,
                                 podDirty := s.flow.podDirty.filter (fun e => !inFrame frame e.1),
                                 merged := s.flow.merged.filter (fun e => decide (e.1 ≠ frame)) } }

/-- Joins of a frame that every replica now has are performed (R322). -/
def State.settleJoins (s : State) (frame : Nat) : State :=
  let mine (x : Access) : Bool := (match x.kind with | .join _ _ _ => true | _ => false) && x.bytes.any (fun a => decide (frame ≤ a) && decide (a < frame + pageBytes))
  let s := s.mapCores (fun _ c => { c with outC := c.outC.filter (fun x => !mine x), outA := c.outA.filter (fun x => !mine x) })
  { s with launches := s.launches.map (fun l => { l with left := l.left.filter (fun x => !mine x) }) }

/-- Parked loads of a frame fail with cause 0x50 (R425). -/
def State.failParked (s : State) (frame : Nat) : State :=
  (s.dies.flatMap (fun d => d.2.parked.filter (fun p => inFrame frame (granuleOf p.cell)))).foldl (fun s p =>
    s.taskFault p.core .c false 0x50 p.pc p.vaddr 0) s

/-- LATTICE_TYPE_CHANGE (R322, R425): once every join issued through the old entry is applied, and on the home chip of a HOME 2 page once
the other chips have merged theirs. A lattice page holds raw bytes. -/
def execLatticeTypeChange (s : State) : Result :=
  let ctx := s.ev.num
  .next (match s.desc? ctx s.ev.num2 with
    | none => s
    | some d =>
      let entry := d.entryAddr s.ev.num3
      let p := s.readPage entry
      let lat := s.ev.num4
      let waiting (x : Access) : Bool := x.virtual && decide (x.phase = .issued) && x.bytes.any (fun a => decide (p.frame ≤ a) && decide (a < p.frame + pageBytes))
      if !p.v || decide (10 ≤ lat) || s.cores.any (fun c => c.2.outC.any waiting || c.2.outA.any waiting)
          || (decide (p.lat ≠ 0) && decide (d.home = 2) && decide (paChip p.frame = s.chip) && !s.othersMerged p.frame) then s
      else
        let w0 := s.tableLE entry 8
        let w1 := s.tableLE (entry + 8) 8
        let fmt := if lat = 0 then p.fmt else 14
        let s := s.failParked p.frame
        let s := (s.dies.map (·.1)).foldl (fun s i => s.gatherFrame p.frame i) s
        (((s.sendShadows p.frame).dropReplicas p.frame).settleJoins p.frame).writeEntry ctx entry
          (BitVec.ofNat 64 (w0 - p.fmt * 4096 - p.lat * 256 + fmt * 4096 + lat * 256)) (BitVec.ofNat 64 w1))

end Sys2Proof.Machine
end

