-- ==== Sys2Proof/Machine/HostEvents.lean ====
section
/-! DEFINITION. The host link, the second tier, checkpoints and the loss of power (R350, R354 to R356, R447 to R449). -/

namespace Sys2Proof.Machine

/-! ### The image (R355) -/

/-- Bytes of an image. -/
def imageBytes : Nat := 555393024000
/-- Image offsets of the vaults, the accumulator stores and the header. -/
def imageVaults : Nat := 8 * 2 ^ 36
def imageAccs : Nat := imageVaults + 3 * 2 ^ 30
def imageHeader : Nat := imageVaults + 21 * 2 ^ 28

/-- Image offset of a byte of this module's memory, by its key: HBM, and the stores of present cores. -/
def State.imageOffset (s : State) (key : Nat) : Option Nat :=
  let o := paOffset key
  let g := o / 2 ^ 29 * 96 + o / 2 ^ 22 % 128
  let here := decide (o < 2 ^ 32) && decide (o / 2 ^ 22 % 128 < 96) && (s.core g).present
  match paSpace key with
  | 0 => if o < 2 ^ 39 ∧ o % 2 ^ 36 < 64000000000 then some o else none
  | 4 => if here then some (imageVaults + g * 2 ^ 22 + o % 2 ^ 22) else none
  | 5 => if here ∧ o % 2 ^ 22 < 3 * 2 ^ 20 then some (imageAccs + g * (3 * 2 ^ 20) + o % 2 ^ 22) else none
  | _ => none

/-- The byte of memory that an image offset stands for: the inverse, none for the header and absent cores. -/
def State.imageSource (s : State) (i : Nat) : Option Nat :=
  if i < imageVaults then (if i % 2 ^ 36 < 64000000000 then some i else none)
  else if i < imageAccs then
    let g := (i - imageVaults) / 2 ^ 22
    if (s.core g).present then some (vaultAt g ((i - imageVaults) % 2 ^ 22)) else none
  else if i < imageHeader then
    let g := (i - imageAccs) / (3 * 2 ^ 20)
    if (s.core g).present then some (accAt g 0 + (i - imageAccs) % (3 * 2 ^ 20)) else none
  else none

/-- An offset below the header that the layout gives content. -/
def inImage (i : Nat) : Bool := decide (i < imageHeader) && (decide (imageVaults ≤ i) || decide (i % 2 ^ 36 < 64000000000))

/-- A byte of the second tier lies in the image at `base`: its image offset. -/
def tierOffset (base key : Nat) : Option Nat :=
  let o := paOffset key
  if paSpace key = 1 ∧ base ≤ o ∧ inImage (o - base) then some (o - base) else none

/-- Key of an image offset in the second tier. -/
def tierKey (base i : Nat) : Nat := 2 ^ 48 + base + i

/-- Write the bytes of the image below an offset, with their poison marks, but for the header (R355, R412). -/
def State.writeImage (s : State) (base below : Nat) : State :=
  let due (i : Nat) : Bool := decide (i < below)
  let kept := s.mem.filter (fun c => !((tierOffset base c.1).map due).getD false)
  let marks := (s.poison.filterMap s.imageOffset).filter due
  let mem := s.mem.foldl (fun m c => match s.imageOffset c.1 with
    | some i => if due i then put (0 : Byte) m (tierKey base i) c.2 else m
    | none => m) kept
  ({ s with mem := mem, poison := s.poison.filter (fun u => !((tierOffset base u).map due).getD false) }).markAll (marks.map (tierKey base))

/-- Write an image back, with its poison marks (R379). -/
def State.readImage (s : State) (base : Nat) : State :=
  let kept := s.mem.filter (fun c => (s.imageOffset c.1).isNone)
  let source (key : Nat) : Option Nat := (tierOffset base key).bind s.imageSource
  let marks := s.poison.flatMap (fun u => (span 0 4).filterMap (fun j => source (u + 8 * j)))
  let mem := s.mem.foldl (fun m c => match source c.1 with
    | some k => put (0 : Byte) m k c.2
    | none => m) kept
  ({ s with mem := mem, poison := s.poison.filter (fun u => (s.imageOffset u).isNone) }).markAll marks

/-- Write zero to the header's first 64 bytes (R449). -/
def State.zeroHeader (s : State) (base : Nat) : State := s.store (span (tierKey base imageHeader) 64) (List.replicate 64 0)

/-! ### BAR2 (R350) -/

/-- Bytes as a read from outside returns them: a unit that is poisoned holds its array's check pattern, a free value (R412; log
entry 5). -/
def State.outsideRead (s : State) (addrs : List Nat) : List Byte × State :=
  (((span 0 addrs.length).zip addrs).map (fun e => if s.poisoned e.2 then BitVec.ofNat 8 (Config.free (s.freeCtr + e.1)) else s.byte e.2),
   { s with freeCtr := s.freeCtr + addrs.length })

/-- A host access to BAR2 through HWIN: an unmapped address or an AtomicOp completes with Unsupported Request (R350). Lost metadata of
its lines poisons them first (R417; log entry 145). -/
def State.hostBar2 (s : State) (off : Nat) (op : HostOp) : State :=
  let o := s.host.hwin.toNat * 65536 + off
  let s := match op with
    | .atomicOp => s
    | .read n => s.spoilAt (span o n)
    | .write b => s.spoilAt (span o b.length)
  match op with
  | .atomicOp => s.reply none
  | .read n =>
    let a := span o n
    if a.all s.mapped && decide (o + n ≤ 2 ^ 48) then let r := s.outsideRead a; r.2.reply (some r.1) else s.reply none
  | .write b => if (span o b.length).all s.mapped && decide (o + b.length ≤ 2 ^ 48) then s.store (span o b.length) b else s.reply none

/-! ### A checkpoint (R356, R449) -/

/-- Step 1: every running task is asked to go, and staged tasks are withdrawn (R44, R317). -/
def State.quiesce (s : State) : State :=
  let asked := s.cores.filterMap (fun c => match c.2.task with
    | some t =>
      if s.preempts.any (fun p => decide ((p.launch, p.stage, p.tidx) = (t.launch, t.stage, t.tidx))) then none
      else some ({ core := c.1, launch := t.launch, stage := t.stage, tidx := t.tidx } : Preempt)
    | none => none)
  let s := s.cores.foldl (fun s c => s.withdrawStaged c.1) s
  { s with preempts := s.preempts ++ asked }

/-- The checkpoint ends: requests and queues go on, HOLD is obeyed, and the host's held accesses are released (R356). -/
def State.endCheckpoint (s : State) (c : Checkpoint) : State :=
  s.host.waiting.foldl (fun s e => if e.1 = 0 then s.hostBar0 e.2.1 e.2.2 else s.hostBar2 e.2.1 e.2.2) { s with host := { s.host with checkpoint := none, hold := c.hold, waiting := [] } }

/-- The checkpoint cannot reach its completion record: the image offset reached and the cause of the stop (R449). -/
def State.interruptCheckpoint (s : State) (c : Checkpoint) (reached cause : Nat) : State :=
  (s.enter (s.commandRecord c.queue 0x6C c.index c.tag c.irq (BitVec.ofNat 64 reached) (BitVec.ofNat 64 cause))).endCheckpoint c

/-- CHECKPOINT (R355, R356, R449): without the second tier it is interrupted at once. -/
def execCheckpoint (s : State) : Result :=
  let n := s.ev.num
  .next (s.withCommand n 5 (fun s =>
    let c : Checkpoint := { queue := n, index := (s.queue n).head, tag := s.cmdTag n, irq := s.cmdIrq n, base := s.cmdWord n 1,
                            hold := decide (s.cmdWord n 2 = 1) }
    let s := s.accept n none
    if s.host.tierUp then ({ s with host := { s.host with checkpoint := some c } }).quiesce else s.interruptCheckpoint c 0 0x6B))

/-- Step 4: every die exchanges, and HOME 0 copies go to their frames; the frames are Keystone's own copies (R335). -/
def State.settleLattice (s : State) : State :=
  let s := (s.dies.map (·.1)).foldl (fun s d => if d < 8 then s.exchangeWhole d s.upsets.length else s) s
  s.dies.foldl (fun s d => (d.2.granules.filter (fun e => e.2.home0)).foldl (fun s e =>
    ((s.store (span (64 * e.1) 64) (leBytes 64 e.2.value.toNat)).markAll (e.2.poison.map (fun u => 64 * e.1 + 8 * u))).onDie d.1
      (fun x => x.setGranule e.1 { e.2 with dirty := false })) s) s

/-- A launch as its restart records describe it: every task is re-queued, and no core is its own. -/
def Launch.parked (l : Launch) : Launch := { l with stages := l.stages.map (fun st => { st with cores := [], staged := 0, waiting := false }) }

/-- Steps 4 and 5: the image, then its header, whose layout is private to the device (log entry 49). -/
def State.writeCheckpoint (s : State) (c : Checkpoint) : State :=
  let s := (s.settleLattice.zeroHeader c.base).writeImage c.base imageBytes
  let header := (span 0 65536).map (fun k => BitVec.ofNat 8 (Config.free (s.freeCtr + k)))
  let image : Image :=
    { base := c.base, header := header, tag := c.tag, time := (s.die 8).time, seq := s.log.wr,
      heads := s.queues.foldl (fun m q => put 0 m q.1 q.2.head) [], launches := (s.launches.filter (fun l => l.state = .running)).map Launch.parked, shadow := s.flow.shadow }
  { s.store (span (tierKey c.base imageHeader) 65536) header with
    freeCtr := s.freeCtr + 65536, host := { s.host with images := s.host.images.filter (fun i => decide (i.base ≠ c.base)) ++ [image] } }

/-- CHECKPOINT_COMPLETION (R356, R449). -/
def execCheckpointCompletion (s : State) : Result :=
  .next (match s.host.checkpoint with
    | none => s
    | some c =>
      if !s.isQuiet then s
      else if !s.host.tierUp then s.interruptCheckpoint c 0 0x6B
      else ((s.writeCheckpoint c).completeCommand c.queue c.index c.tag c.irq).endCheckpoint c)

/-- Keystone restores an image (R379): memory and the heads of all sixteen queues; launches of the image start again from their restart
records, and replicas of the lattice are obtained anew. None where the image is not complete, or its header is not one that this module
wrote there (log entry 49). -/
def State.restore (s : State) (base : Nat) : Option State :=
  let header := s.load (span (tierKey base imageHeader) 65536)
  if (header.take 64).all (fun b => b = 0) then none
  else
    match s.host.images.find? (fun i => decide (i.base = base) && decide (i.header = header)) with
    | none => none
    | some i =>
      let s := s.readImage base
      let s := { s.mapDies (fun _ d => { d with granules := [], wanted := [] }) with flow := { s.flow with shadow := [], known := [], podDirty := [], asked := [], pods := [] } }
      let ids := i.launches.map (fun l => l.id)
      let s := { s with launches := s.launches.filter (fun l => !ids.contains l.id) ++ i.launches,
                        nextLaunch := ids.foldl (fun n k => max n (k + 1)) s.nextLaunch,
                        flow := { s.flow with shadow := i.shadow } }
      let s := (span 0 16).foldl (fun s n => s.onQueue n (fun q => { q with head := look 0 i.heads n, tail := look 0 i.heads n })) s
      some (i.launches.foldl (fun s l => s.onQueue l.queue (fun q => { q with pending := q.pending ++ [(l.head, l.tag, l.irq, none)] })) s)

/-! ### The second tier (R448) -/

/-- Outstanding plain accesses of a strand with a byte in a space. -/
def Core.inSpace (c : Core) (k : StrandKind) (space : Nat) : List Access :=
  (c.out k).filter (fun x => decide (x.route = .plain) && decide (x.phase = .issued) && x.bytes.any (fun a => decide (paSpace a = space)))

/-- Outstanding accesses of every core that name a space end with a cause. -/
def State.endSpace (s : State) (space cause : Nat) : State :=
  let found := s.cores.flatMap (fun c => ([StrandKind.c, .a]).flatMap (fun k => (c.2.inSpace k space).map (fun x => (c.1, k, x))))
  found.foldl (fun s e => s.endUnreachable e.1 e.2.1 e.2.2 (cause, (e.2.2.bytes.find? (fun a => decide (paSpace a = space))).getD 0, 0)) s

/-- The head transfer of a core has begun, and its tile has an element on a page of the second tier: that byte (R448). -/
def State.tierTransfer (s : State) (g : Nat) : Option (Transfer × Nat) :=
  match (s.core g).tq with
  | .work x :: _ =>
    if x.done = 0 ∧ x.part = 0 then none
    else ((span 0 x.desc.tileElems).findSome? (fun te => match s.elemAt g x x.done te .load with
      | .at bit _ _ _ _ => if paSpace (bit / 8) = 1 then some (bit / 8) else none
      | _ => none)).map (fun a => (x, a))
  | _ => none

/-- The head copy of a channel has begun, and its next bytes stand on a page of the second tier: that byte (R448). -/
def State.tierCopy (s : State) (g ch : Nat) : Option (Copy × Nat) :=
  match ((s.core g).channel ch).queue with
  | .work x :: _ =>
    let at' (a : Word) : Option Nat := match s.checkBytes g x.ctx (a + BitVec.ofNat 64 x.pos) .load x.step with
      | .ok l => (l.flatMap (fun e => unitBytes e.2.unit e.2.addrs)).find? (fun b => decide (paSpace b = 1))
      | _ => none
    if x.pos = 0 then none else ((at' x.src).orElse (fun _ => at' x.dst)).map (fun a => (x, a))
  | _ => none

/-- Transfers and copies that run on a page of the second tier end with cause 0x6B (R448). -/
def State.endTierEntries (s : State) : State :=
  let ts := s.cores.filterMap (fun c => (s.tierTransfer c.1).map (fun x => (c.1, x)))
  let cs := s.cores.flatMap (fun c => (span 0 8).filterMap (fun ch => (s.tierCopy c.1 ch).map (fun x => (c.1, ch, x))))
  let s := ts.foldl (fun s e => s.faultTransfer e.1 e.2.1 0x6B (BitVec.ofNat 64 e.2.2) 0) s
  cs.foldl (fun s e => s.faultCopy e.1 e.2.1 e.2.2.1 0x6B (BitVec.ofNat 64 e.2.2.2)) s

/-- An image being written stops at an offset: steps 1 to 4 are done, and what comes before the offset is written (R356, R449). -/
def State.stopImage (s : State) (c : Checkpoint) (reached : Nat) : State :=
  ((s.settleLattice.zeroHeader c.base).writeImage c.base reached).interruptCheckpoint c reached 0x6B

/-- SECOND_TIER_FAILURE (R448, R449): until reset; accesses and entries that hold such a page end, and an image being written stops
where it is. -/
def execSecondTierFailure (s : State) : Result :=
  .next (if !s.host.tierUp then s
    else
      let s := s.endTierEntries
      let s := ({ s with host := { s.host with tierUp := false } }).notice 8 0x6B 0 0
      let s := s.endSpace 1 0x6B
      match s.host.checkpoint with
      | some c => if s.isQuiet then s.stopImage c (s.ev.num % imageHeader) else s
      | none => s)

/-! ### The host link (R350, R447) -/

/-- HOST_BAR2_ACCESS (R348, R350): within BAR2's size; nothing comes over a link that is down, and a checkpoint holds what comes
(R356). -/
def execHostBar2Access (s : State) : Result :=
  .next (if s.deaf || decide (2 ^ s.host.bar2 ≤ s.ev.num) then s
    else if s.checkpointHolds then { s with host := { s.host with waiting := s.host.waiting ++ [(2, s.ev.num, s.ev.host)] } }
    else s.hostBar2 s.ev.num s.ev.host)

/-- A ms has passed on Keystone since a moment. -/
def State.msSince (s : State) (t : Option Nat) : Bool := match t with | some t => decide (t + 1000000 ≤ s.keystoneTime) | none => true

/-- An outstanding plain access of the event's strand to host memory. -/
def State.hostAccess (s : State) (g : Nat) (k : StrandKind) (id : Nat) : Option Access := ((s.core g).inSpace k 2).find? (fun x => x.id = id)

/-- PCIE_ERROR (R447). -/
def execPcieError (s : State) : Result :=
  .next (match s.ev.pcie with
    | .correctable =>
      let s := { s with host := { s.host with correctables := s.host.correctables + 1 } }
      if s.msSince s.host.correctedAt then
        { s.notice 8 0x6A 0 (BitVec.ofNat 64 s.host.correctables) with host := { s.host with correctables := 0, correctedAt := some s.keystoneTime } }
      else s
    | .completion id status =>
      let g := s.ev.core
      (match s.hostAccess g s.ev.strand id with
       | some x =>
         (s.notice (dieOf g) 0x6A 0 status).faultAccess g s.ev.strand x 0x60
           (BitVec.ofNat 64 ((x.bytes.find? (fun a => decide (paSpace a = 2))).getD 0)) 0
       | none => s)
    | .poisonedTlp g k id =>
      (match s.hostAccess g k id with
       | some x =>
         if !s.mayPerform g k x then s
         else match x.kind with
           | .load =>
             s.deliverLoad g k x (x.addrs.map (s.readUnit x.unit)) (span 0 x.addrs.length) (s.arrayOf (x.bytes.headD 0))
           | _ => s.faultAccess g k x 0x2C (BitVec.ofNat 64 (s.unitAddr (x.bytes.headD 0))) (BitVec.ofNat 64 (s.arrayOf (x.bytes.headD 0)))
       | none => s))

/-- PCIE_LINK_DOWN (R447): device requests to host memory end. -/
def execPcieLinkDown (s : State) : Result :=
  .next (if !s.host.linkUp then s else ({ s with host := { s.host with linkUp := false } }).endSpace 2 0x60)

/-- PCIE_LINK_UP (R447). -/
def execPcieLinkUp (s : State) : Result := .next (if s.mgmt.powered then { s with host := { s.host with linkUp := true } } else s)

/-! ### Power (R378, R380, R449) -/

/-- What is left without power: the flash, the committed counters, the host's memory, the second tier with its marks, and the
header of an image being written at zero (R376, R380, R449; log entry 50). -/
def State.losePower (s : State) : State :=
  let s := match s.host.checkpoint with | some c => if s.isQuiet && s.host.tierUp then s.zeroHeader c.base else s | none => s
  let stays (a : Nat) : Bool := decide (paSpace a = 1) || decide (paSpace a = 2)
  { State.reset with
    cur := s.cur, ev := s.ev, agenda := s.agenda, freeCtr := s.freeCtr, nextLaunch := s.nextLaunch,
    mem := s.mem.filter (fun c => stays c.1), poison := s.poison.filter stays,
    host := { State.reset.host with images := s.host.images },
    mgmt := { State.reset.mgmt with strata := s.mgmt.committed, committed := s.mgmt.committed, flash := s.mgmt.flash, first := s.mgmt.first } }

/-- POWER_LOSS (R449). -/
def execPowerLoss (s : State) : Result := .next s.losePower

end Sys2Proof.Machine
end

