-- ==== Sys2Proof/Machine/Management.lean ====
section
/-! DEFINITION. Bring-up, power, temperature, the mailbox, the lifetime record, and what firmware polls (R21, R375 to R380, R394,
R414 to R416). -/

namespace Sys2Proof.Machine

/-! ### What firmware polls -/

/-- The die of an atomic unit; the slices of a die's own L2 are numbered by it. -/
def unitDie : AtomicUnit → Nat
  | .vault g => dieOf g
  | .engine d => d
  | .slice _ => 8

/-- A period has passed since the moment kept one above its TIME, or none is kept. -/
def State.periodPassed (s : State) (last period : Nat) : Bool := last = 0 || decide (last - 1 + period ≤ s.keystoneTime)

/-- ATOMIC_STATUS_POLL (R394), once per ms: the record for the unit's context, then the flags read are cleared. -/
def execAtomicStatusPoll (s : State) : Result :=
  let n := unitNumber s.ev.unit
  let w := (look 0 s.atst n).toNat
  .next (if !s.periodPassed (look 0 s.mgmt.polled n) 1000000 then s
    else
      let t := s.onMgmt (fun m => { m with polled := put 0 m.polled n (s.keystoneTime + 1) })
      if w % 32 = 0 then t
      else { t.enter { s.deviceRecord (unitDie s.ev.unit) 0x5A 0 (BitVec.ofNat 64 (w % 32)) with ctx := w / 256 } with
             atst := put 0 s.atst n (BitVec.ofNat 12 (w / 256 * 256)) })

/-- CORRECTED_ERROR_REPORT (R414): the last address, and the count since the array's previous record. -/
def execCorrectedErrorReport (s : State) : Result :=
  let k := s.ev.num
  let x := look (0, 0) s.mgmt.corrected k
  let last := look 0 s.mgmt.reported k
  .next (if x.2 = 0 || !s.periodPassed last 1000000 then s
    else (s.notice 8 0x70 (BitVec.ofNat 64 x.1) (BitVec.ofNat 64 x.2)).onMgmt (fun m =>
      { m with corrected := put (0, 0) m.corrected k (0, 0), reported := put 0 m.reported k (s.keystoneTime + 1) }))

/-- HBM_ERROR_COUNT_POLL (R416), every 10 ms: a count that has risen is recorded. -/
def execHbmErrorCountPoll (s : State) : Result :=
  let k := s.ev.num
  let old := look 0 s.mgmt.hbmCounts k
  .next (if 8 ≤ k || !s.periodPassed (look 0 s.mgmt.hbmPolled k) 10000000 then s
    else
      let t := s.onMgmt (fun m => { m with hbmPolled := put 0 m.hbmPolled k (s.keystoneTime + 1) })
      if s.ev.num2 ≤ old then t
      else (t.notice k 0x74 (BitVec.ofNat 64 k) (BitVec.ofNat 64 (s.ev.num2 - old))).onMgmt (fun m => { m with hbmCounts := put 0 m.hbmCounts k s.ev.num2 }))

/-- L2_CHECK_MODE_SWITCH (R415): no value changes. -/
def execL2CheckModeSwitch (s : State) : Result :=
  .next (if s.mgmt.decTed = s.ev.flag then s
    else (s.notice 8 0x73 0 (if s.ev.flag then 1 else 0)).onMgmt (fun m => { m with decTed := s.ev.flag }))

/-- STRATA_COMMIT (R380). -/
def execStrataCommit (s : State) : Result := .next (s.onMgmt (fun m => { m with committed := m.strata }))

/-! ### Conversion registers (R21) -/

/-- A die takes a new set of pairs in one step; the local pair holds 0 and 2^40. -/
def Die.commitPairs (x : Die) (d : Nat) (l : List (Word × Word)) : Die :=
  let at' (i : Nat) : Word × Word := if i = d then (0, BitVec.ofNat 64 (2 ^ 40)) else l.getD i (0, BitVec.ofNat 64 (2 ^ 40))
  { x with tofs := (span 0 13).foldl (fun m i => put 0 m i (at' i).1) [],
           trate := (span 0 13).foldl (fun m i => put (BitVec.ofNat 64 (2 ^ 40)) m i (at' i).2) [],
           tgen := x.tgen + 1 }

/-- A set of pairs for a die converts every die's present TIME to within 8 ns of the die's own: what firmware guarantees of a commit
(R22). -/
def State.pairsHold (s : State) (d : Nat) (l : List (Word × Word)) : Bool :=
  (span 0 13).all (fun i =>
    let e := if i = d then (0, BitVec.ofNat 64 (2 ^ 40)) else l.getD i (0, BitVec.ofNat 64 (2 ^ 40))
    pairHolds e.1 e.2 (s.die i).time (s.die d).time)

/-- A die takes a new set of pairs, and Keystone's TIME of the commit is kept (R21, R22). -/
def State.commitPairs (s : State) (d : Nat) (l : List (Word × Word)) : State :=
  (s.onDie d (fun x => x.commitPairs d l)).onMgmt (fun m => { m with commits := put 0 m.commits d (s.keystoneTime + 1) })

/-- TIME_CONVERSION_COMMIT (R21, R22). -/
def execTimeConversionCommit (s : State) : Result :=
  .next (if s.ev.num < 13 && s.pairsHold s.ev.num s.ev.pairs then s.commitPairs s.ev.num s.ev.pairs else s)

/-! ### Bring-up (R375, R2) -/

/-- Step 1: present cores with their row maps, and the speed grade; a core with more than four bad physical rows is fused off (R2,
R123). -/
def State.readFuses (s : State) (f : Fuses) : State :=
  let s := (span 0 768).foldl (fun s g => if f.absent.contains g then s else s.onCore g (fun c => { c with present := true })) s
  let s := f.rows.foldl (fun s e =>
    if 768 ≤ e.1 ∨ f.absent.contains e.1 then s
    else s.onCore e.1 (fun c => { c with present := decide ((e.2.2.filter (fun p => decide (p < 68))).eraseDups.length ≤ 4),
                                         rowMap := (e.2.1.filter (fun x => decide (x.1 < 64) && decide (x.2 < 68))).foldl (fun m x => place x.1 x.2 m) [],
                                         badRows := e.2.2 })) s
  s.onMgmt (fun m => { m with fuse := true, grade := f.grade, clk := f.grade, hwStep := f.grade.toNat, fwStep := f.grade.toNat })

/-- Step 0: the boot ROM takes the copy that it tries first, else the other, if it accepts that (R376); none where it rejects both. -/
def State.bootRom (s : State) (f : Fuses) : Option State :=
  let s := s.onMgmt (fun m => { m with fusedKey := f.key, rollback := f.rollback })
  let good (k : Nat) : Option (Nat × FwImage) := (f.images[k]?).bind (fun i => if s.mgmt.accepts i then some (k, i) else none)
  ((good s.mgmt.first).orElse (fun _ => good (1 - s.mgmt.first))).map (fun e => s.onMgmt (fun m => { m with copy := e.1, release := e.2.release }))

/-- Step 4: the lasers light, and every present core has SKW 0; one that cannot reach it is fused off for this boot. -/
def State.trainSkew (s : State) (f : Fuses) : State :=
  let s := s.onMgmt (fun m => { m with lasersOff := false })
  s.mapCores (fun g c => if f.skewFailed.contains g then { c with present := false } else if c.present then { c with skw := 0, trimmedAt := (s.die (dieOf g)).time.toNat } else c)

/-- The routes' registers at reset; ports, circuits and packets stay as they are (R362, R375). -/
def Fabric.resetRoutes (f : Fabric) : Fabric :=
  let r : Fabric := {}
  { f with cur := r.cur, def0 := r.def0, def1 := r.def1, ovr0 := r.ovr0, ovr1 := r.ovr1 }

/-- Step 5: the first commit on every die; Flowstone, Mason and route registers take their reset values. -/
def State.firstCommit (s : State) (f : Fuses) : State :=
  let s := { s with mason := {}, fabric := s.fabric.resetRoutes, flow := {} }
  ((span 0 13).foldl (fun s d => s.commitPairs d ((f.pairs.drop (13 * d)).take 13)) s).onMgmt (fun m => { m with ready := true })

/-- The pairs of step 5 hold when every TIME stands at 0, as step 2 leaves it: firmware commits no others (R22). -/
def firstPairsHold (f : Fuses) : Bool := (span 0 13).all (fun d => State.pairsHold { State.reset with dies := [] } d ((f.pairs.drop (13 * d)).take 13))

/-- Steps 0 to 5 in order; a step that fails stops bring-up. The mailbox answers after any of them, so the host link counts as up
unless step 3 has marked it failed (log entry 123). -/
def State.bringUp (s : State) (f : Fuses) : State :=
  let boot := s.bootRom f
  let ends := if boot.isNone then some 0 else (f.failStep.map BitVec.toNat).filter (fun k => decide (1 ≤ k) && decide (k ≤ 5))
  let s := boot.getD s
  let runs (n : Nat) : Bool := match ends with | some k => decide (n < k) | none => true
  let s := { s with host := { s.host with linkUp := true } }
  let s := if runs 1 then s.readFuses f else s
  let s := if runs 2 then s.mapDies (fun _ d => { d with time := 0 }) else s
  let s := if runs 3 then { s with host := { s.host with tierUp := f.tier, linkUp := f.link }, mgmt := { s.mgmt with badStacks := f.badStacks } } else s
  let s := if runs 4 then s.trainSkew f else s
  let s := if runs 5 then s.firstCommit f else s
  s.onMgmt (fun m => { m with powered := true, step := BitVec.ofNat 3 (ends.getD 5), fail := ends.isSome })

/-- A die has tripped; only a power cycle ends it (R378). -/
def State.tripped (s : State) : Bool := s.dies.any (fun d => d.2.hot = 3)

/-- POWER_GOOD (R375): with pairs that hold to R22. -/
def execPowerGood (s : State) : Result := .next (if s.mgmt.powered || s.tripped || !firstPairsHold s.ev.fuses then s else s.bringUp s.ev.fuses)

/-! ### Power and temperature (R377, R378) -/

/-- Hardware's step after a window: one lower over the limit that the window is judged by, one higher after 10 windows below 95 % of it.
The next window has the cap that PCAP held at its end (R377). -/
def Mgmt.window (m : Mgmt) (watts : Nat) : Mgmt :=
  let limit := min 3000 m.capNow.toNat
  let m := { m with pwr := BitVec.ofNat 12 watts, capNow := m.capEnd.getD m.pcap, capEnd := none, windows := m.windows + 1, windowKcy := some m.kcy }
  if limit < watts then { m with hwStep := if 10 < m.hwStep then m.hwStep - 1 else m.hwStep, calm := 0 }
  else if 100 * watts < 95 * limit then
    if 9 ≤ m.calm then { m with hwStep := if m.hwStep < m.grade.toNat then m.hwStep + 1 else m.hwStep, calm := 0 } else { m with calm := m.calm + 1 }
  else { m with calm := 0 }

/-- POWER_WINDOW (R377): each ms of Keystone's TIME ends one. -/
def execPowerWindow (s : State) : Result :=
  let m := s.mgmt.window s.ev.num
  let t := ({ s with mgmt := m }).setClock
  .next (if s.keystoneTime < (s.mgmt.windows + 1) * 1000000 then s
    else if m.hwStep < s.mgmt.hwStep then t.notice 8 0x77 0 0 else t)

/-- The clock is forced by a die (R378). -/
def State.forceClock (s : State) (d : Nat) : State := ((s.onDie d (fun x => { x with hot := 2 })).setClock).notice d 0x76 0 0
/-- A die has come to 95 °C (R378). -/
def State.warn (s : State) (d : Nat) : State := (s.onDie d (fun x => { x with hot := 1 })).notice d 0x75 0 0

/-- DIE_TEMPERATURE_THRESHOLD (R378): at 115 °C the lasers and all rails go off. -/
def execDieTemperatureThreshold (s : State) : Result :=
  let d := s.ev.num
  let c := s.ev.num2
  let hot := (s.die d).hot
  .next (if 13 ≤ d ∨ hot = 3 then s
    else if 115 ≤ c then (s.losePower.onDie d (fun x => { x with hot := 3 })).onMgmt (fun m => { m with lasersOff := true })
    else if 105 ≤ c then (if hot = 2 then s else (if hot = 0 then s.warn d else s).forceClock d)
    else if 95 ≤ c then (if hot = 0 then s.warn d else s)
    else if hot = 1 then s.onDie d (fun x => { x with hot := 0 })
    else s)

/-- DIE_BELOW_100_C (R378). -/
def execDieBelow100C (s : State) : Result :=
  .next (if (s.die s.ev.num).hot = 2 then (s.onDie s.ev.num (fun x => { x with hot := 1 })).setClock else s)

/-! ### The mailbox (R376, R379) -/

/-- Operand and reply words. -/
def State.mbWord (s : State) (i : Nat) : Nat := (look 0 s.mgmt.mbdata i).toNat
/-- The reply stands in MBDATA. -/
def State.mbReply (s : State) (l : List Word) : State :=
  s.onMgmt (fun m => { m with mbdata := ((span 0 8).zip l).foldl (fun d e => put 0 d e.1 e.2) m.mbdata })

/-- Run mailbox command `op`: the one that MBCMD started, or one that the host writes now with the tag of the event. A command
written while another is in progress is ignored and sets OVR; where the boot ROM accepted no image only the version and update
commands work (R376). `body` answers the return code. -/
def State.mailbox (s : State) (op : Nat) (body : State → Nat × State) : State :=
  let m := s.mgmt
  if m.mbBusy && decide (m.mbOp ≠ op) then s.onMgmt (fun m => { m with mbOvr := true })
  else
    let r := if m.fail && decide (m.step = 0) && decide (op ≠ 1) && decide (op ≠ 6) then (3, s) else body s
    r.2.onMgmt (fun x => { x with mbTag := if m.mbBusy then m.mbTag else BitVec.ofNat 16 s.ev.num, mbBusy := false, mbRc := BitVec.ofNat 8 r.1 })

/-- FIRMWARE_VERSION (R379). -/
def execFirmwareVersion (s : State) : Result := .next (s.mailbox 1 (fun s => (0, s.mbReply [Config.firmwareVersion s.mgmt.release])))

/-- Cores 64w to 64w + 63 that are present, one bit each. -/
def State.presentWord (s : State) (w : Nat) : Word :=
  BitVec.ofNat 64 ((span 0 64).foldl (fun n i => if (s.core (64 * w + i)).present then n + 2 ^ i else n) 0)

/-- PRESENT_MASK (R379). -/
def execPresentMask (s : State) : Result :=
  .next (s.mailbox 2 (fun s =>
    let w := s.mbWord 0
    if 2 ≤ w then (2, s) else (0, s.mbReply ((span 0 8).map (fun i => s.presentWord (8 * w + i))))))

/-- The counters of a Strata page, each with its item and bin (R380). -/
def State.strataPage (s : State) (p : Nat) : List ((Nat × Nat) × Word) :=
  (s.mgmt.strata.filter (fun e => decide (e.1 / 2 ^ 16 = p))).map (fun e => ((e.1 % 2 ^ 16 / 16, e.1 % 16), e.2))

/-- READ_STRATA_PAGE (R379, R380). -/
def execReadStrataPage (s : State) : Result :=
  .next (s.mailbox 3 (fun s =>
    let p := s.mbWord 0
    if 14 < p then (2, s)
    else (0, s.mbReply ((span 0 8).map (fun i => Config.strataReply p i (s.strataPage p))))))

/-- The operand of the Debug command: core, op, DBG value. -/
def State.debugCore (s : State) : Nat := s.mbWord 0 % 1024
def State.debugOp (s : State) : Nat := s.mbWord 0 / 2 ^ 16 % 4
def State.debugValue (s : State) : Nat := s.mbWord 0 / 2 ^ 18 % 4

/-- Run a Debug command of an op on its core: a core that is not present, or an op that does not exist, is a bad operand. Where
MBDATA0 names another op, nothing happens. -/
def State.debug (s : State) (op : Nat) (body : State → Nat → State) : State :=
  let bad := decide (s.debugOp = 3) || !(s.core s.debugCore).present
  if s.debugOp ≠ op ∧ s.debugOp ≠ 3 then s
  else s.mailbox 4 (fun s => if bad then (2, s) else (0, body s s.debugCore))

/-- DEBUG_HALT (R379, R197). -/
def execDebugHalt (s : State) : Result := .next (s.debug 0 (fun s g => s.haltCore g))
/-- DEBUG_RESUME (R379, R197): a gang that waited to be discarded goes on with it (R46). -/
def execDebugResume (s : State) : Result :=
  .next (s.debug 1 (fun s g =>
    let s := s.resume g
    if ((s.core g).task.map (fun t => t.gangWait)).getD false then s.gangDiscard g else s))
/-- DEBUG_SET_DBG (R379, R195). -/
def execDebugSetDbg (s : State) : Result :=
  .next (s.debug 2 (fun s g => let v := s.debugValue; s.onCore g (fun c => { c with dbgBe := decide (v / 2 = 1), dbgHz := decide (v % 2 = 1) })))

/-- Every queue is idle: nothing pending, and nothing accepted that is not done. -/
def State.queuesIdle (s : State) : Bool := s.queues.all (fun q => !q.2.busy && q.2.pending.isEmpty && q.2.waiting.isNone)

/-- RESTORE_CHECKPOINT (R379, R449). -/
def execRestoreCheckpoint (s : State) : Result :=
  .next (s.mailbox 5 (fun s =>
    let a := s.mbWord 0
    if a % 65536 ≠ 0 ∨ 980606976000 < a then (2, s)
    else if !s.queuesIdle || s.host.checkpoint.isSome || !s.host.tierUp then (3, s)
    else match s.restore a with
      | some t => (0, t)
      | none => (3, s)))

/-- The update is complete: an accepted image is written to the copy that is not running, which the boot ROM then tries first at the next
reset (R376). -/
def Mgmt.install (m : Mgmt) (i : FwImage) : Mgmt :=
  if m.accepts i then
    let k := 1 - m.copy
    { m with flash := m.update.foldl (fun f e => put 0 f (k * 2 ^ 64 + e.1) e.2) (m.flash.filter (fun e => decide (e.1 / 2 ^ 64 ≠ k))), first := k, update := [] }
  else { m with update := [] }

/-- FIRMWARE_UPDATE_BLOCK (R376, R379): 48 bytes of an image. Which block is the last one, and how the image of those bytes is judged, the
event says; an image that is not accepted is refused (log entry 123). -/
def execFirmwareUpdateBlock (s : State) : Result :=
  .next (s.mailbox 6 (fun s =>
    let bytes := (span 2 6).flatMap (fun i => leBytes 8 (s.mbWord i))
    let s := s.onMgmt (fun m => { m with update := ((span (s.mbWord 0) 48).zip bytes).foldl (fun f e => put 0 f e.1 (BitVec.ofNat 8 e.2.toNat)) m.update })
    match s.ev.flag, s.ev.fuses.images with
    | true, i :: _ => (if s.mgmt.accepts i then 0 else 3, s.onMgmt (fun m => m.install i))
    | _, _ => (0, s)))

end Sys2Proof.Machine
end

