-- ==== Sys2Proof/Machine/MasonEvents.lean ====
section
/-! DEFINITION. Performing a DISPATCH, and Mason's own steps: counter decay, IBUSY, replications, drains, redirections, the gradient
merge and the weight return (R268, R336 to R347, R434 to R436). -/

namespace Sys2Proof.Machine

/-! ### DISPATCH (R268) -/

/-- The head item leaves its core. -/
def Core.dropItem (c : Core) : Core := { c with items := c.items.tail }

/-- a[C + 4] takes a DISPATCH's result, or keeps what a later instruction wrote (R404). -/
def Core.landItem (c : Core) (x : Item) (keep : List Nat) (w : Word) : Core :=
  if keep.contains 0 && decide (c.getA x.dest ≠ x.was) then c else c.setA x.dest w

/-- A dispatch fault: nothing is claimed, written or joined. -/
def State.dispatchFault (s : State) (g : Nat) (x : Item) (cause : Nat) (addr : Word) (data : Word := 0) : State :=
  (((s.dropEngine g 29).dropEngine g 30).onCore g Core.dropItem).taskFault g .a false cause x.pc addr data

/-- The slot entry that a version read chose; an older version stands in the idle bank (R341). -/
def Mason.chosenSlot (m : Mason) (e : Nat) (c : BitVec 32 × Nat) : CairnSlot := m.slot (if c.1 = m.cver then m.cur else !m.cur) e c.2

/-- The 32 bytes before the row. -/
def Item.header (x : Item) (v : BitVec 32) (g : Nat) : List Byte :=
  leBytes 8 x.token.toNat ++ leBytes 4 x.gate.toNat ++ leBytes 4 v.toNat ++ leBytes 4 x.expert ++ leBytes 4 g ++ leBytes 8 0

/-- The version is read and the replica chosen, once, for an item of the bound launch only (R339); in a publication's kcy the older version is read (R268, R342). -/
def State.chooseReplica (s : State) (g : Nat) (x : Item) : Option (BitVec 32 × Nat) :=
  match s.boundLaunch with
  | none => none
  | some l =>
    let m := s.mason
    let old := decide (m.published = some s.mgmt.kcy)
    if l.id ≠ s.launchOn g then none
    else if x.chosen.isSome then x.chosen
    else (s.chooseSlot l (if old then !m.cur else m.cur) x.expert x.token).map (fun k => (if old then m.cver - 1 else m.cver, k))

/-- Write the item into slot `i` of a ring, publish it, and do what follows: SENT, the load counter, a[C + 4], flag and slot. -/
def State.writeItem (s : State) (g : Nat) (l : Launch) (x : Item) (c : BitVec 32 × Nat) (y : CairnSlot) (r : Ring) (i : Nat) (row : List Byte)
    (marks : List Nat) : State :=
  let dst := r.slotAddr i
  let bytes := x.header c.1 g ++ row
  match s.checkBytes g x.ctx dst .store bytes.length with
  | .fault _ cause a => s.dispatchFault g x cause a
  | .pageIn t p => s.requestPage { core := g, queue := 30, pc := x.pc, launch := l.id } x.ctx t p
  | .walk pa n => s.askTable g .a pa n
  | .ok us =>
    let us := copyUnits us
    match s.unitsReach dst us, s.engineRefused g 30 dst 0 with
    | some e, _ => (s.noteUnreachable g e).dispatchFault g x e.1 (BitVec.ofNat 64 e.2.1) (BitVec.ofNat 64 e.2.2)
    | none, some e => s.dispatchFault g x e.1 e.2.1 e.2.2
    | none, none =>
      let bad := (span 0 bytes.length).map (fun j => decide (32 ≤ j) && marks.contains (j - 32))
      let (u, out) := unitOuts us (bytes.map BitVec.toNat)
      let (s, ok) := s.writeReady g 30 x.pc u out (unitMarks us bad)
      if !ok then s
      else
        let s := ((s.writeLocal u out).markLocal (unitMarks us bad)).dropEngine g 30
        let s := s.onLaunch l.id (fun l => l.onRing y.ring (fun r => r.publish i))
        let s := s.joinKeystone s.mason.ctx y.sent (dieOf g) 1
        let s := s.holdQua (dieOf g) { addrs := [], ty := 0, sum := 1, home := 1, from_ := [(g, .a, l.id)], counter := some x.expert }
        s.onCore g (fun k => (((k.dropItem.landItem x s.ev.nums (BitVec.ofNat 64 (c.1.toNat * 2 ^ 32 + c.2))).hwAdd x.flag 1).clearSlot .a x.slot))

/-- DISPATCH_PERFORM (R268): the head item of a core. It waits for the accesses before it, for a Free slot and for its row. -/
def execDispatchPerform (s : State) : Result :=
  let g := s.ev.core
  .next (match (s.core g).items with
    | [] => s
    | x :: rest => match s.boundLaunch, s.chooseReplica g x with
      | some l, some c =>
        let y := s.mason.chosenSlot x.expert c
        (match l.rings[y.ring]? with
         | none => s.dispatchFault g x 0x55 0
         | some r =>
           if r.size < x.bytes + 32 then s.dispatchFault g x 0x55 0
           else
             let s := s.onCore g (fun k => { k with items := { x with chosen := some c } :: rest })
             match r.freeSlot with
             | none => s
             | some i =>
               if !(s.core g).allDone .a (s.ringScope l.ctx r) then s
               else match s.readSource g 29 x.ctx x.pc x.src x.bytes with
                 | (s, .fault cause a d) => s.dispatchFault g x cause a d
                 | (s, .wait) => s
                 | (s, .bytes row marks) => s.writeItem g l x c y r i row marks)
      | _, _ => s.dispatchFault g x 0x55 0)

/-! ### Mason's steps -/

/-- COUNTER_DECAY (R337): once in each kcy whose count is a multiple of 2^HALF. -/
def execCounterDecay (s : State) : Result :=
  .next s.decay

/-- CAIRN_IBUSY_CLEAR (R341): not in the publication's own kcy, whose reads still see the older version. -/
def execCairnIbusyClear (s : State) : Result :=
  .next (if s.mason.ibusy && !s.oldReads && !s.redirecting && decide (s.mason.published ≠ some s.mgmt.kcy) then s.onMason (fun m => { m with ibusy := false }) else s)

/-- REPLICATION_COMPLETED (R344). -/
def execReplicationCompleted (s : State) : Result := .next (s.finishReplication s.ev.num s.ev.nums)
/-- REPLICA_DRAINED (R345). -/
def execReplicaDrained (s : State) : Result := .next (s.drain s.ev.num s.ev.num2)
/-- ITEM_REDIRECTION (R346). -/
def execItemRedirection (s : State) : Result := .next (s.redirect s.ev.num s.ev.num2)
/-- GRADIENT_MERGE (R347). -/
def execGradientMerge (s : State) : Result := .next s.gradientMerge
/-- WEIGHT_RETURN_COPY (R347). -/
def execWeightReturnCopy (s : State) : Result := .next s.weightReturn

end Sys2Proof.Machine
end

