-- ==== Sys2Proof/Machine/Tasks.lean ====
section
/-! DEFINITION. Starting, ending, pre-empting, discarding and restarting tasks (R27 to R30, R33 to R47, R190, R191, R314 to R317,
R334, R406, R409 to R411). -/

namespace Sys2Proof.Machine

/-! ### Building a task (R28 to R30) -/

/-- The memberships of a task, a gang's rank the core's number within its quad (R38). DESIGN CHOICE (log entry 106), unsafe: they fill
GRPM0 to GRPM3 in the order of their group numbers; the spec gives no order. -/
def Launch.membersOf (l : Launch) (stage tidx g : Nat) : List (Option Member) :=
  let ms : List (Option Member) := l.groups.filterMap (fun e =>
    if e.2.kind = 3 then (if e.2.stage = stage then some (some ⟨e.1, g % 4⟩) else none)
    else (e.2.members.findIdx? (fun m => decide (m = (stage, tidx)))).map (fun r => some ⟨e.1, r⟩))
  (ms ++ List.replicate 4 none).take 4

/-- The task that a launch record describes (R29). -/
def Launch.taskOf (l : Launch) (i : Nat) (st : Stage) (b : List Byte) (tidx : Nat) (slot : Option (Nat × Nat)) (g : Nat) : Task :=
  let f := fieldAt b
  { launch := l.id, stage := i, tidx := tidx, ctx := l.ctx, code := BitVec.ofNat 64 (f 0 8),
    slot := match slot with
      | some (r, k) => (match l.rings[r]? with | some x => x.slotAddr k | none => 0)
      | none => 0,
    entries := (span 0 4).map (fun k => BitVec.ofNat 32 (f (8 + 4 * k) 4)), start := BitVec.ofNat 4 (f 0x18 4), bound := st.bound,
    params := (span 0 16).map (fun k => BitVec.ofNat 64 (f (0x20 + 8 * k) 8)), members := l.membersOf i tidx g, ringSlot := slot }

/-! ### Which task comes next (R314) -/

/-- The task that a stage gives next: a re-queued one, or a fresh index with its slot. -/
inductive Pick where
  | again (t : Task)
  | fresh (tidx : Nat) (slot : Option (Nat × Nat))
  deriving DecidableEq, Repr

/-- An index of an index-range stage is still to be started. -/
def Stage.unstarted (st : Stage) (i : Nat) : Bool := st.returned.contains i || (decide (st.nextIdx ≤ i) && decide (i < st.n))

/-- The lowest unstarted index that is a member of a barrier with an arrival (R39, R314). -/
def Launch.urgent (l : Launch) (i : Nat) (st : Stage) : Option Nat :=
  (l.groups.flatMap (fun e =>
    if e.2.kind = 1 ∧ e.2.arrived ≠ [] then e.2.members.filterMap (fun m => if m.1 = i && st.unstarted m.2 then some m.2 else none) else [])).min?

/-- The lowest unstarted index. -/
def Stage.lowest (st : Stage) : Option Nat :=
  match st.returned with
  | i :: _ => some i
  | [] => if st.nextIdx < st.n then some st.nextIdx else none

/-- A task is a member of a barrier with an arrival (R39). -/
def Launch.inArrived (l : Launch) (stage tidx : Nat) : Bool :=
  l.groups.any (fun e => decide (e.2.kind = 1) && decide (e.2.arrived ≠ []) && e.2.members.contains (stage, tidx))

/-- The Published slots of a stage's ring with the indices that their tasks take, in publish order (R33). -/
def Stage.pairs (st : Stage) (r : Ring) : List (Nat × Nat) :=
  (st.returned ++ span st.nextIdx r.order.length).zip r.order

/-- The die whose HBM stack holds a page frame of this chip that a tile reference names; none where it is unused, misses the caches or
names another space (R310, R315). -/
def State.refFrame (s : State) (ctx : Nat) (a : Word) : Option Nat :=
  if a = 0 || !Config.cached ctx s.mgmt.kcy.toNat a then none
  else match s.desc? ctx (tensorOf a) with
    | none => none
    | some d =>
      if d.elems * d.eb ≤ 8 * offsetOf a then none
      else
        let p := s.readPage (d.entryAddr (d.bitPos (8 * offsetOf a / d.eb) / 8 / 65536))
        if p.v && s.ownFrame p.frame then some p.frame else none

/-- The first place of the greatest count. -/
def bestOf (l : List Nat) : Nat := (l.findIdx? (fun n => decide (n = l.foldl max 0))).getD 0

/-- The die that a slot's eight references favour: the most frames, a tie to the lowest; none without a counted reference, and
none where the ring has no list (R309, R310, R315). -/
def State.slotDie (s : State) (ctx : Nat) (r : Ring) (slot : Nat) : Option Nat :=
  if r.tref = 0xFFFF then none
  else match s.readBytes ctx (r.slotAddr slot + BitVec.ofNat 64 r.tref) 64 with
  | none => none
  | some b =>
    let frames := ((span 0 8).filterMap (fun i => s.refFrame ctx (BitVec.ofNat 64 (fieldAt b (8 * i) 8)))).eraseDups
    if frames.isEmpty then none else some (bestOf ((span 0 8).map (fun k => (frames.filter (fun f => decide (homeDie f = k))).length)))

/-- A slot's task may be placed on a core: under LOC 1 only on the slot's die, for one period at most (R315). -/
def State.placeable (s : State) (l : Launch) (st : Stage) (r : Ring) (g slot : Nat) : Bool :=
  decide (st.loc ≠ 1) || (match s.slotDie l.ctx r slot with
    | none => true
    | some d => decide (dieOf g = d) || (match r.waits.find? (fun e => e.1 = slot) with
      | some e => decide (e.2 + 4096 ≤ s.mgmt.kcy.toNat)
      | none => false))

/-- A re-queued task may be placed on a core, as its slot may (R315). -/
def State.placeableAgain (s : State) (l : Launch) (st : Stage) (g : Nat) (t : Task) : Bool :=
  match t.ringSlot with
  | some (k, x) => (match l.rings[k]? with | some r => s.placeable l st r g x | none => true)
  | none => true

/-- LOC 1 slots, those of re-queued tasks included, that this core does not suit begin to wait for one of their die (R315). -/
def State.noteWaits (s : State) (l : Launch) (st : Stage) (g : Nat) : State :=
  match st.sring with
  | none => s
  | some k => match l.rings[k]? with
    | none => s
    | some r =>
      let new := (st.requeued.filterMap (fun q => q.task.ringSlot.map (fun e => e.2)) ++ r.order).filter (fun x => !s.placeable l st r g x && !r.waits.any (fun e => decide (e.1 = x)))
      if st.loc ≠ 1 ∨ new = [] then s
      else s.onLaunch l.id (fun l => l.onRing k (fun r => { r with waits := new.foldl (fun m x => place x s.mgmt.kcy.toNat m) r.waits }))

/-- The next task of a stage on a core (R314): re-queued ones first, then members of barriers with an arrival, then Published slots in
publish order or indices in ascending order. -/
def State.pick (s : State) (l : Launch) (i g : Nat) : Option Pick :=
  match l.stages[i]? with
  | none => none
  | some st => match st.requeued.find? (fun r => s.placeableAgain l st g r.task), st.sring with
    | some r, _ => some (.again r.task)
    | none, some k => (match l.rings[k]? with
      | some x =>
        if x.retired then none
        else
          let can := (st.pairs x).filter (fun e => s.placeable l st x g e.2)
          ((can.find? (fun e => l.inArrived i e.1)).orElse (fun _ => can.head?)).map (fun e => .fresh e.1 (some (k, e.2)))
      | none => none)
    | none, none => (match l.urgent i st with
      | some j => some (.fresh j none)
      | none => (st.lowest).map (fun j => .fresh j none))

/-- An index leaves the unstarted ones; indices that it passes over stay so. -/
def Stage.takeIdx (st : Stage) (i : Nat) : Stage :=
  if i < st.nextIdx then { st with returned := st.returned.filter (fun j => decide (j ≠ i)) }
  else { st with returned := st.returned ++ span st.nextIdx (i - st.nextIdx), nextIdx := i + 1 }

/-- A picked task leaves its source (R33). -/
def Launch.take (l : Launch) (i : Nat) (p : Pick) : Launch :=
  match p with
  | .again t =>
    let l := l.onStage i (fun st => { st with requeued := st.requeued.filter (fun r => decide (r.task ≠ t)) })
    (match t.ringSlot with | some (k, x) => l.onRing k (fun r => { r with waits := drop x r.waits }) | none => l)
  | .fresh j none => l.onStage i (fun st => st.takeIdx j)
  | .fresh j (some (k, x)) =>
    (l.onStage i (fun st => st.takeIdx j)).onRing k (fun r =>
      { r.setSlot x (.taken i j) with order := r.order.filter (fun y => decide (y ≠ x)), waits := drop x r.waits })

/-! ### Starting (R28, R30, R191, R317, R334) -/

/-- No task starts: a checkpoint runs, or one with HOLD 1 was the last (R356). -/
def State.quiesced (s : State) : Bool := s.host.hold || s.host.checkpoint.isSome

/-- A core can take a task now. -/
def State.idleCore (s : State) (g : Nat) : Bool :=
  let c := s.core g
  c.present && c.task.isNone && !c.resting && !s.quiesced && c.outC.isEmpty && c.outA.isEmpty && s.queuesDone g

/-- A task starts on a core; one that starts again does so from its region's entry state, and its first lattice load waits for
an exchange that begins now (R334). -/
def State.beginTask (s : State) (g : Nat) (t : Task) : State :=
  if t.fresh then
    (s.startTask g { t with fresh := false }).onLaunch t.launch (fun l => l.onStage t.stage (fun st => { st with live := st.live + 1 }))
  else if t.entry.start then
    ((s.startTask g t).onCore g (fun c => c.onTask (fun t => { t with awaitExchange := true }))).askExchange (dieOf g)
  else s.restartTask g t

/-- The launch record template cannot be read: the launch fails (R28). -/
def State.recordLost (s : State) (l : Launch) (i : Nat) (a : Word) : State :=
  if s.failQueued l.id then s
  else s.enter { s.deviceRecord 8 0x16 a (BitVec.ofNat 64 (13 + i * 65536)) with
    tag := l.tag, lfail := true, rcl := 6, ctx := l.ctx, ends := some l.id, sequel := .fail [l.id] 0x16 }

/-- Take a picked task and hand it to `body`. -/
def State.withPicked (s : State) (l : Launch) (i g : Nat) (p : Pick) (body : State → Task → State) : State :=
  match l.stages[i]? with
  | none => s
  | some st => match p with
    | .again t => body (s.onLaunch l.id (fun l => l.take i p)) t
    | .fresh j slot => match s.readBytes l.ctx st.record 256 with
      | none => s.recordLost l i st.record
      | some b => body (s.onLaunch l.id (fun l => l.take i p)) (l.taskOf i st b j slot g)

/-- The stage may start a fresh task: fewer than MAXC started and unended, and no more cores held than its target (R312, R314). -/
def Stage.mayStart (st : Stage) : Bool := decide (st.live < st.maxc) && decide (st.cores.length ≤ st.target)

/-- The core takes its stage's next task, or holds it staged while it runs one (R314, R317). -/
def State.startOn (s : State) (l : Launch) (i : Nat) (st : Stage) (g : Nat) : State :=
  let c := s.core g
  match c.task, c.staged, s.pick l i g with
  | some _, none, some p =>
    if decide (st.cores.length ≤ st.target) && c.promised.isNone && !s.quiesced then
      s.withPicked l i g p (fun s t =>
        (if t.fresh then s.onLaunch l.id (fun l => l.onStage i (fun st => { st with staged := st.staged + 1 })) else s).onCore g
          (fun c => { c with staged := some t }))
    else s
  | none, some t, _ =>
    if !s.idleCore g || (t.fresh && decide (st.maxc ≤ st.live)) then s
    else
      let s := if t.fresh then s.onLaunch l.id (fun l => l.onStage i (fun st => { st with staged := st.staged - 1 })) else s
      (s.onCore g (fun c => { c with staged := none })).beginTask g t
  | none, none, some p =>
    let fresh := match p with | .fresh _ _ => true | .again _ => false
    if !s.idleCore g || (fresh && !st.mayStart) then s else s.withPicked l i g p (fun s t => s.beginTask g t)
  | _, _, _ => s

/-- Some core runs a task of the gang of this one. -/
def State.gangRuns (s : State) (t : Task) : Bool :=
  s.cores.any (fun c => match c.2.task with
    | some y => decide ((y.launch, y.stage, y.tidx / 4) = (t.launch, t.stage, t.tidx / 4))
    | none => false)

/-- A gang starts on a whole quad, rank by rank; a discarded one with the members it had, once all of them are re-queued (R316,
R46). -/
def State.startGangOn (s : State) (l : Launch) (i : Nat) (st : Stage) (g : Nat) : State :=
  let q := quadOf g
  if !q.all (fun x => s.idleCore x && st.cores.contains x) then s
  else match s.pick l i g with
    | some (.again t) =>
      if s.gangRuns t then s
      else ((st.requeued.filter (fun r => decide (r.task.tidx / 4 = t.tidx / 4))).map (fun r => r.task)).foldl (fun s t =>
        s.withPicked l i (g / 4 * 4 + t.tidx % 4) (.again t) (fun s t => s.beginTask (g / 4 * 4 + t.tidx % 4) t)) s
    | some (.fresh j _) =>
      if decide (st.maxc < st.live + 4) || decide (st.target < st.cores.length) then s
      else (span (j / 4 * 4) 4).foldl (fun s k =>
        match s.launch? l.id with
        | some l => if l.state = .running then s.withPicked l i (g / 4 * 4 + k % 4) (.fresh k none) (fun s t => s.beginTask (g / 4 * 4 + k % 4) t) else s
        | none => s) s
    | none => s

/-- The stage that holds a core: launch, stage number, stage. -/
def State.stageOf (s : State) (g : Nat) : Option (Launch × Nat × Stage) :=
  s.launches.findSome? (fun l =>
    if l.state = .running then
      ((span 0 l.stages.length).zip l.stages).findSome? (fun e => if e.2.cores.contains g && !e.2.completed then some (l, e.1, e.2) else none)
    else none)

/-- The effective priority of a stage (R49). -/
def Stage.priority (st : Stage) : Nat := min 7 (st.prio + st.waitKcy / 65536)

/-- The task indices that a stage could start now on a core that it holds: the four of a gang, the staged task, else the next one
(R314, R316, R317). -/
def State.startable (s : State) (l : Launch) (i : Nat) (st : Stage) (g : Nat) : List Nat :=
  if st.gang then
    if !(quadOf g).all (fun x => s.idleCore x && st.cores.contains x) then []
    else match s.pick l i g with
      | some (.again t) => if s.gangRuns t then [] else span (t.tidx / 4 * 4) 4
      | some (.fresh j _) => if decide (st.maxc < st.live + 4) || decide (st.target < st.cores.length) then [] else span (j / 4 * 4) 4
      | none => []
  else if !s.idleCore g then []
  else match (s.core g).staged, s.pick l i g with
    | some t, _ => if t.fresh && decide (st.maxc ≤ st.live) then [] else [t.tidx]
    | none, some (.again t) => [t.tidx]
    | none, some (.fresh j _) => if st.mayStart then [j] else []
    | none, none => []

/-- Another stage of the same effective priority could now start, on a core that it holds, a member of a barrier with an arrival: that
one starts first (R39). -/
def State.memberFirst (s : State) (l : Launch) (i : Nat) (st : Stage) : Bool :=
  s.launches.any (fun m => decide (m.state = .running) && ((span 0 m.stages.length).zip m.stages).any (fun e =>
    decide ((m.id, e.1) ≠ (l.id, i)) && !e.2.completed && decide (e.2.priority = st.priority)
      && e.2.cores.any (fun g => (s.startable m e.1 e.2 g).any (m.inArrived e.1))))

/-- The start gives way: no task that it would start is a member of a barrier with an arrival, and one of another stage is (R39). -/
def State.givesWay (s : State) (l : Launch) (i : Nat) (st : Stage) (g : Nat) : Bool :=
  let now := s.startable l i st g
  !now.isEmpty && !now.any (l.inArrived i) && s.memberFirst l i st

/-- TASK_START (R30): a task that is no member of a barrier with an arrival gives way to one that is (R39). -/
def execTaskStart (s : State) : Result :=
  let g := s.ev.core
  .next (match s.stageOf g with
    | some (l, i, st) =>
      if s.givesWay l i st g then s
      else if st.gang then s.startGangOn l i st g
      else (s.noteWaits l st g).startOn l i st g
    | none => s)

/-! ### Leaving a core -/

/-- A core leaves a stage. -/
def State.ungrant (s : State) (l i g : Nat) : State :=
  s.onLaunch l (fun x => x.onStage i (fun st => { st with cores := st.cores.filter (fun y => decide (y ≠ g)) }))
/-- A core comes to a stage, whose wait ends (R49). -/
def State.grant (s : State) (l i g : Nat) : State :=
  s.onLaunch l (fun x => x.onStage i (fun st => { st with cores := st.cores ++ [g], waitKcy := 0, waiting := false }))

/-- A stage still takes cores. -/
def State.stageRuns (s : State) (l i : Nat) : Bool :=
  match s.launch? l with
  | some x => x.state = .running && (match x.stages[i]? with | some st => !st.completed | none => false)
  | none => false

/-- A stage takes a single freed core: no gang, which takes whole quads, and under LOC 2 only its die's (R315, R316). -/
def State.takesCore (s : State) (l i g : Nat) : Bool :=
  match s.launch? l with
  | some x => (match x.stages[i]? with | some st => !st.gang && (decide (st.loc ≠ 2) || decide (dieOf g = st.ldie)) | none => false)
  | none => false

/-- A core that a task has left goes to the stage it was pre-empted for, where that can take it (R313); else it leaves a stage that
holds more than `keep` allows. A staged task keeps it (R317). -/
def State.leaveStage (s : State) (t : Task) (g : Nat) (keep : Stage → Bool) : State :=
  let c := s.core g
  let s := s.onCore g (fun c => { c with promised := none })
  if c.staged.isSome then s
  else match c.promised with
    | some (l, i) => let s := s.ungrant t.launch t.stage g; if s.stageRuns l i && s.takesCore l i g then s.grant l i g else s
    | none =>
      let st? := match s.launch? t.launch with | some l => l.stages[t.stage]? | none => none
      (match st? with
       | some st => if keep st then s else s.ungrant t.launch t.stage g
       | none => s)

/-- Joins that are performed at their die but not yet everywhere stay with the launch (R27, R320). -/
def State.keepJoins (s : State) (g : Nat) (l : Nat) : State :=
  let c := s.core g
  s.onLaunch l (fun x => { x with left := x.left ++ c.outC ++ c.outA })

/-! ### Task end (R27, R30, R33, R406) -/

/-- The task of a core ends. -/
def State.endTask (s : State) (g : Nat) (t : Task) : State :=
  let gang := s.isGang t && t.gangWait
  let s := s.keepJoins g t.launch
  let s := (s.onCore g Core.release).onLaunch t.launch (fun l =>
    let l := match t.ringSlot with
      | some (r, i) => l.onRing r (fun x => if look SlotState.free x.slots i = SlotState.taken t.stage t.tidx then x.setSlot i .free else x)
      | none => l
    (l.onStage t.stage (fun st => { st with live := st.live - 1 })).closeStages)
  let s := { s with preempts := s.preempts.filter (fun p => decide ((p.launch, p.stage, p.tidx) ≠ (t.launch, t.stage, t.tidx))) }
  let s := s.leaveStage t g (fun st => decide (st.cores.length ≤ st.target))
  if gang then
    match (quadOf g).find? (fun x => match (s.core x).task with
        | some y => decide ((y.launch, y.stage, y.tidx / 4) = (t.launch, t.stage, t.tidx / 4))
        | none => false) with
    | some x => s.gangDiscard x
    | none => s
  else s

/-- Every access of the task is performed at DIE scope. -/
def Core.doneAtDie (c : Core) : Bool := c.outC.all (fun x => x.performedAt 1) && c.outA.all (fun x => x.performedAt 1)

/-- Sums that a core's task added to and that its die still holds are added now (R140). -/
def State.flushMine (s : State) (g : Nat) : State :=
  ((s.die (dieOf g)).qua.filter (fun q => !q.flying && q.from_.any (fun e => decide (e.1 = g)))).foldl (fun s q => s.flushQua (dieOf g) q) s

/-- TASK_END (R27): every entry is performed; a region still sealed at its bound has overrun it (R44); a scale queue that is not empty fails the launch (R406). -/
def execTaskEnd (s : State) : Result :=
  let g := s.ev.core
  let c := s.core g
  .next (match c.task with
    | some t =>
      if !t.ending || t.stopped || !s.entriesDone g || !c.gangOwed.isEmpty || !c.doneAtDie then s
      else if t.overrun then s.boundFault g t
      else if !c.scales.isEmpty then s.taskFault g .c false 0x1B c.strandC.pc (BitVec.ofNat 64 (2 ^ 36)) 0
      else
        let s := s.flushMine g
        if s.quaHeld g .c || s.quaHeld g .a || ((s.core g).task.map (fun t => t.stopped)).getD true then s else s.endTask g t
    | none => s)

/-! ### Pre-emption (R43, R44, R46) -/

/-- A request reaches a task: an open region is discarded, a sealed one is waited for, and a gang goes together. -/
def State.preemptTask (s : State) (g : Nat) (t : Task) : State :=
  let gs := s.gangCores g
  if s.isGang t then
    if gs.any (fun x => (s.core x).isSealed) then
      gs.foldl (fun s x => s.onCore x (fun c => c.onTask (fun t =>
        { t with gangWait := true, region := if t.region = .sealed then .sealedPending else t.region,
                 boundCount := if t.region = .sealed then 0 else t.boundCount }))) s
    else gs.foldl State.beginDiscard s
  else match t.region with
    | .opened => s.beginDiscard g
    | .sealed => s.onCore g (fun c => c.onTask (fun t => { t with region := .sealedPending, boundCount := 0 }))
    | _ => s

/-- PREEMPTION_REQUEST (R44): the oldest request for the core's task; its staged task is withdrawn first (R317). A request for a halted
core, or for a gang of which a core is halted, waits for the resume (R197). -/
def execPreemptionRequest (s : State) : Result :=
  let g := s.ev.core
  .next (match s.preempts.find? (fun p => p.core = g) with
    | none => s
    | some p =>
      if (s.core g).halted || (s.gangCores g).any (fun x => (s.core x).halted) then s
      else
      let s := { s with preempts := s.preempts.erase p }
      match (s.core g).task with
      | some t =>
        if (t.launch, t.stage, t.tidx) ≠ (p.launch, p.stage, p.tidx) then s
        else
          let s := (s.withdrawStaged g).onCore g (fun c => { c with promised := p.dest })
          if t.stopped then s else s.preemptTask g t
      | none => s)

/-- REGION_BOUND_OVERRUN (R44, R409). -/
def execRegionBoundOverrun (s : State) : Result :=
  let g := s.ev.core
  .next (match (s.core g).task with
    | some t => if t.overrun then s.boundFault g t else s
    | none => s)

/-! ### Discard (R45, R46, R334, R410) -/

/-- Claims of a task's ring slots are undone (R33). -/
def Launch.unclaim (l : Launch) (t : Task) : Launch :=
  { l with rings := l.rings.map (fun r => { r with slots := r.slots.filter (fun e => decide (e.2 ≠ .claimed l.id t.stage t.tidx)) }) }

/-- Restart records in use. -/
def State.recordsUsed (s : State) (l : Launch) : List Nat :=
  l.stages.flatMap (fun st => st.requeued.map (fun r => r.task.record))
    ++ s.cores.filterMap (fun c => match c.2.staged with | some t => if t.launch = l.id && !t.fresh then some t.record else none | none => none)

/-- The lowest number that a list does not hold. -/
def lowestUnused (l : List Nat) : Nat := ((span 0 (l.length + 1)).find? (fun i => !l.contains i)).getD 0

/-- The restart record is written: its 512 bytes are private to the device (R45), so each is free. -/
inductive Recorded where
  | done (s : State)
  | wait (s : State)
  | failed (cause : Nat) (addr : Word)

/-- Write the restart record of a core's task at an index of the save area (R45, R314, R410). -/
def State.writeRestart (s : State) (g : Nat) (l : Launch) (i : Nat) : Recorded :=
  let a : Word := l.save + BitVec.ofNat 64 (512 * i)
  match s.checkBytes g l.ctx a .store 512 with
  | .fault _ c x => .failed c x
  | .pageIn t p => .wait (s.requestPage { core := g, launch := l.id } l.ctx t p)
  | .walk pa n => .wait (s.askTable g .a pa n)
  | .ok dst =>
    let dst := copyUnits dst
    match s.unitsReach a dst, s.engineRefused g 28 a 0 with
    | some e, _ => .failed e.1 (BitVec.ofNat 64 e.2.1)
    | none, some e => .failed e.1 e.2.1
    | none, none =>
      let (u, out) := unitOuts dst ((span 0 512).map (fun k => Config.free (s.freeCtr + k) % 256))
      let (s, ok) := s.writeReady g 28 0 u out []
      if ok then .done { (s.writeLocal u out).dropEngine g 28 with freeCtr := s.freeCtr + 512 } else .wait s

/-- A core has done the first two steps of R45, and the exchange of R334. -/
def State.discarded (s : State) (g : Nat) : Bool :=
  match (s.core g).task with
  | some t => t.region = .discarding && !t.awaitExchange && s.queuesDone g && (s.core g).doneAtDie
  | none => true

/-- The last steps of R45 on one core: claims undone, the restart record written, the task re-queued, the core freed. -/
def State.requeueTask (s : State) (g : Nat) : State :=
  match (s.core g).task with
  | none => s
  | some t => match s.launch? t.launch with
    | none => s
    | some l =>
      let i := lowestUnused (s.recordsUsed l)
      let s := s.onLaunch l.id (fun l => l.unclaim t)
      match s.writeRestart g l i with
      | .failed c a => s.taskFault g .c false 0x1D (s.core g).strandC.pc a (BitVec.ofNat 64 c)
      | .wait s => s
      | .done s =>
        let s := s.keepJoins g l.id
        ((s.onLaunch l.id (fun l => l.onStage t.stage (fun st => { st with
          requeued := st.requeued ++ [⟨{ t with region := .opened, stopped := false, record := i, gangWait := false }⟩] }))).onCore g Core.release).leaveStage
            t g (fun st => decide (st.cores.length ≤ st.minc))

/-- DISCARD_COMPLETE (R45): the four members of a gang complete together (R46). -/
def execDiscardComplete (s : State) : Result :=
  let g := s.ev.core
  .next (match (s.core g).task with
    | some t =>
      let gs := s.gangCores g
      let running := match s.launch? t.launch with | some l => l.state = .running | none => false
      if running && t.region = .discarding && gs.all s.discarded then gs.foldl State.requeueTask s else s
    | none => s)

end Sys2Proof.Machine
end

