-- ==== Sys2Proof/Machine/Scheduler.lean ====
section
/-! DEFINITION. The stage scheduler: targets, grants, pre-emption requests (R49, R311 to R317). -/

namespace Sys2Proof.Machine

/-- A running stage in stage order (R312): its launch, its number, and what the scheduler counts of it. -/
structure Line where
  launch : Launch
  idx : Nat
  stage : Stage
  prio : Nat
  held : Nat
  ready : Nat
  target : Nat
  deriving DecidableEq, Repr

/-- Tasks of a stage that could start now (R311). -/
def Launch.readyTasks (l : Launch) (st : Stage) : Nat :=
  st.requeued.length + (match st.sring with
    | some r => (match l.rings[r]? with | some x => if x.retired then 0 else x.pub | none => 0)
    | none => st.returned.length + (st.n - st.nextIdx))

/-- Some output ring is three-quarters full (R34). -/
def Launch.outputFull (l : Launch) (st : Stage) : Bool :=
  ((span 0 l.rings.length).zip l.rings).any (fun e => st.outm.getLsbD e.1 && e.2.crowded)

/-- The target of a stage (R311). -/
def Launch.targetOf (l : Launch) (st : Stage) : Nat :=
  let held := st.cores.length
  let t := min st.maxc (held + l.readyTasks st)
  max (if l.outputFull st then min t held else t) st.minc

/-- The running stages in stage order, with their counts. -/
def State.lines (s : State) : List Line :=
  s.launches.flatMap (fun l =>
    if l.state = .running then
      (((span 0 l.stages.length).zip l.stages).filter (fun e => !e.2.completed)).map (fun e =>
        { launch := l, idx := e.1, stage := e.2, prio := e.2.priority, held := e.2.cores.length, ready := l.readyTasks e.2, target := l.targetOf e.2 })
    else [])

/-- Stages of a level that are short, by their places in stage order. -/
def shortAt (ls : List Line) (p : Nat) : List (Nat × Line) :=
  ((span 0 ls.length).zip ls).filter (fun e => decide (e.2.prio = p) && decide (e.2.held < e.2.target))

/-- Hand `rest` cores out one at a time, cyclic over places that are still short (R312). `fuel` rounds. -/
def handOut : Nat → Nat → List (Nat × Nat × Nat) → List (Nat × Nat × Nat)
  | 0, _, l => l
  | fuel + 1, rest, l =>
    let step (r : Nat × List (Nat × Nat × Nat)) (e : Nat × Nat × Nat) : Nat × List (Nat × Nat × Nat) :=
      if 0 < r.1 ∧ e.2.2 < e.2.1 then (r.1 - 1, r.2 ++ [(e.1, e.2.1, e.2.2 + 1)]) else (r.1, r.2 ++ [e])
    let r := l.foldl step (rest, [])
    if r.1 = rest then l else handOut fuel r.1 r.2

/-- Assign at one level (R312): place in stage order and cores given. -/
def assignLevel (short : List (Nat × Line)) (pool rot n : Nat) : List (Nat × Nat) :=
  let need (e : Nat × Line) : Nat := e.2.target - e.2.held
  let sum := (short.map need).foldl (· + ·) 0
  if sum ≤ pool then short.map (fun e => (e.1, need e))
  else
    let w := (short.map (fun e => e.2.stage.weight)).foldl (· + ·) 0
    let base := short.map (fun e => (e.1, need e, min (need e) (pool * e.2.stage.weight / w)))
    let rest := pool - (base.map (fun e => e.2.2)).foldl (· + ·) 0
    let cyc := base.mergeSort (fun a b => decide ((a.1 + n - rot % n) % n ≤ (b.1 + n - rot % n) % n))
    (handOut rest rest cyc).map (fun e => (e.1, e.2.2))

/-! ### Granting cores (R312, R315, R316) -/

/-- A core is free: present, held by no running stage, with nothing left of a task. -/
def State.freeCore (s : State) (g : Nat) : Bool :=
  let c := s.core g
  c.present && c.task.isNone && c.staged.isNone && !c.resting && c.outC.isEmpty && c.outA.isEmpty && s.queuesDone g && (s.stageOf g).isNone

/-- Free cores in the order in which they are granted: those that the event names first. -/
def State.freeCores (s : State) (order : List Nat) : List Nat :=
  let all := (s.cores.map (fun e => e.1)).filter s.freeCore
  (order.filter (fun g => all.contains g)).eraseDups ++ all.filter (fun g => !order.contains g)

/-- Cores that a stage can take of a list of free ones: whole quads for a gang, the cores of its die under LOC 2. -/
def Stage.suits (st : Stage) (free : List Nat) : List Nat :=
  let l := if st.loc = 2 then free.filter (fun g => decide (dieOf g = st.ldie)) else free
  if st.gang then (l.filter (fun g => (quadOf g).all (fun x => l.contains x))).flatMap (fun g => if g % 4 = 0 then quadOf g else []) else l

/-- Grant up to `n` cores to a stage; whole quads to a gang. -/
def State.grantUpTo (s : State) (e : Line) (n : Nat) (free : List Nat) : State × Nat :=
  let n := if e.stage.gang then n / 4 * 4 else n
  let l := (e.stage.suits free).take n
  (l.foldl (fun s g => s.grant e.launch.id e.idx g) s, l.length)

/-- Assign at every level from 7 down: the state, and what each place in stage order was granted. A level leaves to the next the pool
less what it gave, also where a stage could not take all of that (R312). -/
def State.assignAll (s : State) (ls : List Line) (order : List Nat) : State × List (Nat × Nat) :=
  ((span 0 8).foldl (fun (r : (State × List (Nat × Nat)) × Nat) k =>
    let p := 7 - k
    let give := assignLevel (shortAt ls p) r.2 (look 0 s.rot p) ls.length
    (give.foldl (fun (r : State × List (Nat × Nat)) e =>
      match ls[e.1]? with
      | some l => let (t, n) := r.1.grantUpTo l e.2 (r.1.freeCores order); (t, r.2 ++ [(e.1, n)])
      | none => r) r.1, r.2 - (give.map (fun e => e.2)).foldl (· + ·) 0)) ((s, []), (s.freeCores order).length)).1

/-! ### Pre-emption requests (R313) -/

/-- A task that a core runs has been asked to go, or goes already. -/
def State.asked (s : State) (g : Nat) : Bool :=
  s.preempts.any (fun p => p.core = g) || (s.core g).promised.isSome
    || (match (s.core g).task with | some t => t.region = .sealedPending || t.region = .discarding || t.gangWait | none => false)

/-- Requests already made for a stage. -/
def State.owedTo (s : State) (l i : Nat) : Nat :=
  (s.preempts.filter (fun p => decide (p.dest = some (l, i)))).length + (s.cores.filter (fun c => decide (c.2.promised = some (l, i)))).length

/-- The core with the highest task index of a stage that may still be asked. -/
def State.victim (s : State) (e : Line) : Option (Nat × Task) :=
  let l := (e.stage.cores.filterMap (fun g => if s.asked g then none else ((s.core g).task).map (fun t => (g, t))))
  l.foldl (fun (b : Option (Nat × Task)) x => match b with | some y => if y.2.tidx < x.2.tidx then some x else b | none => some x) none

/-- Cores of a stage that no request has taken yet. -/
def State.keptCores (s : State) (e : Line) : Nat := (e.stage.cores.filter (fun g => !s.asked g)).length

/-- The stage that gives a core to one of level `p`: the lowest effective priority below it that holds more than its MINC, and
of those the latest in stage order. -/
def State.giver (s : State) (ls : List Line) (p : Nat) : Option (Nat × Task) :=
  let can := ls.filter (fun e => decide (e.prio < p) && decide (e.stage.minc < s.keptCores e) && (s.victim e).isSome)
  match can.foldl (fun (b : Option Line) e => match b with | some y => if e.prio ≤ y.prio then some e else b | none => some e) none with
  | some e => s.victim e
  | none => none

/-- One request for a stage. -/
def State.askOne (s : State) (ls : List Line) (e : Line) : State :=
  match s.giver ls e.prio with
  | some (g, t) =>
    { s with preempts := s.preempts ++ [{ core := g, launch := t.launch, stage := t.stage, tidx := t.tidx, dest := some (e.launch.id, e.idx) }] }
  | none => s

/-- One request for each core that a stage lacks and has not asked for. -/
def State.askFor (s : State) (ls : List Line) (e : Line) (lack : Nat) : State :=
  (span 0 (lack - s.owedTo e.launch.id e.idx)).foldl (fun s _ => s.askOne ls e) s

/-! ### The period -/

/-- Idle cores beyond a stage's target are released (R312); a gang releases whole quads. -/
def State.shed (s : State) (e : Line) : State :=
  let idle (s : State) (g : Nat) : Bool := let c := s.core g; c.task.isNone && c.staged.isNone
  e.stage.cores.foldl (fun s g =>
    let held := match s.launch? e.launch.id with
      | some l => (match l.stages[e.idx]? with | some st => st.cores.length | none => 0)
      | none => 0
    if e.stage.gang then
      if g % 4 = 0 && (quadOf g).all (idle s) && decide (e.target + 4 ≤ held) then (quadOf g).foldl (fun s x => s.ungrant e.launch.id e.idx x) s else s
    else if idle s g && decide (e.target < held) then s.ungrant e.launch.id e.idx g else s) s

/-- A running stage with the cores that it holds now. -/
def State.nowLine (s : State) (e : Line) : Line :=
  match (s.launch? e.launch.id).bind (fun l => l.stages[e.idx]?) with
  | some st => { e with stage := { e.stage with cores := st.cores } }
  | none => e

/-- One period: targets, excess cores, grants, waits, requests; then each level's rotation advances (R311 to R313). DESIGN CHOICE (log entry
141), unsafe: short stages send their requests from level 7 down and, within a level, in stage order; R313 gives no order. -/
def State.schedule (s : State) : State :=
  let ls := s.lines
  let n := ls.length
  let s := ls.foldl (fun s e => (s.onLaunch e.launch.id (fun l => l.onStage e.idx (fun st => { st with target := e.target }))).shed e) s
  let (s, given) := s.assignAll ls s.ev.nums
  let got (i : Nat) : Nat := ((given.filter (fun e => decide (e.1 = i))).map (fun e => e.2)).foldl (· + ·) 0
  let short := ((span 0 n).zip ls).filter (fun e => decide (e.2.held + got e.1 < e.2.target))
  let s := short.foldl (fun s e =>
    if 0 < e.2.ready then s.onLaunch e.2.launch.id (fun l => l.onStage e.2.idx (fun st => { st with waiting := true })) else s) s
  let now := ls.map s.nowLine
  let s := (span 0 8).foldl (fun s k =>
    (short.filter (fun e => decide (e.2.prio = 7 - k))).foldl (fun s e => s.askFor now e.2 (e.2.target - e.2.held - got e.1)) s) s
  { s with rot := (span 0 8).foldl (fun m p => put 0 m p (if n = 0 then 0 else (look 0 m p + 1) % n)) s.rot,
           mgmt := { s.mgmt with period := some s.mgmt.kcy } }

/-- SCHEDULER_PERIOD (R311): once in each 4,096th kcy. -/
def execSchedulerPeriod (s : State) : Result := .next (if s.periodDue then s.schedule else s)

end Sys2Proof.Machine
end

