-- ==== Sys2Proof/Machine/Vector.lean ====
section
/-! DEFINITION. C strand: vector, tile and accumulator instructions (R200 to R219). -/

namespace Sys2Proof.Machine

/-! ### Integer arithmetic (R204) -/

/-- Narrow an exact integer to w bits: saturate with sat = 1, else wrap (R204). -/
def narrow (w : Nat) (sat : Bool) (x : Int) : Nat :=
  wrap w (if sat then saturate x (-(2 ^ (w - 1))) (2 ^ (w - 1) - 1) else x)

/-- An integer VR instruction: `g w a b c` is the exact value of an element from the operand elements (R204). -/
def vInt (f : VR) (srcs : List Ref) (g : Nat → Nat → Nat → Nat → Int) (s : State) : Result :=
  let w := regWidth f.ty.toNat
  issue (vrForm f s srcs) (fun s => .done (s.onMe (fun c =>
    let x := c.getV f.va.toNat
    let z := c.getV f.vc.toNat
    c.setV f.vd.toNat (writeLanes (activeOf c f.pg) (c.getV f.vd.toNat) (fun i =>
      joinUnits w (((elems w (laneOf x i)).zip ((elems w (vbLane c f w i)).zip (elems w (laneOf z i)))).map
        (fun e => narrow w (f.sat = 1) (g w e.1 e.2.1 e.2.2)))))))) s

/-- Sources va and vb. -/
def srcs2 (f : VR) : List Ref := [.v f.va.toNat allLanes, vbRef f]
/-- Source va. -/
def srcs1 (f : VR) : List Ref := [.v f.va.toNat allLanes]
/-- Sources va, vb and vc. -/
def srcs3 (f : VR) : List Ref := [.v f.va.toNat allLanes, vbRef f, .v f.vc.toNat allLanes]

/-- VADD (R204). -/
def execVadd (f : VR) (s : State) : Result := vInt f (srcs2 f) (fun w a b _ => sInt w a + sInt w b) s
/-- VSUB (R204). -/
def execVsub (f : VR) (s : State) : Result := vInt f (srcs2 f) (fun w a b _ => sInt w a - sInt w b) s
/-- VMUL (R204). -/
def execVmul (f : VR) (s : State) : Result := vInt f (srcs2 f) (fun w a b _ => sInt w a * sInt w b) s
/-- VMULH (R204): the high half of the signed, or with sub 1 the unsigned, product. -/
def execVmulh (f : VR) (s : State) : Result :=
  vInt f (srcs2 f) (fun w a b _ => (if f.sub = 1 then ((a * b : Nat) : Int) else sInt w a * sInt w b) / 2 ^ w) s
/-- VMAD (R204). -/
def execVmad (f : VR) (s : State) : Result := vInt f (srcs3 f) (fun w a b c => sInt w a * sInt w b + sInt w c) s
/-- VMIN (R204): signed, or unsigned with sub 1. -/
def execVmin (f : VR) (s : State) : Result :=
  vInt f (srcs2 f) (fun w a b _ => if (if f.sub = 1 then decide (a ≤ b) else decide (sInt w a ≤ sInt w b)) then a else b) s
/-- VMAX (R204): signed, or unsigned with sub 1. -/
def execVmax (f : VR) (s : State) : Result :=
  vInt f (srcs2 f) (fun w a b _ => if (if f.sub = 1 then decide (a ≤ b) else decide (sInt w a ≤ sInt w b)) then b else a) s
/-- VAND (R204). -/
def execVand (f : VR) (s : State) : Result := vInt f (srcs2 f) (fun _ a b _ => (a &&& b : Nat)) s
/-- VOR (R204). -/
def execVor (f : VR) (s : State) : Result := vInt f (srcs2 f) (fun _ a b _ => (a ||| b : Nat)) s
/-- VXOR (R204). -/
def execVxor (f : VR) (s : State) : Result := vInt f (srcs2 f) (fun _ a b _ => (a ^^^ b : Nat)) s
/-- VSHL (R204): the count is b mod w. -/
def execVshl (f : VR) (s : State) : Result := vInt f (srcs2 f) (fun w a b _ => sInt w a * 2 ^ (b % w)) s
/-- VSHR (R204). -/
def execVshr (f : VR) (s : State) : Result := vInt f (srcs2 f) (fun w a b _ => (a / 2 ^ (b % w) : Nat)) s
/-- VSAR (R204). -/
def execVsar (f : VR) (s : State) : Result := vInt f (srcs2 f) (fun w a b _ => sInt w a / 2 ^ (b % w)) s
/-- VABS (R204). -/
def execVabs (f : VR) (s : State) : Result := vInt f (srcs1 f) (fun w a _ _ => ((sInt w a).natAbs : Int)) s
/-- VCLZ (R204). -/
def execVclz (f : VR) (s : State) : Result := vInt f (srcs1 f) (fun w a _ _ => (clzNat w a : Nat)) s
/-- VPOPC (R204). -/
def execVpopc (f : VR) (s : State) : Result := vInt f (srcs1 f) (fun w a _ _ => (popNat w a : Nat)) s

/-- A VI instruction: `g w a i` makes an element from va's element and SInt(imm20) (R204, R208). -/
def vImm (f : VI) (srcs : List Ref) (g : Nat → Nat → Int → Int) (s : State) : Result :=
  let w := regWidth f.ty.toNat
  issue { k := .c, refs := .v f.vd.toNat (activeOf s.me f.pg) :: srcs } (fun s => .done (s.onMe (fun c =>
    let x := c.getV f.va.toNat
    c.setV f.vd.toNat (writeLanes (activeOf c f.pg) (c.getV f.vd.toNat) (fun i =>
      joinUnits w ((elems w (laneOf x i)).map (fun a => wrap w (g w a f.imm.toInt)))))))) s

/-- VADDI (R204): always wraps. -/
def execVaddi (f : VI) (s : State) : Result := vImm f [.v f.va.toNat allLanes] (fun w a i => sInt w a + i) s
/-- VLI (R208). -/
def execVli (f : VI) (s : State) : Result := vImm f [] (fun _ _ i => i) s

/-! ### Floating point (R205, R209) -/

/-- A floating VR instruction: `g rm fz a b c` makes an element and its flags; flags of active lanes are ORed (R77, R200). -/
def vFp (f : VR) (srcs : List Ref) (g : Nat → Bool → Nat → Nat → Nat → Nat × Flags) (s : State) : Result :=
  let w := regWidth f.ty.toNat
  issue (vrForm f s srcs) (fun s => .done (s.onMe (fun c =>
    let x := c.getV f.va.toNat
    let z := c.getV f.vc.toNat
    let m := activeOf c f.pg
    let lane (i : Nat) : List (Nat × Flags) :=
      ((elems w (laneOf x i)).zip ((elems w (vbLane c f w i)).zip (elems w (laneOf z i)))).map
        (fun e => g (rmCode f.rm c.fpst) c.fpst.fz e.1 e.2.1 e.2.2)
    let fl := orFlags ((span 0 32).flatMap (fun i => if m.getLsbD i then (lane i).map (·.2) else []))
    (c.setV f.vd.toNat (writeLanes m (c.getV f.vd.toNat) (fun i => joinUnits w ((lane i).map (·.1))))).accrue fl))) s

/-- The format of ty (R201). -/
def tyFmt (f : VR) : Fmt := fmtOf f.ty.toNat

/-- VFADD (R205). -/
def execVfadd (f : VR) (s : State) : Result := vFp f (srcs2 f) (fun rm fz a b _ => fAdd (tyFmt f) rm fz a b) s
/-- VFSUB (R205). -/
def execVfsub (f : VR) (s : State) : Result := vFp f (srcs2 f) (fun rm fz a b _ => fSub (tyFmt f) rm fz a b) s
/-- VFMUL (R205). -/
def execVfmul (f : VR) (s : State) : Result := vFp f (srcs2 f) (fun rm fz a b _ => fMul (tyFmt f) rm fz a b) s
/-- VFMA (R205). -/
def execVfma (f : VR) (s : State) : Result := vFp f (srcs3 f) (fun rm fz a b c => fMa (tyFmt f) rm fz a b c) s
/-- VFMIN (R205, R181). -/
def execVfmin (f : VR) (s : State) : Result := vFp f (srcs2 f) (fun _ fz a b _ => fPick (tyFmt f) false fz a b) s
/-- VFMAX (R205, R181). -/
def execVfmax (f : VR) (s : State) : Result := vFp f (srcs2 f) (fun _ fz a b _ => fPick (tyFmt f) true fz a b) s
/-- Negate, absolute value or copy sign on the sign bit alone (R79, R205). -/
def signOp (F : Fmt) (sub a b : Nat) : Nat :=
  let h := 2 ^ (F.E + F.M)
  let mag := a % h
  match sub with
  | 0 => if h ≤ a then mag else mag + h
  | 1 => mag
  | _ => if h ≤ b then mag + h else mag
/-- VFNEG (R205): no flag. -/
def execVfneg (f : VR) (s : State) : Result :=
  vFp f (if f.sub = 2 then srcs2 f else srcs1 f) (fun _ _ a b _ => (signOp (tyFmt f) f.sub.toNat a b, 0)) s

/-- An SFU instruction of function `n` (R94, R209). -/
def vSfu (n : Nat) (f : VR) (s : State) : Result := vFp f (srcs1 f) (fun _ fz a _ _ => sfuElem n f.ty.toNat fz a) s
/-- VEXP2 (R209). -/
def execVexp2 (f : VR) (s : State) : Result := vSfu 0 f s
/-- VLOG2 (R209). -/
def execVlog2 (f : VR) (s : State) : Result := vSfu 1 f s
/-- VRCP (R209). -/
def execVrcp (f : VR) (s : State) : Result := vSfu 2 f s
/-- VRSQRT (R209). -/
def execVrsqrt (f : VR) (s : State) : Result := vSfu 3 f s
/-- VTANH (R209). -/
def execVtanh (f : VR) (s : State) : Result := vSfu 4 f s
/-- VSIGM (R209). -/
def execVsigm (f : VR) (s : State) : Result := vSfu 5 f s

/-! ### Compares and predicates (R206, R207) -/

/-- A VCMP code on INT32 elements (R154). -/
def intCompare (code a b : Nat) : Bool :=
  match code with
  | 0 => decide (a = b)
  | 1 => decide (a ≠ b)
  | 2 => decide (sInt 32 a < sInt 32 b)
  | 3 => decide (sInt 32 a ≤ sInt 32 b)
  | 4 => decide (sInt 32 b < sInt 32 a)
  | 5 => decide (sInt 32 b ≤ sInt 32 a)
  | 6 => decide (a < b)
  | _ => decide (a ≤ b)

/-- A predicate from its 32 bits. -/
def predOf (g : Nat → Bool) : BitVec 32 := BitVec.ofNat 32 (joinUnits 1 ((span 0 32).map (fun i => if g i then 1 else 0)))

/-- A compare of lanes into predicate vd[46:44]; bits of inactive lanes stay (R206). -/
def vCompare (f : VR) (g : Core → Nat → Nat → Bool × Flags) (s : State) : Result :=
  issue { k := .c, refs := srcs2 f } (fun s => .done (s.onMe (fun c =>
    let m := activeOf c f.pg
    let n := f.vd.toNat % 8
    let r (i : Nat) := g c (laneOf (c.getV f.va.toNat) i) (vbLane c f 32 i)
    let fl := orFlags ((span 0 32).map (fun i => if m.getLsbD i then (r i).2 else 0))
    (c.setP n (predOf (fun i => if m.getLsbD i then (r i).1 else (c.getP n).getLsbD i))).accrue fl))) s

/-- VCMP (R206). -/
def execVcmp (f : VR) (s : State) : Result := vCompare f (fun _ a b => (intCompare f.sub.toNat a b, 0)) s
/-- VFCMP (R206, R181). -/
def execVfcmp (f : VR) (s : State) : Result := vCompare f (fun c a b => fCompare c.fpst.fz f.sub.toNat a b) s

/-- A predicate instruction: vd[46:44] := g of va[36:34] and vb[26:24] (R207). -/
def predOp (f : VR) (g : BitVec 32 → BitVec 32 → BitVec 32) (s : State) : Result :=
  issueCore { k := .c } (fun c => c.setP (f.vd.toNat % 8) (g (c.getP (f.va.toNat % 8)) (c.getP (f.vb.toNat % 8)))) s
/-- PAND (R207). -/
def execPand (f : VR) (s : State) : Result := predOp f (fun a b => a &&& b) s
/-- POR (R207). -/
def execPor (f : VR) (s : State) : Result := predOp f (fun a b => a ||| b) s
/-- PXOR (R207). -/
def execPxor (f : VR) (s : State) : Result := predOp f (fun a b => a ^^^ b) s
/-- PNOT (R207). -/
def execPnot (f : VR) (s : State) : Result := predOp f (fun a _ => ~~~a) s
/-- PMOVS (R207). -/
def execPmovs (f : VR) (s : State) : Result :=
  issueCore { k := .c, refs := [.s (sReg f.vb)] } (fun c => c.setP (f.vd.toNat % 8) ((c.getS (sReg f.vb)).setWidth 32)) s
/-- SMOVP (R207). -/
def execSmovp (f : VR) (s : State) : Result :=
  issueCore { k := .c, refs := [.s (sReg f.vd)] } (fun c => c.setS (sReg f.vd) ((c.getP (f.va.toNat % 8)).setWidth 64)) s

/-! ### Select, move, lane transfer, permutes (R208, R212) -/

/-- A move of whole lanes: lane i of vd := g core i for the active lanes; every source is read first (R208, R212). -/
def laneMove (f : VR) (srcs : List Ref) (g : Core → Nat → Nat) (s : State) : Result :=
  issue (vrForm f s srcs) (fun s => .done (s.onMe (fun c =>
    c.setV f.vd.toNat (writeLanes (activeOf c f.pg) (c.getV f.vd.toNat) (g c))))) s

/-- VSEL (R208). -/
def execVsel (f : VR) (s : State) : Result :=
  laneMove f (srcs2 f) (fun c i => if (c.getP (f.vc.toNat % 8)).getLsbD i then laneOf (c.getV f.va.toNat) i else vbLane c f 32 i) s
/-- VMOV (R208). -/
def execVmov (f : VR) (s : State) : Result := laneMove f (srcs1 f) (fun c i => laneOf (c.getV f.va.toNat) i) s
/-- VMOV from a stream (R208): blocks while it is empty, pops one element whatever the predicate. -/
def execVmovStream (f : VR) (s : State) : Result :=
  issue { vrForm f s [] with effect := true, access := true } (fun s =>
    let n := f.va.toNat % 16
    let q := s.me.stream n
    match q.elems with
    | [] => .wait (.stream n) s
    | e :: es => .done (s.onMe (fun c =>
        (c.setStream n { q with elems := es }).setV f.vd.toNat
          (writeLanes (activeOf c f.pg) (c.getV f.vd.toNat) (laneOf e.data))))) s
/-- VMVS (R208): sign-extended lane k. -/
def execVmvs (f : VR) (s : State) : Result :=
  issueCore { k := .c, refs := [.s (sReg f.vd), .v f.va.toNat allLanes] } (fun c =>
    c.setS (sReg f.vd) (BitVec.ofInt 64 (sInt 32 (laneOf (c.getV f.va.toNat) (f.vc.toNat % 32))))) s
/-- VMVL (R208): lane k of vd := s[N][31:0]. -/
def execVmvl (f : VR) (s : State) : Result :=
  issueCore { k := .c, refs := [.s (sReg f.vb), .v f.vd.toNat (BitVec.ofNat 32 (2 ^ (f.vc.toNat % 32)))] } (fun c =>
    c.setV f.vd.toNat (writeLanes (BitVec.ofNat 32 (2 ^ (f.vc.toNat % 32))) (c.getV f.vd.toNat) (fun _ => (c.getS (sReg f.vb)).toNat))) s
/-- VIDX (R208). -/
def execVidx (f : VR) (s : State) : Result :=
  let w := regWidth f.ty.toNat
  laneMove f (if f.bs = 1 then [.s (sReg f.vb)] else []) (fun c i =>
    let base : Int := if f.bs = 1 then (c.getS (sReg f.vb)).toInt else 0
    joinUnits w ((span 0 (32 / w)).map (fun j => wrap w ((i * (32 / w) + j : Nat) + base)))) s
/-- VPERM (R212). -/
def execVperm (f : VR) (s : State) : Result :=
  laneMove f (srcs3 f) (fun c i =>
    let x := vbLane c f 32 i % 64
    if x < 32 then laneOf (c.getV f.va.toNat) x else laneOf (c.getV f.vc.toNat) (x - 32)) s
/-- VBCL (R212). -/
def execVbcl (f : VR) (s : State) : Result := laneMove f (srcs1 f) (fun c _ => laneOf (c.getV f.va.toNat) (f.vc.toNat % 32)) s
/-- VSLIDE (R212). -/
def execVslide (f : VR) (s : State) : Result :=
  laneMove f [.v f.va.toNat allLanes, .v f.vb.toNat allLanes] (fun c i =>
    let k := f.vc.toNat % 32
    let a := c.getV f.va.toNat
    let b := c.getV f.vb.toNat
    if f.sub = 0 then (if i + k < 32 then laneOf a (i + k) else laneOf b (i + k - 32))
    else (if k ≤ i then laneOf a (i - k) else laneOf b (32 + i - k))) s

/-! ### Conversions and packing (R210, R211) -/

/-- Replace elements `at'`, `at' + 1`, … of width w of a lane. -/
def putElems (w : Nat) (old at' : Nat) (l : List Nat) : Nat :=
  let n := l.length
  let lo := old % 2 ^ (w * at')
  let hi := old / 2 ^ (w * (at' + n)) * 2 ^ (w * (at' + n))
  hi + joinUnits w l * 2 ^ (w * at') + lo

/-- One lane of VCVT: the new lane and the flags (R210). -/
def cvtLane (src dst q rm : Nat) (sat fz : Bool) (x old : Nat) : Nat × Flags :=
  let ws := regWidth src
  let wd := regWidth dst
  let conv (e : Nat) := convert src dst rm sat fz e
  if wd ≤ ws then
    let r := (elems ws x).map conv
    (putElems wd old (q * (32 / ws)) (r.map (·.1)), orFlags (r.map (·.2)))
  else
    let r := (((elems ws x).drop (q * (32 / wd))).take (32 / wd)).map conv
    (joinUnits wd (r.map (·.1)), orFlags (r.map (·.2)))

/-- VCVT (R210). -/
def execVcvt (f : VR) (s : State) : Result :=
  issue (vrForm f s (srcs1 f)) (fun s => .done (s.onMe (fun c =>
    let m := activeOf c f.pg
    let d := c.getV f.vd.toNat
    let r (i : Nat) := cvtLane (f.vc.toNat / 64) (f.vc.toNat / 4 % 16) (f.vc.toNat % 4) (rmCode f.rm c.fpst) (f.sat = 1) c.fpst.fz (laneOf (c.getV f.va.toNat) i) (laneOf d i)
    let fl := orFlags ((span 0 32).map (fun i => if m.getLsbD i then (r i).2 else 0))
    (c.setV f.vd.toNat (writeLanes m d (fun i => (r i).1))).accrue fl))) s

/-- VPACK (R211). -/
def execVpack (f : VR) (s : State) : Result :=
  laneMove f (srcs1 f) (fun c i =>
    let k := f.vc.toNat % 8
    let e := elems 8 (laneOf (c.getV f.va.toNat) i)
    let old := laneOf (c.getV f.vd.toNat) i
    if f.sub = 0 then putElems 1 old (4 * k) (e.map (fun x => if 0 < sInt 8 x then 1 else 0))
    else putElems 4 old (4 * k) (e.map (fun x => if f.sat = 1 then wrap 4 (saturate (sInt 8 x) (-8) 7) else x % 16))) s
/-- VUNPK (R211). -/
def execVunpk (f : VR) (s : State) : Result :=
  laneMove f (srcs1 f) (fun c i =>
    let k := f.vc.toNat % 8
    let x := laneOf (c.getV f.va.toNat) i
    joinUnits 8 ((span 0 4).map (fun j =>
      if f.sub = 0 then x / 2 ^ (4 * k + j) % 2 else wrap 8 (sInt 4 (x / 2 ^ (4 * (4 * k + j))))))) s

/-! ### Reductions and scans (R95, R96, R213, R214) -/

/-- ⊕ of R95 on two elements of width w. -/
def foldElem (f : VR) (rm : Nat) (fz : Bool) (a b : Nat) : Nat × Flags :=
  let w := regWidth f.ty.toNat
  if f.ty.toNat ≤ 2 then
    match f.sub.toNat with
    | 0 => fAdd (tyFmt f) rm fz a b
    | 1 => fPick (tyFmt f) false fz a b
    | _ => fPick (tyFmt f) true fz a b
  else
    (match f.sub.toNat with
     | 0 => narrow w (f.sat = 1) (sInt w a + sInt w b)
     | 1 => if sInt w a ≤ sInt w b then a else b
     | 2 => if sInt w a ≤ sInt w b then b else a
     | 3 => a &&& b
     | 4 => a ||| b
     | _ => a ^^^ b, 0)

/-- The identity of R95. -/
def foldIdentity (f : VR) : Nat :=
  let w := regWidth f.ty.toNat
  if f.ty.toNat ≤ 2 then
    let F := tyFmt f
    match f.sub.toNat with
    | 0 => F.signed true 0
    | 1 => F.infBits
    | _ => F.signed true F.infBits
  else
    match f.sub.toNat with
    | 1 => 2 ^ (w - 1) - 1
    | 2 => 2 ^ (w - 1)
    | 3 => 2 ^ w - 1
    | _ => 0

/-- A node of the tree: its packed elements as one lane, and the flags of every operation that formed it. -/
abbrev Node := Nat × Flags

/-- ⊕ of two nodes. -/
def foldNode (f : VR) (rm : Nat) (fz : Bool) (x y : Node) : Node :=
  let w := regWidth f.ty.toNat
  let r := ((elems w x.1).zip (elems w y.1)).map (fun e => foldElem f rm fz e.1 e.2)
  (joinUnits w (r.map (·.1)), x.2 ||| y.2 ||| orFlags (r.map (·.2)))

/-- The next level of the tree. -/
def nextLevel (op : Node → Node → Node) : List Node → List Node
  | x :: y :: l => op x y :: nextLevel op l
  | l => l

/-- Levels 0 to 5 of the tree of R95. -/
def treeLevels (op : Node → Node → Node) (l : List Node) : List (List Node) :=
  let l1 := nextLevel op l
  let l2 := nextLevel op l1
  let l3 := nextLevel op l2
  let l4 := nextLevel op l3
  [l, l1, l2, l3, l4, nextLevel op l4]

/-- The source lanes of a reduction: an inactive lane contributes the identity (R95). -/
def foldSource (c : Core) (f : VR) : List Node :=
  let w := regWidth f.ty.toNat
  (span 0 32).map (fun i => (if (activeOf c f.pg).getLsbD i then laneOf (c.getV f.va.toNat) i else fill w (foldIdentity f), 0))

/-- VRED (R213). -/
def execVred (f : VR) (s : State) : Result :=
  issue { k := .c, refs := [.v f.vd.toNat 1, .v f.va.toNat allLanes] } (fun s => .done (s.onMe (fun c =>
    let op := foldNode f (rmCode f.rm c.fpst) c.fpst.fz
    let r := ((treeLevels op (foldSource c f)).getD 5 []).headD (0, 0)
    (c.setV f.vd.toNat (writeLanes 1 (c.getV f.vd.toNat) (fun _ => r.1))).accrue r.2))) s

/-- The nodes that cover lanes `pos` up, `n` lanes in all, largest first from level k down (R96). -/
def scanNodes (levels : List (List Node)) : Nat → Nat → Nat → List Node
  | 0, pos, n => if n % 2 = 1 then [((levels.getD 0 []).getD pos (0, 0))] else []
  | k + 1, pos, n =>
    if 2 ^ (k + 1) ≤ n then ((levels.getD (k + 1) []).getD (pos / 2 ^ (k + 1)) (0, 0)) :: scanNodes levels k (pos + 2 ^ (k + 1)) (n - 2 ^ (k + 1))
    else scanNodes levels k pos n

/-- ScanLane(i) (R96). -/
def scanLane (op : Node → Node → Node) (levels : List (List Node)) (i : Nat) : Node :=
  match scanNodes levels 5 0 (i + 1) with
  | [] => (0, 0)
  | x :: xs => xs.foldl op x

/-- VSCAN (R214). -/
def execVscan (f : VR) (s : State) : Result :=
  issue (vrForm f s (srcs1 f)) (fun s => .done (s.onMe (fun c =>
    let op := foldNode f (rmCode f.rm c.fpst) c.fpst.fz
    let lv := treeLevels op (foldSource c f)
    let m := activeOf c f.pg
    let fl := orFlags ((span 0 32).map (fun i => if m.getLsbD i then (scanLane op lv i).2 else 0))
    (c.setV f.vd.toNat (writeLanes m (c.getV f.vd.toNat) (fun i => (scanLane op lv i).1))).accrue fl))) s

/-! ### Tile registers (R215, R216) -/

/-- TRD (R215): blocks while the tile is empty. -/
def execTrd (f : VR) (s : State) : Result :=
  issue { vrForm f s (if f.bs = 1 then [.s (sReg f.vb)] else []) with effect := true, access := true } (fun s =>
    let n := f.va.toNat % 16
    let t := s.me.tile n
    let r := rowOf s.me f
    let m := activeOf s.me f.pg
    if !t.full then .wait (.tile n) s
    else match t.poisonedLane r m with
      | some i => s.consumeAt .c (tileAddr s.cur n (tileUnit r i)) 5
      | none => .done (s.onMe (fun c => c.setV f.vd.toNat (writeLanes m (c.getV f.vd.toNat) (laneOf (t.row r)))))) s

/-- TWR (R215): blocks while the tile is full. -/
def execTwr (f : VR) (s : State) : Result :=
  issue { k := .c, refs := .v f.va.toNat allLanes :: (if f.bs = 1 then [.s (sReg f.vb)] else []), effect := true, access := true } (fun s =>
    let n := f.vd.toNat % 16
    let t := s.me.tile n
    let r := rowOf s.me f
    let m := activeOf s.me f.pg
    if t.full then .wait (.tile n) s
    else .done (s.onMe (fun c =>
      c.setTile n ((t.setRow r (writeLanes m (t.row r) (laneOf (c.getV f.va.toNat)))).clearRow r m)))) s

/-- TSETF (R216). -/
def execTsetf (f : VR) (s : State) : Result :=
  issue { k := .c, effect := true, release := true } (fun s =>
    let n := f.vd.toNat % 16
    let t := s.me.tile n
    if t.full then .wait (.tile n) s else .done (s.onMe (fun c => c.setTile n { t with full := true }))) s

/-- TREL (R216). -/
def execTrel (f : VR) (s : State) : Result :=
  issue { k := .c, effect := true } (fun s =>
    let n := f.vd.toNat % 16
    if !(s.me.tile n).full then .done s
    else if s.settled .c 0 then .done (s.onMe (fun c => c.setTile n { c.tile n with full := false }))
    else .wait .other s) s

/-! ### The accumulator store (R218) -/

/-- ACCRD (R218). -/
def execAccrd (f : VR) (s : State) : Result :=
  issue { vrForm f s [.s (sReg f.vb)] with effect := true, access := true } (fun s =>
    let a := accIndex s.me f + 32 * f.vc.toNat
    let m := activeOf s.me f.pg
    let act := ((span 0 32).filter (fun i => m.getLsbD i)).map (fun i => a + i)
    if accWords < a + 32 then .trap 0x27 (BitVec.ofNat 64 a) 0
    else match s.firstPoison (accBytes s.cur act) with
      | some p => s.consumeAt .c (s.unitAddr p) 1
      | none => .done (s.onMe (fun c => c.setV f.vd.toNat (writeLanes m (c.getV f.vd.toNat) (fun i => (s.acc s.cur (a + i)).toNat))))) s

/-- ACCWR (R218). -/
def execAccwr (f : VR) (s : State) : Result :=
  issue { k := .c, refs := [.s (sReg f.vb), .v f.va.toNat allLanes], effect := true, access := true } (fun s =>
    let a := accIndex s.me f + 32 * f.vc.toNat
    let m := activeOf s.me f.pg
    let act := (span 0 32).filter (fun i => m.getLsbD i)
    if accWords < a + 32 then .trap 0x27 (BitVec.ofNat 64 a) 0
    else .done (s.store (accBytes s.cur (act.map (fun i => a + i)))
      (act.flatMap (fun i => leBytes 4 (laneOf (s.me.getV f.va.toNat) i))))) s

/-- ACCZ (R218). -/
def execAccz (f : VR) (s : State) : Result :=
  issue { k := .c, refs := [.s (sReg f.vb)], effect := true, access := true } (fun s =>
    let a := accIndex s.me f
    let n := 32 * (f.vc.toNat + 1)
    if accWords < a + n then .trap 0x27 (BitVec.ofNat 64 a) 0
    else .done (s.store (accBytes s.cur (span a n)) (List.replicate (4 * n) 0))) s

end Sys2Proof.Machine
end

