-- ==== Sys2Proof/Machine/Dispatch.lean ====
section
/-! DEFINITION. The dispatch of every instruction and event to its meaning. -/

namespace Sys2Proof.Machine

def exec (i : Instr) (s : State) : Host.Outcome State Fault Refusal :=
  match i with
  | .add f => Sys2Proof.Machine.execAdd f s
  | .sub f => Sys2Proof.Machine.execSub f s
  | .mul f => Sys2Proof.Machine.execMul f s
  | .mulh f => Sys2Proof.Machine.execMulh f s
  | .mulhu f => Sys2Proof.Machine.execMulhu f s
  | .div f => Sys2Proof.Machine.execDiv f s
  | .divu f => Sys2Proof.Machine.execDivu f s
  | .rem f => Sys2Proof.Machine.execRem f s
  | .remu f => Sys2Proof.Machine.execRemu f s
  | .and f => Sys2Proof.Machine.execAnd f s
  | .or f => Sys2Proof.Machine.execOr f s
  | .xor f => Sys2Proof.Machine.execXor f s
  | .shl f => Sys2Proof.Machine.execShl f s
  | .shr f => Sys2Proof.Machine.execShr f s
  | .sar f => Sys2Proof.Machine.execSar f s
  | .min f => Sys2Proof.Machine.execMin f s
  | .max f => Sys2Proof.Machine.execMax f s
  | .minu f => Sys2Proof.Machine.execMinu f s
  | .maxu f => Sys2Proof.Machine.execMaxu f s
  | .seq f => Sys2Proof.Machine.execSeq f s
  | .sne f => Sys2Proof.Machine.execSne f s
  | .slt f => Sys2Proof.Machine.execSlt f s
  | .sltu f => Sys2Proof.Machine.execSltu f s
  | .clz f => Sys2Proof.Machine.execClz f s
  | .popc f => Sys2Proof.Machine.execPopc f s
  | .bfx f => Sys2Proof.Machine.execBfx f s
  | .bfi f => Sys2Proof.Machine.execBfi f s
  | .sext f => Sys2Proof.Machine.execSext f s
  | .zext f => Sys2Proof.Machine.execZext f s
  | .addi f => Sys2Proof.Machine.execAddi f s
  | .muli f => Sys2Proof.Machine.execMuli f s
  | .andi f => Sys2Proof.Machine.execAndi f s
  | .ori f => Sys2Proof.Machine.execOri f s
  | .xori f => Sys2Proof.Machine.execXori f s
  | .shli f => Sys2Proof.Machine.execShli f s
  | .shri f => Sys2Proof.Machine.execShri f s
  | .sari f => Sys2Proof.Machine.execSari f s
  | .slti f => Sys2Proof.Machine.execSlti f s
  | .sltui f => Sys2Proof.Machine.execSltui f s
  | .li f => Sys2Proof.Machine.execLi f s
  | .lih f => Sys2Proof.Machine.execLih f s
  | .fadds f => Sys2Proof.Machine.execFadds f s
  | .fsubs f => Sys2Proof.Machine.execFsubs f s
  | .fmuls f => Sys2Proof.Machine.execFmuls f s
  | .fmas f => Sys2Proof.Machine.execFmas f s
  | .fmins f => Sys2Proof.Machine.execFmins f s
  | .fmaxs f => Sys2Proof.Machine.execFmaxs f s
  | .fcmps f => Sys2Proof.Machine.execFcmps f s
  | .fcvtis f => Sys2Proof.Machine.execFcvtis f s
  | .fcvtsi f => Sys2Proof.Machine.execFcvtsi f s
  | .vadd f => Sys2Proof.Machine.execVadd f s
  | .vsub f => Sys2Proof.Machine.execVsub f s
  | .vmul f => Sys2Proof.Machine.execVmul f s
  | .vmulh f => Sys2Proof.Machine.execVmulh f s
  | .vmad f => Sys2Proof.Machine.execVmad f s
  | .vmin f => Sys2Proof.Machine.execVmin f s
  | .vmax f => Sys2Proof.Machine.execVmax f s
  | .vand f => Sys2Proof.Machine.execVand f s
  | .vor f => Sys2Proof.Machine.execVor f s
  | .vxor f => Sys2Proof.Machine.execVxor f s
  | .vshl f => Sys2Proof.Machine.execVshl f s
  | .vshr f => Sys2Proof.Machine.execVshr f s
  | .vsar f => Sys2Proof.Machine.execVsar f s
  | .vabs f => Sys2Proof.Machine.execVabs f s
  | .vclz f => Sys2Proof.Machine.execVclz f s
  | .vpopc f => Sys2Proof.Machine.execVpopc f s
  | .vaddi f => Sys2Proof.Machine.execVaddi f s
  | .vfadd f => Sys2Proof.Machine.execVfadd f s
  | .vfsub f => Sys2Proof.Machine.execVfsub f s
  | .vfmul f => Sys2Proof.Machine.execVfmul f s
  | .vfma f => Sys2Proof.Machine.execVfma f s
  | .vfmin f => Sys2Proof.Machine.execVfmin f s
  | .vfmax f => Sys2Proof.Machine.execVfmax f s
  | .vfneg f => Sys2Proof.Machine.execVfneg f s
  | .vcmp f => Sys2Proof.Machine.execVcmp f s
  | .vfcmp f => Sys2Proof.Machine.execVfcmp f s
  | .pand f => Sys2Proof.Machine.execPand f s
  | .por f => Sys2Proof.Machine.execPor f s
  | .pxor f => Sys2Proof.Machine.execPxor f s
  | .pnot f => Sys2Proof.Machine.execPnot f s
  | .pmovs f => Sys2Proof.Machine.execPmovs f s
  | .smovp f => Sys2Proof.Machine.execSmovp f s
  | .vsel f => Sys2Proof.Machine.execVsel f s
  | .vmov f => Sys2Proof.Machine.execVmov f s
  | .vmovStream f => Sys2Proof.Machine.execVmovStream f s
  | .vmvs f => Sys2Proof.Machine.execVmvs f s
  | .vmvl f => Sys2Proof.Machine.execVmvl f s
  | .vidx f => Sys2Proof.Machine.execVidx f s
  | .vli f => Sys2Proof.Machine.execVli f s
  | .vexp2 f => Sys2Proof.Machine.execVexp2 f s
  | .vlog2 f => Sys2Proof.Machine.execVlog2 f s
  | .vrcp f => Sys2Proof.Machine.execVrcp f s
  | .vrsqrt f => Sys2Proof.Machine.execVrsqrt f s
  | .vtanh f => Sys2Proof.Machine.execVtanh f s
  | .vsigm f => Sys2Proof.Machine.execVsigm f s
  | .vcvt f => Sys2Proof.Machine.execVcvt f s
  | .vpack f => Sys2Proof.Machine.execVpack f s
  | .vunpk f => Sys2Proof.Machine.execVunpk f s
  | .vperm f => Sys2Proof.Machine.execVperm f s
  | .vbcl f => Sys2Proof.Machine.execVbcl f s
  | .vslide f => Sys2Proof.Machine.execVslide f s
  | .vred f => Sys2Proof.Machine.execVred f s
  | .vscan f => Sys2Proof.Machine.execVscan f s
  | .trd f => Sys2Proof.Machine.execTrd f s
  | .twr f => Sys2Proof.Machine.execTwr f s
  | .tsetf f => Sys2Proof.Machine.execTsetf f s
  | .trel f => Sys2Proof.Machine.execTrel f s
  | .accrd f => Sys2Proof.Machine.execAccrd f s
  | .accwr f => Sys2Proof.Machine.execAccwr f s
  | .accz f => Sys2Proof.Machine.execAccz f s
  | .ldv f => Sys2Proof.Machine.execLdv f s
  | .stv f => Sys2Proof.Machine.execStv f s
  | .lds f => Sys2Proof.Machine.execLds f s
  | .sts f => Sys2Proof.Machine.execSts f s
  | .ldvx f => Sys2Proof.Machine.execLdvx f s
  | .stvx f => Sys2Proof.Machine.execStvx f s
  | .amov f => Sys2Proof.Machine.execAmov f s
  | .casv f => Sys2Proof.Machine.execCasv f s
  | .fladd f => Sys2Proof.Machine.execFladd f s
  | .flwait f => Sys2Proof.Machine.execFlwait f s
  | .flset f => Sys2Proof.Machine.execFlset f s
  | .flrd f => Sys2Proof.Machine.execFlrd f s
  | .wait f => Sys2Proof.Machine.execWait f s
  | .tidwait f => Sys2Proof.Machine.execTidwait f s
  | .rclaim f => Sys2Proof.Machine.execRclaim f s
  | .rpub f => Sys2Proof.Machine.execRpub f s
  | .rwfill f => Sys2Proof.Machine.execRwfill f s
  | .rwfree f => Sys2Proof.Machine.execRwfree f s
  | .rcons f => Sys2Proof.Machine.execRcons f s
  | .rinfo f => Sys2Proof.Machine.execRinfo f s
  | .gbar f => Sys2Proof.Machine.execGbar f s
  | .garr f => Sys2Proof.Machine.execGarr f s
  | .gwait f => Sys2Proof.Machine.execGwait f s
  | .ljoin f => Sys2Proof.Machine.execLjoin f s
  | .ljoinv f => Sys2Proof.Machine.execLjoinv f s
  | .lldt f => Sys2Proof.Machine.execLldt f s
  | .lldtV f => Sys2Proof.Machine.execLldtV f s
  | .lld f => Sys2Proof.Machine.execLld f s
  | .lldV f => Sys2Proof.Machine.execLldV f s
  | .fence f => Sys2Proof.Machine.execFence f s
  | .qfence f => Sys2Proof.Machine.execQfence f s
  | .evsig f => Sys2Proof.Machine.execEvsig f s
  | .br f => Sys2Proof.Machine.execBr f s
  | .brz f => Sys2Proof.Machine.execBrz f s
  | .brp f => Sys2Proof.Machine.execBrp f s
  | .jmp f => Sys2Proof.Machine.execJmp f s
  | .jal f => Sys2Proof.Machine.execJal f s
  | .jr f => Sys2Proof.Machine.execJr f s
  | .loop f => Sys2Proof.Machine.execLoop f s
  | .nop f => Sys2Proof.Machine.execNop f s
  | .fork f => Sys2Proof.Machine.execFork f s
  | .join f => Sys2Proof.Machine.execJoin f s
  | .endC f => Sys2Proof.Machine.execEndC f s
  | .region f => Sys2Proof.Machine.execRegion f s
  | .csrrd f => Sys2Proof.Machine.execCsrrd f s
  | .csrwr f => Sys2Proof.Machine.execCsrwr f s
  | .csrset f => Sys2Proof.Machine.execCsrset f s
  | .csrclr f => Sys2Proof.Machine.execCsrclr f s
  | .trap f => Sys2Proof.Machine.execTrap f s
  | .bkpt f => Sys2Proof.Machine.execBkpt f s
  | .syscall f => Sys2Proof.Machine.execSyscall f s
  | .aadd f => Sys2Proof.Machine.execAadd f s
  | .asub f => Sys2Proof.Machine.execAsub f s
  | .amul f => Sys2Proof.Machine.execAmul f s
  | .aand f => Sys2Proof.Machine.execAand f s
  | .aor f => Sys2Proof.Machine.execAor f s
  | .axor f => Sys2Proof.Machine.execAxor f s
  | .ashl f => Sys2Proof.Machine.execAshl f s
  | .ashr f => Sys2Proof.Machine.execAshr f s
  | .amin f => Sys2Proof.Machine.execAmin f s
  | .amax f => Sys2Proof.Machine.execAmax f s
  | .aaddi f => Sys2Proof.Machine.execAaddi f s
  | .ali f => Sys2Proof.Machine.execAli f s
  | .alih f => Sys2Proof.Machine.execAlih f s
  | .abr f => Sys2Proof.Machine.execAbr f s
  | .ajmp f => Sys2Proof.Machine.execAjmp f s
  | .aloop f => Sys2Proof.Machine.execAloop f s
  | .aend f => Sys2Proof.Machine.execAend f s
  | .anop f => Sys2Proof.Machine.execAnop f s
  | .dld f => Sys2Proof.Machine.execDld f s
  | .dset f => Sys2Proof.Machine.execDset f s
  | .alds f => Sys2Proof.Machine.execAlds f s
  | .aldsStatus f => Sys2Proof.Machine.execAldsStatus f s
  | .tld f => Sys2Proof.Machine.execTld f s
  | .tst f => Sys2Proof.Machine.execTst f s
  | .tgath f => Sys2Proof.Machine.execTgath f s
  | .tscat f => Sys2Proof.Machine.execTscat f s
  | .tpref f => Sys2Proof.Machine.execTpref f s
  | .scld f => Sys2Proof.Machine.execScld f s
  | .copy f => Sys2Proof.Machine.execCopy f s
  | .xsend f => Sys2Proof.Machine.execXsend f s
  | .xcoll f => Sys2Proof.Machine.execXcoll f s
  | .xrtsw f => Sys2Proof.Machine.execXrtsw f s
  | .xcirc f => Sys2Proof.Machine.execXcirc f s
  | .amo f => Sys2Proof.Machine.execAmo f s
  | .acas f => Sys2Proof.Machine.execAcas f s
  | .dispatch f => Sys2Proof.Machine.execDispatch f s
  | .bcast f => Sys2Proof.Machine.execBcast f s
  | .await f => Sys2Proof.Machine.execAwait f s
  | .aflwait f => Sys2Proof.Machine.execAflwait f s
  | .afladd f => Sys2Proof.Machine.execAfladd f s
  | .atidwait f => Sys2Proof.Machine.execAtidwait f s
  | .mma f => Sys2Proof.Machine.execMma f s
  | .bmma f => Sys2Proof.Machine.execBmma f s
  | .mgang f => Sys2Proof.Machine.execMgang f s
  | .mnest f => Sys2Proof.Machine.execMnest f s
  | .mgo f => Sys2Proof.Machine.execMgo f s
  | .mtz f => Sys2Proof.Machine.execMtz f s
  | .maccz f => Sys2Proof.Machine.execMaccz f s
  | .mtacc f => Sys2Proof.Machine.execMtacc f s
  | .msetf f => Sys2Proof.Machine.execMsetf f s
  | .mtrel f => Sys2Proof.Machine.execMtrel f s
  | .mfladd f => Sys2Proof.Machine.execMfladd f s
  | .mscq f => Sys2Proof.Machine.execMscq f s
  | .mflwait f => Sys2Proof.Machine.execMflwait f s
  | .mli f => Sys2Proof.Machine.execMli f s
  | .madd f => Sys2Proof.Machine.execMadd f s
  | .mbr f => Sys2Proof.Machine.execMbr f s
  | .mloop f => Sys2Proof.Machine.execMloop f s
  | .mend f => Sys2Proof.Machine.execMend f s
  | .ocfg f => Sys2Proof.Machine.execOcfg f s
  | .oref f => Sys2Proof.Machine.execOref f s
  | .ocal f => Sys2Proof.Machine.execOcal f s
  | .owin f => Sys2Proof.Machine.execOwin f s
  | .owait f => Sys2Proof.Machine.execOwait f s
  | .ostat f => Sys2Proof.Machine.execOstat f s
  | .oli f => Sys2Proof.Machine.execOli f s
  | .oadd f => Sys2Proof.Machine.execOadd f s
  | .obr f => Sys2Proof.Machine.execObr f s
  | .oloop f => Sys2Proof.Machine.execOloop f s
  | .oend f => Sys2Proof.Machine.execOend f s
  | .ofladd f => Sys2Proof.Machine.execOfladd f s
  | .oflwait f => Sys2Proof.Machine.execOflwait f s
  | .syscallReply => Sys2Proof.Machine.execSyscallReply s
  | .transferEntryPerform => Sys2Proof.Machine.execTransferEntryPerform s
  | .copyTimeRelease => Sys2Proof.Machine.execCopyTimeRelease s
  | .copyEntryPerform => Sys2Proof.Machine.execCopyEntryPerform s
  | .sendStart => Sys2Proof.Machine.execSendStart s
  | .sendLocalCompletion => Sys2Proof.Machine.execSendLocalCompletion s
  | .sendAck => Sys2Proof.Machine.execSendAck s
  | .sendDelivery => Sys2Proof.Machine.execSendDelivery s
  | .dispatchPerform => Sys2Proof.Machine.execDispatchPerform s
  | .bcastAccept => Sys2Proof.Machine.execBcastAccept s
  | .matrixEntryPerform => Sys2Proof.Machine.execMatrixEntryPerform s
  | .gangEntryStart => Sys2Proof.Machine.execGangEntryStart s
  | .mCommandPerform => Sys2Proof.Machine.execMCommandPerform s
  | .calibrationRun => Sys2Proof.Machine.execCalibrationRun s
  | .calibrationComplete => Sys2Proof.Machine.execCalibrationComplete s
  | .windowHeadReady => Sys2Proof.Machine.execWindowHeadReady s
  | .segmentEmissionCommit => Sys2Proof.Machine.execSegmentEmissionCommit s
  | .markerFrameArrival => Sys2Proof.Machine.execMarkerFrameArrival s
  | .segmentSent => Sys2Proof.Machine.execSegmentSent s
  | .windowCompletion => Sys2Proof.Machine.execWindowCompletion s
  | .reEmission => Sys2Proof.Machine.execReEmission s
  | .remoteArmFlit => Sys2Proof.Machine.execRemoteArmFlit s
  | .armFlitResend => Sys2Proof.Machine.execArmFlitResend s
  | .strandUnblock => Sys2Proof.Machine.execStrandUnblock s
  | .memoryAccessCompletion => Sys2Proof.Machine.execMemoryAccessCompletion s
  | .atomicExecute => Sys2Proof.Machine.execAtomicExecute s
  | .qfencePass => Sys2Proof.Machine.execQfencePass s
  | .quaPendingFlush => Sys2Proof.Machine.execQuaPendingFlush s
  | .pageInComplete => Sys2Proof.Machine.execPageInComplete s
  | .pageMigration => Sys2Proof.Machine.execPageMigration s
  | .latticeTypeChange => Sys2Proof.Machine.execLatticeTypeChange s
  | .ttinvWrite => Sys2Proof.Machine.execTtinvWrite s
  | .preemptionRequest => Sys2Proof.Machine.execPreemptionRequest s
  | .discardComplete => Sys2Proof.Machine.execDiscardComplete s
  | .regionBoundOverrun => Sys2Proof.Machine.execRegionBoundOverrun s
  | .taskStart => Sys2Proof.Machine.execTaskStart s
  | .taskEnd => Sys2Proof.Machine.execTaskEnd s
  | .launchCompletion => Sys2Proof.Machine.execLaunchCompletion s
  | .schedulerPeriod => Sys2Proof.Machine.execSchedulerPeriod s
  | .stallLimit => Sys2Proof.Machine.execStallLimit s
  | .gangPartnerTimeout => Sys2Proof.Machine.execGangPartnerTimeout s
  | .parkedLoadTimeout => Sys2Proof.Machine.execParkedLoadTimeout s
  | .dieExchangeSlot => Sys2Proof.Machine.execDieExchangeSlot s
  | .immediateExchange => Sys2Proof.Machine.execImmediateExchange s
  | .granuleFetch => Sys2Proof.Machine.execGranuleFetch s
  | .podExchangePhase => Sys2Proof.Machine.execPodExchangePhase s
  | .podExchangeLost => Sys2Proof.Machine.execPodExchangeLost s
  | .home0Writeback => Sys2Proof.Machine.execHome0Writeback s
  | .counterDecay => Sys2Proof.Machine.execCounterDecay s
  | .msnapWrite => Sys2Proof.Machine.execMsnapWrite s
  | .cairnPublish => Sys2Proof.Machine.execCairnPublish s
  | .cairnIbusyClear => Sys2Proof.Machine.execCairnIbusyClear s
  | .mrepgoWrite => Sys2Proof.Machine.execMrepgoWrite s
  | .replicationCompleted => Sys2Proof.Machine.execReplicationCompleted s
  | .replicaDrained => Sys2Proof.Machine.execReplicaDrained s
  | .itemRedirection => Sys2Proof.Machine.execItemRedirection s
  | .gradientMerge => Sys2Proof.Machine.execGradientMerge s
  | .weightReturnCopy => Sys2Proof.Machine.execWeightReturnCopy s
  | .launch => Sys2Proof.Machine.execLaunch s
  | .launchAccept => Sys2Proof.Machine.execLaunchAccept s
  | .circuit => Sys2Proof.Machine.execCircuit s
  | .drainPort => Sys2Proof.Machine.execDrainPort s
  | .retrainPort => Sys2Proof.Machine.execRetrainPort s
  | .checkpoint => Sys2Proof.Machine.execCheckpoint s
  | .checkpointCompletion => Sys2Proof.Machine.execCheckpointCompletion s
  | .fenceCommand => Sys2Proof.Machine.execFenceCommand s
  | .signal => Sys2Proof.Machine.execSignal s
  | .lqtailWrite => Sys2Proof.Machine.execLqtailWrite s
  | .lqcfgWrite => Sys2Proof.Machine.execLqcfgWrite s
  | .eventRecordEntry => Sys2Proof.Machine.execEventRecordEntry s
  | .elcfgWrite => Sys2Proof.Machine.execElcfgWrite s
  | .elbaseWrite => Sys2Proof.Machine.execElbaseWrite s
  | .elrdWrite => Sys2Proof.Machine.execElrdWrite s
  | .eventLogRetry => Sys2Proof.Machine.execEventLogRetry s
  | .atomicStatusPoll => Sys2Proof.Machine.execAtomicStatusPoll s
  | .correctedErrorReport => Sys2Proof.Machine.execCorrectedErrorReport s
  | .hbmErrorCountPoll => Sys2Proof.Machine.execHbmErrorCountPoll s
  | .l2CheckModeSwitch => Sys2Proof.Machine.execL2CheckModeSwitch s
  | .strataCommit => Sys2Proof.Machine.execStrataCommit s
  | .timeConversionCommit => Sys2Proof.Machine.execTimeConversionCommit s
  | .powerGood => Sys2Proof.Machine.execPowerGood s
  | .powerWindow => Sys2Proof.Machine.execPowerWindow s
  | .dieTemperatureThreshold => Sys2Proof.Machine.execDieTemperatureThreshold s
  | .laserPowerChange => Sys2Proof.Machine.execLaserPowerChange s
  | .laserPowerLostExpiry => Sys2Proof.Machine.execLaserPowerLostExpiry s
  | .firmwareVersion => Sys2Proof.Machine.execFirmwareVersion s
  | .presentMask => Sys2Proof.Machine.execPresentMask s
  | .readStrataPage => Sys2Proof.Machine.execReadStrataPage s
  | .debugHalt => Sys2Proof.Machine.execDebugHalt s
  | .debugResume => Sys2Proof.Machine.execDebugResume s
  | .debugSetDbg => Sys2Proof.Machine.execDebugSetDbg s
  | .restoreCheckpoint => Sys2Proof.Machine.execRestoreCheckpoint s
  | .firmwareUpdateBlock => Sys2Proof.Machine.execFirmwareUpdateBlock s
  | .hostBar2Access => Sys2Proof.Machine.execHostBar2Access s
  | .registerWrite => Sys2Proof.Machine.execRegisterWrite s
  | .packetHop => Sys2Proof.Machine.execPacketHop s
  | .routeCarryingHop => Sys2Proof.Machine.execRouteCarryingHop s
  | .flitUncorrectable => Sys2Proof.Machine.execFlitUncorrectable s
  | .requestAtHome => Sys2Proof.Machine.execRequestAtHome s
  | .responseArrival => Sys2Proof.Machine.execResponseArrival s
  | .requesterTimerExpiry => Sys2Proof.Machine.execRequesterTimerExpiry s
  | .routeBroken => Sys2Proof.Machine.execRouteBroken s
  | .busyReply => Sys2Proof.Machine.execBusyReply s
  | .busyReissue => Sys2Proof.Machine.execBusyReissue s
  | .targetHalted => Sys2Proof.Machine.execTargetHalted s
  | .haltedRequestExpiry => Sys2Proof.Machine.execHaltedRequestExpiry s
  | .controlPacketArrival => Sys2Proof.Machine.execControlPacketArrival s
  | .collectivePlanRun => Sys2Proof.Machine.execCollectivePlanRun s
  | .drainPacketArrival => Sys2Proof.Machine.execDrainPacketArrival s
  | .portDrained => Sys2Proof.Machine.execPortDrained s
  | .drainTimeout => Sys2Proof.Machine.execDrainTimeout s
  | .trainingPass => Sys2Proof.Machine.execTrainingPass s
  | .trainingTimeout => Sys2Proof.Machine.execTrainingTimeout s
  | .circuitSetupHop => Sys2Proof.Machine.execCircuitSetupHop s
  | .circuitAck => Sys2Proof.Machine.execCircuitAck s
  | .circuitBusy => Sys2Proof.Machine.execCircuitBusy s
  | .circuitBackoffEnd => Sys2Proof.Machine.execCircuitBackoffEnd s
  | .setupReplyTimeout => Sys2Proof.Machine.execSetupReplyTimeout s
  | .circuitFecLock => Sys2Proof.Machine.execCircuitFecLock s
  | .circuitLockTimeout => Sys2Proof.Machine.execCircuitLockTimeout s
  | .teardownAck => Sys2Proof.Machine.execTeardownAck s
  | .pcieError => Sys2Proof.Machine.execPcieError s
  | .pcieLinkDown => Sys2Proof.Machine.execPcieLinkDown s
  | .secondTierFailure => Sys2Proof.Machine.execSecondTierFailure s
  | .powerLoss => Sys2Proof.Machine.execPowerLoss s
  | .dieBelow100C => Sys2Proof.Machine.execDieBelow100C s
  | .skewDriftMeasured => Sys2Proof.Machine.execSkewDriftMeasured s
  | .pcieLinkUp => Sys2Proof.Machine.execPcieLinkUp s

end Sys2Proof.Machine
end

