-- ==== Sys2Proof/Machine/Placing.lean ====
section
/-! DEFINITION. Standing for the load of a program (log entry 3): one task with one word of code on core 0, and that
strand next on the agenda. -/

namespace Sys2Proof.Machine

/-- The strand that runs a word. -/
def codeKind : Code → StrandKind
  | .c _ => .c
  | .a _ => .a
  | .m _ => .m
  | .o _ => .o

/-- The bits of a word. -/
def codeBits : Code → Nat
  | .c w => w.toNat
  | .a w => w.toNat
  | .m w => w.toNat
  | .o w => w.toNat

/-- Virtual address of the placed word: offset 0 of tensor 1. -/
def placedPc : Word := 0x0000100000000000

/-- A task that runs the placed word in context 0. -/
def placedTask : Task :=
  { launch := 0, stage := 0, tidx := 0, slot := 0, ctx := 0, code := placedPc, entries := [0, 0, 0, 0], start := 1, bound := 0,
    params := [] }

/-- Store the descriptor of tensor 1 (raw bytes, one tile of 256), its page entry and the word itself in HBM of context 0,
and start the strand there on core 0 (R58, R63, R25). -/
def State.placeCode (s : State) (c : Code) : State :=
  let t := (look 0 s.ttbase 0).toNat + 64
  let s := s.storeLE t 8 0x1000
  let s := s.storeLE (t + 8) 8 0x0E100001
  let s := s.storeLE (t + 0x10) 4 256
  let s := s.storeLE (t + 0x14) 4 1
  let s := s.storeLE (t + 0x18) 4 1
  let s := s.storeLE (t + 0x1C) 4 1
  let s := s.storeLE (t + 0x20) 4 1
  let s := s.storeLE (t + 0x24) 2 256
  let s := s.storeLE (t + 0x26) 2 1
  let s := s.storeLE (t + 0x28) 2 1
  let s := s.storeLE (t + 0x2A) 2 1
  let s := s.storeLE (t + 0x2C) 2 1
  let s := s.storeLE (t + 0x2E) 18 0
  let s := s.storeLE 0x1000 8 (s.chip * 2 ^ 52 + 0x10000 + 0xE000 + 0x11)
  let s := s.storeLE 0x1008 8 0
  let s := s.storeLE 0x10000 (wordBytes (codeKind c)) (codeBits c)
  let s := s.onCore 0 (fun x =>
    ({ x with present := true, halted := false, sbC := 0, sbA := 0, outC := [], outA := [], task := some placedTask }).setStrand (codeKind c)
      { status := .running, pc := placedPc })
  { s with agenda := [.issue 0 (codeKind c)] }

end Sys2Proof.Machine
end

