-- ==== Sys2Proof/Machine/Step.lean ====
section
/-! DEFINITION. One step of the module: the next agent moves (log entry 2). -/

namespace Sys2Proof.Machine

/-- One agent moves. A strand that may issue fetches its word and runs it; an event runs with what comes from outside;
only events come so, never a strand's instruction. -/
def runAgent (a : Agent) (s : State) : Host.Outcome State Fault Refusal :=
  match a with
  | .issue g k =>
    let t := { s with cur := g }
    if (t.core g).issues k then
      match t.nextWord k with
      | .run i => exec i t
      | .other t' => .next t'
    else .next t
  | .event i x => if (encode i).isSome then .next s else exec i { s with ev := x }
  | .ns d n => .next (s.passNs d n)
  | .ccy g n => .next (s.passCcy g n)
  | .kcy n => .next (s.passKcy n)
  | .upset u => .next (s.applyUpset u)

/-- One step: the head of the agenda moves; with no agenda the choice is free (log entry 2). -/
def step (s : State) : Host.Outcome State Fault Refusal :=
  match s.agenda with
  | a :: as => runAgent a { s with agenda := as }
  | [] => runAgent (Config.agent s.freeCtr) { s with freeCtr := s.freeCtr + 1 }

/-- The state with an instruction stored where the next step fetches: see `State.placeCode`. -/
def State.withFetchWord (s : State) (nbits w : Nat) : State := s.placeCode (tableCode nbits w)

end Sys2Proof.Machine
end

