-- ==== Sys2Proof/Safety.lean ====
section
/-! DEFINITION. What a safe state is, when a strand may run an instruction, and what a step leaves alone: the terms in which
the claims are stated. -/

namespace Sys2Proof.Machine

/-! ### Invariants -/

/-- The module's memory is in canonical form. -/
def State.memOk (s : State) : Prop := Memory.wf s.mem = true

/-! ### When an instruction runs (R24, R25, R131, R187, R393, R402) -/

/-- The issuing core's strand may run an instruction of this form now: it may issue, no pending slot or access holds it,
no descriptor makes it reserved, no hazard is checked and found, it is not a forbidden last word of a loop body, and its copy agrees. -/
def ready (f : Form) (s : State) : Bool :=
  s.me.issues f.k && !s.me.slotsBusy f && (!f.release || s.settled f.k 0) && !(decide (f.k = .a) && s.me.unitHalt.isSome)
    && f.reservedWord.isNone && (!s.me.dbgHz || (s.me.hazard f.k f.refs).isNone) && !(f.notLast && lastOfBody f.k (s.me.strand f.k))
    && !(f.effect && s.upsets.any (fun u => u = .mismatch s.cur f.k))

/-- The state after the issuing strand's word has completed in line, having changed its core so (R186). -/
def State.stepped (s : State) (k : StrandKind) (f : Core → Core) : State :=
  (s.onMe f).onMe (fun c => c.onStrand k (Strand.advance k))

/-- The outcome in which the C strand's word writes s[n] and completes in line: nothing else of the state changes. -/
def gaveS (s : State) (n : BitVec 6) (x : Word) : Result := .next (s.stepped .c (fun c => c.setS n.toNat x))

/-- The outcome in which the A strand's word writes a[n] and completes in line. -/
def gaveA (s : State) (n : BitVec 5) (x : Word) : Result := .next (s.stepped .a (fun c => c.setA n.toNat x))

/-- The outcome in which the strand leaves the line for a target: loop levels whose body does not hold it go first (R187). -/
def jumped (s : State) (k : StrandKind) (target : Word) : Result := .next (s.onMe (fun c => c.onStrand k (Strand.branchTo target)))

/-- The outcome in which the strand's word completes in line with no other effect. -/
def passed (s : State) (k : StrandKind) : Result := .next (s.onMe (fun c => c.onStrand k (Strand.advance k)))

/-- The outcome in which the strand's word blocks it, to be tried again. -/
def blocked (s : State) (k : StrandKind) (h : Hold) : Result := .next (s.onMe (fun c => c.onStrand k (Strand.block h)))

/-- The outcome of a precise fault of the issuing strand (R385, R386). -/
def trapped (s : State) (k : StrandKind) (cause : Nat) (addr data : Word) : Result := .next (s.raise k cause addr data)

/-! ### Vectors, element by element (R77, R95, R96) -/

/-- Element `j` of width `w` of lane `i` of a vector register. -/
def elemOf (w : Nat) (v : Vec) (i j : Nat) : Nat := v.toNat / 2 ^ (32 * i + w * j) % 2 ^ w
/-- Two's complement value of `w` bits. -/
def signedOf (w x : Nat) : Int := if x < 2 ^ (w - 1) then x else (x : Int) - 2 ^ w
/-- An element of the vb operand: of v[vb], or with bs 1 the low bits of the s-register (R200). -/
def vbElem (c : Core) (f : VR) (w i j : Nat) : Nat :=
  if f.bs = 1 then (c.getS (f.vb.toNat % 64)).toNat % 2 ^ w else elemOf w (c.getV f.vb.toNat) i j
/-- The outcome writes one vector register and changes nothing else: an element of an active lane is what `g` gives it, every
other element keeps its value. -/
def gaveV (s : State) (vd : BitVec 10) (w : Nat) (act : BitVec 32) (g : Nat → Nat → Nat) (r : Result) : Prop :=
  ∃ v : Vec, r = .next (s.stepped .c (fun c => c.setV vd.toNat v)) ∧ ∀ i j, i < 32 → j < 32 / w →
    elemOf w v i j = if act.getLsbD i then g i j % 2 ^ w else elemOf w (s.me.getV vd.toNat) i j
/-- The outcome also ORs into FPST exactly the flags that elements of active lanes raised (R77, R86). -/
def gaveVF (s : State) (vd : BitVec 10) (w : Nat) (act : BitVec 32) (g : Nat → Nat → Nat × Flags) (r : Result) : Prop :=
  ∃ (v : Vec) (x : Flags), r = .next (s.stepped .c (fun c => { c.setV vd.toNat v with fpst := c.fpst.accrue x })) ∧
    (∀ i j, i < 32 → j < 32 / w → elemOf w v i j = if act.getLsbD i then (g i j).1 else elemOf w (s.me.getV vd.toNat) i j) ∧
    (∀ k, k < 5 → (x.getLsbD k = true ↔ ∃ i j, i < 32 ∧ j < 32 / w ∧ act.getLsbD i = true ∧ (g i j).2.getLsbD k = true))
/-- Node `p` of level `k` of the pairwise tree over leaves (R95). -/
def treeNode {α : Type} (op : α → α → α) (leaf : Nat → α) : Nat → Nat → α
  | 0, p => leaf p
  | k + 1, p => op (treeNode op leaf k (2 * p)) (treeNode op leaf k (2 * p + 1))
/-- The nodes that R96 combines for the `n` lanes from lane `p` up: the largest power of two first. -/
def prefixNodes {α : Type} (op : α → α → α) (leaf : Nat → α) : Nat → Nat → Nat → List α
  | 0, p, n => if n % 2 = 1 then [treeNode op leaf 0 p] else []
  | k + 1, p, n =>
    if 2 ^ (k + 1) ≤ n then treeNode op leaf (k + 1) (p / 2 ^ (k + 1)) :: prefixNodes op leaf k (p + 2 ^ (k + 1)) (n - 2 ^ (k + 1))
    else prefixNodes op leaf k p n

/-! ### The values of numbers and the rounding of R84 -/

/-- The value of a finite number. -/
def Num.val : Num → ℚ
  | .fin n m e => (if n then -1 else 1) * (m : ℚ) * (2 : ℚ) ^ e
  | _ => 0

/-- The magnitude of the format whose bits are `k` (R78). -/
def Fmt.mag (F : Fmt) (k : Nat) : ℚ :=
  if k < 2 ^ F.M then (k : ℚ) * (2 : ℚ) ^ (1 - (F.bias : Int) - F.M)
  else ((2 ^ F.M + k % 2 ^ F.M : Nat) : ℚ) * (2 : ℚ) ^ (((k / 2 ^ F.M : Nat) : Int) - F.bias - F.M)

/-- R84: rounding by code `rm` takes the upper of the two neighbours lo and hi of a magnitude v in [lo, hi); `odd` says that lo's last
bit is 1 and `neg` that the number is negative. -/
def roundsUp (rm : Nat) (neg odd : Bool) (lo hi v : ℚ) : Prop :=
  lo < v ∧ ((rm = 0 ∧ (hi - v < v - lo ∨ (hi - v = v - lo ∧ odd = true))) ∨ (rm = 2 ∧ neg = true) ∨ (rm = 3 ∧ neg = false) ∨
    (rm = 4 ∧ hi - v ≤ v - lo))

/-- R84 and R87: `r` holds the bits and the flags of RoundFP of a number of sign `neg` and magnitude v, which is not 0. -/
def Fmt.rounds (F : Fmt) (rm : Nat) (sat neg : Bool) (v : ℚ) (r : Nat × Flags) : Prop :=
  let top := F.maxBits
  let past := 2 * F.mag top - F.mag (top - 1)
  let least : ℚ := (2 : ℚ) ^ (1 - (F.bias : Int))
  let under := least - (2 : ℚ) ^ (-(F.bias : Int) - F.M)
  let tiny := v < least ∧ ¬(under ≤ v ∧ roundsUp rm neg true under least v)
  let beyond := past ≤ v ∨ (F.mag top < v ∧ roundsUp rm neg (decide (top % 2 = 1)) (F.mag top) past v)
  let up (k : Nat) : Prop := roundsUp rm neg (decide (k % 2 = 1)) (F.mag k) (F.mag (k + 1)) v
  (∀ k, k < top → F.mag k ≤ v → v < F.mag (k + 1) →
    (up k → r.1 = F.signed neg (k + 1)) ∧ (¬up k → r.1 = F.signed neg k) ∧ (F.mag k = v → r.2 = 0) ∧
    (F.mag k < v → tiny → r.2 = fUF ||| fNX) ∧ (F.mag k < v → ¬tiny → r.2 = fNX)) ∧
  (F.mag top = v → r = (F.signed neg top, 0)) ∧ (F.mag top < v → ¬beyond → r = (F.signed neg top, fNX)) ∧
  (beyond → (sat = true → r = (F.signed neg top, fOF ||| fNX)) ∧
    (sat = false → F.hasInf = false → r = (F.nanBits, fOF ||| fNX ||| fNV)) ∧
    (sat = false → F.hasInf = true →
      r = (F.signed neg (if rm = 1 ∨ (rm = 2 ∧ neg = false) ∨ (rm = 3 ∧ neg = true) then top else F.infBits), fOF ||| fNX)))

/-- The bits and flags that a C instruction delivers for a number: RoundFP's, where with FZ a subnormal becomes the zero of its sign
with UF and NX (R87). -/
def Fmt.delivers (F : Fmt) (rm : Nat) (sat fz neg : Bool) (v : ℚ) (r : Nat × Flags) : Prop :=
  ∃ x : Nat × Flags, F.rounds rm sat neg v x ∧
    let k := x.1 % 2 ^ (F.E + F.M)
    r = if fz = true ∧ 0 < k ∧ k < 2 ^ F.M then (x.1 - k, x.2 ||| fUF ||| fNX) else x

/-! ### Accesses at issue (R129, R131) -/

/-- An access of the issuing instruction joins its strand's list under a fresh number at a moment, and its slot is pending. -/
def Core.issueAccess (k : StrandKind) (now : Nat) (x : Access) (c : Core) : Core :=
  ({ c.setOut k (c.out k ++ [{ x with id := c.nextId, grp := c.nextId, pc := (c.strand k).pc, was := c.destNow x.dest, issuedAt := now }]) with
     nextId := c.nextId + 1 }).markSlot k x.slot

/-- The outcome issues one access and completes in line; nothing else changes. -/
def gaveAccess (s : State) (k : StrandKind) (x : Access) : Result := .next (s.stepped k (Core.issueAccess k s.keystoneTime x))

/-- The lanes that an access delivers to. -/
def Access.lanes (x : Access) : List Nat := match x.dest with | .lanes _ w => w | _ => []
/-- The bytes that an access stores. -/
def Access.stored (x : Access) : List Byte := match x.kind with | .store b => b | _ => []

/-! ### What stays (frames) -/

/-- Every byte of memory reads as before, and the poison marks stand. -/
def SameMemory (s t : State) : Prop := (∀ a, t.byte a = s.byte a) ∧ t.poison = s.poison

/-- Everything outside the cores is as before: memory, dies, launches, queues, buses, log, fabric, registers. -/
def SameOutside (s t : State) : Prop := t = { s with cores := t.cores }

/-- Every core but one is as before. -/
def SameOthers (g : Nat) (s t : State) : Prop := ∀ h, h ≠ g → t.core h = s.core h

/-- A core's register files: s, a, m, o, v, p, flags, tiles, streams, descriptor slots and FPST. -/
structure Files where
  s : Nat → Word
  a : Nat → Word
  m : Nat → Word
  o : Nat → Word
  v : Nat → Vec
  p : Nat → BitVec 32
  f : Nat → BitVec 48
  t : Nat → Tile
  q : Nat → Stream
  d : Nat → Slot
  fpst : Fpst

/-- What a core's registers read as. -/
def Core.files (c : Core) : Files :=
  { s := c.getS, a := c.getA, m := c.getM, o := c.getO, v := c.getV, p := c.getP, f := c.getF, t := c.tile, q := c.stream,
    d := c.slot, fpst := c.fpst }

end Sys2Proof.Machine
end

