-- ==== Sys2Proof/Certificates/Slice0/Obligations.lean ====
section
/-! DEFINITION. The statements for the provers, family by family in the order of the opcode table. A statement gives the next
state as an equation where it can, so that it says at once what the instruction does and what it leaves alone. -/

open Sys2Proof Sys2Proof.Machine

/-! ### C strand: scalar instructions (R174 to R181) -/

/-- R176 and R177: the arithmetic, shift, minimum, maximum and compare instructions of two registers write their result to s[sd] and
complete in line; a division by zero and the overflowing signed case have the results that R177 gives. Values are read as integers,
so that a wrapped or mis-signed result shows. -/
def Obligations.IntegerResults : Prop :=
  ∀ (f : SR) (s : State), ready (srForm f) s = true →
    let a := s.me.getS f.sa.toNat
    let b := s.me.getS f.sb.toNat
    let sh := b.toNat % 64
    let gives (r : Result) (v : Int) : Prop := r = gaveS s f.sd (BitVec.ofInt 64 v)
    gives (exec (.add f) s) (a.toInt + b.toInt) ∧ gives (exec (.sub f) s) (a.toInt - b.toInt) ∧
    gives (exec (.mul f) s) (a.toInt * b.toInt) ∧ gives (exec (.mulh f) s) (a.toInt * b.toInt / 2 ^ 64) ∧
    gives (exec (.mulhu f) s) ((a.toNat * b.toNat / 2 ^ 64 : Nat) : Int) ∧
    gives (exec (.div f) s) (if b.toInt = 0 then -1 else a.toInt.tdiv b.toInt) ∧
    gives (exec (.divu f) s) (if b.toNat = 0 then -1 else ((a.toNat / b.toNat : Nat) : Int)) ∧
    gives (exec (.rem f) s) (if b.toInt = 0 then a.toInt else a.toInt - b.toInt * a.toInt.tdiv b.toInt) ∧
    gives (exec (.remu f) s) (if b.toNat = 0 then (a.toNat : Int) else ((a.toNat % b.toNat : Nat) : Int)) ∧
    gives (exec (.shl f) s) (a.toInt * 2 ^ sh) ∧ gives (exec (.shr f) s) ((a.toNat / 2 ^ sh : Nat) : Int) ∧
    gives (exec (.sar f) s) (a.toInt / 2 ^ sh) ∧
    gives (exec (.min f) s) (min a.toInt b.toInt) ∧ gives (exec (.max f) s) (max a.toInt b.toInt) ∧
    gives (exec (.minu f) s) ((min a.toNat b.toNat : Nat) : Int) ∧ gives (exec (.maxu f) s) ((max a.toNat b.toNat : Nat) : Int) ∧
    gives (exec (.seq f) s) (if a.toInt = b.toInt then 1 else 0) ∧ gives (exec (.sne f) s) (if a.toInt = b.toInt then 0 else 1) ∧
    gives (exec (.slt f) s) (if a.toInt < b.toInt then 1 else 0) ∧ gives (exec (.sltu f) s) (if a.toNat < b.toNat then 1 else 0)

/-- R176: the logical, bit-count, bit-field and extension instructions, bit by bit. R178: the immediate forms, with the 32-bit immediate
sign-extended to 64 bits. -/
def Obligations.BitImmediateResults : Prop :=
  (∀ (f : SR) (s : State), ready (srForm f) s = true →
     let a := s.me.getS f.sa.toNat
     let b := s.me.getS f.sb.toNat
     let d := s.me.getS f.sd.toNat
     let pos := b.toNat % 64
     let len := b.toNat / 256 % 64 + 1
     let w := 8 * 2 ^ f.fn.toNat
     let gives (r : Result) (g : Nat → Bool) : Prop := ∃ v : Word, r = gaveS s f.sd v ∧ ∀ i, i < 64 → v.getLsbD i = g i
     gives (exec (.and f) s) (fun i => a.getLsbD i && b.getLsbD i) ∧
     gives (exec (.or f) s) (fun i => a.getLsbD i || b.getLsbD i) ∧
     gives (exec (.xor f) s) (fun i => a.getLsbD i != b.getLsbD i) ∧
     gives (exec (.bfx f) s) (fun i => decide (i < len) && a.getLsbD (pos + i)) ∧
     gives (exec (.bfi f) s) (fun i => if pos ≤ i ∧ i < pos + len then a.getLsbD (i - pos) else d.getLsbD i) ∧
     (f.fn.toNat < 3 → gives (exec (.sext f) s) (fun i => if i < w then a.getLsbD i else a.getLsbD (w - 1))) ∧
     (f.fn.toNat < 3 → gives (exec (.zext f) s) (fun i => decide (i < w) && a.getLsbD i)) ∧
     (∃ n : Nat, exec (.clz f) s = gaveS s f.sd (BitVec.ofNat 64 n) ∧ n ≤ 64 ∧ (∀ i, 64 - n ≤ i → a.getLsbD i = false) ∧
       (n < 64 → a.getLsbD (63 - n) = true)) ∧
     exec (.popc f) s = gaveS s f.sd (BitVec.ofNat 64 ((List.range 64).countP a.getLsbD))) ∧
  (∀ (f : SI) (s : State), ready (siForm f) s = true →
     let a := s.me.getS f.sa.toNat
     let i := f.imm.toInt
     let sh := f.imm.toNat
     let gives (r : Result) (v : Int) : Prop := r = gaveS s f.sd (BitVec.ofInt 64 v)
     gives (exec (.addi f) s) (a.toInt + i) ∧ gives (exec (.muli f) s) (a.toInt * i) ∧
     exec (.andi f) s = gaveS s f.sd (a &&& BitVec.ofInt 64 i) ∧ exec (.ori f) s = gaveS s f.sd (a ||| BitVec.ofInt 64 i) ∧
     exec (.xori f) s = gaveS s f.sd (a ^^^ BitVec.ofInt 64 i) ∧
     (sh < 64 → gives (exec (.shli f) s) (a.toInt * 2 ^ sh)) ∧ (sh < 64 → gives (exec (.shri f) s) ((a.toNat / 2 ^ sh : Nat) : Int)) ∧
     (sh < 64 → gives (exec (.sari f) s) (a.toInt / 2 ^ sh)) ∧
     gives (exec (.slti f) s) (if a.toInt < i then 1 else 0) ∧
     gives (exec (.sltui f) s) (if a.toNat < (BitVec.ofInt 64 i).toNat then 1 else 0) ∧
     gives (exec (.li f) s) i ∧ gives (exec (.lih f) s) ((f.imm.toNat * 2 ^ 32 + a.toNat % 2 ^ 32 : Nat) : Int))

/-- R78, R84, R87 and R181: the arithmetic that the scalar and vector float instructions and the FP reductions deliver, for every format
that R76 gives code 0 to 4. A pattern reads as its value, with FZ a subnormal as zero; a number is rounded once between its neighbours,
with the overflow and tininess rules; a sum, a difference, a product and a fused product and sum round their exact value, with the zero
signs of R84 and the NaN and infinity results of IEEE 754; a minimum or maximum is one of the operands. -/
def Obligations.RoundedArithmetic : Prop :=
  (∀ (t rm : Nat) (sat neg : Bool) (m : Nat) (e : Int), rm ≤ 4 → m ≠ 0 →
     (fmtOf t).rounds rm sat neg ((m : ℚ) * (2 : ℚ) ^ e) (deliver (fmtOf t) rm sat (.fin neg m e))) ∧
  (∀ (t k : Nat) (neg fz : Bool),
     let F := fmtOf t
     let x := readFloat F fz (F.signed neg k)
     (k ≤ F.maxBits → (fz = true → k < 2 ^ F.M → ∃ e, x = .fin neg 0 e) ∧
       (fz = false ∨ 2 ^ F.M ≤ k → ∃ m e, x = .fin neg m e ∧ (m : ℚ) * (2 : ℚ) ^ e = F.mag k)) ∧
     (F.maxBits < k → k < 2 ^ (F.E + F.M) →
       x = if F.hasInf = true ∧ k = F.infBits then .inf neg else .nan (F.hasInf && decide (k < F.infBits + 2 ^ (F.M - 1))))) ∧
  (∀ (t rm : Nat) (fz : Bool) (a b c : Nat), rm ≤ 4 →
     let F := fmtOf t
     let x := readFloat F fz a
     let y := readFloat F fz b
     let z := readFloat F fz c
     let quiet (l : List Machine.Num) : Nat × Flags := (F.nanBits, if l.any Machine.Num.isSnan then fNV else 0)
     let invalid : Nat × Flags := (F.nanBits, fNV)
     let infinity (n : Bool) : Nat × Flags := (F.signed n F.infBits, 0)
     let gives (v : ℚ) (zero : Bool) (r : Nat × Flags) : Prop :=
       (v = 0 → r = (F.signed zero 0, 0)) ∧ (v ≠ 0 → F.delivers rm false fz (decide (v < 0)) |v| r)
     (x.isNan = true ∨ y.isNan = true → fAdd F rm fz a b = quiet [x, y] ∧ fSub F rm fz a b = quiet [x, y] ∧ fMul F rm fz a b = quiet [x, y] ∧
       fMa F rm fz a b c = quiet [x, y, z]) ∧
     (∀ n, x = .inf n →
       (∀ k, y = .inf k → fAdd F rm fz a b = (if n = k then infinity n else invalid) ∧ fSub F rm fz a b = (if n = k then invalid else infinity n) ∧
         fMul F rm fz a b = infinity (n != k)) ∧
       (∀ k m e, y = .fin k m e → fAdd F rm fz a b = infinity n ∧ fAdd F rm fz b a = infinity n ∧ fSub F rm fz a b = infinity n ∧
         fSub F rm fz b a = infinity (!n) ∧
         (m = 0 → fMul F rm fz a b = invalid ∧ fMul F rm fz b a = invalid ∧ fMa F rm fz a b c = invalid ∧ fMa F rm fz b a c = invalid) ∧
         (m ≠ 0 → fMul F rm fz a b = infinity (n != k) ∧ fMul F rm fz b a = infinity (n != k) ∧
           (∀ j, z = .inf j → fMa F rm fz a b c = if (n != k) = j then infinity j else invalid)))) ∧
     (∀ n m e k l f, x = .fin n m e → y = .fin k l f →
       gives (x.val + y.val) (if m = 0 ∧ l = 0 ∧ n = k then n else decide (rm = 2)) (fAdd F rm fz a b) ∧
       gives (x.val - y.val) (if m = 0 ∧ l = 0 ∧ n = !k then n else decide (rm = 2)) (fSub F rm fz a b) ∧
       gives (x.val * y.val) (n != k) (fMul F rm fz a b) ∧
       (z.isNan = true → fMa F rm fz a b c = quiet [z]) ∧ (∀ j, z = .inf j → fMa F rm fz a b c = infinity j) ∧
       (∀ j g h, z = .fin j g h →
         gives (x.val * y.val + z.val) (if (m = 0 ∨ l = 0) ∧ g = 0 ∧ (n != k) = j then j else decide (rm = 2)) (fMa F rm fz a b c)))) ∧
  (∀ (t : Nat) (greater fz : Bool) (a b : Nat),
     let F := fmtOf t
     let x := readFloat F fz a
     let y := readFloat F fz b
     let seen (v : Machine.Num) (p : Nat) : Nat := if fz = true ∧ v.isZero = true then F.signed v.isNeg 0 else p
     let nv : Flags := if x.isSnan || y.isSnan then fNV else 0
     let less : Prop := x.lt y = true ∨ (y.lt x = false ∧ x.isNeg = true ∧ y.isNeg = false)
     (x.isNan = true → y.isNan = true → fPick F greater fz a b = (F.nanBits, nv)) ∧
     (x.isNan = true → y.isNan = false → fPick F greater fz a b = (seen y b, nv)) ∧
     (x.isNan = false → y.isNan = true → fPick F greater fz a b = (seen x a, nv)) ∧
     (x.isNan = false → y.isNan = false → less → fPick F false fz a b = (seen x a, 0) ∧ fPick F true fz a b = (seen y b, 0) ∧
       fPick F false fz b a = (seen x a, 0) ∧ fPick F true fz b a = (seen y b, 0)) ∧
     (∀ n m e k l f, x = .fin n m e → y = .fin k l f → (x.lt y = true ↔ x.val < y.val)))

/-- R179 to R181: the scalar FP32 instructions read FP32 from bits [31:0], write the rounded result zero-extended, or a 64-bit
integer, and OR their flags into FPST; nothing else changes. RoundedArithmetic says what `fAdd`, `fSub`, `fMul`, `fMa` and `fPick` are,
ConversionResults the conversions. -/
def Obligations.ScalarFloatResults : Prop :=
  ∀ (f : SR) (s : State), ready (srForm f) s = true →
    let st := s.me.fpst
    let rm := if f.fn.toNat % 8 = 7 then st.rm.toNat else f.fn.toNat % 8
    let a := (s.me.getS f.sa.toNat).toNat % 2 ^ 32
    let b := (s.me.getS f.sb.toNat).toNat % 2 ^ 32
    let c := (s.me.getS f.sd.toNat).toNat % 2 ^ 32
    let gives (r : Result) (x : Nat × Flags) : Prop :=
      r = .next (s.stepped .c (fun c => { c.setS f.sd.toNat (BitVec.ofNat 64 x.1) with fpst := st.accrue x.2 }))
    gives (exec (.fadds f) s) (fAdd fp32 rm st.fz a b) ∧ gives (exec (.fsubs f) s) (fSub fp32 rm st.fz a b) ∧
    gives (exec (.fmuls f) s) (fMul fp32 rm st.fz a b) ∧ gives (exec (.fmas f) s) (fMa fp32 rm st.fz a b c) ∧
    gives (exec (.fmins f) s) (fPick fp32 false st.fz a b) ∧ gives (exec (.fmaxs f) s) (fPick fp32 true st.fz a b) ∧
    gives (exec (.fcmps f) s)
      (if (fCompare st.fz (f.fn.toNat % 8) a b).1 then 1 else 0, (fCompare st.fz (f.fn.toNat % 8) a b).2) ∧
    (∃ n : Int, ∃ x : Flags, toIntRange rm (-2 ^ 63) (2 ^ 63 - 1) (readFloat fp32 st.fz a) = (n, x) ∧
      exec (.fcvtis f) s = .next (s.stepped .c (fun c => { c.setS f.sd.toNat (BitVec.ofInt 64 n) with fpst := st.accrue x }))) ∧
    gives (exec (.fcvtsi f) s) (deliver fp32 rm false (ofInt (s.me.getS f.sa.toNat).toInt))

/-! ### C strand: control and system instructions (R182 to R199) -/

/-- R182, R183 and R187: a branch whose condition holds pops the loop levels that do not hold the target and goes there; one whose
condition does not hold continues in line. JMP and JR always jump; a JR to a misaligned target traps with the PC kept (R184). -/
def Obligations.BranchResults : Prop :=
  ∀ (f : BR) (s : State),
    let pc := s.me.strandC.pc
    let a := s.me.getS f.sa.toNat
    let b := s.me.getS f.sb.toNat
    let act := s.me.getP f.pg.toNat
    let p := s.me.getP (f.sb.toNat % 8)
    let target := pc + BitVec.ofInt 64 (8 * f.off.toInt)
    let far := a + BitVec.ofInt 64 (8 * f.off.toInt)
    let on (c : Prop) (r : Result) : Prop := (c → r = jumped s .c target) ∧ (¬c → r = passed s .c)
    (ready { brForm f with notLast := true } s = true →
      (f.cond = 0 → on True (exec (.br f) s)) ∧ (f.cond = 1 → on (a = b) (exec (.br f) s)) ∧ (f.cond = 2 → on (a ≠ b) (exec (.br f) s)) ∧
      (f.cond = 3 → on (a.toInt < b.toInt) (exec (.br f) s)) ∧ (f.cond = 4 → on (b.toInt ≤ a.toInt) (exec (.br f) s)) ∧
      (f.cond = 5 → on (a.toNat < b.toNat) (exec (.br f) s)) ∧ (f.cond = 6 → on (b.toNat ≤ a.toNat) (exec (.br f) s)) ∧
      (f.cond = 7 → on (a = 0) (exec (.brz f) s)) ∧ (f.cond = 8 → on (a ≠ 0) (exec (.brz f) s))) ∧
    (ready { k := .c, notLast := true, refs := [.p (f.sb.toNat % 8), .p f.pg.toNat] } s = true →
      (f.cond = 9 → on (∃ i, i < 32 ∧ act.getLsbD i = true ∧ p.getLsbD i = true) (exec (.brp f) s)) ∧
      (f.cond = 10 → on (∀ i, i < 32 → act.getLsbD i = true → p.getLsbD i = true) (exec (.brp f) s)) ∧
      (f.cond = 11 → on (∀ i, i < 32 → act.getLsbD i = true → p.getLsbD i = false) (exec (.brp f) s))) ∧
    (ready { k := .c, notLast := true } s = true → exec (.jmp f) s = jumped s .c target) ∧
    (ready { k := .c, notLast := true, refs := [.s f.sa.toNat] } s = true →
      (far.toNat % 8 = 0 → exec (.jr f) s = jumped s .c far) ∧
      (far.toNat % 8 ≠ 0 → exec (.jr f) s = trapped s .c 0x05 far (s.me.ldep .c)) ∧
      exec (.jal f) s = .next (s.onMe (fun c => (c.setS f.sa.toNat (pc + 8)).onStrand .c
        (fun x => { x with status := .running, pc := target, hold := .fresh }))))

/-- R186: after a word that completes in line, the innermost level that ends there counts down and its start follows, or it goes and
the next one out is asked; elsewhere the next word follows. LOOP (R185) with count 0 leaves the body as its last word would; a fifth
level, or a body that runs past the enclosing one, is an illegal loop; otherwise the level is pushed and the body begins. -/
def Obligations.LoopResults : Prop :=
  (∀ (f : BR) (s : State), ready { k := .c, notLast := true, refs := [.s f.sa.toNat] } s = true →
     let x := s.me.strandC
     let n := s.me.getS f.sa.toNat
     let stop := x.pc + BitVec.ofInt 64 (8 * f.off.toInt)
     let goes (pc : Word) (loops : List LoopLevel) : Prop :=
       exec (.loop f) s = .next (s.onMe (fun c => { c with strandC := { status := .running, pc := pc, loops := loops } }))
     (n = 0 → goes (nextPc stop x.loops).1 (nextPc stop x.loops).2) ∧
     (n ≠ 0 → 4 ≤ x.loops.length → exec (.loop f) s = trapped s .c 0x03 stop (s.me.ldep .c)) ∧
     (∀ l ls, n ≠ 0 → x.loops = l :: ls → l.stop.toNat < stop.toNat → exec (.loop f) s = trapped s .c 0x03 stop (s.me.ldep .c)) ∧
     (n ≠ 0 → x.loops.length < 4 → (∀ l ∈ x.loops.head?, stop.toNat ≤ l.stop.toNat) →
       goes (x.pc + 8) (⟨x.pc + 8, stop, n⟩ :: x.loops))) ∧
  (∀ (k : StrandKind) (x : Strand),
     let npc := x.pc + BitVec.ofNat 64 (wordBytes k)
     let y := x.advance k
     y.status = .running ∧ (x.loops = [] → y.pc = npc ∧ y.loops = []) ∧
     (∀ l ls, x.loops = l :: ls → npc ≠ l.stop → y.pc = npc ∧ y.loops = x.loops) ∧
     (∀ l ls, x.loops = l :: ls → npc = l.stop → 1 < l.count.toNat → y.pc = l.start ∧ y.loops = { l with count := l.count - 1 } :: ls) ∧
     (∀ l ls, x.loops = l :: ls → npc = l.stop → l.count.toNat ≤ 1 → y = ({ x with loops := ls } : Strand).advance k) ∧
     y.loops.length ≤ x.loops.length)

/-- R188 and R189: FORK starts a strand that is not live at an aligned entry and goes on, else it is an illegal fork; JOIN, of any
strands or of none, traps where one of them was never started, goes on once every one has ended, and else waits. R190: REGION in an
unsealed region, with C alone, nothing pending and no loop open, captures the entry state and opens the new region; memory and the other
cores stay, and so do the general registers and the streams, which R41 leaves dead (log entry 105: the model's choice). R27 and R192: END with no other strand running ends C, and the task then waits for its entries. R199: NOP does
nothing. -/
def Obligations.ForkRegionResults : Prop :=
  (∀ (f : CT) (s : State) (i : Nat) (k : StrandKind), (i, k) ∈ [(1, StrandKind.a), (2, .m), (3, .o)] → f.opt = BitVec.ofNat 10 (2 ^ i) →
     let target := s.me.strandC.pc + BitVec.ofInt 64 f.imm.toInt
     let x := s.me.strand k
     let idle := x.status = .unstarted ∨ x.status = .ended
     (ready { k := .c, notLast := true, effect := true } s = true →
       (idle → target.toNat % wordBytes k = 0 → exec (.fork f) s =
         .next (s.stepped .c (fun c => c.onStrand k (fun x => { x with status := .running, pc := target, hold := .fresh })))) ∧
       (¬idle ∨ target.toNat % wordBytes k ≠ 0 → exec (.fork f) s = trapped s .c 0x01 target (s.me.ldep .c)))) ∧
  (∀ (f : CT) (s : State), ready { k := .c, notLast := true } s = true →
     let named (x : Strand) : Prop := (x = s.me.strandA ∧ f.opt.getLsbD 1 = true) ∨ (x = s.me.strandM ∧ f.opt.getLsbD 2 = true) ∨
       (x = s.me.strandO ∧ f.opt.getLsbD 3 = true)
     ((∃ x, named x ∧ x.status = .unstarted) → exec (.join f) s = trapped s .c 0x02 0 (s.me.ldep .c)) ∧
     ((∀ x, named x → x.status = .ended) → exec (.join f) s = passed s .c) ∧
     ((∀ x, named x → x.status ≠ .unstarted) → (∃ x, named x ∧ x.status ≠ .ended) → exec (.join f) s = blocked s .c .other)) ∧
  (∀ (f : CT) (s : State) (tk : Task),
     let c := s.me
     let idle (x : Strand) : Prop := x.status = .unstarted ∨ x.status = .ended
     (ready { k := .c, notLast := true } s = true → c.task = some tk →
       (tk.region = .opened ∨ tk.region = .sealed → c.strandC.loops = [] → idle c.strandA → idle c.strandM → idle c.strandO → c.sbC = 0 →
         s.entriesDone s.cur = true → c.gangOwed = [] → c.scales = [] → c.mwin.releases = [] → ∃ t, exec (.region f) s = .next t ∧
           t.me.task = some { tk with
             entry := { start := false, pc := c.strandC.pc, s := between 1 18 c.s, a := between 1 16 c.a, f := c.f }
             region := .opened, restarts := 0, mismatches := 0, boundCount := 0 } ∧
           t.me.strandC = c.strandC.advance .c ∧ t.me.strandA = {} ∧ t.me.strandM = {} ∧ t.me.strandO = {} ∧
           t.me.s = c.s ∧ t.me.a = c.a ∧ t.me.m = c.m ∧ t.me.v = c.v ∧ t.me.p = c.p ∧ t.me.f = c.f ∧ t.me.q = c.q ∧
           t.me.fpst = c.fpst ∧ SameOthers s.cur s t ∧ t = { s with cores := t.cores, freeCtr := t.freeCtr }) ∧
       (c.strandC.loops ≠ [] → exec (.region f) s = trapped s .c 0x04 0 (c.ldep .c)) ∧
       (idle c.strandA → idle c.strandM → idle c.strandO → exec (.endC f) s = .next (s.onMe (fun c =>
         { c with strandC := { c.strandC with status := .ended, loops := [], hold := .fresh }, task := some { tk with ending := true } }))) ∧
       (¬(idle c.strandA ∧ idle c.strandM ∧ idle c.strandO) → exec (.endC f) s = blocked s .c .other)) ∧
     (ready { k := .c } s = true → exec (.nop f) s = passed s .c))

/-- R193 and R194: a CSR instruction waits in C's list until it is performed, which reads, then writes, in one step and gives s[sd] the
old value; one that writes FPST does so at issue, behind the earlier CSR instructions of FPST (R86). Writes reach only FPST and SPCP.
R195 and R85: what the CSRs of the map read as, field by field, and that FPST keeps RM when a reserved rounding code is written. -/
def Obligations.CsrResults : Prop :=
  (∀ (f : CT) (s : State),
     let n := f.imm.toNat % 4096
     let old := s.readCsr s.cur n
     let x := s.me.getS f.sa.toNat
     let asks (op : Nat) : Result := gaveAccess s .c
       { id := 0, grp := 0, pc := 0, kind := .csr op n x, dest := if f.sd = 0 then .none else .s f.sd.toNat, slot := (f.opt.extractLsb' 7 3).toNat,
         loose := true }
     let wrote (v : Word) : Result := .next (s.stepped .c (fun c => ({ c with fpst := c.fpst.write v } : Core).setS f.sd.toNat old))
     let before (y : Access) : Prop := ∃ op w, y.kind = .csr op 0 w
     (ready (csrForm f false) s = true → exec (.csrrd f) s = asks 0) ∧
     (ready (csrForm f true) s = true →
       (n ≠ 0 → exec (.csrwr f) s = asks 1 ∧ exec (.csrset f) s = asks 2 ∧ exec (.csrclr f) s = asks 3) ∧
       (n = 0 → (∀ y ∈ s.me.outC, ¬before y) →
         exec (.csrwr f) s = wrote x ∧ exec (.csrset f) s = wrote (old ||| x) ∧ exec (.csrclr f) s = wrote (old &&& ~~~x)) ∧
       (n = 0 → (∃ y ∈ s.me.outC, before y) →
         exec (.csrwr f) s = blocked s .c .other ∧ exec (.csrset f) s = blocked s .c .other ∧ exec (.csrclr f) s = blocked s .c .other))) ∧
  (∀ (s : State) (x : Access) (op a sd : Nat) (w : Word),
     let old := s.readCsr s.ev.core a
     let new := if op = 1 then w else if op = 2 then old ||| w else old &&& ~~~w
     s.ev.strand = .c → s.ev.nums = [] → s.access? (s.ev.core, .c, s.ev.num) = some x → x.kind = .csr op a w → x.phase = .issued → x.dest = .s sd →
     x.spc = false → x.flag = 63 → x.flags = 0 → s.mayPerform s.ev.core .c x = true →
       exec .memoryAccessCompletion s = .next (s.onCore s.ev.core (fun c =>
         ((if op = 0 then c else if a = 0 then { c with fpst := c.fpst.write new } else if a = 1 then { c with spcp := new.extractLsb' 1 7 } else c : Core).setS
           sd old).retire .c x))) ∧
  ((∀ (s : State) (tk : Task), s.cur < 768 → s.me.task = some tk → tk.ctx < 16 → tk.stage < 16 →
     (s.readCsr s.cur 0x010).extractLsb' 0 10 = BitVec.ofNat 10 s.cur ∧ (s.readCsr s.cur 0x010).extractLsb' 16 8 = BitVec.ofNat 8 (s.cur % 96) ∧
     (s.readCsr s.cur 0x010).extractLsb' 24 4 = BitVec.ofNat 4 (s.cur / 96) ∧ (s.readCsr s.cur 0x010).extractLsb' 32 12 = BitVec.ofNat 12 s.chip ∧
     (s.readCsr s.cur 0x011).extractLsb' 0 4 = BitVec.ofNat 4 tk.stage ∧ (s.readCsr s.cur 0x011).extractLsb' 32 4 = BitVec.ofNat 4 tk.ctx ∧
     s.readCsr s.cur 0x009 = BitVec.ofNat 64 s.me.strandC.loops.length ∧ s.readCsr s.cur 0x020 = (s.die (dieOf s.cur)).time ∧
     (let code (x : Strand) : Nat := match x.status with | .unstarted => 0 | .running => 1 | .blocked => 2 | .ended => 3
      s.readCsr s.cur 0x008 = BitVec.ofNat 64 (1 + 2 ^ 2 * code s.me.strandA + 2 ^ 4 * code s.me.strandM + 2 ^ 6 * code s.me.strandO)) ∧
     (∀ k, k < 4 → s.readCsr s.cur (0x00C + k) = if k < s.me.strandC.loops.length
       then (s.me.strandC.loops.getD (s.me.strandC.loops.length - 1 - k) ⟨0, 0, 0⟩).count else 0) ∧
     (∀ k, k < 4 → s.readCsr s.cur (0x018 + k) = match tk.members.getD k none with
       | some m => BitVec.ofNat 64 (2 ^ 40 + m.gnum * 2 ^ 32 + m.rank)
       | none => 0) ∧
     s.readCsr s.cur 0x021 = (s.die (dieOf s.cur)).tgen.setWidth 64 ∧
     (∀ d, d < 13 → s.readCsr s.cur (0x030 + d) = look 0 (s.die (dieOf s.cur)).tofs d ∧
       s.readCsr s.cur (0x040 + d) = look (BitVec.ofNat 64 (2 ^ 40)) (s.die (dieOf s.cur)).trate d) ∧
     (∀ n, n < 8 → s.readCsr s.cur (0x060 + n) = BitVec.ofNat 64
       ((match (s.me.channel n).live with | [] => (s.me.channel n).next | i :: _ => i) % 2 ^ 48)) ∧
     s.readCsr s.cur 0x050 = s.me.ccnt ∧ s.readCsr s.cur 0x001 = s.me.spcp.setWidth 64 <<< 1 ∧
     s.readCsr s.cur 0x070 = (if s.me.dbgBe then 2 else 0) ||| (if s.me.dbgHz then 1 else 0)) ∧
   (∀ (x : Fpst) (w : Word), (4 < (w.extractLsb' 5 3).toNat → (x.write w).rm = x.rm) ∧
     ((w.extractLsb' 5 3).toNat ≤ 4 → (x.write w).word = w &&& 0x1FF)))

/-- R196 to R198: TRAP is a precise fault with its code; BKPT does nothing unless breakpoints are enabled, else it enters a record
and halts the core after the word; SYSCALL seals, and once the earlier accesses are performed at DIE scope it hands the request to
firmware and C waits for the reply. -/
def Obligations.SystemResults : Prop :=
  ∀ (f : CT) (s : State),
    let code := BitVec.ofNat 64 (f.imm.toNat % 65536)
    (ready { k := .c } s = true →
      exec (.trap f) s = trapped s .c 0x07 0 code ∧
      (s.me.dbgBe = false → exec (.bkpt f) s = passed s .c) ∧
      (s.me.dbgBe = true → exec (.bkpt f) s = .next
        (((s.enter (s.taskRecord s.cur .c true 0x08 0 s.me.strandC.pc 0 code)).haltCore s.cur).onMe (fun c => c.onStrand .c (Strand.advance .c))))) ∧
    (ready { k := .c, refs := [.s f.sa.toNat, .s f.sd.toNat] } s = true → s.me.strandC.hold = .fresh → s.settled .c 1 = true →
      exec (.syscall f) s = .next ((s.onMe Core.seal).onMe (fun c => c.onStrand .c
        (Strand.block (.requested f.sd.toNat (f.imm.setWidth 16) (s.me.getS f.sa.toNat))))))

/-! ### C strand: vector instructions (R200 to R214) -/

/-- R204 and R208: integer vector instructions, element by element. An exact result wraps to the element's width, or with sat 1
saturates to its signed range; inactive lanes keep their value; no flag is raised. -/
def Obligations.VectorIntegerResults : Prop :=
  ∀ (f : VR) (s : State),
    let w := regWidth f.ty.toNat
    let act := s.me.getP f.pg.toNat
    let ua (i j : Nat) : Nat := elemOf w (s.me.getV f.va.toNat) i j
    let ub (i j : Nat) : Nat := vbElem s.me f w i j
    let sa (i j : Nat) : Int := signedOf w (ua i j)
    let sb (i j : Nat) : Int := signedOf w (ub i j)
    let sc (i j : Nat) : Int := signedOf w (elemOf w (s.me.getV f.vc.toNat) i j)
    let cut (x : Int) : Nat := ((if f.sat = 1 then max (-(2 ^ (w - 1))) (min x (2 ^ (w - 1) - 1)) else x) % 2 ^ w).toNat
    let gives (r : Result) (g : Nat → Nat → Int) : Prop := gaveV s f.vd w act (fun i j => cut (g i j)) r
    (ready (vrForm f s [.v f.va.toNat allLanes, vbRef f]) s = true →
      gives (exec (.vadd f) s) (fun i j => sa i j + sb i j) ∧ gives (exec (.vsub f) s) (fun i j => sa i j - sb i j) ∧
      gives (exec (.vmul f) s) (fun i j => sa i j * sb i j) ∧
      (f.sub = 0 → gives (exec (.vmulh f) s) (fun i j => sa i j * sb i j / 2 ^ w)) ∧
      (f.sub = 1 → gives (exec (.vmulh f) s) (fun i j => ((ua i j * ub i j / 2 ^ w : Nat) : Int))) ∧
      (f.sat = 0 → f.sub = 0 → gives (exec (.vmin f) s) (fun i j => min (sa i j) (sb i j)) ∧
        gives (exec (.vmax f) s) (fun i j => max (sa i j) (sb i j))) ∧
      (f.sat = 0 → f.sub = 1 → gives (exec (.vmin f) s) (fun i j => ((min (ua i j) (ub i j) : Nat) : Int)) ∧
        gives (exec (.vmax f) s) (fun i j => ((max (ua i j) (ub i j) : Nat) : Int))) ∧
      (f.sat = 0 → gives (exec (.vand f) s) (fun i j => ((ua i j &&& ub i j : Nat) : Int)) ∧
        gives (exec (.vor f) s) (fun i j => ((ua i j ||| ub i j : Nat) : Int)) ∧
        gives (exec (.vxor f) s) (fun i j => ((ua i j ^^^ ub i j : Nat) : Int)) ∧
        gives (exec (.vshr f) s) (fun i j => ((ua i j / 2 ^ (ub i j % w) : Nat) : Int)) ∧
        gives (exec (.vsar f) s) (fun i j => sa i j / 2 ^ (ub i j % w))) ∧
      gives (exec (.vshl f) s) (fun i j => sa i j * 2 ^ (ub i j % w))) ∧
    (ready (vrForm f s [.v f.va.toNat allLanes, vbRef f, .v f.vc.toNat allLanes]) s = true →
      gives (exec (.vmad f) s) (fun i j => sa i j * sb i j + sc i j)) ∧
    (ready (vrForm f s [.v f.va.toNat allLanes]) s = true →
      gives (exec (.vabs f) s) (fun i j => (sa i j).natAbs) ∧
      (f.sat = 0 → gives (exec (.vpopc f) s) (fun i j => (((List.range w).countP (fun b => (ua i j).testBit b) : Nat) : Int)) ∧
        gives (exec (.vclz f) s) (fun i j => if ua i j = 0 then (w : Int) else (w : Int) - 1 - (Nat.log2 (ua i j) : Nat)))) ∧
    (ready (vrForm f s (if f.bs = 1 then [.s (f.vb.toNat % 64)] else [])) s = true → f.sat = 0 →
      gives (exec (.vidx f) s) (fun i j => (i * (32 / w) + j : Nat) + (if f.bs = 1 then (s.me.getS (f.vb.toNat % 64)).toInt else 0))) ∧
    (∀ (h : VI),
      let v := regWidth h.ty.toNat
      let m := s.me.getP h.pg.toNat
      let x (i j : Nat) : Int := signedOf v (elemOf v (s.me.getV h.va.toNat) i j)
      (ready { k := .c, refs := [.v h.vd.toNat m, .v h.va.toNat allLanes] } s = true →
        gaveV s h.vd v m (fun i j => ((x i j + h.imm.toInt) % 2 ^ v).toNat) (exec (.vaddi h) s)) ∧
      (ready { k := .c, refs := [.v h.vd.toNat m] } s = true →
        gaveV s h.vd v m (fun _ _ => (h.imm.toInt % 2 ^ v).toNat) (exec (.vli h) s)))

/-- R205 and R209: floating vector instructions, element by element in the format of ty, with the flags of the active lanes ORed
into FPST (RoundedArithmetic says what the arithmetic is). R94: the special functions' exact cases, their flags, the overflow, and the
bound in units of the last place about the reference value, the free value of the configuration within it; SpecialFunctionReference says
how near the reference is to the function. -/
def Obligations.VectorFloatResults : Prop :=
  (∀ (f : VR) (s : State), f.ty.toNat ≤ 2 →
     let w := regWidth f.ty.toNat
     let F := fmtOf f.ty.toNat
     let act := s.me.getP f.pg.toNat
     let rm := if f.rm = 7 then s.me.fpst.rm.toNat else f.rm.toNat
     let fz := s.me.fpst.fz
     let a (i j : Nat) : Nat := elemOf w (s.me.getV f.va.toNat) i j
     let b (i j : Nat) : Nat := vbElem s.me f w i j
     let c (i j : Nat) : Nat := elemOf w (s.me.getV f.vc.toNat) i j
     let gives (r : Result) (g : Nat → Nat → Nat × Flags) : Prop := gaveVF s f.vd w act g r
     (ready (vrForm f s [.v f.va.toNat allLanes, vbRef f]) s = true →
       gives (exec (.vfadd f) s) (fun i j => fAdd F rm fz (a i j) (b i j)) ∧
       gives (exec (.vfsub f) s) (fun i j => fSub F rm fz (a i j) (b i j)) ∧
       gives (exec (.vfmul f) s) (fun i j => fMul F rm fz (a i j) (b i j)) ∧
       gives (exec (.vfmin f) s) (fun i j => fPick F false fz (a i j) (b i j)) ∧
       gives (exec (.vfmax f) s) (fun i j => fPick F true fz (a i j) (b i j)) ∧
       (f.sub = 2 → gives (exec (.vfneg f) s) (fun i j => (a i j % 2 ^ (w - 1) + b i j / 2 ^ (w - 1) * 2 ^ (w - 1), 0)))) ∧
     (ready (vrForm f s [.v f.va.toNat allLanes, vbRef f, .v f.vc.toNat allLanes]) s = true →
       gives (exec (.vfma f) s) (fun i j => fMa F rm fz (a i j) (b i j) (c i j))) ∧
     (ready (vrForm f s [.v f.va.toNat allLanes]) s = true →
       (f.sub = 0 → gives (exec (.vfneg f) s) (fun i j => ((a i j + 2 ^ (w - 1)) % 2 ^ w, 0))) ∧
       (f.sub = 1 → gives (exec (.vfneg f) s) (fun i j => (a i j % 2 ^ (w - 1), 0))) ∧
       gives (exec (.vexp2 f) s) (fun i j => sfuElem 0 f.ty.toNat fz (a i j)) ∧
       gives (exec (.vlog2 f) s) (fun i j => sfuElem 1 f.ty.toNat fz (a i j)) ∧
       gives (exec (.vrcp f) s) (fun i j => sfuElem 2 f.ty.toNat fz (a i j)) ∧
       gives (exec (.vrsqrt f) s) (fun i j => sfuElem 3 f.ty.toNat fz (a i j)) ∧
       gives (exec (.vtanh f) s) (fun i j => sfuElem 4 f.ty.toNat fz (a i j)) ∧
       gives (exec (.vsigm f) s) (fun i j => sfuElem 5 f.ty.toNat fz (a i j)))) ∧
  (∀ (g x : Nat) (fz : Bool), g < 6 → x < 2 ^ 32 →
     let v := readFloat fp32 fz x
     let r := sfu32 g fz x
     let bound : ℚ := ([2, 2, 1, 1, 4, 4] : List ℚ).getD g 0 + (2 : ℚ) ^ (-100 : Int)
     (v.isNan = true → r = (0x7FC00000, if v.isSnan then fNV else 0)) ∧
     (v = .inf false → r = (([0x7F800000, 0x7F800000, 0, 0, 0x3F800000, 0x3F800000] : List Nat).getD g 0, 0)) ∧
     (v = .inf true → r = (([0, 0x7FC00000, 0x80000000, 0x7FC00000, 0xBF800000, 0] : List Nat).getD g 0, if g = 1 ∨ g = 3 then fNV else 0)) ∧
     (∀ n e, v = .fin n 0 e →
       let sign := if n then 0x80000000 else 0
       r = (([0x3F800000, 0xFF800000, sign + 0x7F800000, sign + 0x7F800000, sign, 0x3F000000] : List Nat).getD g 0,
         if g = 1 ∨ g = 2 ∨ g = 3 then fDZ else 0)) ∧
     (∀ n m e, v = .fin n m e → m ≠ 0 →
       let y := (sfuRef g n m e).val
       (g = 1 ∨ g = 3 → n = true → r = (0x7FC00000, fNV)) ∧
       (∀ k : Int, g = 0 → v.val = k → (-126 ≤ k → k ≤ 127 → r = ((k + 127).toNat * 2 ^ 23, 0)) ∧
         (-149 ≤ k → k < -126 → fz = false → r = (2 ^ (k + 149).toNat, fUF))) ∧
       (∀ k : Int, g = 1 → v.val = (2 : ℚ) ^ k → (readFloat fp32 false r.1).val = k ∧ r.2 = 0) ∧
       (∀ k : Int, g = 2 → |v.val| = (2 : ℚ) ^ k → -127 ≤ k → k ≤ 126 → r = ((if n then 2 ^ 31 else 0) + (127 - k).toNat * 2 ^ 23, 0)) ∧
       (∀ k : Int, g = 3 → v.val = (2 : ℚ) ^ (2 * k) → r = ((127 - k).toNat * 2 ^ 23, 0)) ∧
       (sfuSpecial g v = none →
         (fp32.mag fp32.maxBits < |y| → r = ((if y < 0 then 2 ^ 31 else 0) + 0x7F800000, fOF ||| fNX)) ∧
         (|y| ≤ fp32.mag fp32.maxBits → ∃ w : Nat, w < 2 ^ 32 ∧
           |(readFloat fp32 false w).val - y| ≤ bound * (2 : ℚ) ^ (max (Int.log 2 |y|) (-126) - 23) ∧
           r = flush fp32 fz (w, fNX ||| (if w % 2 ^ 31 < 2 ^ 23 then fUF else 0)))))) ∧
  (∀ (g ty x : Nat) (fz : Bool), ty = 1 ∨ ty = 2 →
     let v := readFloat (fmtOf ty) fz x
     let p := sfu32 g fz (deliver fp32 0 false v).1
     let q := flush (fmtOf ty) fz (deliver (fmtOf ty) 0 false (readFloat fp32 false p.1))
     sfuElem g ty fz x = (q.1, q.2 ||| p.2 ||| (if v.isSnan then fNV else 0)))

/-- R206 and R207: compares write one predicate bit per active lane and keep the others; predicate logic acts on all 32 bits; a
write of p0 is discarded; the moves between s-registers and predicates take the low 32 bits. R208 and R212: moves, selects and permutes
of whole lanes: every source lane is read before any lane is written; a stream move pops one element whatever the predicate, and blocks
while the stream is empty. -/
def Obligations.PredicateLaneResults : Prop :=
  (∀ (f : VR) (s : State),
     let act := s.me.getP f.pg.toNat
     let n := f.vd.toNat % 8
     let a (i : Nat) : Nat := elemOf 32 (s.me.getV f.va.toNat) i 0
     let b (i : Nat) : Nat := vbElem s.me f 32 i 0
     let code := f.sub.toNat
     let pa := s.me.getP (f.va.toNat % 8)
     let pb := s.me.getP (f.vb.toNat % 8)
     let pred (r : Result) (g : Nat → Bool) : Prop := ∃ v : BitVec 32, r = .next (s.stepped .c (fun c => c.setP n v)) ∧
       ∀ i, i < 32 → v.getLsbD i = g i
     (ready { k := .c, refs := [.v f.va.toNat allLanes, vbRef f] } s = true →
       (∃ (v : BitVec 32) (x : Flags), exec (.vcmp f) s = .next (s.stepped .c (fun c => { c.setP n v with fpst := c.fpst.accrue x })) ∧
         x = 0 ∧ ∀ i, i < 32 → v.getLsbD i = if act.getLsbD i then decide (
           (code = 0 ∧ a i = b i) ∨ (code = 1 ∧ a i ≠ b i) ∨ (code = 2 ∧ signedOf 32 (a i) < signedOf 32 (b i)) ∨
           (code = 3 ∧ signedOf 32 (a i) ≤ signedOf 32 (b i)) ∨ (code = 4 ∧ signedOf 32 (b i) < signedOf 32 (a i)) ∨
           (code = 5 ∧ signedOf 32 (b i) ≤ signedOf 32 (a i)) ∨ (code = 6 ∧ a i < b i) ∨ (7 ≤ code ∧ a i ≤ b i))
           else (s.me.getP n).getLsbD i) ∧
       (∃ (v : BitVec 32) (x : Flags), exec (.vfcmp f) s = .next (s.stepped .c (fun c => { c.setP n v with fpst := c.fpst.accrue x })) ∧
         (∀ i, i < 32 → v.getLsbD i = if act.getLsbD i then (fCompare s.me.fpst.fz code (a i) (b i)).1 else (s.me.getP n).getLsbD i) ∧
         (∀ k, k < 5 → (x.getLsbD k = true ↔ ∃ i, i < 32 ∧ act.getLsbD i = true ∧
           (fCompare s.me.fpst.fz code (a i) (b i)).2.getLsbD k = true)))) ∧
     (ready { k := .c } s = true →
       pred (exec (.pand f) s) (fun i => pa.getLsbD i && pb.getLsbD i) ∧ pred (exec (.por f) s) (fun i => pa.getLsbD i || pb.getLsbD i) ∧
       pred (exec (.pxor f) s) (fun i => pa.getLsbD i != pb.getLsbD i) ∧ pred (exec (.pnot f) s) (fun i => !pa.getLsbD i)) ∧
     (ready { k := .c, refs := [.s (f.vb.toNat % 64)] } s = true →
       pred (exec (.pmovs f) s) (fun i => (s.me.getS (f.vb.toNat % 64)).getLsbD i)) ∧
     (ready { k := .c, refs := [.s (f.vd.toNat % 64)] } s = true →
       exec (.smovp f) s = .next (s.stepped .c (fun c => c.setS (f.vd.toNat % 64) (BitVec.ofNat 64 pa.toNat))))) ∧
  (∀ (f : VR) (s : State),
     let act := s.me.getP f.pg.toNat
     let k := f.vc.toNat % 32
     let a (i : Nat) : Nat := elemOf 32 (s.me.getV f.va.toNat) i 0
     let b (i : Nat) : Nat := vbElem s.me f 32 i 0
     let vb (i : Nat) : Nat := elemOf 32 (s.me.getV f.vb.toNat) i 0
     let c (i : Nat) : Nat := elemOf 32 (s.me.getV f.vc.toNat) i 0
     let gives (r : Result) (g : Nat → Nat) : Prop := gaveV s f.vd 32 act (fun i _ => g i) r
     (ready (vrForm f s [.v f.va.toNat allLanes, vbRef f]) s = true →
       gives (exec (.vsel f) s) (fun i => if (s.me.getP (f.vc.toNat % 8)).getLsbD i then a i else b i)) ∧
     (ready (vrForm f s [.v f.va.toNat allLanes]) s = true →
       gives (exec (.vmov f) s) a ∧ gives (exec (.vbcl f) s) (fun _ => a k)) ∧
     (ready (vrForm f s [.v f.va.toNat allLanes, vbRef f, .v f.vc.toNat allLanes]) s = true →
       gives (exec (.vperm f) s) (fun i => if b i % 64 < 32 then a (b i % 64) else c (b i % 64 - 32))) ∧
     (ready (vrForm f s [.v f.va.toNat allLanes, .v f.vb.toNat allLanes]) s = true →
       (f.sub = 0 → gives (exec (.vslide f) s) (fun i => if i + k < 32 then a (i + k) else vb (i + k - 32))) ∧
       (f.sub = 1 → gives (exec (.vslide f) s) (fun i => if k ≤ i then a (i - k) else vb (32 + i - k)))) ∧
     (ready { k := .c, refs := [.s (f.vd.toNat % 64), .v f.va.toNat allLanes] } s = true →
       exec (.vmvs f) s = .next (s.stepped .c (fun c => c.setS (f.vd.toNat % 64) (BitVec.ofInt 64 (signedOf 32 (a k)))))) ∧
     (ready { k := .c, refs := [.s (f.vb.toNat % 64), .v f.vd.toNat (BitVec.ofNat 32 (2 ^ k))] } s = true →
       gaveV s f.vd 32 (BitVec.ofNat 32 (2 ^ k)) (fun _ _ => (s.me.getS (f.vb.toNat % 64)).toNat) (exec (.vmvl f) s)) ∧
     (ready { vrForm f s [] with effect := true, access := true } s = true →
       ((s.me.stream (f.va.toNat % 16)).elems = [] → exec (.vmovStream f) s = blocked s .c (.stream (f.va.toNat % 16))) ∧
       (∀ e es, (s.me.stream (f.va.toNat % 16)).elems = e :: es → ∃ v : Vec,
         exec (.vmovStream f) s = .next (s.stepped .c (fun c =>
           (c.setStream (f.va.toNat % 16) { s.me.stream (f.va.toNat % 16) with elems := es }).setV f.vd.toNat v)) ∧
         ∀ i, i < 32 → elemOf 32 v i 0 = if act.getLsbD i then elemOf 32 e.data i 0 else elemOf 32 (s.me.getV f.vd.toNat) i 0)))

/-- R94: the reference values of the special functions, taken by the model in fixed point, lie within 2^−150 of the functions themselves
relative to their size; far below the smallest FP32 number the distance is absolute, and 2^x beyond 2^400 is at least 2^390. -/
def Obligations.SpecialFunctionReference : Prop :=
  ∀ (g : Nat) (n : Bool) (m : Nat) (e : Int), g < 6 → m ≠ 0 → m < 2 ^ 24 → -149 ≤ e → e ≤ 104 → (g = 1 ∨ g = 3 → n = false) →
    let x : ℝ := ((Machine.Num.fin n m e).val : ℝ)
    let y : ℝ := match g with
      | 0 => (2 : ℝ) ^ x
      | 1 => Real.logb 2 x
      | 2 => 1 / x
      | 3 => 1 / Real.sqrt x
      | 4 => Real.tanh x
      | _ => 1 / (1 + Real.exp (-x))
    let r : ℝ := ((sfuRef g n m e).val : ℝ)
    (g = 0 → 400 < x → (2 : ℝ) ^ (390 : Int) ≤ r) ∧ (g ≠ 0 ∨ x ≤ 400 → |r - y| ≤ (2 : ℝ) ^ (-150 : Int) * |y| + (2 : ℝ) ^ (-390 : Int))

/-- R210 and R211: conversion between element types in quarters or halves of a lane, and packing to and from single bits and
nibbles. Elements that an instruction does not name keep their value. R88: what each conversion gives, for every pair of types; the rows
that the rule does not have are the model's (log entries 8 and 102). R89: the A strand and the layout unit convert to nearest-even with
saturation and no flags, an E8 scale multiplied in first. -/
def Obligations.ConversionResults : Prop :=
  (∀ (f : VR) (s : State),
     let act := s.me.getP f.pg.toNat
     let src := f.vc.toNat / 64
     let dst := f.vc.toNat / 4 % 16
     let q := f.vc.toNat % 4
     let ws := regWidth src
     let wd := regWidth dst
     let rm := if f.rm = 7 then s.me.fpst.rm.toNat else f.rm.toNat
     let a (w i j : Nat) : Nat := elemOf w (s.me.getV f.va.toNat) i j
     let d (w i j : Nat) : Nat := elemOf w (s.me.getV f.vd.toNat) i j
     let conv (x : Nat) : Nat × Flags := convert src dst rm (f.sat = 1) s.me.fpst.fz x
     let k := f.vc.toNat % 8
     (ready (vrForm f s [.v f.va.toNat allLanes]) s = true →
       (src ≤ 13 → dst ≤ 11 → dst ≠ 9 → wd ≤ ws → q < ws / wd →
         gaveVF s f.vd wd act (fun i j => if q * (32 / ws) ≤ j ∧ j < (q + 1) * (32 / ws) then conv (a ws i (j - q * (32 / ws)))
           else (d wd i j, 0)) (exec (.vcvt f) s)) ∧
       (src ≤ 13 → dst ≤ 11 → dst ≠ 9 → ws < wd → q < wd / ws →
         gaveVF s f.vd wd act (fun i j => conv (a ws i (q * (32 / wd) + j))) (exec (.vcvt f) s)) ∧
       (f.sub = 0 → gaveV s f.vd 1 act (fun i j => if 4 * k ≤ j ∧ j < 4 * k + 4 then (if 0 < signedOf 8 (a 8 i (j - 4 * k)) then 1 else 0)
           else d 1 i j) (exec (.vpack f) s)) ∧
       (f.sub = 1 → k < 2 → gaveV s f.vd 4 act (fun i j => if 4 * k ≤ j ∧ j < 4 * k + 4 then
           ((if f.sat = 1 then max (-8) (min (signedOf 8 (a 8 i (j - 4 * k))) 7) else signedOf 8 (a 8 i (j - 4 * k))) % 16).toNat
           else d 4 i j) (exec (.vpack f) s)) ∧
       (f.sub = 0 → gaveV s f.vd 8 act (fun i j => a 1 i (4 * k + j)) (exec (.vunpk f) s)) ∧
       (f.sub = 1 → k < 2 → gaveV s f.vd 8 act (fun i j => (signedOf 4 (a 4 i (4 * k + j)) % 256).toNat) (exec (.vunpk f) s)))) ∧
  (∀ (src dst rm : Nat) (sat fz : Bool) (x : Nat), src ≤ 13 → rm ≤ 4 →
     let v := readNum src fz x
     let F := fmtOf dst
     let r := convert src dst rm sat fz x
     let signals := v.isSnan || (decide (src = 13) && v.isNan)
     let lo := (intRange dst).1
     let hi := (intRange dst).2
     let keeps (i : Int) : Nat := (i % 2 ^ intBits dst).toNat
     (dst ≤ 4 →
       (v.isNan = true → r = (F.nanBits, if signals then fNV else 0)) ∧
       (∀ n, v = .inf n → r = if sat = true ∧ holdsAll src dst = false then (F.signed n F.maxBits, fOF ||| fNX)
         else if F.hasInf then (F.signed n F.infBits, 0) else if sat then (F.signed n F.maxBits, fOF ||| fNX) else (F.nanBits, fNV)) ∧
       (∀ n m e, v = .fin n m e → (m = 0 → r = (F.signed n 0, 0)) ∧ (m ≠ 0 → F.delivers rm sat fz n |v.val| r))) ∧
     (dst = 10 →
       (v.isNan = true → r = (0, fNV)) ∧ (∀ n, v = .inf n → r = (if n then 63 else 31, fOF)) ∧
       (∀ n m e, v = .fin n m e →
         let sign := if n then 32 else 0
         let big (k : Int) : Prop := (2 : ℚ) ^ (2 * k - 33) < v.val ^ 8
         (m = 0 → r = (sign, 0)) ∧ (m ≠ 0 → ¬big 1 → r = (sign, fUF ||| fNX)) ∧ (big 32 → r = (sign + 31, fOF ||| fNX)) ∧
         (∀ k : Nat, 1 ≤ k → k ≤ 31 → big k → ¬big (k + 1) → r = (sign + k, if (lnsValue (sign + k)).val = v.val then 0 else fNX)))) ∧
     (dst = 12 → (v.isNan = true → r = (0, fNV)) ∧ (∀ n, v = .inf n → r = (if n then 0 else 1, 0)) ∧
       (∀ n m e, v = .fin n m e → r = (if 0 < v.val then 1 else 0, 0))) ∧
     (dst ∈ [5, 6, 7, 8, 9, 11] → isIntType src = true →
       let i := readInt src x
       r = (keeps (if dst = 11 ∨ (sat = true ∧ intBits dst ≤ intBits src) then max lo (min i hi) else i), 0)) ∧
     (dst ∈ [5, 6, 7, 8, 9, 11] → isIntType src = false →
       (v.isNan = true → r = (0, fNV)) ∧ (∀ n, v = .inf n → r = (keeps (if n then lo else hi), fNV)) ∧
       (∀ n m e, v = .fin n m e →
         let k : Nat := ⌊|v.val|⌋₊
         let up := roundsUp rm n (decide (k % 2 = 1)) k (k + 1) |v.val|
         ∃ j : Nat, (up → j = k + 1) ∧ (¬up → j = k) ∧
           let i : Int := if n then -(j : Int) else j
           r = (keeps (max lo (min i hi)), if i < lo ∨ hi < i then fNV else if (k : ℚ) = |v.val| then 0 else fNX)))) ∧
  (∀ (src dst x g : Nat), streamConvert src dst none x = (convert src dst 0 true false x).1 ∧
     (∀ n m e, readNum src false x = .fin n m e → m ≠ 0 → dst ≤ 4 → ∃ fl,
       (fmtOf dst).rounds 0 true n (|(readNum src false x).val| * (2 : ℚ) ^ ((g : Int) - 127)) (streamConvert src dst (some g) x, fl)))

/-- R95, R96, R213 and R214: a reduction is the root of the fixed pairwise tree over the lanes, an inactive lane giving the
identity, and a scan combines the tree's nodes that cover the prefix from the lowest lanes up. The integer sums and the bitwise
forms are therefore those of the active lanes. A node combines its two nodes element by element, by one rounded operation of the
instruction's kind, and ORs the flags. -/
def Obligations.ReductionResults : Prop :=
  (∀ (f : VR) (s : State),
     let w := regWidth f.ty.toNat
     let act := s.me.getP f.pg.toNat
     let rm := if f.rm = 7 then s.me.fpst.rm.toNat else f.rm.toNat
     let op := foldNode f rm s.me.fpst.fz
     let x (i j : Nat) : Nat := elemOf w (s.me.getV f.va.toNat) i j
     let leaf (i : Nat) : Node := (if act.getLsbD i then elemOf 32 (s.me.getV f.va.toNat) i 0 else fill w (foldIdentity f), 0)
     let up (i : Nat) : Node := match prefixNodes op leaf 5 0 (i + 1) with | [] => (0, 0) | n :: ns => ns.foldl op n
     (ready { k := .c, refs := [.v f.vd.toNat 1, .v f.va.toNat allLanes] } s = true →
       (∃ v : Vec, exec (.vred f) s = .next (s.stepped .c (fun c =>
           { c.setV f.vd.toNat v with fpst := c.fpst.accrue (treeNode op leaf 5 0).2 })) ∧
         (∀ i, i < 32 → elemOf 32 v i 0 = if i = 0 then (treeNode op leaf 5 0).1 % 2 ^ 32 else elemOf 32 (s.me.getV f.vd.toNat) i 0) ∧
         (∀ j, j < 32 / w → 5 ≤ f.ty.toNat → f.sub = 0 → f.sat = 0 →
           elemOf w v 0 j = ((List.range 32).map (fun i => if act.getLsbD i then x i j else 0)).sum % 2 ^ w) ∧
         (∀ j, j < 32 / w → 5 ≤ f.ty.toNat → f.sub = 4 →
           elemOf w v 0 j = (List.range 32).foldl (fun n i => if act.getLsbD i then n ||| x i j else n) 0))) ∧
     (ready (vrForm f s [.v f.va.toNat allLanes]) s = true →
       ∃ (v : Vec) (fl : Flags), exec (.vscan f) s = .next (s.stepped .c (fun c => { c.setV f.vd.toNat v with fpst := c.fpst.accrue fl })) ∧
         (∀ i, i < 32 → elemOf 32 v i 0 = if act.getLsbD i then (up i).1 % 2 ^ 32 else elemOf 32 (s.me.getV f.vd.toNat) i 0) ∧
         (∀ k, k < 5 → (fl.getLsbD k = true ↔ ∃ i, i < 32 ∧ act.getLsbD i = true ∧ (up i).2.getLsbD k = true)) ∧
         (∀ i j, i < 32 → j < 32 / w → 5 ≤ f.ty.toNat → f.sub = 0 → f.sat = 0 → act.getLsbD i = true →
           elemOf w v i j = ((List.range (i + 1)).map (fun h => if act.getLsbD h then x h j else 0)).sum % 2 ^ w))) ∧
  (∀ (f : VR) (rm : Nat) (fz : Bool) (x y : Node), x.1 < 2 ^ 32 → y.1 < 2 ^ 32 →
     let w := regWidth f.ty.toNat
     let F := fmtOf f.ty.toNat
     let n := foldNode f rm fz x y
     let a (j : Nat) : Nat := x.1 / 2 ^ (w * j) % 2 ^ w
     let b (j : Nat) : Nat := y.1 / 2 ^ (w * j) % 2 ^ w
     let e (j : Nat) : Nat := n.1 / 2 ^ (w * j) % 2 ^ w
     let sa (j : Nat) : Int := signedOf w (a j)
     let sb (j : Nat) : Int := signedOf w (b j)
     let one (j : Nat) : Nat × Flags := if f.sub = 0 then fAdd F rm fz (a j) (b j) else fPick F (decide (f.sub ≠ 1)) fz (a j) (b j)
     let cut (i : Int) : Int := if f.sat = 1 then max (-(2 ^ (w - 1))) (min i (2 ^ (w - 1) - 1)) else i
     n.1 < 2 ^ 32 ∧
     (f.ty.toNat ≤ 2 → (∀ j, j < 32 / w → e j = (one j).1) ∧
       (∀ k, k < 5 → (n.2.getLsbD k = true ↔ x.2.getLsbD k = true ∨ y.2.getLsbD k = true ∨ ∃ j, j < 32 / w ∧ (one j).2.getLsbD k = true))) ∧
     (3 ≤ f.ty.toNat → n.2 = x.2 ||| y.2 ∧ ∀ j, j < 32 / w →
       (f.sub = 0 → e j = (cut (sa j + sb j) % 2 ^ w).toNat) ∧ (f.sub = 1 → signedOf w (e j) = min (sa j) (sb j)) ∧
       (f.sub = 2 → signedOf w (e j) = max (sa j) (sb j)) ∧ (f.sub = 3 → e j = a j &&& b j) ∧ (f.sub = 4 → e j = a j ||| b j) ∧
       (f.sub = 5 → e j = a j ^^^ b j)))

/-! ### C strand: tiles and the accumulator store (R215 to R219) -/

/-- R215 and R216: TRD reads a row of a full tile, TWR writes the active lanes of a row of an empty one, TSETF and TREL set and
clear the full bit once the earlier accesses are performed; a tile in the other state blocks, but TREL of an empty tile has no
effect. A poisoned unit of an active lane is consumed (R413): no register is written, and the task's fault of cause 0x2C names it. -/
def Obligations.TileResults : Prop :=
  ∀ (f : VR) (s : State),
    let act := s.me.getP f.pg.toNat
    let row := (if f.bs = 1 then (s.me.getS (f.vb.toNat % 64)).toNat else f.vc.toNat) % 32
    let srcs : List Ref := if f.bs = 1 then [.s (f.vb.toNat % 64)] else []
    let word (t : Tile) (r i : Nat) : Nat := t.data.toNat / 2 ^ (1024 * r + 32 * i) % 2 ^ 32
    let ta := s.me.tile (f.va.toNat % 16)
    let n := f.vd.toNat % 16
    let td := s.me.tile n
    (ready { vrForm f s srcs with effect := true, access := true } s = true →
      (ta.full = false → exec (.trd f) s = blocked s .c (.tile (f.va.toNat % 16))) ∧
      (ta.full = true → (∀ i, i < 32 → act.getLsbD i = true → 16 * row + i / 2 ∉ ta.poison) →
        gaveV s f.vd 32 act (fun i _ => word ta row i) (exec (.trd f) s)) ∧
      (∀ i, ta.full = true → i < 32 → act.getLsbD i = true → 16 * row + i / 2 ∈ ta.poison →
        (∀ j, j < i → act.getLsbD j = true → 16 * row + j / 2 ∉ ta.poison) → exec (.trd f) s = .next (s.taskFault s.cur .c false 0x2C (s.me.strand .c).pc
          (BitVec.ofNat 64 (15 * 2 ^ 60 + s.cur * 2 ^ 32 + f.va.toNat % 16 * 4096 + 8 * (16 * row + i / 2))) 5))) ∧
    (ready { k := .c, refs := .v f.va.toNat allLanes :: srcs, effect := true, access := true } s = true →
      (td.full = true → exec (.twr f) s = blocked s .c (.tile n)) ∧
      (td.full = false → ∃ t : Tile, exec (.twr f) s = .next (s.stepped .c (fun c => c.setTile n t)) ∧ t.full = false ∧
        (∀ r i, r < 32 → i < 32 → word t r i =
          if r = row ∧ act.getLsbD i = true then elemOf 32 (s.me.getV f.va.toNat) i 0 else word td r i) ∧
        (∀ u, u ∈ t.poison ↔ u ∈ td.poison ∧ ¬(u / 16 = row ∧ act.getLsbD (2 * (u % 16)) = true ∧ act.getLsbD (2 * (u % 16) + 1) = true)))) ∧
    (ready { k := .c, effect := true, release := true } s = true →
      (td.full = true → exec (.tsetf f) s = blocked s .c (.tile n)) ∧
      (td.full = false → exec (.tsetf f) s = .next (s.stepped .c (fun c => c.setTile n { td with full := true })))) ∧
    (ready { k := .c, effect := true } s = true →
      (td.full = false → exec (.trel f) s = passed s .c) ∧
      (td.full = true → s.settled .c 0 = true → exec (.trel f) s = .next (s.stepped .c (fun c => c.setTile n { td with full := false }))) ∧
      (td.full = true → s.settled .c 0 = false → exec (.trel f) s = blocked s .c .other))

/-- R218: the accumulator instructions read, write and clear words of the issuing core's own store, and no other byte of memory; a
range past the last word traps with the word index. A poisoned unit of an active word is consumed (R413). -/
def Obligations.AccumulatorResults : Prop :=
  ∀ (f : VR) (s : State), s.cur < 768 →
    let act := s.me.getP f.pg.toNat
    let idx := (s.me.getS (f.vb.toNat % 64)).toNat % 2 ^ 20
    let a := idx + 32 * f.vc.toNat
    let n := 32 * (f.vc.toNat + 1)
    let at' (x k : Nat) : Prop := accAt s.cur k ≤ memKey x ∧ memKey x < accAt s.cur k + 4
    let kept (t : State) : Prop := t.cores = (s.onMe (fun c => c.onStrand .c (Strand.advance .c))).cores ∧
      t = { s with cores := t.cores, mem := t.mem, poison := t.poison, past := t.past }
    (ready { vrForm f s [.s (f.vb.toNat % 64)] with effect := true, access := true } s = true →
      (786432 < a + 32 → exec (.accrd f) s = trapped s .c 0x27 (BitVec.ofNat 64 a) 0) ∧
      (a + 32 ≤ 786432 → (∀ i, i < 32 → act.getLsbD i = true → ∀ b, b < 4 → s.poisoned (accAt s.cur (a + i) + b) = false) →
        gaveV s f.vd 32 act (fun i _ => (s.acc s.cur (a + i)).toNat) (exec (.accrd f) s)) ∧
      (∀ i b, a + 32 ≤ 786432 → i < 32 → act.getLsbD i = true → b < 4 → s.poisoned (accAt s.cur (a + i) + b) = true →
        (∀ j c, 4 * j + c < 4 * i + b → c < 4 → act.getLsbD j = true → s.poisoned (accAt s.cur (a + j) + c) = false) → exec (.accrd f) s =
          .next (s.taskFault s.cur .c false 0x2C (s.me.strand .c).pc (BitVec.ofNat 64 (s.unitAddr (accAt s.cur (a + i) + b))) 1))) ∧
    (ready { k := .c, refs := [.s (f.vb.toNat % 64), .v f.va.toNat allLanes], effect := true, access := true } s = true →
      (786432 < a + 32 → exec (.accwr f) s = trapped s .c 0x27 (BitVec.ofNat 64 a) 0) ∧
      (a + 32 ≤ 786432 → ∃ t, exec (.accwr f) s = .next t ∧ kept t ∧
        (∀ i, i < 32 → t.acc s.cur (a + i) =
          if act.getLsbD i then BitVec.ofNat 32 (elemOf 32 (s.me.getV f.va.toNat) i 0) else s.acc s.cur (a + i)) ∧
        (∀ x, (∀ i, i < 32 → act.getLsbD i = true → ¬at' x (a + i)) → t.byte x = s.byte x))) ∧
    (ready { k := .c, refs := [.s (f.vb.toNat % 64)], effect := true, access := true } s = true →
      (786432 < idx + n → exec (.accz f) s = trapped s .c 0x27 (BitVec.ofNat 64 idx) 0) ∧
      (idx + n ≤ 786432 → ∃ t, exec (.accz f) s = .next t ∧ kept t ∧ (∀ i, i < n → t.acc s.cur (idx + i) = 0) ∧
        (∀ x, (∀ i, i < n → ¬at' x (idx + i)) → t.byte x = s.byte x)))

/-! ### C strand: loads, stores and atomics at issue (R51, R52, R220 to R231) -/

/-- R51 and R52: what a vault space address names. A reserved field, a local core of 96 or more or an absent core is an address form
fault, a peer that serves no task of the context a protection fault, a misaligned or overrunning access an alignment fault;
otherwise the bytes of that core's vault, in order. -/
def Obligations.VaultAddressing : Prop :=
  ∀ (s : State) (g ctx align : Nat) (a : Word) (offs : List Nat), tensorOf a = 0 → g < 768 →
    let kind := a.toNat / 2 ^ 29
    let h := g / 96 * 96 + a.toNat / 2 ^ 22 % 128
    let o := a.toNat % 2 ^ 22
    let r := s.check g ctx a align align offs .load
    let form := kind ≠ 0 ∨ 96 ≤ a.toNat / 2 ^ 22 % 128 ∨ (s.core h).present = false
    let barred := h ≠ g ∧ (s.core h).serves ctx = false
    let misplaced := a.toNat % align ≠ 0 ∨ ∃ x ∈ offs, 2 ^ 22 ≤ o + x
    (form → r = .fault 0x20 a) ∧ (¬form → barred → r = .fault 0x21 a) ∧ (¬form → ¬barred → misplaced → r = .fault 0x22 a) ∧
    (¬form → ¬barred → ¬misplaced → ∃ t, r = .ok t ∧ t.route = .plain ∧ t.unit = 8 ∧
      t.addrs = offs.map (fun x => 4 * 2 ^ 48 + h / 96 * 2 ^ 29 + h % 96 * 2 ^ 22 + (o + x)))

/-- R220 and R223: LDS and STS issue one access of their width at EA once it translates, a store with the low bytes of its register;
.SL, host memory and registers seal; a failed check traps, a page not resident blocks until the pager has it. -/
def Obligations.ScalarLoadStoreIssue : Prop :=
  ∀ (f : MV) (s : State), ready (mvForm f [.s f.base.toNat, .s (f.reg.toNat % 64)]) s = true →
    let a := s.me.getS f.base.toNat + BitVec.ofInt 64 f.off.toInt
    let r := f.reg.toNat % 64
    let n := 2 ^ f.wd.toNat
    let loads := s.check s.cur s.myCtx a n n (span 0 n) .load
    let stores := s.check s.cur s.myCtx a n n (span 0 n) .store
    (∀ t, loads = .ok t → exec (.lds f) s = gaveAccess s .c { t.access a with kind := .load, dest := .s r, slot := f.set.toNat }) ∧
    (∀ c x, loads = .fault c x → exec (.lds f) s = trapped s .c c x 0) ∧
    (∀ t p, loads = .pageIn t p → exec (.lds f) s = blocked (s.requestPage (s.asker .c) s.myCtx t p) .c (.pageIn s.myCtx t p)) ∧
    (∀ t, stores = .ok t →
      let x := { t.access a with kind := .store (leBytes n (s.me.getS r).toNat), slot := f.set.toNat }
      let seals := f.reg.getLsbD 9 = true ∨ (t.virtual = true ∧ (t.space = 2 ∨ t.space = 6))
      (¬seals → exec (.sts f) s = gaveAccess s .c x) ∧
      (seals → exec (.sts f) s = .next ((s.onMe Core.seal).stepped .c (Core.issueAccess .c s.keystoneTime x)))) ∧
    (∀ c x, stores = .fault c x → exec (.sts f) s = trapped s .c c x 0)

/-- R220, R221 and R401: the vector loads and stores check every active lane in ascending order before any is performed, and a fault names
its lane and the lane's address. The accesses that then issue together carry exactly the checked addresses and the active lanes, in ascending order, and a store the lanes' bytes. -/
def Obligations.VectorLoadStoreIssue : Prop :=
  ∀ (f : MV) (s : State),
    let act := s.me.getP f.pg.toNat
    let lanes := (List.range 32).filter (fun i => act.getLsbD i)
    let v := s.me.getV f.reg.toNat
    let a := s.me.getS f.base.toNat + BitVec.ofInt 64 f.off.toInt
    let ix := f.off.toNat / 2 ^ 12
    let n := 4 / 2 ^ f.wd.toNat
    let at' (i : Nat) : Word := s.me.getS f.base.toNat + BitVec.ofInt 64 (signedOf 32 (elemOf 32 (s.me.getV ix) i 0))
    let flat (need : Need) (i : Nat) : Checked :=
      s.check s.cur s.myCtx a 16 128 (span (4 * i) 4) need (lanes.head?.map (fun j => 4 * j))
    let far (need : Need) (i : Nat) : Checked := s.check s.cur s.myCtx (at' i) n n (span 0 n) need
    let issued (r : Result) (t : Nat → Target) (z : State) (load : Bool) (bytes : Nat → List Byte) : Prop :=
      ∃ l : List Access, r = .next ((z.addAccesses .c l).onMe (fun c => c.onStrand .c (Strand.advance .c))) ∧
        (∀ x ∈ l, x.slot = f.set.toNat ∧ x.phase = .issued ∧ (load = true → x.kind = .load ∧ x.dest = .lanes f.reg.toNat x.lanes)) ∧
        l.flatMap Access.addrs = lanes.flatMap (fun i => (t i).addrs) ∧ (load = true → l.flatMap Access.lanes = lanes) ∧
        (load = false → l.flatMap Access.stored = lanes.flatMap bytes)
    let sealed (b : Bool) : State := if b then s.onMe Core.seal else s
    (ready (mvForm f [.s f.base.toNat, .v f.reg.toNat act]) s = true → ∀ t : Nat → Target,
      (∀ i ∈ lanes, flat .load i = .ok (t i)) → issued (exec (.ldv f) s) t s true (fun _ => [])) ∧
    (ready (mvForm f [.s f.base.toNat, .v f.reg.toNat allLanes]) s = true → ∀ t : Nat → Target,
      (∀ i ∈ lanes, flat .store i = .ok (t i)) →
      issued (exec (.stv f) s) t (sealed (decide (f.wd = 1) || lanes.any (fun i => (t i).outside))) false (fun i => leBytes 4 (elemOf 32 v i 0))) ∧
    (ready (mvForm f [.s f.base.toNat, .v ix allLanes, .v f.reg.toNat act]) s = true → ∀ t : Nat → Target,
      (∀ i ∈ lanes, far .load i = .ok (t i)) → issued (exec (.ldvx f) s) t s true (fun _ => [])) ∧
    (ready (mvForm f [.s f.base.toNat, .v ix allLanes, .v f.reg.toNat allLanes]) s = true → ∀ t : Nat → Target,
      (∀ i ∈ lanes, far .store i = .ok (t i)) →
      issued (exec (.stvx f) s) t (sealed (f.off.getLsbD 0 || lanes.any (fun i => (t i).outside))) false (fun i => leBytes n (elemOf 32 v i 0))) ∧
    (∀ i c x, ready (mvForm f [.s f.base.toNat, .v f.reg.toNat act]) s = true → i ∈ lanes → flat .load i = .fault c x →
      (∀ j ∈ lanes, j < i → ∃ t, flat .load j = .ok t) →
      exec (.ldv f) s = trapped s .c c (a + BitVec.ofNat 64 (4 * i)) (BitVec.ofNat 64 i))

/-- R226, R229, R231 and R42: AMOV and CASV seal and issue one atomic access with the operand at its type's width, the orders of the
order field and the destination pair of I128; the host's atomics need a requester that supports them; a QUA operand must be
positive. R227: the value that each operation stores over m with operand v, by type width. -/
def Obligations.AtomicIssue : Prop :=
  (∀ (f : SY) (s : State) (cas : Bool),
     let op := f.imm.toNat / 2 ^ 10
     let ty := f.imm.toNat / 2 ^ 7 % 8
     let order := f.imm.toNat / 2 ^ 4 % 8
     let use := f.imm.toNat / 2 % 8
     let n := if ty = 1 then 8 else if ty = 4 then 16 else 4
     let a := s.me.getS f.sa.toNat
     let word (r : Nat) : Nat := if ty = 4 then (s.me.getS r).toNat + (s.me.getS (r + 1)).toNat * 2 ^ 64 else (s.me.getS r).toNat % 2 ^ (8 * n)
     let i : Instr := if cas then .casv f else .amov f
     ready (syForm f (amovRefs f)) s = true → use ≠ 4 →
     (use = 3 → signedOf (8 * n) (word f.sb.toNat) ≤ 0 →
       exec i s = trapped s .c 0x0A a (if cas then 7 else 6)) ∧
     (∀ t, (use = 3 → 0 < signedOf (8 * n) (word f.sb.toNat)) →
       s.check s.cur s.myCtx a n n (span 0 n) (.atomic (!cas && decide (op = 10))) = .ok t →
       (t.virtual = true → t.space = 2 → s.host.requester = true ∧ hostAtomicOk op ty use cas = true) →
       ∃ x : Access, exec i s = .next ((s.onMe Core.seal).stepped .c (Core.issueAccess .c s.keystoneTime x)) ∧
         x.addrs = t.addrs ∧ x.unit = t.unit ∧ x.route = t.route ∧ x.slot = f.set.toNat ∧ x.phase = .issued ∧
         x.kind = .atomic op ty cas (BitVec.ofNat 128 (word f.sb.toNat)) (BitVec.ofNat 128 (word f.sd.toNat)) use ∧
         x.dest = (if f.sd = 0 then .none else if ty = 4 then .sPair f.sd.toNat else .s f.sd.toNat) ∧
         (x.acquire = true ↔ order = 1 ∨ order = 3) ∧ (x.release = true ↔ order = 2 ∨ order = 3)) ∧
     (∀ c x, (use = 3 → 0 < signedOf (8 * n) (word f.sb.toNat)) →
       s.check s.cur s.myCtx a n n (span 0 n) (.atomic (!cas && decide (op = 10))) = .fault c x → exec i s = trapped s .c c x 0)) ∧
  (∀ (ty m v : Nat), ty = 0 ∨ ty = 1 →
     let w := if ty = 1 then 64 else 32
     m < 2 ^ w → v < 2 ^ w →
     let r (op : Nat) : Nat := (atomicStored op ty m v).1
     r 0 = v ∧ r 1 = (m + v) % 2 ^ w ∧ (∀ i, (r 2).testBit i = (m.testBit i && v.testBit i)) ∧
     (∀ i, (r 3).testBit i = (m.testBit i || v.testBit i)) ∧ (∀ i, (r 4).testBit i = (m.testBit i != v.testBit i)) ∧
     signedOf w (r 5) = min (signedOf w m) (signedOf w v) ∧ signedOf w (r 6) = max (signedOf w m) (signedOf w v) ∧
     r 7 = min m v ∧ r 8 = max m v ∧ r 10 = m ∧ r 11 = v ∧ (∀ op, op ≠ 9 → r op < 2 ^ w))

/-! ### C strand: flags, waits, rings, barriers, lattice cells and fences (R232 to R245) -/

/-- R232 to R234: a flag instruction that returns nothing, on settled accesses: the sum or the new value, modulo 2^48, to the flag,
with the sends it triggers; one that returns the old value, or has earlier accesses to wait for, is an access of variable latency (R132;
AccessCompletion says how it ends); a change that R233 puts before one already made falls in a later ccy, before which the waiting
instructions are tested. FLWAIT blocks below the threshold and takes it off with .SUB; FLRD issues a reading; WAIT holds until its
slots clear and, with .TIME, until the die's TIME reaches s[sa]; TIDWAIT until the channel's TIDST reaches it. -/
def Obligations.FlagResults : Prop :=
  ∀ (f : SY) (s : State),
    let n := f.idx.toNat % 64
    let old := s.me.getF n
    let v := (s.me.getS f.sa.toNat + BitVec.ofInt 64 f.imm.toInt).setWidth 48
    let turn := s.me.flagTurn 2
    let wrote (x : BitVec 48) : Result := .next (s.stepped .c (fun _ => (turn.setF n x).fireTriggers))
    let later (set : Bool) : Result := gaveAccess s .c
      { id := 0, grp := 0, pc := 0, kind := .flag n set v, dest := if f.sd = 0 then .none else .s f.sd.toNat, slot := f.set.toNat,
        release := true, loose := true }
    let first := s.me.flagPending .c n = false ∧ s.me.acquiring .c = false
    (s.me.flagRank < 2 → turn = { s.me with flagRank := 2 }) ∧
    (∀ c : Core, c.triggers = [] → c.fireTriggers = c) ∧
    (ready (syForm f [.s f.sa.toNat, .s f.sd.toNat]) s = true →
      (s.settled .c 0 = true → f.sd = 0 → exec (.fladd f) s = wrote (turn.getF n + v) ∧ exec (.flset f) s = wrote v) ∧
      (s.settled .c 0 = false ∨ f.sd ≠ 0 → exec (.fladd f) s = later false ∧ exec (.flset f) s = later true) ∧
      (first → v.toNat ≤ old.toNat → exec (.flwait f) s = .next (s.stepped .c (fun c =>
        { (if f.opt.getLsbD 0 then c.setF n (old - v) else c).setS f.sd.toNat (old.setWidth 64) with flagRank := 6 }))) ∧
      (old.toNat < v.toNat → exec (.flwait f) s =
        blocked s .c (.flag n v.toNat (f.opt.getLsbD 0) (if f.sd = 0 then .none else .s f.sd.toNat))) ∧
      (let d := (s.me.channel (f.idx.toNat % 8)).tidst % 2 ^ 48
       let th := (s.me.getS f.sa.toNat).toNat % 2 ^ 48
       (th ≤ d → exec (.tidwait f) s = gaveS s f.sd (BitVec.ofNat 64 d)) ∧ (d < th → exec (.tidwait f) s = blocked s .c .other))) ∧
    (ready (syForm f [.s f.sd.toNat]) s = true → exec (.flrd f) s = gaveAccess s .c
      { id := 0, grp := 0, pc := 0, kind := .flagRead n,
        dest := if f.sd = 0 then .none else .s f.sd.toNat, slot := f.set.toNat, loose := true }) ∧
    (ready (syForm f [.s f.sa.toNat]) s = true →
      (f.opt.getLsbD 0 = false ∨ (s.me.getS f.sa.toNat).toNat ≤ (s.die (s.cur / 96)).time.toNat → exec (.wait f) s = passed s .c) ∧
      (f.opt.getLsbD 0 = true → (s.die (s.cur / 96)).time.toNat < (s.me.getS f.sa.toNat).toNat → exec (.wait f) s = blocked s .c .other))

/-- R236 and R237: RCLAIM claims the lowest free slot and returns its address, RPUB seals and publishes a slot that its task
claimed, RCONS frees the slot that its task took, RWFILL and RWFREE wait for a count and RINFO issues a reading of the ring; a ring
that the stage may not use so is a ring fault. -/
def Obligations.RingResults : Prop :=
  ∀ (f : SY) (s : State) (t : Task) (l : Launch) (r : Ring), s.me.task = some t → s.launch? t.launch = some l → l.id = t.launch →
    l.rings[f.idx.toNat]? = some r →
    let n := f.idx.toNat
    let count := 2 ^ r.logs
    let at' (i : Nat) : Word := r.area + BitVec.ofNat 64 (i * r.size)
    let set (s : State) (i : Nat) (x : SlotState) : State :=
      s.onLaunch l.id (fun l => l.onRing n (fun r => { r with slots := put .free r.slots i x }))
    let info := BitVec.ofNat 64 ((if r.closed then 2 ^ 63 else 0) + (count - r.slots.length) * 2 ^ 42 +
      (r.slots.filter (fun e => e.2 = .published)).length * 2 ^ 21 + r.slots.length)
    let bad (opcode : Nat) : Result := trapped s .c 0x0B (BitVec.ofNat 64 n) (BitVec.ofNat 64 opcode)
    (ready (syForm f [.s f.sd.toNat]) s = true → Sparse.wf .free r.slots = true →
      (r.producer ≠ t.stage → exec (.rclaim f) s = bad 0x18) ∧ (r.producer = t.stage → r.closed = true → exec (.rclaim f) s = bad 0x18) ∧
      (∀ i, r.producer = t.stage → r.closed = false → i < count → look .free r.slots i = .free → (∀ j, j < i → look .free r.slots j ≠ .free) →
        exec (.rclaim f) s = .next ((set s i (.claimed l.id t.stage t.tidx)).stepped .c (fun c => c.setS f.sd.toNat (at' i)))) ∧
      (r.producer = t.stage → r.closed = false → (∀ i, i < count → look .free r.slots i ≠ .free) →
        exec (.rclaim f) s = if f.opt.getLsbD 0 then gaveS s f.sd 0 else blocked s .c .other) ∧
      exec (.rinfo f) s = gaveAccess s .c
        { id := 0, grp := 0, pc := 0, kind := .ringInfo n,
          dest := if f.sd = 0 then .none else .s f.sd.toNat, slot := f.set.toNat, loose := true }) ∧
    (ready (syForm f [.s f.sa.toNat]) s = true → ∀ i, r.slotIndex (s.me.getS f.sa.toNat) = some i →
      (r.producer = t.stage → look .free r.slots i = .claimed l.id t.stage t.tidx → s.me.publishing n i = false →
        s.settled .c (s.ringScope t.ctx r) = true → exec (.rpub f) s = .next (((s.onMe Core.seal).onLaunch l.id (fun l => l.onRing n (fun r =>
          { r with slots := put .free r.slots i .published, order := r.order ++ [i] }))).onMe (fun c => c.onStrand .c (Strand.advance .c)))) ∧
      (r.consumer = t.stage → look .free r.slots i = .taken t.stage t.tidx → t.ringSlot = some (n, i) →
        exec (.rcons f) s = .next ((set s i .free).onMe (fun c => c.onStrand .c (Strand.advance .c)))) ∧
      (r.consumer ≠ t.stage → exec (.rcons f) s = bad 0x1C)) ∧
    (ready (syForm f [.s f.sa.toNat, .s f.sd.toNat]) s = true →
      let want := (s.me.getS f.sa.toNat).toNat + f.imm.toNat
      (want ≤ r.pub ∨ r.closed = true → exec (.rwfill f) s = gaveS s f.sd info) ∧
      (¬(want ≤ r.pub ∨ r.closed = true) → exec (.rwfill f) s = blocked s .c .other) ∧
      (want ≤ count - r.slots.length ∨ r.closed = true → exec (.rwfree f) s = gaveS s f.sd info) ∧
      (¬(want ≤ count - r.slots.length ∨ r.closed = true) → exec (.rwfree f) s = blocked s .c .other))

/-- R238, R132 and R39: an arrival records the issuer's rank and returns the episode, as an access of variable latency where a register
takes it or earlier accesses are pending; the arrival that completes the set passes the
episode in one step, and GBAR then goes on, else it waits; GWAIT goes on once its episode has passed; a task that is no member of a
Barrier takes a group fault. -/
def Obligations.BarrierResults : Prop :=
  ∀ (f : SY) (s : State) (t : Task), s.me.task = some t →
    let g := f.idx.toNat
    let e := s.episode t.launch g
    let told (r : Nat) : State := (s.onMe (fun c => c.setS f.sd.toNat (e.setWidth 64))).arrive t.launch g r none
    (s.rankIn t g 1 = none → ready (syForm f [.s f.sd.toNat]) s = true →
      exec (.garr f) s = trapped s .c 0x0C (BitVec.ofNat 64 g) 0x21 ∧ exec (.gbar f) s = trapped s .c 0x0C (BitVec.ofNat 64 g) 0x20) ∧
    (∀ r, s.rankIn t g 1 = some r →
      (ready (syForm f [.s f.sd.toNat]) s = true → s.settled .c (s.groupScope t.launch g) = true → f.sd = 0 →
        exec (.garr f) s = .next ((s.arrive t.launch g r none).onMe (fun c => c.onStrand .c (Strand.advance .c)))) ∧
      (ready (syForm f [.s f.sd.toNat]) s = true → s.settled .c (s.groupScope t.launch g) = false ∨ f.sd ≠ 0 → exec (.garr f) s = gaveAccess s .c
        { id := 0, grp := 0, pc := 0, kind := .arrive g, dest := if f.sd = 0 then .none else .s f.sd.toNat, slot := f.set.toNat,
          release := true, loose := true }) ∧
      (ready (syForm f [.s f.sd.toNat]) s = true → s.settled .c (s.groupScope t.launch g) = true →
        (s.me.strandC.hold = .fresh → after ((told r).episode t.launch g) e = true →
          exec (.gbar f) s = .next ((told r).onMe (fun c => c.onStrand .c (Strand.advance .c)))) ∧
        (s.me.strandC.hold = .fresh → after ((told r).episode t.launch g) e = false →
          exec (.gbar f) s = .next ((told r).onMe (fun c => c.onStrand .c (Strand.block (.arrived g e)))))) ∧
      (ready (syForm f [.s f.sd.toNat]) s = true → ∀ e', s.me.strandC.hold = .arrived g e' →
        (after e e' = true → exec (.gbar f) s = passed s .c) ∧ (after e e' = false → exec (.gbar f) s = blocked s .c (.arrived g e'))) ∧
      (ready (syForm f [.s f.sa.toNat]) s = true →
        (after e ((s.me.getS f.sa.toNat).setWidth 32) = true → exec (.gwait f) s = passed s .c) ∧
        (after e ((s.me.getS f.sa.toNat).setWidth 32) = false → exec (.gwait f) s = blocked s .c .other))) ∧
    (∀ (l r : Nat) (x : Launch) (gr : Group), s.launch? l = some x → x.group? g = some gr →
      let arrived := if gr.arrived.contains r then gr.arrived else gr.arrived ++ [r]
      (gr.members.length ≤ arrived.length → (s.arrive l g r none).episode l g = gr.episode + 1) ∧
      (arrived.length < gr.members.length → (s.arrive l g r none).episode l g = gr.episode))

/-- R240 to R242: a join issues one access with its operand, sealing for a GCNT cell; LLD issues one lattice load; LLDT completes at
once where the die's replica meets the threshold and else parks at the die and blocks C. -/
def Obligations.LatticeIssue : Prop :=
  ∀ (f : SY) (s : State) (t : Target),
    let a := s.me.getS f.sa.toNat
    let v := f.idx.toNat * 4 + f.sd.toNat / 16
    let low := (s.me.getV v).toNat % 2 ^ 256
    let b := (s.me.getS f.sb.toNat).toNat
    let d := match t.route with | .replica d _ => d | _ => s.cur / 96
    let order := f.imm.toNat / 2 ^ 4 % 8
    let join (x : Nat) : Access :=
      { t.access a with kind := .join t.lat (BitVec.ofNat 256 x) (s.cur / 96), slot := f.set.toNat, release := order = 2 }
    let joined (r : Result) (x : Nat) : Prop := (t.lat ≠ 6 → r = gaveAccess s .c (join x)) ∧
      (t.lat = 6 → r = .next ((s.onMe Core.seal).stepped .c (Core.issueAccess .c s.keystoneTime (join x))))
    let read (dest : Dest) : Access :=
      { t.access a with kind := .latticeLoad t.lat d, dest := dest, slot := f.set.toNat, acquire := order = 1 }
    let sd : Dest := if f.sd = 0 then .none else .s f.sd.toNat
    let clear := s.tableLost (t.addrs.headD 0) (cellBytes t.lat) = false ∧ s.me.task.all (fun k => !k.awaitExchange) = true ∧ s.me.loadHeld t.addrs = false ∧ f.opt.getLsbD 1 = false ∧
      s.me.strandC.hold = .fresh
    let held (c : Nat) : Prop := ∃ x, (s.die d).granule? (granuleOf (t.addrs.headD 0)) = some x ∧ x.poison = [] ∧
      granuleBits x.value (t.addrs.headD 0 % 64) (cellBytes t.lat) = c
    let done (r : Result) (dest : Dest) (th : Nat) : Prop :=
      (∀ c, held c → thresholdMet t.lat th c = true → r = .next (s.stepped .c (fun x => x.deliverTo dest 32 (cellValue t.lat c)))) ∧
      (∀ c, held c → thresholdMet t.lat th c = false → (s.die d).parked.length < 4096 → ∃ p : Parked,
        r = blocked (s.onDie d (fun x => { x with parked := x.parked ++ [p] })) .c .parked ∧ p.core = s.cur ∧ p.cell = t.addrs.headD 0 ∧
          p.lat = t.lat ∧ p.theta = BitVec.ofNat 256 th ∧ p.dest = dest ∧ (p.acquire = true ↔ order = 1))
    (s.checkLattice a .join false = .ok t → ready (syForm f [.s f.sa.toNat, .s f.sb.toNat]) s = true →
      joined (exec (.ljoin f) s) (if cellBytes t.lat = 8 then b else b % 2 ^ 32)) ∧
    (s.checkLattice a .join true = .ok t → ready (syForm f [.s f.sa.toNat, .v v 255]) s = true → joined (exec (.ljoinv f) s) low) ∧
    (s.checkLattice a (.latticeLoad false) false = .ok t → ready (syForm f [.s f.sa.toNat, .s f.sd.toNat]) s = true →
      exec (.lld f) s = gaveAccess s .c (read sd)) ∧
    (s.checkLattice a (.latticeLoad false) true = .ok t → ready (syForm f [.s f.sa.toNat, .v v 255]) s = true →
      exec (.lldV f) s = gaveAccess s .c (read (.lanes v (span 0 8)))) ∧
    (s.checkLattice a (.latticeLoad true) true = .ok t → ready (syForm f [.s f.sa.toNat, .v v 255]) s = true →
      clear → done (exec (.lldtV f) s) (.lanes v (span 0 8)) low) ∧
    (s.checkLattice a (.latticeLoad true) false = .ok t → ready (syForm f [.s f.sa.toNat, .s f.sb.toNat, .s f.sd.toNat]) s = true →
      clear → done (exec (.lldt f) s) sd (if cellBytes t.lat = 4 then b % 2 ^ 32 else b))

/-- R239 and R323: merges of two values of a cell are commutative, associative and idempotent for every lattice type, so that the
order of exchanges does not matter, and a merge never undoes a threshold that one of its values meets. -/
def Obligations.LatticeMergeLaws : Prop :=
  ∀ (lat x y z : Nat), 1 ≤ lat → lat ≤ 9 →
    let n := 2 ^ (8 * cellBytes lat)
    let usual (v : Nat) : Prop := v < n ∧ (lat = 9 → isNan32 v = false)
    usual x → usual y → usual z →
    mergeCell lat x y = mergeCell lat y x ∧ mergeCell lat (mergeCell lat x y) z = mergeCell lat x (mergeCell lat y z) ∧
    mergeCell lat x x = x ∧ mergeCell lat x y < n ∧
    (∀ th, usual th → thresholdMet lat th x = true → thresholdMet lat th (mergeCell lat x y) = true)

/-- R243 to R245: FENCE goes on when every earlier access is performed at its scope, and wider than DIE first asks for an immediate
exchange; QFENCE puts its entry at the tail of every named queue and of no other; EVSIG seals and makes its record a release. -/
def Obligations.FenceResults : Prop :=
  ∀ (f : SY) (s : State),
    (ready (syForm f []) s = true → (s.die (s.cur / 96)).qua = [] → s.me.strandC.hold = .fresh →
      let sc := f.opt.toNat
      let z : State := if 1 < sc then s.askExchange (s.cur / 96) else s
      (s.settled .c sc = true → exec (.fence f) s = passed z .c) ∧ (s.settled .c sc = false → exec (.fence f) s = blocked z .c .fenced)) ∧
    (ready (syForm f []) s = true →
      let qs := (List.range 13).filter (fun i => f.imm.getLsbD i)
      Core.fenceRoom s.me.nextId qs s.me = true → ∃ t, exec (.qfence f) s = .next t ∧
        t.me.fences = s.me.fences ++ [{ id := s.me.nextId, queues := qs, slot := f.set.toNat }] ∧
        t.me.tq = (if 0 ∈ qs then s.me.tq ++ [.fence s.me.nextId] else s.me.tq) ∧
        (∀ i, i < 8 → (t.me.channel i).queue = if i + 1 ∈ qs then (s.me.channel i).queue ++ [.fence s.me.nextId] else (s.me.channel i).queue) ∧
        t.me.sq = (if 9 ∈ qs then s.me.sq ++ [.fence s.me.nextId] else s.me.sq) ∧
        t.me.bq = (if 10 ∈ qs then s.me.bq ++ [.fence s.me.nextId] else s.me.bq) ∧
        t.me.mq = (if 11 ∈ qs then s.me.mq ++ [.fence s.me.nextId] else s.me.mq) ∧
        t.me.oq = (if 12 ∈ qs then s.me.oq ++ [.fence s.me.nextId] else s.me.oq) ∧
        t.me.sbC = s.me.sbC ||| slotBit f.set.toNat ∧ t.me.strandC = s.me.strandC.advance .c ∧ t.me.files = s.me.files ∧
        SameOthers s.cur s t ∧ SameOutside s t) ∧
    (ready (syForm f [.s f.sa.toNat]) s = true → ∃ x, exec (.evsig f) s = .next ((s.onMe Core.seal).stepped .c (Core.issueAccess .c s.keystoneTime x)) ∧
      x.kind = .event f.imm (s.me.getS f.sa.toNat) ∧ x.release = true ∧ x.slot = f.set.toNat ∧ x.addrs = [])


/-! ### A strand (R246 to R270) -/

/-- R248 and R152: every A arithmetic instruction writes its result, modulo 2^64, to a[ad] and completes in line. R249 and R185:
ABR, AJMP and ALOOP move the A strand by PC + 8 × off32 on its own loop stack; AEND ends the strand, drops its loop levels and
leaves every queued entry. -/
def Obligations.AccessRegisterResults : Prop :=
  ((∀ (f : AR) (s : State), ready (arForm f) s = true →
     let a := s.me.getA f.aa.toNat
     let b := s.me.getA f.ab.toNat
     let sh := b.toNat % 64
     let gives (r : Result) (v : Int) : Prop := r = gaveA s f.ad (BitVec.ofInt 64 v)
     let bits (r : Result) (g : Nat → Bool) : Prop := ∃ v : Word, r = gaveA s f.ad v ∧ ∀ i, i < 64 → v.getLsbD i = g i
     gives (exec (.aadd f) s) (a.toInt + b.toInt) ∧ gives (exec (.asub f) s) (a.toInt - b.toInt) ∧
     gives (exec (.amul f) s) (a.toInt * b.toInt) ∧ bits (exec (.aand f) s) (fun i => a.getLsbD i && b.getLsbD i) ∧
     bits (exec (.aor f) s) (fun i => a.getLsbD i || b.getLsbD i) ∧ bits (exec (.axor f) s) (fun i => a.getLsbD i != b.getLsbD i) ∧
     gives (exec (.ashl f) s) (a.toInt * 2 ^ sh) ∧ gives (exec (.ashr f) s) ((a.toNat / 2 ^ sh : Nat) : Int) ∧
     gives (exec (.amin f) s) ((min a.toNat b.toNat : Nat) : Int) ∧ gives (exec (.amax f) s) ((max a.toNat b.toNat : Nat) : Int)) ∧
   (∀ (f : AI) (s : State), ready (aiForm f) s = true →
     let gives (r : Result) (v : Int) : Prop := r = gaveA s f.ad (BitVec.ofInt 64 v)
     gives (exec (.aaddi f) s) ((s.me.getA f.aa.toNat).toInt + f.imm.toInt) ∧ gives (exec (.ali f) s) f.imm.toInt ∧
     gives (exec (.alih f) s) ((f.imm.toNat * 2 ^ 32 + (s.me.getA f.ad.toNat).toNat % 2 ^ 32 : Nat) : Int)) ∧
   (∀ (f : AB) (s : State), ready { k := .a } s = true → exec (.anop f) s = passed s .a)) ∧
  (∀ (f : AB) (s : State),
     let x := s.me.strandA
     let a := s.me.getA f.aa.toNat
     let b := s.me.getA f.ab.toNat
     let target := x.pc + BitVec.ofInt 64 (8 * f.off.toInt)
     let on (c : Prop) : Prop := (c → exec (.abr f) s = jumped s .a target) ∧ (¬c → exec (.abr f) s = passed s .a)
     let goes (r : Result) (pc : Word) (loops : List LoopLevel) : Prop :=
       r = .next (s.onMe (fun c => { c with strandA := { status := .running, pc := pc, loops := loops } }))
     (ready { abForm f with notLast := true } s = true →
       (f.cond = 0 → on True) ∧ (f.cond = 1 → on (a = b)) ∧ (f.cond = 2 → on (a ≠ b)) ∧ (f.cond = 3 → on (a.toInt < b.toInt)) ∧
       (f.cond = 4 → on (b.toInt ≤ a.toInt)) ∧ (f.cond = 5 → on (a.toNat < b.toNat)) ∧ (f.cond = 6 → on (b.toNat ≤ a.toNat))) ∧
     (ready { k := .a, notLast := true } s = true →
       exec (.ajmp f) s = jumped s .a target ∧
       (s.me.mwin.releases = [] → ∃ t, exec (.aend f) s = .next t ∧ t.me.strandA = { x with status := .ended, loops := [], hold := .fresh } ∧ t.me.tq = s.me.tq ∧
         t.me.sq = s.me.sq ∧ t.me.ch = s.me.ch ∧ t.me.files = s.me.files ∧ t.me.strandC = s.me.strandC ∧
         SameOthers s.cur s t ∧ SameOutside s t)) ∧
     (ready { k := .a, notLast := true, refs := [.a f.aa.toNat] } s = true →
       (a = 0 → goes (exec (.aloop f) s) (nextPc target x.loops).1 (nextPc target x.loops).2) ∧
       (a ≠ 0 → 4 ≤ x.loops.length → exec (.aloop f) s = trapped s .a 0x03 target (s.me.ldep .a)) ∧
       (a ≠ 0 → x.loops.length < 4 → (∀ l ∈ x.loops.head?, target.toNat ≤ l.stop.toNat) →
         goes (exec (.aloop f) s) (x.pc + 8) (⟨x.pc + 8, target, a⟩ :: x.loops))))

/-- R250 to R253: DLD issues the read of a checked descriptor, which holds its slot until it is performed, and leaves the slot invalid
on a fault; DSET changes PAD and POIS and nothing else; ALDS issues one 8-byte load, or a reading of a status register. R421: a page
that the pager did not make resident faults imprecisely. -/
def Obligations.DescriptorResults : Prop :=
  ∀ (f : AT) (s : State),
    let x := s.me.getA f.crd.toNat
    let n := f.d.toNat
    let ea := x + BitVec.ofInt 64 (8 * f.var.toInt)
    let checked := s.check s.cur s.myCtx ea 8 8 (span 0 8) .load
    let pa := s.descAddr s.myCtx x.toNat
    let idle := (s.me.slot n).busy = false
    let bad (e : Word) : Result := trapped (s.onMe (fun c => c.setSlot n {})) .a 0x11 e 0
    (ready (atForm f 1 []) s = true →
      (idle → 0 < x.toNat → x.toNat < 2 ^ 20 → s.tableHeld pa 64 = true → s.reachesLate (span pa 64) = false →
        (∀ d, s.desc? s.myCtx x.toNat = some d → exec (.dld f) s = .next (s.stepped .a (fun c =>
          (Core.issueAccess .a s.keystoneTime
            { id := 0, grp := 0, pc := 0, kind := .descriptor x.toNat, dest := .slot n, slot := f.set.toNat } c).setSlot n
              { valid := true, busy := true, desc := d }))) ∧
        (s.desc? s.myCtx x.toNat = none → exec (.dld f) s = bad (BitVec.ofNat 64 (x.toNat * 2 ^ 44)))) ∧
      (idle → x = 0 ∨ 2 ^ 20 ≤ x.toNat → exec (.dld f) s = bad x) ∧
      (¬idle → exec (.dld f) s = blocked s .a .other ∧ exec (.dset f) s = blocked s .a .other) ∧
      (∀ d, s.me.slot n = { valid := true, desc := d } →
        let pad := x.toNat / 2 ^ 32
        (pad < 2 ^ d.eb → exec (.dset f) s = .next (s.stepped .a (fun c => c.setSlot n
          { valid := true, desc := { d with pad := BitVec.ofNat 32 pad, pois := BitVec.ofNat 2 (x.toNat / 2 ^ 28) } }))) ∧
        (2 ^ d.eb ≤ pad → exec (.dset f) s = trapped s .a 0x11 (BitVec.ofNat 64 (d.tid * 2 ^ 44)) 0)) ∧
      (idle → (s.me.slot n).valid = false → exec (.dset f) s = trapped s .a 0x11 0 0)) ∧
    (ready { atForm f 1 [.a (f.dx.toNat % 32)] with access := false } s = true →
      (∀ t, checked = .ok t → exec (.alds f) s =
        gaveAccess s .a { t.access ea with kind := .load, dest := .a (f.dx.toNat % 32), slot := f.set.toNat }) ∧
      (∀ c a, checked = .fault c a → s.wasDenied s.cur s.myCtx a c = false → exec (.alds f) s = trapped s .a c a 0) ∧
      (∀ c a, checked = .fault c a → s.wasDenied s.cur s.myCtx a c = true →
        exec (.alds f) s = .next (s.taskFault s.cur .a false c s.me.strandA.pc a 0)) ∧
      (∀ t p, checked = .pageIn t p → exec (.alds f) s = blocked (s.requestPage (s.asker .a) s.myCtx t p) .a (.pageIn s.myCtx t p))) ∧
    (ready { atForm f 0 [.a (f.dx.toNat % 32)] with access := false } s = true → exec (.aldsStatus f) s =
      gaveAccess s .a
        { id := 0, grp := 0, pc := 0, kind := .streamStatus f.var.toNat,
          dest := if f.dx.toNat % 32 = 0 then .none else .a (f.dx.toNat % 32), slot := f.set.toNat, loose := true }) ∧
    (∀ n : Nat,
      let q := s.me.stream n
      let gives (v : Nat) : Prop := s.me.statusA n = BitVec.ofNat 64 v
      (n < 16 → gives (q.elems.length * 2 ^ 8 + (q.elems.head?.elim 0 (fun e => e.lane)) * 2 ^ 4 + if q.clip then 1 else 0)) ∧
      (16 ≤ n → n < 24 → gives ((s.me.channel (n - 16)).tidst % 2 ^ 48)) ∧ (n = 24 → gives (s.me.aspcp.toNat * 2)))

/-- R254, R255, R257, R258 and R247: a tile transfer whose checks pass for every tile puts one entry, with its coordinates, tile
count and target captured, at the tail of the transfer queue and goes on; it moves no data, and a store to SPACE 2 or 6 or with .SL
seals. An operand block past a31 is reserved; a misaligned tile raises 0x22, a start outside the tensor 0x23, an invalid slot 0x11, a
read of a lattice page out of this chip's scope 0x52 (R324); a full queue holds only A. -/
def Obligations.TransferIssue : Prop :=
  ∀ (f : AT) (s : State) (op : TransferOp) (i : Instr),
    (op, i) ∈ [(.tld, .tld f), (.tst, .tst f), (.tgath, .tgath f), (.tscat, .tscat f), (.tpref, .tpref f), (.scld, .scld f)] →
    let d := (s.me.slot f.d.toNat).desc
    let gather := op = .tgath ∨ op = .tscat
    let store := op = .tst ∨ op = .tscat
    let n := if gather then d.rank - 1 else d.rank
    let c (k : Nat) : Nat := if k < n then (s.me.getA (f.crd.toNat + k)).toNat else 0
    let start (j k : Nat) : Nat := if k = 0 then c 0 + j * d.tdim.headD 1 else c k
    let tiles := f.var.toNat + 1
    let rows := tiles * d.tdim.getD (d.rank - 1) 1
    let list := s.me.getA (f.crd.toNat + d.rank - 1)
    let vault := s.me.getA f.dx.toNat
    let idx (r : Nat) : Int := (s.indexList s.cur list rows).getD r 0
    let aligned (k : Nat) : Prop := c k % d.tdim.getD k 1 = 0
    let inside (j k : Nat) : Prop := start j k < d.dim.getD k 1
    let coords := [c 0, c 1, c 2, c 3, c 4]
    let reads := if gather then (scatterRows d coords tiles (s.indexList s.cur list rows)).map
        (fun e => (e.2, d.addrOf (tileStart d coords (e.1 / d.tdim.getD (d.rank - 1) 1)), e.1 / d.tdim.getD (d.rank - 1) 1))
      else (List.zip (span 0 tiles) (storePages d coords tiles)).map (fun e => (e.2, d.addrOf (tileStart d coords e.1), e.1))
    d.dim.length = 5 → d.tdim.length = 5 →
    ready (atForm f d.rank (if f.dk = 2 then [.a (f.dx.toNat % 32)] else [])) s = true →
    ((s.me.slot f.d.toNat).busy = true → exec i s = blocked s .a .other) ∧
    ((s.me.slot f.d.toNat).busy = false → (s.me.slot f.d.toNat).valid = false → exec i s = trapped s .a 0x11 0 0) ∧
    (∀ w, (s.me.slot f.d.toNat).busy = false → (s.me.slot f.d.toNat).valid = true → 32 < f.crd.toNat + d.rank →
      encode i = some (.a w) → exec i s = trapped s .a 0x00 w 0) ∧
    ((s.me.slot f.d.toNat).busy = false → (s.me.slot f.d.toNat).valid = true → f.crd.toNat + d.rank ≤ 32 → (gather → 2 ≤ d.rank) →
      (f.dk = 1 → d.tb ≤ 4096 ∧ f.dx.toNat + f.var.toNat ≤ 15) →
      (f.dk = 2 → s.vaultRange s.cur s.myCtx vault 32 (tiles * d.tb) = none) →
      (gather → s.vaultRange s.cur s.myCtx list 4 (4 * rows) = none) →
      (¬(∀ k, k < 5 → aligned k) → exec i s = trapped s .a 0x22 (d.addrOf coords) 0) ∧
      (∀ j, (∀ k, k < 5 → aligned k) → j < tiles → ¬(∀ k, k < 5 → inside j k) → (∀ h, h < j → ∀ k, k < 5 → inside h k) →
        exec i s = trapped s .a 0x23 (d.addrOf (tileStart d coords j)) (BitVec.ofNat 64 j)) ∧
      (∀ a j, (op = .tld ∨ op = .tgath ∨ op = .scld) → (∀ k, k < 5 → aligned k) → (∀ j, j < tiles → ∀ k, k < 5 → inside j k) →
        (gather → ∀ r, r < rows → -1 ≤ idx r ∧ idx r < (d.dim.getD (d.rank - 1) 1 : Int)) → s.scopeFault d reads = some (a, j) →
        exec i s = trapped s .a 0x52 a (BitVec.ofNat 64 j)) ∧
      (∀ b, (∀ k, k < 5 → aligned k) → (∀ j, j < tiles → ∀ k, k < 5 → inside j k) →
        (op = .tld ∨ op = .tgath ∨ op = .scld → s.scopeFault d reads = none) →
        (gather → ∀ r, r < rows → -1 ≤ idx r ∧ idx r < (d.dim.getD (d.rank - 1) 1 : Int)) →
        (store → s.storeSeals d (if gather then (scatterRows d coords tiles (s.indexList s.cur list rows)).map (·.2) else storePages d coords tiles)
          (decide gather) = .ok b) →
        (s.me.room 16 = false → exec i s = blocked s .a .pool) ∧
        (s.me.room 16 = true → ∃ t : Transfer,
          let z : State := if store ∧ (b = true ∨ (op = .tst ∧ f.ord.getLsbD 5 = true)) then s.onMe Core.seal else s
          exec i s = .next (z.stepped .a (fun c => ({ c with tq := c.tq ++ [.work t], nextId := c.nextId + 1 } : Core).markSlot .a f.set.toNat)) ∧
          t.num = s.me.nextId ∧ t.op = op ∧ t.desc = d ∧ t.coords = coords ∧ t.tiles = tiles ∧ t.done = 0 ∧ t.kind = f.dk.toNat ∧
          t.target = (if f.dk = 2 then vault.toNat else f.dx.toNat) ∧ t.lane = f.ord.toNat % 16 ∧ t.flag = f.flag.toNat ∧
          t.slot = f.set.toNat ∧ t.pc = s.me.strandA.pc ∧ t.ctx = s.myCtx ∧ (gather → t.indices = s.indexList s.cur list rows))))

/-- R260 to R264: COPY hands out its channel's next identifier and enters the channel, or waits in the time buffer while its time is
still to come; XSEND seals and enters the send queue, or the trigger table while its flag is below θ; XCOLL seals and enters the
send queue. None moves a byte at issue. -/
def Obligations.CopySendIssue : Prop :=
  ∀ (f : AT) (s : State),
    let r (i : Nat) : Word := s.me.getA (f.crd.toNat + i)
    let ch := f.ch.toNat
    let q := s.me.channel ch
    (ready (atForm f 5 []) s = true →
      (∀ b, (r 2).toNat ≠ 0 → (r 2).toNat < 2 ^ 32 → s.copyRange s.cur s.myCtx (r 0) (r 2).toNat = none →
        s.copyRange s.cur s.myCtx (r 1) (r 2).toNat = none →
        s.walkFor s.myCtx (r 0) = none → s.walkFor s.myCtx (r 1) = none → s.scopeAt (r 0) (r 2).toNat = false →
        (if tensorOf (r 1) = 0 then b = false
          else s.storeSeals (s.copyPages s.myCtx (r 1) (r 2).toNat).1 (s.copyPages s.myCtx (r 1) (r 2).toNat).2 false = .ok b) →
        let z : State := if b then s.onMe Core.seal else s
        ∃ x : Copy, x.tid = q.next ∧ x.src = r 0 ∧ x.dst = r 1 ∧ x.count = (r 2).toNat ∧ x.pos = 0 ∧ x.time = r 3 ∧ x.flag = f.flag.toNat ∧
          x.slot = f.set.toNat ∧
          let took (wait : List (Entry Copy)) (c : Core) : Core :=
            ((c.setChannel ch { q with next := (q.next + 1) % 2 ^ 48, live := q.live ++ [q.next], queue := wait }).setA (f.crd.toNat + 4)
              (BitVec.ofNat 64 q.next)).markSlot .a f.set.toNat
          ((r 3).toNat ≤ s.timeOf s.cur → s.me.room (17 + ch) = true → s.me.copyDue ch (s.timeOf s.cur) = false →
            exec (.copy f) s = .next (z.stepped .a (took (q.queue ++ [.work x])))) ∧
          (s.timeOf s.cur < (r 3).toNat → s.me.room 30 = true →
            exec (.copy f) s = .next (z.stepped .a (fun c => took q.queue { c with timed := c.timed ++ [(ch, x)] })))) ∧
      (let chip := (r 2).toNat / 2 ^ 52
       let mc := (r 2).getLsbD 22
       (r 2).toNat / 2 ^ 42 % 2 ^ 10 = 0 → (r 2).toNat / 2 ^ 30 % 4 = 0 → (r 2).toNat % 2 ^ 22 = 0 → r 3 ≠ 0 → (r 3).toNat < 2 ^ 32 →
       (r 4).toNat < 2 ^ 48 → (mc = true → chip = s.chip ∧ s.groupKind ((r 2).toNat / 2 ^ 32 % 2 ^ 8) kindMulticast = true) → s.inTorus chip = true →
       s.scopeAt (r 0) (r 3).toNat = false →
       ∃ x : Send, x.src = r 0 ∧ x.dst = r 1 ∧ x.chip = chip ∧ x.gcore = (r 2).toNat / 2 ^ 32 % 2 ^ 10 ∧ x.rflag = (r 2).toNat / 2 ^ 24 % 2 ^ 6 ∧
         x.zc = (r 2).getLsbD 23 ∧ x.begun = false ∧ x.mc = mc ∧ x.count = (r 3).toNat ∧ x.theta = (r 4).setWidth 48 ∧ x.trigger = f.dx.toNat ∧
         x.flag = f.flag.toNat ∧ x.slot = f.set.toNat ∧ x.coll = false ∧ x.id = s.me.nextId ∧
         let arms (sq : List (Entry Send)) (tr : List Send) : Result := .next ((s.onMe Core.seal).stepped .a (fun c =>
           ({ c with nextId := c.nextId + 1, sq := sq, triggers := tr } : Core).markSlot .a f.set.toNat))
         (f.dx = 63 → s.me.room 25 = true → exec (.xsend f) s = arms (s.me.sq ++ [.work x]) s.me.triggers) ∧
         (f.dx ≠ 63 → s.me.room 29 = true → s.me.triggers = [] →
           ((r 4).toNat ≤ (s.me.getF f.dx.toNat).toNat → s.me.room 25 = true → exec (.xsend f) s = arms (s.me.sq ++ [.work x]) []) ∧
           ((s.me.getF f.dx.toNat).toNat < (r 4).toNat → exec (.xsend f) s = arms s.me.sq [x])))) ∧
    (ready (atForm f 4 []) s = true → (r 3).toNat < 3 * 2 ^ 32 → s.scopeAt (r 1) ((r 3).toNat % 2 ^ 32) = false → s.me.room 25 = true →
      ∃ x : Send, x.coll = true ∧ x.plan = r 0 ∧ x.src = r 1 ∧ x.dst = r 2 ∧ x.count = (r 3).toNat % 2 ^ 32 ∧ x.wire = (r 3).toNat / 2 ^ 32 ∧
        x.flag = f.flag.toNat ∧ x.slot = f.set.toNat ∧
        exec (.xcoll f) s = .next ((s.onMe Core.seal).stepped .a (fun c =>
          ({ c with nextId := c.nextId + 1, sq := c.sq ++ [.work x] } : Core).markSlot .a f.set.toNat)))

/-- R266 and R267: XRTSW arrives at its barrier with its bank and is turned away from an episode of another bank; XCIRC asks its
port's circuit; AMO and ACAS seal and issue one atomic with the fields that a[C + 1] names. -/
def Obligations.AccessFabricAtomicIssue : Prop :=
  ∀ (f : AT) (s : State),
    let r (i : Nat) : Word := s.me.getA (f.crd.toNat + i)
    let w := (r 0).toNat
    let g := w % 2 ^ 8
    let bank := w / 2 ^ 8
    let m := (r 1).toNat
    let op := m / 2 ^ 10 % 16
    let ty := m / 2 ^ 7 % 8
    let order := m / 2 ^ 4 % 8
    let use := m / 2 % 8
    let dest := m / 2 ^ 16
    let n := if ty = 1 then 8 else 4
    let mask (x : Word) : Nat := x.toNat % 2 ^ (8 * n)
    (ready (atForm f 1 []) s = true →
      (∀ (t : Task) (k : Nat) (l : Launch) (x : Group), w < 512 → s.me.task = some t → s.rankIn t g 1 = some k → s.launch? t.launch = some l →
        l.group? g = some x →
        (x.bank = none ∨ x.bank = some bank → s.settled .a (s.groupScope t.launch g) = true → exec (.xrtsw f) s =
          .next ((((s.onMe Core.seal).onMe (fun c => ({ c with switches := c.switches ++ [⟨t.launch, g, x.episode, f.flag.toNat, f.set.toNat⟩] } : Core).markSlot .a f.set.toNat)).arrive t.launch g k
            (some bank)).onMe (fun c => c.onStrand .a (Strand.advance .a)))) ∧
        (∀ b, x.bank = some b → b ≠ bank → exec (.xrtsw f) s = trapped s .a 0x64 0 0)) ∧
      (24 ≤ w % 32 → w / 2 ^ 5 % 8 = 0 → w / 2 ^ 9 % 2 ^ 43 = 0 → exec (.xcirc f) s =
        .next ((((s.onMe Core.seal).onMe (fun c => c.markSlot .a f.set.toNat)).askCircuit (w % 32) (w / 2 ^ 52) ((r 0).getLsbD 8)
          (.xcirc s.cur f.flag.toNat f.set.toNat s.myLaunchId s.me.strandA.pc)).onMe (fun c => c.onStrand .a (Strand.advance .a))))) ∧
    (∀ (cas : Bool) (t : Target), m < 2 ^ 21 → m / 2 ^ 14 % 4 = 0 → use ≠ 4 → amoFieldsOk cas op ty order use dest = true →
      ready { atForm f (if cas then 4 else 3) [.a dest] with access := false } s = true →
      (use = 3 → 0 < signedOf (8 * n) (mask (r 2))) →
      s.check s.cur s.myCtx (r 0) n n (span 0 n) (.atomic (!cas && decide (op = 10))) = .ok t →
      (t.virtual = true → t.space = 2 → s.host.requester = true ∧ hostAtomicOk op ty use cas = true) →
      ∃ x : Access, exec (if cas then .acas f else .amo f) s = .next ((s.onMe Core.seal).stepped .a (Core.issueAccess .a s.keystoneTime x)) ∧
        x.addrs = t.addrs ∧ x.unit = t.unit ∧ x.route = t.route ∧ x.slot = f.set.toNat ∧ x.flag = f.flag.toNat ∧ x.phase = .issued ∧
        x.kind = .atomic op ty cas (BitVec.ofNat 128 (mask (r 2))) (if cas then BitVec.ofNat 128 (mask (r 3)) else 0) use ∧
        x.dest = (if dest = 0 then .none else .a dest) ∧
        (x.acquire = true ↔ order = 1 ∨ order = 3) ∧ (x.release = true ↔ order = 2 ∨ order = 3))

/-- R268 and R269: DISPATCH seals and puts its item behind the core's earlier ones; BCAST that meets the limits of R98 and names an
arm set puts its entry into the broadcast queue without sealing, and raises 0x44 or 0x0C where it does not. R270: the A strand's
waits and flag addition. -/
def Obligations.DispatchBroadcastWaits : Prop :=
  (∀ (f : AT) (s : State),
    let r (i : Nat) : Word := s.me.getA (f.crd.toNat + i)
    let bus := f.dx.toNat % 4
    let t := (r 2).toNat / 2 ^ 32 % 2 ^ 10 + 1
    let div := 2 ^ ((r 2).toNat / 2 ^ 42 % 4)
    let group := (r 2).toNat / 2 ^ 44
    let plain := (r 0).toNat % 2 ^ 44 = 0 ∧ (r 2).toNat < 2 ^ 52 ∧ (r 3).toNat < 2 ^ 34
    let limits := 32 ≤ t * div ∧ (r 2).toNat % 2 ^ 32 ≠ 0 ∧ (r 3).toNat % 2 ^ 32 ≠ 0 ∧ (r 3).toNat / 2 ^ 32 ≤ 2 ∧ (look {} s.buses bus).lost = false
    (ready (atForm f 5 []) s = true → (r 0).toNat / 2 ^ 12 % 2 ^ 20 = 0 → (r 3).toNat % 32 = 0 → 32 ≤ (r 3).toNat → (r 3).toNat ≤ 65504 →
      s.scopeAt (r 2) (r 3).toNat = false →
      ∃ x : Item, x.num = s.me.nextId ∧ x.was = s.me.getA (f.crd.toNat + 4) ∧ x.expert = (r 0).toNat % 2 ^ 12 ∧ x.gate.toNat = (r 0).toNat / 2 ^ 32 ∧ x.token = r 1 ∧ x.src = r 2 ∧ x.bytes = (r 3).toNat ∧
        x.dest = f.crd.toNat + 4 ∧ x.flag = f.flag.toNat ∧ x.slot = f.set.toNat ∧ x.chosen = none ∧
        exec (.dispatch f) s = .next ((s.onMe Core.seal).stepped .a (fun c => ({ c with items := c.items ++ [x], nextId := c.nextId + 1 } : Core).markSlot .a f.set.toNat))) ∧
    (ready (atForm f 4 []) s = true →
      (plain → limits → s.groupKind group kindArm = true → s.me.room 26 = true →
        ∃ x : Bcast, x.bus = bus ∧ x.tensor = (r 0).toNat / 2 ^ 44 ∧ x.n0.toNat = (r 1).toNat / 2 ^ 32 ∧ x.k0 = (r 1).toNat % 2 ^ 32 ∧
          x.group = group ∧ divisor x.div = div ∧ x.t = t ∧ x.n = (r 2).toNat % 2 ^ 32 ∧ x.ref = (r 3).toNat / 2 ^ 32 ∧
          x.mask.toNat = (r 3).toNat % 2 ^ 32 ∧ x.flag = f.flag.toNat ∧ x.slot = f.set.toNat ∧ x.core = s.cur ∧
          exec (.bcast f) s = .next (s.stepped .a (fun c => ({ c with bq := c.bq ++ [.work x] } : Core).markSlot .a f.set.toNat))) ∧
      (plain → ¬limits → exec (.bcast f) s = trapped s .a 0x44 (BitVec.ofNat 64 (bus * 2 ^ 32 + (r 1).toNat / 2 ^ 32)) 0) ∧
      (plain → limits → s.groupKind group kindArm = false → exec (.bcast f) s = trapped s .a 0x0C (BitVec.ofNat 64 group) 0x33))) ∧
  (∀ (f : AS) (s : State),
    let n := f.flag.toNat
    let v := (s.me.getA f.aa.toNat).setWidth 48
    let old := s.me.getF n
    let d := (s.me.channel f.ch.toNat).tidst % 2 ^ 48
    let first := s.me.flagPending .a n = false ∧ s.me.acquiring .a = false ∧ s.me.flagTaken .a n = false
    (ready (asForm f []) s = true → exec (.await f) s = passed s .a) ∧
    (ready (asForm f [.a f.aa.toNat]) s = true →
      (first → v.toNat ≤ old.toNat → exec (.aflwait f) s =
        .next (s.stepped .a (fun c => { (if f.opt.getLsbD 2 then c.setF n (old - v) else c) with flagRank := 6 }))) ∧
      (old.toNat < v.toNat → exec (.aflwait f) s = blocked s .a (.flag n v.toNat (f.opt.getLsbD 2) .none)) ∧
      (s.settled .a 0 = true → exec (.afladd f) s =
        .next (s.stepped .a (fun c => ((c.flagTurn 3).setF n ((c.flagTurn 3).getF n + v)).fireTriggers))) ∧
      (s.settled .a 0 = false → ∃ x, exec (.afladd f) s = gaveAccess s .a x ∧ x.kind = .flag n false v ∧ x.release = true ∧ x.slot = f.set.toNat) ∧
      (v.toNat ≤ d → exec (.atidwait f) s = passed s .a) ∧ (d < v.toNat → exec (.atidwait f) s = blocked s .a .other)))

/-! ### M strand (R272 to R290) -/

/-- R283 and R290: the M strand's register, nest and control instructions act at issue and complete in line or jump, by PC + 16 ×
imm64 on its own loop stack; MEND ends the strand. R288: MFLWAIT blocks below the threshold and takes it off with .SUB. R273, R282,
R288 and R289: every queued M command reads its m registers and enters the tail of the M queue at issue, with no other effect; a
full queue holds issue; a range past the accumulator store raises 0x27 and does not enter. -/
def Obligations.MatrixControl : Prop :=
  ((∀ (f : MS) (s : State),
     let x := s.me.strandM
     let a := s.me.getM f.ma.toNat
     let b := s.me.getM f.mb.toNat
     let target := x.pc + BitVec.ofInt 64 (16 * f.imm.toInt)
     let on (c : Prop) : Prop := (c → exec (.mbr f) s = jumped s .m target) ∧ (¬c → exec (.mbr f) s = passed s .m)
     let goes (pc : Word) (loops : List LoopLevel) : Prop :=
       exec (.mloop f) s = .next (s.onMe (fun c => { c with strandM := { status := .running, pc := pc, loops := loops } }))
     (ready { k := .m } s = true →
       exec (.mli f) s = .next (s.stepped .m (fun c => c.setM f.md.toNat f.imm)) ∧
       exec (.madd f) s = .next (s.stepped .m (fun c => c.setM f.md.toNat (BitVec.ofInt 64 (a.toInt + b.toInt + f.imm.toInt))))) ∧
     (ready { k := .m, notLast := true } s = true →
       (f.cond = 0 → on True) ∧ (f.cond = 1 → on (a = b)) ∧ (f.cond = 2 → on (a ≠ b)) ∧ (f.cond = 3 → on (a.toInt < b.toInt)) ∧
       (f.cond = 4 → on (b.toInt ≤ a.toInt)) ∧ (f.cond = 5 → on (a.toNat < b.toNat)) ∧ (f.cond = 6 → on (b.toNat ≤ a.toNat)) ∧
       (a = 0 → goes (nextPc target x.loops).1 (nextPc target x.loops).2) ∧
       (a ≠ 0 → 4 ≤ x.loops.length → exec (.mloop f) s = trapped s .m 0x03 target (s.me.ldep .m)) ∧
       (a ≠ 0 → x.loops.length < 4 → (∀ l ∈ x.loops.head?, target.toNat ≤ l.stop.toNat) → goes (x.pc + 16) (⟨x.pc + 16, target, a⟩ :: x.loops)) ∧
       (s.me.mwin.releases = [] → ∃ t, exec (.mend f) s = .next t ∧ t.me.strandM = { x with status := .ended, loops := [], hold := .fresh } ∧ t.me.mq = s.me.mq ∧
         t.me.files = s.me.files ∧ t.me.strandC = s.me.strandC ∧ SameOthers s.cur s t ∧ SameOutside s t))) ∧
   (∀ (f : MN) (s : State), ready { k := .m } s = true → exec (.mnest f) s = .next (s.stepped .m (fun c =>
     { c with nest := put {} c.nest f.lv.toNat { reg := f.mr.toNat, cnt := f.cnt.toNat, step := f.step } }))) ∧
   (∀ (f : MT) (s : State), ready { k := .m } s = true →
     let n := f.flag.toNat
     let old := s.me.getF n
     let v := BitVec.ofNat 48 ((s.me.getM f.mr.toNat).toNat + f.imm.toNat)
     (s.me.flagPending .m n = false → s.me.acquiring .m = false → s.me.flagTaken .m n = false → v.toNat ≤ old.toNat →
       exec (.mflwait f) s = .next (s.stepped .m (fun c => { (if f.opt.getLsbD 0 then c.setF n (old - v) else c) with flagRank := 6 }))) ∧
     (old.toNat < v.toNat → exec (.mflwait f) s = blocked s .m (.flag n v.toNat (f.opt.getLsbD 0) .none)))) ∧
  (∀ (s : State), ready { k := .m } s = true →
     let enters (r : Result) (e : MEntry) : Prop :=
       (s.me.room 27 = true → r = .next (s.stepped .m (fun c => { c with mq := c.mq ++ [.work e] }))) ∧ (s.me.room 27 = false → r = blocked s .m .pool)
     (∀ f : MT,
       let m := s.me.getM f.mr.toNat
       let a := m.toNat % 2 ^ 20
       let n := f.imm.toNat % 2 ^ 10
       let t := f.t.toNat
       enters (exec (.mtz f) s) (.mtz t f.flag.toNat) ∧ enters (exec (.msetf f) s) (.msetf t) ∧ enters (exec (.mtrel f) s) (.mtrel t) ∧
       enters (exec (.mfladd f) s) (.mfladd f.flag.toNat (BitVec.ofNat 48 (m.toNat + f.imm.toNat))) ∧
       (a + 32 * (n + 1) ≤ 786432 → enters (exec (.maccz f) s) (.maccz a n f.flag.toNat s.me.strandM.pc)) ∧
       (786432 < a + 32 * (n + 1) → exec (.maccz f) s = trapped s .m 0x27 (BitVec.ofNat 64 a) 0) ∧
       (a % 32 = 0 → a + 1024 ≤ 786432 → enters (exec (.mtacc f) s) (.mtacc t a f.opt.toNat (f.imm.getLsbD 0) f.flag.toNat s.me.strandM.pc)) ∧
       (a % 32 ≠ 0 ∨ 786432 < a + 1024 → exec (.mtacc f) s = trapped s .m 0x27 (BitVec.ofNat 64 a) 0)) ∧
     (∀ f : MS, enters (exec (.mscq f) s) (.mscq (f.imm.toNat % 8) (f.imm.toNat / 2 ^ 4 % 8) (f.imm.toNat / 2 ^ 16 % 2 ^ 16))))

/-- R275, R277, R281, R284 to R286: an MMA or BMMA whose operands and accumulator block are in range enters the M queue as one entry
with its operands' registers captured and the gang's marking; MGANG marks the next word; MGO enters the word that follows it once
for every point of the nest, restores every m register and goes on after that word. -/
def Obligations.MatrixProductIssue : Prop :=
  ∀ (s : State) (f : MM) (binary : Bool),
    let vaultOk (lo hi : Nat) : Prop := lo < 2 ^ 48 ∧ lo / 2 ^ 22 % 2 ^ 10 = 0 ∧ hi < 2 ^ 35 ∧ lo % 16 = 0 ∧ lo / 2 ^ 32 % 16 = 0 ∧ hi % 16 = 0 ∧
      ∀ r, r < 32 → lo % 2 ^ 22 + r / 8 * (hi % 2 ^ 32) + r % 8 * (lo / 2 ^ 32) + 128 ≤ 2 ^ 22
    let opOk (m : Nat → Word) (src : BitVec 1) (i : Nat) : Prop := src = 1 → vaultOk (m i).toNat (m (i + 1)).toNat
    let op (m : Nat → Word) (src : BitVec 1) (i : Nat) : Operand := if src = 1 then .vault (m i) (m (i + 1)) else .tile i
    let accOk (m : Nat → Word) : Prop := (m f.cacc.toNat).toNat % 32 = 0 ∧ (m f.cacc.toNat).toNat + 1024 ≤ 786432
    let scaled (t g : Nat) : Prop := t = 7 ∨ t = 9 ∨ t = 10 → g ≠ 0
    let scalesOk : Prop := binary = false → f.scl = 1 → scaled f.aty.toNat s.me.entryGeometry.1 ∧ scaled f.bty.toNat s.me.entryGeometry.2
    let fits (m : Nat → Word) : Prop := accOk m ∧ opOk m f.asrc f.aidx.toNat ∧ opOk m f.bsrc f.bidx.toNat ∧ scalesOk
    let entry (m : Nat → Word) (tsm : Bool) (pc : Word) (e : Mma) : Prop :=
      e.binary = binary ∧ e.aty = f.aty.toNat ∧ e.bty = f.bty.toNat ∧ e.a = op m f.asrc f.aidx.toNat ∧ e.b = op m f.bsrc f.bidx.toNat ∧
      e.c = (m f.cacc.toNat).toNat ∧ e.cmode = f.cmode.toNat ∧ e.scl = decide (f.scl = 1) ∧ e.tsm = tsm ∧ e.btr = decide (f.btr = 1) ∧
      e.flag = f.flag.toNat ∧ e.pc = pc ∧ e.started = none ∧ e.gang = s.me.gangNext.map (fun g => (g.1, g.2, s.me.gangCount))
    let count (c : Core) : Nat := if c.gangNext.isSome then c.gangCount + 1 else c.gangCount
    let i : Instr := if binary then .bmma f else .mma f
    let pc := s.me.strandM.pc
    (ready { k := .m } s = true → s.me.room 27 = true →
      (fits s.me.getM → ∃ e, entry s.me.getM (decide (f.tsm = 1)) pc e ∧
        exec i s = .next (s.stepped .m (fun c => { c with mq := c.mq ++ [.work (.mma e)], gangCount := count c, gangNext := none }))) ∧
      (¬accOk s.me.getM → exec i s = trapped (s.onMe (fun c => { c with mgoDone := 0 })) .m 0x27 (s.me.getM f.cacc.toNat) 0)) ∧
    (ready { k := .m, notLast := true } s = true → s.following = .mma f binary →
      (∀ (g : MG) (t : Task), s.me.task = some t → t.members.length = 4 →
        (∀ m, t.members.getD g.gm.toNat none = some m → s.groupKind m.gnum kindGang = true →
          exec (.mgang g) s = .next (s.stepped .m (fun c => { c with gangNext := some (g.gm.toNat, g.cflag.toNat) }))) ∧
        (t.members.getD g.gm.toNat none = none → exec (.mgang g) s = trapped s .m 0x0C (BitVec.ofNat 64 g.gm.toNat) 0x08)) ∧
      (∀ (g : MN), (∀ l ∈ s.me.strandM.loops.head?, l.stop ≠ pc + 32) →
        let lv := g.lv.toNat
        let p := s.me.mgoDone
        let m := s.me.nestM lv p
        let onward (t : State) : Prop := t.me.strandM =
            { s.me.strandM with status := .running, pc := (nextPc (pc + 32) s.me.strandM.loops).1,
                                loops := (nextPc (pc + 32) s.me.strandM.loops).2, hold := .fresh } ∧
          t.me.mgoDone = 0 ∧ t.me.gangNext = none ∧ t.me.files = s.me.files ∧ SameOthers s.cur s t ∧ SameOutside s t
        (s.me.points lv ≤ p → ∃ t, exec (.mgo g) s = .next t ∧ onward t ∧ t.me.mq = s.me.mq) ∧
        (p < s.me.points lv → s.me.room 27 = true → fits m →
          ∃ e, entry m (decide (f.tsm = 1) && decide (s.me.pointIndex p 0 = 0)) (pc + 16) e ∧
            (p + 1 < s.me.points lv → exec (.mgo g) s = .next (s.onMe (fun c =>
              { c with mq := c.mq ++ [.work (.mma e)], gangCount := count c, mgoDone := p + 1
                       strandM := { c.strandM with status := .running, hold := .fresh } }))) ∧
            (p + 1 = s.me.points lv → ∃ t, exec (.mgo g) s = .next t ∧ onward t ∧ t.me.mq = s.me.mq ++ [.work (.mma e)] ∧
              t.me.gangCount = count s.me)) ∧
        (s.me.room 27 = false → p < s.me.points lv → exec (.mgo g) s = blocked s .m .pool)))

/-! ### O strand (R292 to R303) -/

/-- R294 to R297, R300: OCFG and OREF set the bus table and the reference mode; OCAL and OWIN enter the window queue, OWIN after its
checks in order and with the window captured; OWAIT waits for a window's status word and OSTAT reads it or a code. -/
def Obligations.OpticWindowIssue : Prop :=
  ∀ (s : State), ready { k := .o } s = true →
    let c := s.me
    (∀ f : OC,
      (f.bus.toNat < 4 ∨ s.xfcon.getLsbD (f.bus.toNat - 4) = true → exec (.ocfg f) s =
        .next (s.stepped .o (fun c => { c with buses := put none c.buses f.bus.toNat (some ⟨f.tm1.toNat + 1, f.div⟩) }))) ∧
      (4 ≤ f.bus.toNat → s.xfcon.getLsbD (f.bus.toNat - 4) = false → exec (.ocfg f) s = trapped s .o 0x40 (BitVec.ofNat 64 (f.bus.toNat * 2 ^ 32)) 0)) ∧
    (∀ f : OS,
      let w := (c.getO f.oa.toNat).toNat
      let gives (r : Result) (x : Word) : Prop := r = .next (s.stepped .o (fun c => c.setO f.od.toNat x))
      exec (.oref f) s = .next (s.stepped .o (fun c => { c with refMode := f.kind.toNat })) ∧
      (c.room 28 = true → exec (.ocal f) s = .next (s.stepped .o (fun c => { c with oq := c.oq ++ [.work (.cal (decide (f.kind = 1)))] }))) ∧
      (c.room 28 = false → exec (.ocal f) s = blocked s .o .pool) ∧
      (c.winCount ≤ w → exec (.owait f) s = trapped s .o 0x0E (c.getO f.oa.toNat) (BitVec.ofNat 64 c.winCount) ∧
        gives (exec (.ostat f) s) 0x0000000100000003) ∧
      (w < c.winCount → c.oq.any (isWindow w) = true →
        exec (.owait f) s = blocked s .o .other ∧ gives (exec (.ostat f) s) 0x0000000100000001) ∧
      (∀ x, w < c.winCount → c.oq.any (isWindow w) = false → c.statuses.find? (fun e => e.1 = w) = some (w, x) →
        gives (exec (.owait f) s) x ∧ gives (exec (.ostat f) s) x) ∧
      (w < c.winCount → c.oq.any (isWindow w) = false → (∀ e ∈ c.statuses, e.1 ≠ w) →
        gives (exec (.owait f) s) 0x0000000100000002 ∧ gives (exec (.ostat f) s) 0x0000000100000002)) ∧
    (∀ f : OW,
      let k := f.bus.toNat
      let n := BitVec.ofInt 32 ((c.getO f.seg.toNat).toInt + f.segoff.toInt)
      let w := (c.getO f.wsrc.toNat).toNat
      let a := (c.getO f.acc.toNat).toNat
      let rows := f.nrow.toNat + 1
      let at' : Word := BitVec.ofNat 64 (k * 2 ^ 32 + n.toNat)
      let num := BitVec.ofNat 64 c.winCount
      let connected := k < 4 ∨ s.xfcon.getLsbD (k - 4) = true
      (look none c.buses k = none ∨ ¬connected → exec (.owin f) s = trapped s .o 0x40 at' num) ∧
      (∀ b, look none c.buses k = some b → connected →
        let own := w < 2 ^ 29 ∧ w / 2 ^ 22 = localOf s.cur
        let placed := w % 32 = 0 ∧ w % 2 ^ 22 + rows * (32 * ((b.t + 31) / 32)) + 64 ≤ 2 ^ 22
        let inside := a + 32 * rows ≤ 786432
        (¬own → exec (.owin f) s = trapped s .o 0x41 at' num) ∧
        (own → ¬placed → exec (.owin f) s = trapped s .o 0x22 (BitVec.ofNat 64 w) 0) ∧
        (own → placed → ¬inside → exec (.owin f) s = trapped s .o 0x27 (BitVec.ofNat 64 a) 0) ∧
        (own → placed → inside → c.room 28 = false → exec (.owin f) s = blocked s .o .pool) ∧
        (own → placed → inside → c.room 28 = true → ∃ x : Window,
          exec (.owin f) s = .next (s.stepped .o (fun c => { c with oq := c.oq ++ [.work (.window x)], winCount := c.winCount + 1 })) ∧
          x.bus = k ∧ x.seg = n ∧ x.weights = w % 2 ^ 22 ∧ x.acc = a ∧ x.row0 = f.row0.toNat ∧ x.rows = rows ∧ x.t = b.t ∧ x.div = b.div ∧
          x.ref = c.refMode ∧ x.number = c.winCount ∧ x.sh = f.sh.toNat ∧ (x.accumulate = true ↔ f.mode = 1) ∧ (x.tsm = true ↔ f.tsm = 1) ∧
          x.flag = f.flag.toNat ∧ x.pc = c.strandO.pc ∧ x.ready = false ∧ x.begun = false ∧ x.frame = none)))

/-- R302 and R303: the O strand's register, control and flag instructions. -/
def Obligations.OpticControl : Prop :=
  ∀ (f : OX) (s : State),
    let x := s.me.strandO
    let a := s.me.getO f.oa.toNat
    let b := s.me.getO f.ob.toNat
    let n := f.flag.toNat
    let old := s.me.getF n
    let v := BitVec.ofInt 48 (a.toInt + f.imm.toInt)
    let target := x.pc + BitVec.ofInt 64 (16 * f.imm.toInt)
    let on (c : Prop) : Prop := (c → exec (.obr f) s = jumped s .o target) ∧ (¬c → exec (.obr f) s = passed s .o)
    let goes (pc : Word) (loops : List LoopLevel) : Prop :=
      exec (.oloop f) s = .next (s.onMe (fun c => { c with strandO := { status := .running, pc := pc, loops := loops } }))
    (ready { k := .o } s = true →
      exec (.oli f) s = .next (s.stepped .o (fun c => c.setO f.od.toNat f.imm)) ∧
      exec (.oadd f) s = .next (s.stepped .o (fun c => c.setO f.od.toNat (BitVec.ofInt 64 (a.toInt + b.toInt + f.imm.toInt)))) ∧
      exec (.ofladd f) s = (if n = 63 then passed s .o
        else .next (s.stepped .o (fun c => ((c.flagTurn 5).setF n ((c.flagTurn 5).getF n + v)).fireTriggers))) ∧
      (s.me.flagPending .o n = false → s.me.acquiring .o = false → s.me.flagTaken .o n = false → v.toNat ≤ old.toNat →
        exec (.oflwait f) s = .next (s.stepped .o (fun c => { (if f.cond.getLsbD 0 then c.setF n (old - v) else c) with flagRank := 6 }))) ∧
      (old.toNat < v.toNat → exec (.oflwait f) s = blocked s .o (.flag n v.toNat (f.cond.getLsbD 0) .none))) ∧
    (ready { k := .o, notLast := true } s = true →
      (f.cond = 0 → on True) ∧ (f.cond = 1 → on (a = b)) ∧ (f.cond = 2 → on (a ≠ b)) ∧ (f.cond = 3 → on (a.toInt < b.toInt)) ∧
      (f.cond = 4 → on (b.toInt ≤ a.toInt)) ∧ (f.cond = 5 → on (a.toNat < b.toNat)) ∧ (f.cond = 6 → on (b.toNat ≤ a.toNat)) ∧
      (a = 0 → goes (nextPc target x.loops).1 (nextPc target x.loops).2) ∧
      (a ≠ 0 → 4 ≤ x.loops.length → exec (.oloop f) s = trapped s .o 0x03 target (s.me.ldep .o)) ∧
      (a ≠ 0 → x.loops.length < 4 → (∀ l ∈ x.loops.head?, target.toNat ≤ l.stop.toNat) → goes (x.pc + 16) (⟨x.pc + 16, target, a⟩ :: x.loops)) ∧
      (s.me.mwin.releases = [] → ∃ t, exec (.oend f) s = .next t ∧ t.me.strandO = { x with status := .ended, loops := [], hold := .fresh } ∧ t.me.oq = s.me.oq ∧
        t.me.files = s.me.files ∧ t.me.strandC = s.me.strandC ∧ SameOthers s.cur s t ∧ SameOutside s t))

/-! ### Events of the cores: accesses, atomics, fences, replies -/

/-- R25, R126, R131, R143, R198, R222 and R404: a load that may be performed delivers exactly the bytes at its addresses, in
little-endian order, unless a later write of its register stays; a store writes exactly its bytes there and no other byte; a reading
of a flag, a ring or a status register delivers what that holds then, and a DLD's access frees its slot; the access then leaves its
strand's list and its slot clears with the last of its instruction; a flag change that waited for its strand's accesses returns the old
value and changes the flag in its turn (R232, R233). A QFENCE whose queues have all reached it passes them and clears its slot; a SYSCALL's reply goes
to its register; a blocked strand may run again. -/
def Obligations.AccessCompletion : Prop :=
  (∀ (s : State) (x : Access),
    let g := s.ev.core
    let k := s.ev.strand
    let n := leNat (s.load x.addrs)
    let later (r : Nat) : Prop := 0 ∈ s.ev.nums ∧ ((s.core g).getS r).toNat ≠ x.was.toNat % 2 ^ 64
    let gone (t : State) : Prop := (t.core g).out k = ((s.core g).out k).filter (fun y => decide (y.id ≠ x.id)) ∧ SameOthers g s t ∧
      (x.slotDone = false → (∀ y ∈ (s.core g).out k, y.grp = x.grp → y.id = x.id) → (t.core g).sb k = (s.core g).sb k &&& ~~~ slotBit x.slot)
    s.access? (g, k, s.ev.num) = some x → x.phase = .issued → s.mayPerform g k x = true → x.route = .plain → x.unit = 8 → x.flag = 63 →
    x.spc = false → x.subs = 0 → s.vaultClosed g x = false → s.unreachable x.addrs = none → s.ev.num2 = 0 →
    (x.kind = .load → (∀ a ∈ x.addrs, s.poisoned a = false) → ∃ t, exec .memoryAccessCompletion s = .next t ∧ gone t ∧ SameMemory s t ∧
      (∀ r, x.dest = .s r → ∀ q, (t.core g).getS q = if q = r ∧ r ≠ 0 ∧ ¬later r then BitVec.ofNat 64 n else (s.core g).getS q) ∧
      (∀ r, x.dest = .a r → s.ev.nums = [] → ∀ q, (t.core g).getA q = if q = r ∧ r ≠ 0 then BitVec.ofNat 64 n else (s.core g).getA q) ∧
      (∀ v l, x.dest = .lanes v l → s.ev.nums = [] → l.Nodup → (∀ i ∈ l, i < 32) → x.addrs.length = 4 * l.length → l ≠ [] →
        (∀ j, j < l.length → elemOf 32 ((t.core g).getV v) (l.getD j 0) 0 = leNat (s.load ((x.addrs.drop (4 * j)).take 4))) ∧
        (∀ i, i < 32 → i ∉ l → elemOf 32 ((t.core g).getV v) i 0 = elemOf 32 ((s.core g).getV v) i 0))) ∧
    (∀ bs, x.kind = .store bs → x.dest = .none → bs.length = x.addrs.length → (x.addrs.map memKey).Nodup →
      ∃ t, exec .memoryAccessCompletion s = .next t ∧ gone t ∧ t.load x.addrs = bs ∧
        (∀ a, (∀ b ∈ x.addrs, memKey a ≠ memKey b) → t.byte a = s.byte a) ∧ (t.core g).files.s = (s.core g).files.s ∧
        (t.core g).files.v = (s.core g).files.v)) ∧
  (∀ (s : State) (x : Access) (v : Nat),
    let g := s.ev.core
    let k := s.ev.strand
    let reads : Prop := (∃ n, x.kind = .flagRead n ∧ v = ((s.core g).getF n).toNat) ∨
      (∃ n, x.kind = .streamStatus n ∧ v = ((s.core g).statusA n).toNat) ∨
      (∃ n l r, x.kind = .ringInfo n ∧ s.launch? (s.launchOn g) = some l ∧ l.rings[n]? = some r ∧ v = r.info.toNat) ∨
      (∃ n d, x.kind = .descriptor n ∧ x.dest = .slot d ∧ v = 0)
    s.access? (g, k, s.ev.num) = some x → x.phase = .issued → s.mayPerform g k x = true → x.flag = 63 → x.spc = false → x.flags = 0 →
    s.ev.nums = [] → (∀ r, x.dest ≠ .sPair r) → (∀ r l, x.dest ≠ .lanes r l) → reads →
    exec .memoryAccessCompletion s = .next (s.onCore g (fun c => (c.deliverTo x.dest 8 v).retire k x))) ∧
  (∀ (s : State) (x : Access) (n : Nat) (set : Bool) (v : BitVec 48),
    let g := s.ev.core
    let k := s.ev.strand
    s.access? (g, k, s.ev.num) = some x → x.phase = .issued → s.mayPerform g k x = true → x.kind = .flag n set v → s.ev.nums = [] →
    exec .memoryAccessCompletion s = .next (s.onCore g (fun c =>
      let y := c.flagTurn (match k with | .c => 2 | .a => 3 | .m => 4 | .o => 5)
      let old := y.getF n
      let z := y.deliverTo x.dest 8 old.toNat
      ((z.setF n (if set then v else old + v)).fireTriggers).retire k x))) ∧
  (∀ (s : State) (x : QFence),
    let g := s.ev.core
    (s.core g).fences.find? (fun y => y.id = s.ev.num) = some x → x.queues.Nodup → x.queues.all (s.fenceReached g x.id) = true →
    (s.core g).mwin.releases = [] →
    ∃ t, exec .qfencePass s = .next t ∧ (t.core g).fences = (s.core g).fences.filter (fun y => decide (y.id ≠ x.id)) ∧
      (t.core g).sbC = (s.core g).sbC &&& ~~~ slotBit x.slot ∧ (t.core g).tq = (if 0 ∈ x.queues then (s.core g).tq.tail else (s.core g).tq) ∧
      (t.core g).mq = (if 11 ∈ x.queues then (s.core g).mq.tail else (s.core g).mq) ∧ (t.core g).files = (s.core g).files ∧
      SameOthers g s t ∧ SameOutside s t) ∧
  (∀ (s : State) (sd : Nat) (code : BitVec 16) (arg : Word) (t : Task),
    let g := s.ev.core
    let r : Word := if code = 1 then Config.firmwareVersion s.mgmt.release else if code = 2 then BitVec.ofNat 64 (s.spareFrames (g / 96)) else BitVec.allOnes 64
    (s.core g).strandC.hold = .requested sd code arg → (s.core g).task = some t → code ≠ 3 →
    exec .syscallReply s = .next (s.onCore g (fun c => (c.setS sd r).onStrand .c (Strand.advance .c)))) ∧
  (∀ s : State, ((s.core s.ev.core).strand s.ev.strand).status = .blocked → exec .strandUnblock s =
    .next (s.onCore s.ev.core (fun c => c.onStrand s.ev.strand (fun x => { x with status := .running }))))

/-- R137, R138, R140, R227 and R228: an atomic that executes at its unit stores its operation's value over the old one in one step,
changes no other byte and keeps the old value for its completion, which delivers it (a NOR read may keep one that the location held
before, within the bounds of R138); a compare and swap stores only on a match. A pending sum is added to its location in one step
and leaves the die, no sooner than 4 µs after its first increment; where its location cannot take it, it is lost with its record. -/
def Obligations.AtomicExecution : Prop :=
  (∀ (s : State) (x : Access) (op ty use : Nat) (cas : Bool) (v e : BitVec 128),
    let g := s.ev.core
    let k := s.ev.strand
    let n := atomicBytes ty
    let m := leNat (s.load x.addrs)
    let seen := if use = 2 ∧ op = 10 ∧ cas = false ∧ s.ev.flag = true then s.norValue g k x m else m
    let stored := if cas then (if m = e.toNat % 2 ^ (8 * n) then v.toNat else m) else (atomicStored op ty m v.toNat).1
    (mergeLeaves s.ev.tree).length ≤ 1 → s.access? (g, k, s.ev.num) = some x → x.kind = .atomic op ty cas v e use → x.route = .plain →
    x.unit = 8 → s.vaultClosed g x = false → s.unreachable x.addrs = none → (∀ a ∈ x.addrs, s.poisoned a = false) → x.addrs.length = n → (x.addrs.map memKey).Nodup →
    (x.phase = .issued → use ≠ 3 → s.mayPerform g k x = true → ∃ t y, exec .atomicExecute s = .next t ∧
      (op ≠ 10 ∨ cas = true → leNat (t.load x.addrs) = stored % 2 ^ (8 * n)) ∧ (op = 10 → cas = false → SameMemory s t) ∧
      (∀ a, (∀ b ∈ x.addrs, memKey a ≠ memKey b) → t.byte a = s.byte a) ∧
      t.access? (g, k, s.ev.num) = some y ∧ y.phase = .answered (BitVec.ofNat 256 seen) ∧ y.dest = x.dest ∧ y.slot = x.slot ∧ SameOthers g s t) ∧
    (∀ r : BitVec 256, x.phase = .answered r → x.spc = false → x.flag = 63 → s.ev.nums = [] → s.ev.num2 = 0 → ∃ t,
      exec .memoryAccessCompletion s = .next t ∧ SameMemory s t ∧ (t.core g).out k = ((s.core g).out k).filter (fun y => decide (y.id ≠ x.id)) ∧
      (∀ d, x.dest = .s d → ∀ q, (t.core g).getS q = if q = d ∧ d ≠ 0 then BitVec.ofNat 64 r.toNat else (s.core g).getS q) ∧
      (∀ d, x.dest = .a d → ∀ q, (t.core g).getA q = if q = d ∧ d ≠ 0 then BitVec.ofNat 64 r.toNat else (s.core g).getA q))) ∧
  (∀ (s : State) (q : Qua) (a : Nat) (as : List Nat),
    let d := s.ev.num
    (s.die d).qua[s.ev.num2]? = some q → q.flying = false → q.counter = none → q.route = .plain → q.addrs = a :: as → q.unit = 8 →
    q.addrs.length = atomicBytes q.ty → (q.addrs.map memKey).Nodup →
    ((s.die d).time.toNat < q.since + 4000 → exec .quaPendingFlush s = .next s) ∧
    (∀ b, q.since + 4000 ≤ (s.die d).time.toNat → s.quaError q = some b →
      exec .quaPendingFlush s = .next ((s.onDie d (fun x => { x with qua := x.qua.filter (fun y => decide (y ≠ q)) })).loseQua q b)) ∧
    (q.since + 4000 ≤ (s.die d).time.toNat → s.quaError q = none → ∃ t, exec .quaPendingFlush s = .next t ∧
      leNat (t.load q.addrs) = (leNat (s.load q.addrs) + q.sum) % 2 ^ (8 * atomicBytes q.ty) ∧
      (∀ b, (∀ c ∈ q.addrs, memKey b ≠ memKey c) → t.byte b = s.byte b) ∧
      (t.die d).qua = (s.die d).qua.filter (fun y => decide (y ≠ q)) ∧ t.cores = s.cores))

/-! ### Events of the engines: transfers, copies, sends -/

/-- R255, R258, R259, R260 to R262: a tile load fills an empty tile with the tensor's elements, PAD standing for those outside it,
sets it full and counts the tile's bytes; a full tile holds the transfer queue; a prefetch only counts. A timed copy enters its
channel when its time has come. A copy step writes exactly the bytes it read, counts them, and ends its identifier with the last. -/
def Obligations.TransferCopyEvents : Prop :=
  (∀ (s : State) (x : Transfer) (rest : List (Entry Transfer)) (tk : Task),
    let g := s.ev.core
    let d := x.desc
    let n := x.target + x.done
    let e := 8 * d.tb / d.eb
    let ended : List (Entry Transfer) := if x.done + 1 < x.tiles then .work { x with part := 0, done := x.done + 1 } :: rest else rest
    (s.core g).tq = .work x :: rest → (s.core g).task = some tk → tk.stopped = false → (s.core g).flagRank < 2 → s.fabric.requests = [] →
    x.subs = 0 →
    (x.op = .tpref → x.flag ≠ 63 → ∃ t, exec .transferEntryPerform s = .next t ∧ SameMemory s t ∧ (t.core g).tq = ended ∧
      (t.core g).getF x.flag = (s.core g).getF x.flag + BitVec.ofNat 48 d.tb ∧ (∀ f, f ≠ x.flag → (t.core g).getF f = (s.core g).getF f)) ∧
    (x.op = .tld → x.kind = 1 → ((s.core g).tile n).full = true → exec .transferEntryPerform s = .next s) ∧
    (∀ el : Nat → Elem, x.op = .tld → x.kind = 1 → ((s.core g).tile n).full = false → x.part = 0 → d.eb ∈ [1, 4, 8, 16, 32] → d.tb ≤ 4096 →
      d.tileBits % 64 = 0 →
      (∀ te, te < e → s.elemAt g x x.done te .load = el te) →
      (∀ te, te < e → el te = .pad ∨ ∃ bit p bb a, el te = .at bit .plain p bb a ∧ s.unreachable (elemBytesAt d.eb bit) = none ∧
        ∀ b ∈ elemBytesAt d.eb bit, s.markedAt g 16 [] (b, .plain) = false) →
      ∃ t, exec .transferEntryPerform s = .next t ∧ SameMemory s t ∧ ((t.core g).tile n).full = true ∧ ((t.core g).tile n).poison = [] ∧
        (∀ te, te < e → ((t.core g).tile n).data.toNat / 2 ^ (d.eb * te) % 2 ^ d.eb = match el te with
          | .at bit _ _ _ _ => if 8 ≤ d.eb then leNat ((span (bit / 8) (d.eb / 8)).map s.anyByte) else (s.anyByte (bit / 8)).toNat / 2 ^ (bit % 8) % 2 ^ d.eb
          | _ => d.pad.toNat % 2 ^ d.eb) ∧
        ((t.core g).tile n).data.toNat < 2 ^ (d.eb * e) ∧ (t.core g).tq = ended ∧ (∀ m, m ≠ n → (t.core g).tile m = (s.core g).tile m) ∧
        (x.flag ≠ 63 → (t.core g).getF x.flag = (s.core g).getF x.flag + BitVec.ofNat 48 d.tb))) ∧
  (∀ (s : State) (ch : Nat) (x : Copy),
    let g := s.ev.core
    let q := (s.core g).channel ch
    (s.core g).timed = [(ch, x)] →
    (x.time.toNat ≤ s.timeOf g → (s.core g).room (17 + ch) = true → exec .copyTimeRelease s =
      .next (s.onCore g (fun c => ({ c with timed := [] } : Core).setChannel ch { q with queue := q.queue ++ [.work x] }))) ∧
    (s.timeOf g < x.time.toNat ∨ (s.core g).room (17 + ch) = false → exec .copyTimeRelease s = .next (s.onCore g (fun c => c)))) ∧
  (∀ (s : State) (x : Copy) (rest : List (Entry Copy)) (src dst : List (Nat × Target)),
    let g := s.ev.core
    let ch := s.ev.num
    let q := (s.core g).channel ch
    let n := min (4096 - (x.src.toNat + x.pos) % 4096) (x.count - x.pos)
    let plain (l : List (Nat × Target)) : Prop := ∀ e ∈ l, e.2.route = .plain ∧ e.2.unit = 8 ∧ e.2.addrs.length = 1 ∧ ∀ a ∈ e.2.addrs, paSpace a ≠ 6
    let at' (l : List (Nat × Target)) : List Nat := l.flatMap (fun e => e.2.addrs)
    q.queue = .work x :: rest → s.fabric.requests = [] → (s.core g).flagRank < 2 → x.flag ≠ 63 →
    s.checkBytes g x.ctx (x.src + BitVec.ofNat 64 x.pos) .load n = .ok src → s.checkBytes g x.ctx (x.dst + BitVec.ofNat 64 x.pos) .store n = .ok dst →
    plain src → plain dst → ((at' dst).map memKey).Nodup → s.unreachable (at' src ++ at' dst) = none → (∀ a ∈ at' src, s.markedAt g (17 + ch) [] (a, .plain) = false) →
    ∃ t, exec .copyEntryPerform s = .next t ∧ t.load (at' dst) = s.load (at' src) ∧
      (∀ a, (∀ b ∈ at' dst, memKey a ≠ memKey b) → t.byte a = s.byte a) ∧
      (t.core g).getF x.flag = (s.core g).getF x.flag + BitVec.ofNat 48 n ∧
      (x.pos + n < x.count → (t.core g).channel ch = { q with queue := .work { x with pos := x.pos + n } :: rest }) ∧
      (x.count ≤ x.pos + n → (t.core g).channel ch = { q with queue := rest, live := q.live.filter (fun i => decide (i ≠ x.tid)) } ∧
        (t.core g).sbA = (s.core g).sbA &&& ~~~ slotBit x.slot) ∧ SameOthers g s t)

/-- R142, R263, R265, R266 and R371: a send whose source is read starts in pieces of 32 bytes and keeps its place at the head of the
queue; it completes locally, adding its count to its flag and clearing its slot, and leaves the queue once every destination has
acknowledged; a piece writes exactly its bytes at its core and adds them to RFLAG there. A plan asks for its circuits before its
first step. -/
def Obligations.SendEvents : Prop :=
  (∀ (s : State) (x : Send) (rest : List (Entry Send)) (l : List Byte) (m : List Nat),
    let g := s.ev.core
    (s.core g).sq = .work x :: rest → x.begun = false → x.coll = false → x.mc = false → x.chip = s.chip → s.readSource g 25 x.ctx x.pc x.src x.count = (s, .bytes l m) →
    s.destFault x.gcore x.ctx x.dst x.count = none → l.length = x.count →
    ∃ t, exec .sendStart s = .next t ∧ (t.core g).sq = .work { x with begun := true } :: rest ∧
      (t.core g).flying = (s.core g).flying ++ [{ send := x, core := g, owed := (x.count + 31) / 32, localDone := false }] ∧
      t.fabric.pieces.length = s.fabric.pieces.length + (x.count + 31) / 32 ∧
      (t.fabric.pieces.drop s.fabric.pieces.length).flatMap (fun p => p.bytes) = l ∧ SameMemory s t ∧ SameOthers g s t) ∧
  (∀ (s : State) (f : Flying),
    let g := s.ev.core
    let done (c : Core) : Core := ({ c with flying := c.flying.map (fun y => if y.send.id = f.send.id then { y with localDone := true } else y) } : Core)
    (s.core g).flying.find? (fun y => y.send.id = s.ev.num) = some f →
    (f.localDone = false → f.send.zc = false → f.send.flag ≠ 63 → exec .sendLocalCompletion s = .next (s.onCore g (fun c =>
      let y := (done c).flagTurn 1
      ((y.setF f.send.flag (y.getF f.send.flag + BitVec.ofNat 48 f.send.count)).fireTriggers).clearSlot .a f.send.slot))) ∧
    (s.fabric.requests = [] → f.left = [] → f.owed = 0 → f.localDone = true → exec .sendAck s = .next (s.onCore g (fun c => c.endSend f.send.id))) ∧
    (∀ (x : Send) (rest : List (Entry Send)), (s.core g).sq = .work x :: rest → x.begun = true → x.id = f.send.id →
      (∀ y, .work y ∈ rest → y.begun = false) → (∀ y ∈ (s.core g).triggers, y.fired = false) →
      (s.core g).endSend f.send.id =
        { s.core g with flying := (s.core g).flying.filter (fun y => decide (y.send.id ≠ f.send.id)), sq := rest }) ∧
    (s.fabric.requests = [] → f.left = [] → f.owed ≠ 0 → exec .sendAck s = .next s)) ∧
  (∀ (s : State) (p : Piece) (dst : List (Nat × Target)) (tk : Task),
    let g := p.core
    let at' := dst.flatMap (fun e => e.2.addrs)
    s.fabric.pieces[s.ev.num]? = some p → p.member = none → (s.core g).present = true → (s.core g).task = some tk → tk.ctx = p.ctx →
    s.fabric.requests = [] → (s.core g).flagRank < 2 → p.rflag ≠ 63 → p.marks = [] →
    s.checkBytes g p.ctx p.dst .store p.bytes.length = .ok dst →
    (∀ e ∈ dst, e.2.route = .plain ∧ e.2.unit = 8 ∧ e.2.addrs.length = 1 ∧ ∀ a ∈ e.2.addrs, paSpace a ≠ 6) → (at'.map memKey).Nodup →
    s.unreachable at' = none → at'.length = p.bytes.length →
    ∃ t, exec .sendDelivery s = .next t ∧ t.load at' = p.bytes ∧ (∀ a, (∀ b ∈ at', memKey a ≠ memKey b) → t.byte a = s.byte a) ∧
      (t.core g).getF p.rflag = (s.core g).getF p.rflag + BitVec.ofNat 48 p.bytes.length) ∧
  (∀ (s : State) (p : Plan), s.fabric.plans[s.ev.num]? = some p → p.failed = false → p.closing = none →
    (p.asked = false → exec .collectivePlanRun s =
      .next ((s.onPlan p.core p.send.id (fun p => { p with asked := true })).planCircuits p false)) ∧
    (p.asked = true → p.up.length < p.circuits.length → exec .collectivePlanRun s = .next s))

/-! ### Events of the matrix and optical engines -/

/-- R274, R278, R280, R282, R285 to R289, R411: an MMA or BMMA whose operands are there writes, for every m and n, the element that
its type pair's sum of the K products gives over the old word (or −0), and no other byte; it leaves the queue, adds its flag and,
with cmode 2, empties its tiles. The commands act on their tile, block or flag and wait for an empty tile; four ganged entries that
agree start together with the supplier's B. R82, R83, R90 to R92: what an element of each type is worth, the exact product of two, and
the rounding of a sum of products and the old word. -/
def Obligations.MatrixEvents : Prop :=
  (∀ (s : State) (x : Mma) (rest : List (Entry MEntry)),
    let g := s.ev.core
    let z := s.beginM g
    let kk := 1024 / max (elemBits x.aty) (elemBits x.bty)
    let a := z.operandBits g x.a
    let b := z.operandBits g x.b
    let elem (d : BitVec 32768) (w i : Nat) : Nat := d.toNat / 2 ^ (w * i) % 2 ^ w
    let product (m n k : Nat) : Machine.Num :=
      let p := elem a (elemBits x.aty) (m * kk + k)
      let q := elem b (elemBits x.bty) (if x.btr then k * 32 + n else n * kk + k)
      if x.binary then ofInt (if x.scl then 1 - 2 * (((p + q) % 2 : Nat) : Int) else ((p * q : Nat) : Int)) else mmaProduct x.aty x.bty p q 127 127
    (s.core g).heldStrands.contains .m = false → (s.core g).mq = .work (.mma x) :: rest → x.gang = none → x.scales = none → (x.scl = true → x.binary = true) → x.tsm = false →
    (s.core g).mwin = {} → (s.core g).flagRank < 2 → (s.core g).strandM.status ≠ .ended → (s.core g).strandO.status ≠ .ended →
    (s.core g).operandFull x.a = true → (s.core g).operandFull x.b = true → x.flag ≠ 63 →
    z.readOperand g x.a (4 * kk * elemBits x.aty) = (z, none) → z.readOperand g x.b (4 * kk * elemBits x.bty) = (z, none) →
    (x.cmode ≠ 1 → ∀ i, i < 1024 → s.poisoned (accAt g (x.c + i)) = false) → x.c + 1024 ≤ 786432 → g < 768 →
    ∃ t, exec .matrixEntryPerform s = .next t ∧ (t.core g).mq = rest ∧ (t.core g).getF x.flag = (s.core g).getF x.flag + 1 ∧
      (∀ m n, m < 32 → n < 32 → t.acc g (x.c + 32 * m + n) = mmaElement x.aty x.bty ((List.range kk).map (product m n))
        (if x.cmode = 1 then 0x80000000 else s.acc g (x.c + 32 * m + n))) ∧
      (∀ p, (∀ i, i < 4096 → memKey p ≠ accAt g x.c + i) → t.byte p = s.byte p) ∧
      (∀ i, x.a = .tile i → ((t.core g).tile i).full = decide (x.cmode ≠ 2)) ∧ (t.core g).getM = (s.core g).getM) ∧
  (∀ (s : State) (e : MEntry) (rest : List (Entry MEntry)),
    let g := s.ev.core
    let c := s.core g
    c.heldStrands.contains .m = false → c.mq = .work e :: rest → c.mwin = {} → c.flagRank < 2 → c.strandM.status ≠ .ended → c.strandO.status ≠ .ended → s.poison = [] → g < 768 →
    let ran (f : State → Prop) : Prop := ∃ t, exec .mCommandPerform s = .next t ∧ (t.core g).mq = rest ∧ f t
    let added (t : State) (f : Nat) : Prop := f ≠ 63 → (t.core g).getF f = c.getF f + 1
    let waits : Prop := ∃ t, exec .mCommandPerform s = .next t ∧ t.core g = c ∧ SameOthers g s t ∧ SameOutside s t
    (∀ i f, e = .mtz i f → ((c.tile i).full = true → waits) ∧
      ((c.tile i).full = false → ran (fun t => (t.core g).tile i = { full := true, data := 0, poison := [] } ∧ added t f ∧ SameMemory s t))) ∧
    (∀ a n f pc, e = .maccz a n f pc → a + 32 * (n + 1) ≤ 786432 → ran (fun t => added t f ∧ (∀ i, i < 32 * (n + 1) → t.acc g (a + i) = 0) ∧
      ∀ p, (∀ i, i < 128 * (n + 1) → memKey p ≠ accAt g a + i) → t.byte p = s.byte p)) ∧
    (∀ i a ty z f pc, e = .mtacc i a ty z f pc → ty ≤ 4 → a + 1024 ≤ 786432 → (c.tile i).full = false → ran (fun t => added t f ∧ ((t.core g).tile i).full = true ∧
      (∀ m n, m < 32 → n < 32 → ((t.core g).tile i).data.toNat / 2 ^ (1024 * m + elemBits ty * n) % 2 ^ elemBits ty =
        streamConvert 0 ty none (s.acc g (a + 32 * m + n)).toNat % 2 ^ elemBits ty) ∧
      (∀ j, j < 1024 → t.acc g (a + j) = if z then 0 else s.acc g (a + j)))) ∧
    (∀ i, e = .msetf i → (c.tile i).full = true → waits) ∧
    (∀ i, e = .msetf i → (c.tile i).full = false → ran (fun t => (t.core g).tile i = { c.tile i with full := true } ∧ SameMemory s t)) ∧
    (∀ i, e = .mtrel i → ran (fun t => (t.core g).tile i = { c.tile i with full := false } ∧ SameMemory s t)) ∧
    (∀ f v, e = .mfladd f v → f ≠ 63 → ran (fun t => (t.core g).getF f = c.getF f + v ∧ SameMemory s t)) ∧
    (∀ ga gb n, e = .mscq ga gb n → n ≤ c.scales.length → ran (fun t => (t.core g).scales = c.scales.drop n ∧ (t.core g).geoA = ga ∧ (t.core g).geoB = gb)) ∧
    (∀ ga gb n, e = .mscq ga gb n → c.scales.length < n → waits)) ∧
  (∀ (s : State) (gs : List (Nat × Mma)) (sg : Nat) (sx : Mma),
    let z := (quadOf s.ev.core).foldl State.beginM s
    (quadOf s.ev.core).filterMap (fun g => ((z.core g).gangHead).map (fun x => (g, x))) = gs → gs.length = 4 →
    (∀ e ∈ gs, e.2.started = none ∧ e.2.counter = sx.counter ∧ e.2.scl = false ∧ (z.core e.1).gangReady e.2 = true ∧
      (z.core e.1).heldStrands.contains .m = false ∧ (∀ k ∈ (z.core e.1).task, k.stopped = false)) →
    gs.find? (fun e => (z.core e.1).suppliesB e.2) = some (sg, sx) → z.readOperand sg sx.b sx.bBytes = (z, none) →
    ((∀ e ∈ gs, sx.agrees e.2 = true) → (∀ e ∈ gs, e.2.scales = none) → ∃ t, exec .gangEntryStart s = .next t ∧
      (∀ e ∈ gs, ∃ y, (t.core e.1).mHead = some (.mma y) ∧ y.started = some (z.operandBits sg sx.b) ∧ y.a = e.2.a ∧ y.c = e.2.c ∧ y.cmode = e.2.cmode ∧
        (t.core e.1).mq.tail = (z.core e.1).mq.tail) ∧ SameMemory z t) ∧
     ((∃ e ∈ gs, sx.agrees e.2 = false) → exec .gangEntryStart s =
        .next (gs.foldl (fun s e => s.taskFault e.1 .m false 0x0D e.2.pc 0 (BitVec.ofNat 64 e.2.counter)) z))) ∧
  (∀ (s : State) (x : Mma),
    let g := s.ev.core
    (s.core g).gangHead = some x →
    (∀ k, (s.core g).task = some k → k.stopped = false → s.partnerLost g = true → 65536 ≤ (s.core g).gangStall →
      exec .gangPartnerTimeout s = .next (s.taskFault g .m false 0x0D x.pc 0 (BitVec.ofNat 64 x.counter))) ∧
    (s.partnerLost g = false ∨ (s.core g).gangStall < 65536 → exec .gangPartnerTimeout s = .next s)) ∧
  (∀ (aty bty : Nat) (products : List Machine.Num) (c : BitVec 32),
    let ts := products ++ [readFloat fp32 false c.toNat]
    let r := mmaElement aty bty products c
    let rounded (v : ℚ) : Prop := (v = 0 → r = 0) ∧ (v ≠ 0 → ∃ x, fp32.rounds 0 false (decide (v < 0)) |v| x ∧ r = BitVec.ofNat 32 x.1)
    let nan : Prop := (∃ t ∈ ts, t.isNan = true) ∨ (.inf false ∈ ts ∧ .inf true ∈ ts)
    (nan → r = 0x7FC00000) ∧ (¬nan → .inf false ∈ ts → r = 0x7F800000) ∧ (¬nan → .inf true ∈ ts → r = 0xFF800000) ∧
    ((∀ t ∈ ts, t.isZero = true) → r = if ts.all Machine.Num.isNeg then 0x80000000 else 0) ∧
    ((∀ t ∈ ts, ∃ n m e, t = .fin n m e) → (∃ t ∈ ts, t.isZero = false) →
      (aty = 10 → bty = 10 → rounded (ts.map Machine.Num.val).sum) ∧
      (∀ top : Int, aty ≠ 10 ∨ bty ≠ 10 → (∃ t ∈ ts, (2 : ℚ) ^ top ≤ |t.val|) → (∀ t ∈ ts, |t.val| < (2 : ℚ) ^ (top + 1)) →
        let q : ℚ := (2 : ℚ) ^ (top - 63)
        rounded ((ts.map (fun t => if t.val < 0 then -(((⌊-t.val / q⌋ : Int) : ℚ) * q) else ((⌊t.val / q⌋ : Int) : ℚ) * q)).sum)))) ∧
  (∀ (t x : Nat),
    let w := elemBits t
    let v := (readNum t false x).val
    (t ≤ 4 → readNum t false x = readFloat (fmtOf t) false (x % 2 ^ w)) ∧ (t ∈ [5, 6, 7, 9] → v = signedOf w (x % 2 ^ w)) ∧
    (t = 8 ∨ t = 14 → v = (x % 256 : Nat)) ∧ (t = 11 → v = if x % 64 = 32 then -31 else signedOf 6 (x % 64)) ∧ (t = 12 → v = (x % 2 : Nat)) ∧
    (t = 10 → v = if x % 32 = 0 then 0 else
      (if x / 32 % 2 = 1 then -1 else 1) * (([4194304, 4987896, 5931642, 7053950].getD (x % 4) 0 : Nat) : ℚ) * (2 : ℚ) ^ (((x % 32 / 4 : Nat) : Int) - 26))) ∧
  (∀ (aty bty a b ga gb : Nat),
    let r := mmaProduct aty bty a b ga gb
    let x := readNum aty false a
    let y := readNum bty false b
    let sc : ℚ := (2 : ℚ) ^ ((ga : Int) - 127) * (2 : ℚ) ^ ((gb : Int) - 127)
    (aty = 10 → bty = 10 → (r.isNeg = true ↔ a / 32 % 2 ≠ b / 32 % 2) ∧
      |r.val| = if a % 32 = 0 ∨ b % 32 = 0 then 0 else
        (([4194304, 4987896, 5931642, 7053950].getD ((a % 32 + b % 32) % 4) 0 : Nat) : ℚ) * (2 : ℚ) ^ ((((a % 32 + b % 32) / 4 : Nat) : Int) - 30) * sc) ∧
    (aty ≠ 10 ∨ bty ≠ 10 →
      (∀ n m e k l f, x = .fin n m e → y = .fin k l f → (∃ i h, r = .fin (n != k) i h) ∧ r.val = x.val * y.val * sc) ∧
      (x.isNan = true ∨ y.isNan = true → r.isNan = true) ∧
      (∀ n k, x = .inf n → y = .inf k → r = .inf (n != k)) ∧
      (∀ n k l f, (x = .inf n ∧ y = .fin k l f) ∨ (y = .inf n ∧ x = .fin k l f) → if l = 0 then r.isNan = true else r = .inf (n != k))))

/-- R102, R112, R113, R116, R117, R269: a bus takes a BCAST only in segment order, and refuses it with cause 0x43 otherwise; a
segment leaves only when every arm is counted; the frame carries its segment's codes; its last symbol adds 1 to the BCAST's flag.
Arms are counted once per module and segment, and a module sends its own again 20 µs after the last. R121, R431 and R432: no commit while
a core's drift is to be measured; a core whose window would be committed with SKW 2 runs TRIM first; a bus that lost its power emits
again once LPC is 0 or 1. -/
def Obligations.SequencerEvents : Prop :=
  (∀ (s : State) (b : Bcast) (rest : List (Entry Bcast)),
    let g := s.ev.core
    let x := s.bus b.bus
    let popped : State := s.onCore g (fun c => ({ c with bq := rest } : Core).clearSlot .a b.slot)
    (s.core g).bq = .work b :: rest →
    ((∀ l, x.lastQueued = some l → after b.n0 l = true) → ∃ t, exec .bcastAccept s = .next t ∧ t.cores = popped.cores ∧
      (t.bus b.bus).jobs = x.jobs ++ [{ cmd := b }] ∧ (t.bus b.bus).lastQueued = some (b.n0 + BitVec.ofNat 32 (b.n - 1)) ∧
      (t.bus b.bus).kept = (x.kept ++ [({ cmd := b } : Job)]).drop (x.kept.length + 1 - 64) ∧ (∀ k, k ≠ b.bus → t.bus k = s.bus k)) ∧
    (∀ l, x.lastQueued = some l → after b.n0 l = false → exec .bcastAccept s =
      .next (popped.taskFault g .a false 0x43 b.pc (BitVec.ofNat 64 (b.bus * 2 ^ 32 + b.n0.toNat)) 0))) ∧
  (∀ (s : State) (j : Job) (rest : List Job),
    let k := s.ev.num
    let x := s.bus k
    let b := j.cmd
    let n := b.n0 + BitVec.ofNat 32 j.next
    let armed := s.setArmed b.launch b.group k n = true ∧ ∀ e ∈ x.subs, e.2 = 0 ∨ (n, e.2 - 1) ∈ x.arms
    let measured := ∀ c ∈ s.cores, s.driftOwed c.1 c.2 = false
    x.jobs = j :: rest →
    (x.lpc = 3 ∨ x.wanted ≠ [] ∨ ¬armed ∨ ¬measured → exec .segmentEmissionCommit s = .next s) ∧
    (x.lpc ≠ 3 → x.wanted = [] → armed → measured → (∃ c ∈ s.cores, c.2.trimFirst k n = true) → exec .segmentEmissionCommit s =
      .next (s.mapCores (fun _ c => if c.trimFirst k n then c.oweTrim else c))) ∧
    (∀ r, x.lpc ≠ 3 → x.wanted = [] → armed → measured → (∀ c ∈ s.cores, c.2.trimFirst k n = false) → s.formCodes b j.next = (s, .ready r) → r.bad = 0 → r.badScale = none → s.upsets = [] → ∃ t,
      exec .segmentEmissionCommit s = .next t ∧ (t.bus k).lastEmitted = some n ∧
      (t.bus k).flights = x.flights ++ [{ frame := { frameOf b j.next none r with crcOk := true }, cmd := some b,
                                          skws := (t.cores.map (fun c => (c.1, c.2.skw))).filter (fun e => decide (e.2 ≠ 3)) }] ∧
      (t.bus k).jobs = (if j.next + 1 < b.n then { j with next := j.next + 1 } :: rest else rest) ∧
      (t.bus k).arms = x.arms.filter (fun a => decide (a.1 ≠ n)) ∧ SameMemory s t)) ∧
  (∀ (s : State) (n : BitVec 32) (b : Bcast) (j : Nat) (r : ActRead),
    let k := s.ev.num
    let g := s.ev.core
    let x := s.bus k
    x.wanted.find? (fun e => e.1 = g) = some (g, n) → x.keptFor n = some (b, j) →
    (x.lpc = 3 ∨ x.dark = true → exec .reEmission s = .next s) ∧
    (x.lpc ≠ 3 → x.dark = false → (∀ c ∈ s.cores, s.driftOwed c.1 c.2 = false) → s.formCodes b j = (s, .ready r) → r.bad = 0 → r.badScale = none → s.upsets = [] → exec .reEmission s =
      .next (s.onBus k (fun x => { x with
        wanted := x.wanted.filter (fun e => decide (e ≠ (g, n)))
        flights := x.flights ++ [{ frame := { frameOf b j (some g) r with crcOk := true }, cmd := none,
                                   skws := (s.cores.map (fun c => (c.1, c.2.skw))).filter (fun e => decide (e.2 ≠ 3)) }] })))) ∧
  (∀ (s : State) (f : Flight) (rest : List Flight) (b : Bcast) (tk : Task),
    let k := s.ev.num
    (s.bus k).flights = f :: rest → f.cmd = some b → (∀ c ∈ s.cores, c.1 ∈ f.reached) → (s.core b.core).task = some tk → tk.launch = b.launch →
    (s.core b.core).flagRank < 2 → b.flag ≠ 63 →
    ∃ t, exec .segmentSent s = .next t ∧ (t.bus k).flights = rest ∧ (t.core b.core).getF b.flag = (s.core b.core).getF b.flag + 1 ∧
      SameOthers b.core s t ∧ SameMemory s t) ∧
  (∀ s : State,
    let k := s.ev.num
    let n := BitVec.ofNat 32 s.ev.num2
    let chip := s.ev.num3
    let x := s.bus k
    ((∃ e ∈ x.subs, e.2 = chip + 1) → (n, chip) ∉ x.arms → x.passed n = false → exec .remoteArmFlit s =
      .next (s.onBus k (fun x => { x with arms := x.arms ++ [(n, chip)] }))) ∧
    ((∀ e ∈ x.subs, e.2 ≠ chip + 1) ∨ (n, chip) ∈ x.arms ∨ x.passed n = true → exec .remoteArmFlit s = .next (s.onBus k (fun x => x))) ∧
    let now := (s.die 8).time.toNat
    (x.armSent = none → exec .armFlitResend s = .next s) ∧
    (∀ m at', x.armSent = some (m, at') → x.passed m = true ∨ now < at' + 20000 → exec .armFlitResend s = .next s) ∧
    (∀ m at' to_ bus, x.armSent = some (m, at') → x.passed m = false → at' + 20000 ≤ now → s.remoteSetArmed k m = some (to_, bus) →
      exec .armFlitResend s = .next ((s.injectControl { kind := .arm, src := 0, dst := to_, addr := bus, tag := m }).onBus k
        (fun x => { x with armSent := some (m, now) }))))

/-- R105 to R111, R113, R119 to R122, R298, R430 to R432: a tuned head window becomes ready with its row exponents and its first codes
fetched; the marker of its segment begins it when T, divisor and CRC fit, with the SKW of the emission, and faults with 0x45 or 0x40
otherwise; a performed window writes for every row and wavelength of the
mask the old word plus the delivered code, scaled, or a NaN where the column was not finite, and no other byte, then its flag, its
status word and its place in the queue; calibrations set SKW; laser power is recorded. -/
def Obligations.WindowEvents : Prop :=
  (∀ (s : State) (w : Window) (rest : List (Entry OEntry)),
    let g := s.ev.core
    let c := s.core g
    let b := s.bus w.bus
    let fault (z : State) (cause : Nat) : Result := .next ((z.onCore g (fun c => { c with oq := rest })).taskFault g .o false cause w.pc
      (BitVec.ofNat 64 (w.bus * 2 ^ 32 + w.seg.toNat)) (BitVec.ofNat 64 w.number))
    let p := 32 * ((w.t + 31) / 32)
    let read (o : Nat) : Byte := s.byte (vaultAt g (w.weights + o))
    let column (t : Nat) : List Byte := (List.range w.rows).map (fun i => read (i * p + t))
    c.oq = .work (.window w) :: rest →
    (w.ready = false → c.calibrating = none → c.owedCal = none → c.skw ≠ 2 → w.tsm = false → w.bus < 4 → b.passed w.seg = false →
      w.ew = [] → w.cols = [] → s.poison = [] →
      let tuned : State := s.onCore g (fun c => { c with tuned := some w.bus, owin := c.owin.limited [], oq := .work (.window { w with ready := true }) :: rest })
      exec .windowHeadReady s = .next (tuned.onCore g (fun c => { c with oq := .work (.window { w with
        ready := true
        ew := (List.range w.rows).map (fun i => read (w.rows * p + i))
        cols := (List.range (min w.t 32)).map column }) :: rest }))) ∧
    (∀ f more, w.bus = s.ev.num → (s.bus s.ev.num).flights = f :: more → g ∉ f.reached → f.frame.seg = w.seg → f.frame.re = none →
      w.frame = none → w.ready = true →
      let z : State := s.onBus s.ev.num (fun x => { x with flights := { f with reached := f.reached ++ [g] } :: more })
      (f.frame.crcOk = true → w.t = f.frame.t → w.div = f.frame.div → exec .markerFrameArrival s =
        .next (z.onCore g (fun c => { c with oq := .work (.window { w with
          begun := true, frame := some f.frame, skw := look 3 f.skws g }) :: rest }))) ∧
      (f.frame.crcOk = false → exec .markerFrameArrival s = fault z 0x45) ∧
      (f.frame.crcOk = true → w.t ≠ f.frame.t ∨ w.div ≠ f.frame.div → exec .markerFrameArrival s = fault z 0x40)) ∧
    (∀ f, w.frame = some f → (b.lpc = 3 → exec .windowCompletion s = fault s 0x46) ∧
      (b.lpc.toNat ≤ 1 → w.skw.toNat ≤ 1 → w.ref = 2 → s.poison = [] → c.owin = {} → c.flagRank < 2 → w.flag ≠ 63 → rest ≠ [] → c.mq ≠ [] →
        w.acc + 32 * w.rows ≤ 786432 → g < 768 →
        let weight (i t : Nat) : Nat := (if t < w.cols.length then (w.cols.getD t []).getD i 0 else read (i * p + t)).toNat
        let ew (i : Nat) : Nat := (if w.ew = [] then read (w.rows * p + i) else w.ew.getD i 0).toNat
        let code (i b : Nat) : Int := deliveredCode true w.t w.sh
          (((List.range w.t).map (fun t => oscValue (weight i t % 64) * (f.codes.getD b []).getD t 0)).sum) (Config.free (s.freeCtr + 32 * i + b))
        ∃ t word, exec .windowCompletion s = .next t ∧ (t.core g).oq = rest ∧ (t.core g).getF w.flag = c.getF w.flag + 1 ∧
          (w.number, word) ∈ (t.core g).statuses ∧ (word : Word).getLsbD 32 = false ∧
          (∀ i b, i < w.rows → b < 32 → f.codes.length = 32 → (∀ l ∈ f.codes, l.length = w.t) → (t.acc g (w.acc + 32 * i + b)).toNat =
            if f.mask.getLsbD b = false then (s.acc g (w.acc + 32 * i + b)).toNat else if f.ea.getD b 0 = -128 then 0x7FC00000
            else (updateWord w.accumulate (s.acc g (w.acc + 32 * i + b)) (termNum (code i b) (w.sh + sInt 8 (ew i) + f.ea.getD b 0))).1) ∧
          (∀ a, (∀ i, i < 128 * w.rows → memKey a ≠ accAt g w.acc + i) → t.byte a = s.byte a))) ∧
    (c.calibrating = none → w.begun = false → c.owedCal = none → exec .calibrationRun s =
      .next (s.onCore g (fun c => { c with calibrating := some false, calHead := false, oq := .work (.window { w with ready := false }) :: rest })))) ∧
  (∀ (s : State) (k : Bool) (rest : List (Entry OEntry)),
    let g := s.ev.core
    let c := s.core g
    c.oq = .work (.cal k) :: rest → c.owedCal = none →
    (c.calibrating = none → exec .calibrationRun s = .next (s.onCore g (fun c => { c with calibrating := some k, calHead := true }))) ∧
    (c.calibrating = some k → s.ev.nums = [] → s.ev.flag = true → c.strandM.status ≠ .ended → c.strandO.status ≠ .ended →
      exec .calibrationComplete s = .next (s.onCore g (fun c =>
        { c with calibrating := none, calHead := false, skw := 0, resting := false, trimmedAt := (s.die (dieOf g)).time.toNat
                 oq := if c.calHead then rest else c.oq })))) ∧
  (∀ s : State,
    (s.core s.ev.core).skw.toNat ≤ 1 → exec .skewDriftMeasured s = .next (s.onCore s.ev.core (fun c => { c with skw := if s.ev.flag then 1 else 2 }))) ∧
  (∀ s : State,
    let k := s.ev.num
    let v : BitVec 2 := BitVec.ofNat 2 s.ev.num2
    k < 8 → s.mgmt.lasersOff = false →
    (v ≠ (s.bus k).lpc → v ≠ 3 → ∃ t, exec .laserPowerChange s = .next t ∧ (t.bus k).lpc = v ∧ t.cores = s.cores ∧ SameMemory s t) ∧
    (v = (s.bus k).lpc → exec .laserPowerChange s = .next s) ∧
    ((s.bus k).lpc = 3 → k < 4 → (s.bus k).since + 100000000 ≤ (s.die 8).time.toNat → s.unemitted k = [] →
      s.windowsOn k (fun w => w.frame.isNone) = [] → exec .laserPowerLostExpiry s = .next (s.onBus k (fun b => { b with lost := true }))) ∧
    ((s.bus k).lpc ≠ 3 ∨ (s.die 8).time.toNat < (s.bus k).since + 100000000 → exec .laserPowerLostExpiry s = .next s))

/-! ### Events of pages, tasks and the scheduler -/

/-- R63, R69, R71, R72, R322, R405, R421, R422, R429: a page-in writes the entry and, for a fresh page, zeros the frame, and the
access units that waited go on; a page that cannot be given denies its core, and one for which no frame is left gives back the frames that
its instruction has. A migration copies the page, raises MIG and leaves the
other fields; a lattice type change writes LAT and FMT alone. TTINV drops the context's old entries once no tile of
the page is half moved. The stall monitor and the
parked-load timer raise their causes at their limits. -/
def Obligations.PagingEvents : Prop :=
  (∀ (s : State) (ctx tn pg : Nat) (q : PageReq) (d : Desc) (w0 w1 : Word),
    let g := s.ev.core
    let frame := w0.toNat / 2 ^ 16 * 2 ^ 16
    let entry := d.entryAddr pg
    let r := (ctx, tn, pg)
    let who := q.who.core
    (s.core g).waitsPage s.ev.strand = some r → s.pageReqs.find? (fun q => (q.ctx, q.tensor, q.page) = r) = some q →
    (s.ev.page = .notMapped → exec .pageInComplete s = .next ((s.endPageIn r).onCore who (fun c =>
      { c with denied := c.denied ++ [{ ctx := ctx, tensor := tn, page := pg, cause := 0x24, data := 0 }] }))) ∧
    (∀ need got, s.ev.page = .noFrame need got → q.who.queue = 255 ∨ (s.core who).reserve = 0 → s.spareFrames (dieOf who) = 0 →
      s.residents.any (s.canGive (dieOf who)) = false → got = ((s.core who).footprintOf q.who).length → got < need →
      exec .pageInComplete s = .next (((s.returnFrames q.who).endPageIn r).onCore who (fun c =>
        { c with denied := c.denied ++ [{ ctx := ctx, tensor := tn, page := pg, cause := 0x29, data := BitVec.ofNat 64 (need % 256 + got % 256 * 256) }] }))) ∧
    (∀ took,
      let z := s.refill q.who
      s.ev.page = .resident w0 w1 none took → s.desc? ctx tn = some d → w0.getLsbD 0 = true → paChip frame = s.chip → paSpace frame ≠ 6 → paChip entry = s.chip →
      z.refillOwed q.who = false → z.isValid d pg = false → (z.ownFrame frame = false ∨ (took = .free ∧ 0 < z.spareFrames (homeDie frame))) →
      memKey entry + 16 ≤ 2 ^ 52 → (memKey entry + 16 ≤ memKey frame ∨ memKey frame + 65536 ≤ memKey entry) → ∃ t,
      exec .pageInComplete s = .next t ∧ t.loadLE entry 8 = w0.toNat ∧ t.loadLE (entry + 8) 8 = w1.toNat ∧
      (∀ i, i < 65536 → t.byte (frame + i) = 0) ∧
      (∀ a, (∀ i, i < 16 → memKey a ≠ memKey entry + i) → (∀ i, i < 65536 → memKey a ≠ memKey frame + i) → t.byte a = s.byte a) ∧
      (∀ p ∈ t.pageReqs, (p.ctx, p.tensor, p.page) ≠ r) ∧
      (∀ h, (t.core h).unitHalt = if (s.core h).unitHalt = some r then none else (s.core h).unitHalt))) ∧
  (∀ (s : State) (d : Desc),
    let ctx := s.ev.num
    let new := s.ev.word.toNat / 65536 * 65536
    let entry := d.entryAddr s.ev.num3
    let p := s.readPage entry
    let w0 := s.loadLE entry 8
    let w1 := s.loadLE (entry + 8) 8
    let now := s.keystoneTime
    let moves := s.movesOf ctx entry
    s.desc? ctx s.ev.num2 = some d →
    (p.v = false ∨ p.pin = true ∨ movesHeld moves now = true ∨ (p.lat ≠ 0 ∧ paChip p.frame ≠ paChip new) → exec .pageMigration s = .next s) ∧
    (p.v = true → p.pin = false → movesHeld moves now = false → paChip entry = s.chip → s.pageReqs = [] → s.frameBusy p.frame = false → paChip p.frame = s.chip → paChip new = s.chip →
      s.mapped new = true → paSpace new ≠ 6 → paSpace p.frame ≠ 6 → memKey entry + 16 ≤ 2 ^ 52 →
      (memKey entry + 16 ≤ memKey new ∨ memKey new + 65536 ≤ memKey entry) → ∃ t, exec .pageMigration s = .next t ∧
      t.loadLE entry 8 = new + w0 % 65536 ∧ t.loadLE (entry + 8) 8 = w1 - p.mig * 16 + min 7 ((recentMoves moves now).length + 1) * 16 ∧ (∀ i, i < 65536 → t.byte (new + i) = s.byte (p.frame + i)) ∧
      (∀ a, (∀ i, i < 16 → memKey a ≠ memKey entry + i) → (∀ i, i < 65536 → memKey a ≠ memKey new + i) → t.byte a = s.byte a))) ∧
  (∀ (s : State) (d : Desc),
    let entry := d.entryAddr s.ev.num3
    let p := s.readPage entry
    let w0 := s.loadLE entry 8
    let lat := s.ev.num4
    s.desc? s.ev.num s.ev.num2 = some d →
    (p.v = false ∨ 10 ≤ lat → exec .latticeTypeChange s = .next s) ∧
    (p.v = true → lat < 10 → lat ≠ 0 → paChip entry = s.chip → (p.lat = 0 ∨ d.home ≠ 2 ∨ s.othersMerged p.frame = true) → (∀ c ∈ s.cores, c.2.outC = [] ∧ c.2.outA = []) → (∀ e ∈ s.dies, e.2.granules = [] ∧ e.2.parked = []) →
      memKey entry + 16 ≤ 2 ^ 52 → ∃ t, exec .latticeTypeChange s = .next t ∧ t.loadLE entry 8 / 2 ^ 16 = w0 / 2 ^ 16 ∧
      t.loadLE entry 8 / 2 ^ 12 % 16 = 14 ∧ t.loadLE entry 8 / 2 ^ 8 % 16 = lat ∧ t.loadLE entry 8 % 2 ^ 8 = w0 % 2 ^ 8 ∧
      (∀ a, (∀ i, i < 8 → memKey a ≠ memKey entry + i) → t.byte a = s.byte a))) ∧
  (∀ (s : State) (d : Desc), s.ev.flag = false → s.desc? s.ev.num (tensorOf s.ev.word) = some d →
    let page := d.bitPos (8 * offsetOf s.ev.word / d.eb) / 8 / 65536
    (s.midTile s.ev.num (tensorOf s.ev.word) page = true → exec .ttinvWrite s = .next s) ∧
    (s.midTile s.ev.num (tensorOf s.ev.word) page = false → exec .ttinvWrite s =
      .next { s with walked := [], stale := s.stale.filter (fun e => decide (¬(e.1 = s.ev.num ∧ e.2.1 = d.entryAddr page))) })) ∧
  (∀ (s : State) (w : Waits),
    let g := s.ev.core
    let c := s.core g
    let limit := (s.die (g / 96)).dlk.toNat * 1024
    s.stallWaits g = some w →
    (limit = 0 ∨ c.stall < limit → exec .stallLimit s = .next s) ∧
    (∀ tk, c.task = some tk → tk.stopped = true → exec .stallLimit s = .next s) ∧
    (∀ tk, c.task = some tk → tk.stopped = false → limit ≠ 0 → limit ≤ c.stall → c.halted = false → exec .stallLimit s =
      .next (s.taskFault g c.firstBlocked false (if w.pool then 0x1C else if w.scale then 0x1B else 0x1A) (c.strand c.firstBlocked).pc
        (c.stallAddr w) (BitVec.ofNat 64 c.stall)))) ∧
  (∀ (s : State) (p : Parked) (n : Nat),
    let d := s.ev.num
    (s.die d).parked[s.ev.num2]? = some p → p.limit = some n →
    ((s.die d).time.toNat < n → exec .parkedLoadTimeout s = .next s) ∧
    (n ≤ (s.die d).time.toNat → exec .parkedLoadTimeout s =
      .next ((s.onDie d (fun x => { x with parked := x.parked.eraseIdx s.ev.num2 })).taskFault p.core .c false 0x53 p.pc p.vaddr (p.theta.setWidth 64))))

/-- R27 to R30, R33, R43 to R45, R311 to R315, R320: a task starts with the registers, strands and entry points of R30 and nothing
left of an earlier one; it ends when its entries are performed, and its core is free; a pre-emption discards an open region and
marks a sealed one; a sealed-pending region that reaches its bound fails, though its task is at its end; a discarded task is re-queued once and its core freed; a
launch completes with its record. -/
def Obligations.TaskEvents : Prop :=
  (∀ (s : State) (l : Launch) (i j : Nat) (st : Stage) (b : List Byte),
    let g := s.ev.core
    let c := s.core g
    let f := fieldAt b
    s.stageOf g = some (l, i, st) → st.gang = false → c.task = none → c.staged = none → s.pick l i g = some (.fresh j none) → l.stages[i]? = some st →
    s.givesWay l i st g = false → s.idleCore g = true → st.live < st.maxc → st.cores.length ≤ st.target → s.readBytes l.ctx st.record 256 = some b → ∃ t tk,
      exec .taskStart s = .next t ∧ (t.core g).task = some tk ∧ tk.launch = l.id ∧ tk.stage = i ∧ tk.tidx = j ∧ tk.ctx = l.ctx ∧ tk.region = .opened ∧
      (t.core g).strandC = (if (f 0x18 4).testBit 0 then { status := .running, pc := BitVec.ofNat 64 (f 0 8 + f 8 4) } else {}) ∧
      (t.core g).strandA = (if (f 0x18 4).testBit 1 then { status := .running, pc := BitVec.ofNat 64 (f 0 8 + f 0x0C 4) } else {}) ∧
      (∀ n, 1 ≤ n → n ≤ 16 → (t.core g).getS n = BitVec.ofNat 64 (f (0x20 + 8 * (n - 1)) 8) ∧ (t.core g).getA n = (t.core g).getS n) ∧
      (t.core g).getS 17 = BitVec.ofNat 64 j ∧ (t.core g).getS 18 = 0 ∧ (∀ n, 18 < n → (t.core g).getS n = 0) ∧ (∀ n, (t.core g).getV n = 0) ∧
      (∀ n, (t.core g).getF n = 0) ∧ (t.core g).sbC = 0 ∧ (t.core g).ccnt = 0 ∧ SameOthers g s t ∧ SameMemory s t) ∧
  (∀ (s : State) (tk : Task),
    let g := s.ev.core
    let c := s.core g
    c.task = some tk →
    (tk.ending = false ∨ s.entriesDone g = false ∨ c.gangOwed ≠ [] → exec .taskEnd s = .next s) ∧
    (tk.ending = true → tk.stopped = false → s.entriesDone g = true → c.gangOwed = [] → c.doneAtDie = true → tk.overrun = true →
      exec .taskEnd s = .next (s.taskFault g .c false 0x15 c.strandC.pc c.strandC.pc (BitVec.ofNat 64 tk.bound))) ∧
    (tk.ending = true → tk.stopped = false → s.entriesDone g = true → c.gangOwed = [] → c.doneAtDie = true → tk.overrun = false → c.scales = [] → (s.die (g / 96)).qua = [] → tk.gangWait = false →
      ∃ t, exec .taskEnd s = .next t ∧ (t.core g).task = none ∧ (t.core g).strandC = {} ∧ (t.core g).outC = [] ∧ SameOthers g s t ∧ SameMemory s t) ∧
    (c.halted = true → exec .preemptionRequest s = .next s) ∧
    (∀ p, s.preempts.find? (fun p => p.core = g) = some p → c.halted = false → p.launch = tk.launch → p.stage = tk.stage → p.tidx = tk.tidx → c.staged = none →
      tk.stopped = false → s.isGang tk = false →
      (tk.region = .opened → ∃ t u, exec .preemptionRequest s = .next t ∧ (t.core g).task = some u ∧ u.region = .discarding ∧ u.stopped = true ∧
        t.preempts = s.preempts.erase p ∧ SameMemory s t) ∧
      (tk.region = .sealed → ∃ t, exec .preemptionRequest s = .next t ∧ (t.core g).task = some { tk with region := .sealedPending, boundCount := 0 } ∧
        (t.core g).promised = p.dest ∧ t.preempts = s.preempts.erase p ∧ SameOthers g s t)) ∧
    (tk.region = .sealedPending → tk.stopped = false → (tk.bound ≤ tk.boundCount → exec .regionBoundOverrun s =
        .next (s.taskFault g .c false 0x15 c.strandC.pc c.strandC.pc (BitVec.ofNat 64 tk.bound))) ∧
      (tk.boundCount < tk.bound → exec .regionBoundOverrun s = .next s)) ∧
    (∀ (l : Launch) (z : State), s.launch? tk.launch = some l → l.state = .running → tk.region = .discarding → s.isGang tk = false →
      s.discarded g = true → (s.onLaunch l.id (fun l => l.unclaim tk)).writeRestart g l (lowestUnused (s.recordsUsed l)) = .done z →
      ∃ t, exec .discardComplete s = .next t ∧ (t.core g).task = none ∧ (t.core g).strandC = {} ∧ t.mem = z.mem ∧
        (∀ h, h ≠ g → (t.core h) = (z.core h)))) ∧
  (∀ (s : State) (l : Launch), s.launch? s.ev.num = some l →
    (l.state = .running → (∀ st ∈ l.stages, st.completed = true) → s.sendsOwed l.id = false → l.left = [] → s.log.held = [] → ∃ t r,
      exec .launchCompletion s = .next t ∧ look [] t.log.held r.src = [r] ∧ r.cause = 0x80 ∧ r.tag = l.tag ∧ r.ctx = l.ctx ∧ r.done = some (l.queue, l.head) ∧
      t.cores = s.cores ∧ SameMemory s t) ∧
    (∀ st ∈ l.stages, st.completed = false → exec .launchCompletion s = .next s)) ∧
  (∀ s : State, (s.periodDue = false → exec .schedulerPeriod s = .next s) ∧ (s.periodDue = true → (s.launches.map (fun l => l.id)).Nodup → ∃ t, exec .schedulerPeriod s = .next t ∧ t.cores = s.cores ∧ SameMemory s t ∧
    (∀ e ∈ s.lines, ∃ l st, t.launch? e.launch.id = some l ∧ l.stages[e.idx]? = some st ∧ st.target =
      max (min (min e.stage.maxc (e.stage.cores.length + e.launch.readyTasks e.stage))
        (if e.launch.outputFull e.stage then e.stage.cores.length else e.stage.maxc)) e.stage.minc)))

/-! ### Events of the lattice and of Mason -/

/-- R323 to R328, R426, R427 and R428: in the rotation's slot the die whose turn it is sends what it joined, Keystone merges it, and
the die merges Keystone's value; an exchange that fails leaves a record and changes nothing else; an immediate exchange also lets the
tasks go on that waited for it. A fetch gives the die Keystone's value, or asks the home chip for it. In each phase of pod time the
even chip sends its request and what it owes, the odd one awaits them; an exchange not complete after Q/6 is lost: its record is
entered, the loss epoch rises and what was sent is owed again. A HOME 0 copy goes to its frame. The packets' forms are the model's
(log entry 60). -/
def Obligations.LatticeExchangeEvents : Prop :=
  (∀ (s : State) (k : Nat) (x : Granule) (old : BitVec 512),
    let f := s.flow
    let d := f.turn
    let start := f.due
    let n := mergeGranule x.lat x.value old
    let bad := ({ s with upsets := s.upsets.erase (.badExchange d) } : State).notice d 0x54 (BitVec.ofNat 64 d) f.epoch
    (s.ev.num ≠ d ∨ 16 * s.keystoneTime < start → exec .dieExchangeSlot s = .next s) ∧
    (s.ev.num = d → start ≤ 16 * s.keystoneTime → .badExchange d ∈ s.upsets → ∃ m,
      exec .dieExchangeSlot s = .next { bad with flow := ({ f with slot := f.slot + 1, runs := start + 5 * m, runDie := d } : Flow).switch }) ∧
    (s.ev.num = d → start ≤ 16 * s.keystoneTime → .badExchange d ∉ s.upsets → f.switchAt = none →
      (s.die d).granules = [(k, x)] → x.home0 = false → x.dirty = true → x.stale = false →
      (s.die d).parked = [] → s.keystone? k = some old → ∃ t y, exec .dieExchangeSlot s = .next t ∧ t.keystone? k = some n ∧
      (t.die d).granules = [(k, y)] ∧ y.lat = x.lat ∧ y.value = (if n = old then x.value else mergeGranule x.lat n x.value) ∧ y.dirty = false ∧
      y.stale = false ∧ (t.die d).exg = (s.die d).exg + 1 ∧ t.flow.slot = f.slot + 1 ∧ t.flow.runs = start + 5)) ∧
  (∀ s : State,
    let d := s.ev.num
    ((s.die d).immediate = false ∨ (s.flow.runDie = d ∧ 16 * s.keystoneTime < s.flow.runs) → exec .immediateExchange s = .next s) ∧
    ((s.die d).immediate = true → s.flow.runDie ≠ d ∨ s.flow.runs ≤ 16 * s.keystoneTime → .badExchange d ∉ s.upsets → ∃ t,
      exec .immediateExchange s = .next t ∧ (t.die d).immediate = false ∧
      (t.die d).exg = (s.die d).exg + 1 ∧ (∀ e ∈ t.cores, e.1 / 96 = d → ∀ tk, e.2.task = some tk → tk.awaitExchange = false))) ∧
  (∀ (s : State) (lat : Nat) (home : BitVec 2),
    let d := s.ev.num
    let k := s.ev.num2 / 64
    (s.wantedGranule d k = none → exec .granuleFetch s = .next s) ∧
    (s.wantedGranule d k = some (lat, home) → (s.die d).granule? k = none → s.tableLost (64 * k) 64 = false → s.badMetadata (span (64 * k) 64) = none →
      (∀ v, s.keystone? k = some v → ∃ t y, exec .granuleFetch s = .next t ∧ (t.die d).granule? k = some y ∧ y.lat = lat ∧ y.value = v ∧
        y.home0 = decide (home = 0) ∧ y.pod = decide (home = 2) ∧ y.dirty = false ∧ y.poison = s.keystoneMarks k ∧ SameMemory s t) ∧
      (s.keystone? k = none → exec .granuleFetch s = .next (s.askHome k lat))) ∧
    ((s.die d).granule? k ≠ none → exec .granuleFetch s = .next s)) ∧
  (∀ s : State,
    let f := s.flow
    let m := s.podPhase
    (f.phase = m + 1 → exec .podExchangePhase s = .next s) ∧
    (f.phase ≠ m + 1 → s.podPartner (phaseDir m) = none → exec .podExchangePhase s = .next { s with flow := { f with phase := m + 1 } }) ∧
    (∀ side, f.phase ≠ m + 1 → s.podPartner (phaseDir m) = some side →
      (s.opens m = false → exec .podExchangePhase s = .next { s with flow :=
        { f with phase := m + 1, pods := f.pods ++ [{ phase := m, side := side, began := s.podTime }] } }) ∧
      (s.opens m = true → ∃ t ps, exec .podExchangePhase s = .next t ∧ t.flow.phase = m + 1 ∧ t.flow.epoch = f.epoch ∧ SameMemory s t ∧
        t.flow.podDirty = f.podDirty.filter (fun e => decide (e.2 ≠ side)) ∧ t.fabric.packets = s.fabric.packets ++ ps ∧
        ps.length = 2 + 2 * (f.podDirty.filter (fun e => decide (e.2 = side))).length ∧
        ∀ p ∈ ps, p.kind = .control ∧ p.dst = s.neighbour side ∧ p.offset = m)) ∧
    ((∀ x ∈ f.pods, 6 * s.podTime < 6 * x.began + f.podPeriod) → exec .podExchangeLost s = .next s) ∧
    (∀ x rest, f.pods = x :: rest → 6 * x.began + f.podPeriod ≤ 6 * s.podTime → (∀ k ∈ x.sent, (k, x.side) ∉ f.podDirty) →
      exec .podExchangeLost s = .next (({ s with flow := { f with pods := rest, epoch := f.epoch + 1, podDirty := f.podDirty ++ x.sent.map (fun k => (k, x.side)) } } : State).notice 8 0x54
        (BitVec.ofNat 64 (s.neighbour x.side + 65536)) (f.epoch + 1)))) ∧
  (∀ (s : State) (x : Granule),
    let d := s.ev.num
    let k := s.ev.num2 / 64
    (s.die d).granule? k = some x →
    let now := (s.die d).time.toNat
    (x.home0 = false → exec .home0Writeback s = .next s) ∧
    (∀ w, x.wroteAt = some w → now < w + 1000000 → exec .home0Writeback s = .next s) ∧
    (x.home0 = true → (∀ w, x.wroteAt = some w → w + 1000000 ≤ now) → ∃ t, exec .home0Writeback s = .next t ∧ t.loadLE (64 * k) 64 = x.value.toNat ∧
      (∀ a, memKey a / 64 ≠ memKey (64 * k) / 64 → t.byte a = s.byte a) ∧ (t.die d).granule? k = some { x with dirty := false, wroteAt := some now }))

/-- R268, R336, R337, R341 to R347 and R434: a DISPATCH whose row and slot are there writes its item into the replica's ring and
publishes it, gives a[C + 4] the version and slot, adds its flag and clears its slot; without an active replica or room for the item
it faults. A decay halves every counter; a snapshot takes them all in one step; a publication that meets the four checks switches
the banks, any other leaves its record and nothing else, but one that names the current bank does nothing (the model's choice, log entry
139); IBUSY clears once no reader of the old version and no redirection is left;
replications, drains, redirections, merges and copies do their parts. -/
def Obligations.MasonEvents : Prop :=
  (∀ (s : State) (x : Item) (rest : List Item) (l : Launch) (r : Ring),
    let g := s.ev.core
    (s.core g).items = x :: rest →
    (∀ l, s.boundLaunch = some l → l.id ≠ s.launchOn g → s.chooseReplica g x = none) ∧
    (s.boundLaunch = none → exec .dispatchPerform s = .next (s.dispatchFault g x 0x55 0)) ∧
    (s.boundLaunch = some l → s.chooseReplica g x = none → exec .dispatchPerform s = .next (s.dispatchFault g x 0x55 0)) ∧
    (∀ c, s.boundLaunch = some l → s.chooseReplica g x = some c → l.rings[(s.mason.chosenSlot x.expert c).ring]? = some r →
      (r.size < x.bytes + 32 → exec .dispatchPerform s = .next (s.dispatchFault g x 0x55 0)) ∧
      (∀ (i : Nat) (row : List Byte) (dst : List (Nat × Target)),
        let z := s.onCore g (fun k => { k with items := { x with chosen := some c } :: rest })
        let y := s.mason.chosenSlot x.expert c
        let at' := dst.flatMap (fun e => e.2.addrs)
        let item := leBytes 8 x.token.toNat ++ leBytes 4 x.gate.toNat ++ leBytes 4 c.1.toNat ++ leBytes 4 x.expert ++ leBytes 4 g ++ leBytes 8 0 ++ row
        x.bytes + 32 ≤ r.size → r.freeSlot = some i → (z.core g).allDone .a (z.ringScope l.ctx r) = true → s.launch? l.id = some l →
        z.readSource g 29 x.ctx x.pc x.src x.bytes = (z, .bytes row []) → z.checkBytes g x.ctx (r.slotAddr i) .store (32 + row.length) = .ok dst →
        (∀ e ∈ dst, e.2.route = .plain ∧ e.2.unit = 8 ∧ e.2.addrs.length = 1 ∧ ∀ a ∈ e.2.addrs, paSpace a ≠ 6) → (at'.map memKey).Nodup →
        s.unreachable at' = none → s.fabric.requests = [] → s.ev.nums = [] → (s.core g).flagRank < 2 → x.flag ≠ 63 → y.sent = 0 → x.dest ≠ 0 → x.dest < 32 →
        ∃ t, exec .dispatchPerform s = .next t ∧ t.load at' = item ∧ (∀ a, (∀ b ∈ at', memKey a ≠ memKey b) → t.byte a = s.byte a) ∧
          (t.core g).items = rest ∧ (t.core g).getA x.dest = BitVec.ofNat 64 (c.1.toNat * 2 ^ 32 + c.2) ∧
          (t.core g).getF x.flag = (s.core g).getF x.flag + 1 ∧ (t.core g).sbA = (s.core g).sbA &&& ~~~ slotBit x.slot ∧
          (t.launch? l.id).map (fun l => l.rings[y.ring]?) = some (some (r.publish i))))) ∧
  (∀ s : State,
    let m := s.mason
    let h := m.half.toNat
    (h = 0 ∨ s.mgmt.kcy.toNat % 2 ^ h ≠ 0 ∨ m.decayed = some s.mgmt.kcy → exec .counterDecay s = .next s) ∧
    (h ≠ 0 → s.mgmt.kcy.toNat % 2 ^ h = 0 → m.decayed ≠ some s.mgmt.kcy → (m.mcnt.map (fun e => e.1)).Nodup → ∃ t, exec .counterDecay s = .next t ∧
      (∀ k, (look 0 t.mason.mcnt k).toNat = (look 0 m.mcnt k).toNat / 2) ∧ t.mason.decayed = some s.mgmt.kcy ∧
      { t.mason with mcnt := m.mcnt, decayed := m.decayed } = m ∧ { t with mason := m } = s) ∧
    exec .cairnIbusyClear s = .next (if m.ibusy = true ∧ s.oldReads = false ∧ s.redirecting = false ∧ m.published ≠ some s.mgmt.kcy then { s with mason := { m with ibusy := false } } else s) ∧
    (s.ev.flag = false →
      exec .msnapWrite s = .next { s with mason := { m with msn := m.mcnt } } ∧
      (m.ibusy = true → exec .cairnPublish s = .next (s.notice 8 0x57 (BitVec.ofNat 64 (Sys2Proof.Machine.registerOffset .cairnpub)) 0)) ∧
      (m.ibusy = false → s.ev.word.getLsbD 0 = m.cur → exec .cairnPublish s = .next s) ∧
      (m.ibusy = false → s.ev.word.getLsbD 0 ≠ m.cur → m.ver (!m.cur) ≠ m.cver + 1 → exec .cairnPublish s = .next (s.notice 8 0x56 0 1)) ∧
      (∀ n, m.ibusy = false → s.ev.word.getLsbD 0 ≠ m.cur → s.publishFault (!m.cur) = some n → exec .cairnPublish s = .next (s.notice 8 0x56 0 (BitVec.ofNat 64 n))) ∧
      (m.ibusy = false → s.ev.word.getLsbD 0 ≠ m.cur → s.publishFault (!m.cur) = none → ∃ t, exec .cairnPublish s = .next t ∧
        t.mason.cur = (!m.cur) ∧ t.mason.cver = m.cver + 1 ∧ t.mason.ibusy = true ∧ t.mason.published = some s.mgmt.kcy ∧ t.mason.joinOwed = true ∧ t.mason.repDone = [] ∧ SameMemory s t) ∧
      (m.reps.length = 4 → (∀ r ∈ m.reps, r.live = true) → exec .mrepgoWrite s = .next { s with mason := { m with full := true } }) ∧
      (∀ i, m.freeCommand = some i →
        let w := m.cmd.toNat
        let wt := w / 2 ^ 44
        let gt := w / 2 ^ 24 % 2 ^ 20
        let die := w / 2 ^ 18 % 8
        let f := s.pagesOf m.ctx wt + s.pagesOf m.ctx gt
        let slot (b : Bool) : CairnSlot := m.slot b (w % 4096) (w / 4096 % 8)
        ((slot false).st ≠ 0 ∨ (slot true).st ≠ 0 ∨ (m.slot m.cur (w % 4096) (w / 2 ^ 15 % 8)).st ≠ 1 ∨ (look 0 m.mbud die).toNat < (look 0 m.muse die).toNat + f →
          ∃ t r, exec .mrepgoWrite s = .next t ∧ t.mason.reps[i]? = some r ∧ r.status = 2 ∧ r.live = false ∧ SameMemory s t ∧ t.mason.muse = m.muse) ∧
        ((slot false).st = 0 → (slot true).st = 0 → (m.slot m.cur (w % 4096) (w / 2 ^ 15 % 8)).st = 1 → (look 0 m.muse die).toNat + f ≤ (look 0 m.mbud die).toNat →
          s.desc? m.ctx wt ≠ none → s.desc? m.ctx gt ≠ none → s.somePage m.ctx wt = false → s.somePage m.ctx gt = false →
          ∃ t r, exec .mrepgoWrite s = .next t ∧ t.mason.reps[i]? = some r ∧ r.status = 0 ∧ r.live = true ∧ r.wtid = wt ∧ r.gtid = gt ∧ r.die = die ∧
            r.srcTid = (m.slot m.cur (w % 4096) (w / 2 ^ 15 % 8)).wtid ∧
            (f ≤ s.ev.nums.length → r.frames = f ∧ look 0 t.mason.muse die = look 0 m.muse die + BitVec.ofNat 32 f) ∧
            (s.ev.nums.length < f → r.frames = 0 ∧ t.mason.muse = m.muse ∧ SameMemory s t))))) ∧
  (∀ (s : State) (r : Replication),
    let m := s.mason
    let i := s.ev.num
    let src := r.srcTid
    m.reps[i]? = some r →
    (r.live = false → exec .replicationCompleted s = .next s) ∧
    (r.live = true → r.frames = 0 → exec .replicationCompleted s = .next (s.takeFrames i r s.ev.nums)) ∧
    (∀ z, r.live = true → r.frames ≠ 0 → s.masonPages m.ctx [src] = (z, false) → exec .replicationCompleted s = .next z) ∧
    (r.live = true → r.frames ≠ 0 → s.masonPages m.ctx [src] = (s, true) → s.tensorPoisoned m.ctx src = true → exec .replicationCompleted s = .next (s.failReplication i r 1)) ∧
    (∀ t u, r.live = true → r.frames ≠ 0 → s.masonPages m.ctx [src] = (s, true) → s.tensorPoisoned m.ctx src = false →
      State.copyBytes m.ctx false (min (s.tensorBytes m.ctx src) (s.tensorBytes m.ctx r.wtid)) (flatAt src 0) (flatAt r.wtid 0) s = some t →
      t.zeroTensor m.ctx r.gtid = some u → ∃ z, exec .replicationCompleted s = .next z ∧ z.mem = u.mem ∧
        z.mason.reps[i]? = some { r with status := 1, live := false } ∧ z.mason.repDone = m.repDone ++ [(r.e, r.k, r.die, r.wtid, r.gtid)])) ∧
  (∀ (s : State) (x : CairnSlot),
    let m := s.mason
    let i := 8 * s.ev.num + s.ev.num2
    m.draining i = some x →
    (m.ibusy = true ∨ s.boundLaunch = none → exec .replicaDrained s = .next s) ∧
    (∀ y, m.ibusy = false → s.boundLaunch ≠ none → m.settled.find? (fun y => y.1 = i) = some y →
      (m.en = true → m.passes ≤ y.2 + m.mergeDue.length → exec .replicaDrained s = .next s) ∧
      (m.en = false ∨ y.2 + m.mergeDue.length < m.passes → exec .replicaDrained s = .next (s.finishDrain i x))) ∧
    (m.ibusy = false → s.boundLaunch ≠ none → m.settled.find? (fun y => y.1 = i) = none →
      (s.countAt m.ctx x.cons < s.countAt m.ctx x.sent → exec .replicaDrained s = .next s) ∧
      (s.countAt m.ctx x.sent ≤ s.countAt m.ctx x.cons → m.en = true → exec .replicaDrained s = .next { s with mason := { m with settled := m.settled ++ [(i, m.passes)] } }) ∧
      (s.countAt m.ctx x.sent ≤ s.countAt m.ctx x.cons → m.en = false → ∃ t, exec .replicaDrained s = .next t ∧ t.cores = s.cores ∧
        look 0 t.mason.muse x.die = look 0 m.muse x.die - BitVec.ofNat 32 (s.pagesOf m.ctx x.wtid + s.pagesOf m.ctx x.gtid) ∧
        t.mason.forced = m.forced.eraseP (fun e => decide (e.1 = i)) ∧ (∀ e ∈ t.mason.settled, e.1 ≠ i) ∧ ((∀ e ∈ m.forced, e.1 ≠ i) → i ∈ t.mason.drained)))) ∧
  (∀ (s : State) (l : Launch) (x : CairnSlot) (r q : Ring) (i j k : Nat) (u : State),
    let m := s.mason
    let y := m.slot m.cur s.ev.num j
    m.ibusy = true → m.forced.find? (fun e => decide (e.1 = 8 * s.ev.num + s.ev.num2) && decide (e.2.dver = m.cver)) = some (k, x) → s.boundLaunch = some l → s.launch? l.id = some l →
    l.rings[x.ring]? = some r → r.order.head? = some i → l.rings[y.ring]? = some q → x.ring ≠ y.ring →
    (∀ token, s.chooseSlot l m.cur s.ev.num token = some j) →
    (q.freeSlot = none → exec .itemRedirection s = .next s) ∧ (∀ z : Mason, z = { m with ibusy := false } → exec .itemRedirection { s with mason := z } = .next { s with mason := z }) ∧
    (∀ n, q.freeSlot = some n → State.copyBytes m.ctx true (min r.size q.size) (r.slotAddr i) (q.slotAddr n) s = some u →
      ∃ t z, exec .itemRedirection s = .next t ∧ t.launch? l.id = some z ∧ z.rings[y.ring]? = some (q.publish n) ∧
        z.rings[x.ring]? = some { r.setSlot i .free with order := r.order.filter (fun e => decide (e ≠ i)) })) ∧
  (∀ s : State,
    let m := s.mason
    (m.mergeDue = [] → exec .gradientMerge s = .next s) ∧
    (∀ ep due e p q, m.mergeDue = ep :: due → m.experts = [e] → (m.holding e [1, 2]).map (fun k => (m.slot m.cur e k).gtid) = [p, q] →
      (s.dimOf m.ctx p ≠ s.dimOf m.ctx q → exec .gradientMerge s =
        .next (({ s with mason := { m with mergeDue := due } } : State).notice 8 0x59 (BitVec.ofNat 64 e) 0)) ∧
      (s.dimOf m.ctx p = s.dimOf m.ctx q →
        (∀ z, s.masonPages m.ctx [p, q] = (z, false) → exec .gradientMerge s = .next z) ∧
        (∀ u, s.masonPages m.ctx [p, q] = (s, true) → s.mergeExpert m.ctx e [p, q] = some u → m.mdone = 0 →
          exec .gradientMerge s = .next { u with mason := { u.mason with mergeDue := due } }))) ∧
    (∀ ctx p q i x y, s.gradElem ctx p i = some x → s.gradElem ctx q i = some y →
      (x.2 = false → y.2 = false → s.mergeElem ctx p [q] i = some ((fAdd fp32 0 false x.1 y.1).1, false)) ∧
      (x.2 = true ∨ y.2 = true → s.mergeElem ctx p [q] i = some (0x7FC00000, true))) ∧
    (m.copyDue = [] → exec .weightReturnCopy s = .next s) ∧
    (∀ ep due e j k, m.copyDue = ep :: due → m.experts = [e] → m.holding e [1, 2] = [j, k] → m.holding e [1] = [j, k] → j ≠ k →
      let from_ := (m.slot m.cur e j).wtid
      let to' := (m.slot m.cur e k).wtid
      (∀ z, s.masonPages m.ctx [from_, to'] = (z, false) → exec .weightReturnCopy s = .next z) ∧
      (∀ t, s.masonPages m.ctx [from_, to'] = (s, true) → m.mdone = 0 →
        State.copyBytes m.ctx true (s.tensorBytes m.ctx from_) (flatAt from_ 0) (flatAt to' 0) s = some t →
        exec .weightReturnCopy s = .next { t with mason := { t.mason with copyDue := due } })))

/-! ### Events of the launch queues and checkpoints -/

/-- R305 to R308, R355, R356, R367, R368, R407, R408 and R449: a queue that may not take its head command does nothing; a malformed
command leaves its record and HEAD passes it; each kind does what its rules say: a LAUNCH runs, waits for cores or fails with two
records, a CIRCUIT sends SETUP on both paths, a port drains or trains or the command completes at once, a CHECKPOINT asks every task
to go, FENCE and SIGNAL complete when nothing earlier is pending. A release of a circuit that is IDLE, and a request for the peer that
the port is joined to, complete at once (the model's choice, log entry 131). A doorbell beyond the ring stops the queue. A checkpoint that
completes has copied HBM. -/
def Obligations.QueueEvents : Prop :=
  (∀ s : State,
    let n := s.ev.num
    let q := s.queue n
    let w := s.cmdWord n
    let op := w 0 % 256
    let head : Word := BitVec.ofNat 64 q.head.toNat
    let takes : Prop := q.stopped = false ∧ q.log2n ≠ 0 ∧ q.head ≠ q.tail ∧ q.waiting = none ∧ s.host.checkpoint = none
    let good : Prop := takes ∧ commandOk w = true
    let cmd (drain : Bool) : PortCommand := ⟨n, q.head, s.cmdTag n, s.cmdIrq n, drain⟩
    let taken (e : Instr) (f : State → Prop) : Prop := ∃ t, exec e s = .next t ∧ (t.queue n).head = q.head + 1 ∧ t.cores = s.cores ∧ SameMemory s t ∧ f t
    let atOnce (e : Instr) (f : State → Prop) : Prop := taken e (fun t => t.log = (s.completeCommand n q.head (s.cmdTag n) (s.cmdIrq n)).log ∧ f t)
    (∀ e k, (e, k) ∈ ([(.launch, 1), (.circuit, 2), (.drainPort, 3), (.retrainPort, 4), (.checkpoint, 5), (.fenceCommand, 6), (.signal, 7)] : List (Instr × Nat)) →
      (¬takes → exec e s = .next s) ∧ (takes → commandOk w = true → op ≠ k → exec e s = .next s) ∧
      (takes → commandOk w = false → taken e (fun t => t.launches = s.launches ∧ t.fabric = s.fabric ∧ t.host = s.host ∧
        t.log = (s.enter { s.deviceRecord 8 0x18 head (BitVec.ofNat 64 n) with tag := s.cmdTag n, ctx := n }).log))) ∧
    (good → op = 1 →
      let failed (b : BadRecord) : Prop := taken .launch (fun t => t.launches = s.launches ∧ t.log =
        ((s.enter { s.deviceRecord 8 b.1 b.2.2.2 (BitVec.ofNat 64 (b.2.1 + b.2.2.1 * 65536)) with tag := s.cmdTag n, lfail := true, rcl := 6, ctx := n }).enter
          { s.deviceRecord 8 0x81 0 (BitVec.ofNat 64 b.1) with
            tag := s.cmdTag n, lfail := true, rcl := 6, ctx := n, irq := s.cmdIrq n, done := some (n, q.head) }).log)
      (s.readBytes n (BitVec.ofNat 64 (w 1)) 6208 = none → failed (0x17, 1, 0, BitVec.ofNat 64 (w 1))) ∧
      (∀ l, s.readBytes n (BitVec.ofNat 64 (w 1)) 6208 = some l →
        let x := s.buildLaunch n (w 2) (w 3) l
        (w 1 % 256 ≠ 0 → failed (0x17, 1, 0, BitVec.ofNat 64 (w 1))) ∧
        (∀ b, s.recordFault n (w 1) (w 2) (w 3) l = some b → failed b) ∧
        (s.recordFault n (w 1) (w 2) (w 3) l = none → s.admits x = true → taken .launch (fun t => t.nextLaunch = s.nextLaunch + 1 ∧ t.log = s.log ∧
          ∃ y, t.launches = s.launches ++ [y] ∧ y.id = s.nextLaunch ∧ y.tag = s.cmdTag n ∧ y.queue = n ∧ y.head = q.head ∧ y.ctx = n ∧ y.state = .running ∧
            y.stages.length = fieldAt l 0 8 % 32 ∧ y.rings.length = fieldAt l 0 8 / 256 % 64)) ∧
        (s.recordFault n (w 1) (w 2) (w 3) l = none → s.admits x = false →
          exec .launch s = .next (s.onQueue n (fun y => { y with waiting := some x }))))) ∧
    (good → op = 2 → (s.fabric.port (w 1 % 32)).asks = [] → (s.fabric.port (w 1 % 32)).circuit = .idle →
      let p := w 1 % 32
      let peer := w 1 / 2 ^ 52
      let x := s.fabric.port p
      (w 1 / 256 % 2 = 0 → x.far ≠ .up ∨ x.farPeer ≠ peer → taken .circuit (fun t => (t.fabric.port p).circuit = .setup ∧ (t.fabric.port p).peer = peer ∧
        (t.fabric.port p).asks = [] ∧ (t.fabric.port p).asker = .command n q.head (s.cmdTag n) (s.cmdIrq n) ∧ t.log = s.log ∧
        ∃ a b, t.fabric.packets = s.fabric.packets ++ [a, b] ∧ (x.far = .idle → a.kind = .setup ∧ a.dst = peer) ∧ (x.far ≠ .idle → a.kind = .busy ∧ a.dst = s.chip) ∧
          a.addr = p ∧ a.src = s.chip ∧ a.pathB = false ∧ b = { a with pathB := true })) ∧
      (w 1 / 256 % 2 = 0 → x.far = .up → x.farPeer = peer → atOnce .circuit (fun t => t.fabric.packets = s.fabric.packets ∧ (t.fabric.port p).circuit = .idle)) ∧
      (w 1 / 256 % 2 = 1 → atOnce .circuit (fun t => t.fabric.packets = s.fabric.packets ∧ (t.fabric.port p).circuit = .idle))) ∧
    (good → op = 2 → (s.fabric.port (w 1 % 32)).asks = [] → (s.fabric.port (w 1 % 32)).circuit = .up →
      let p := w 1 % 32
      let x := s.fabric.port p
      (w 1 / 256 % 2 = 1 → taken .circuit (fun t => (t.fabric.port p).circuit = .tearing ∧ (t.fabric.port p).asker = .command n q.head (s.cmdTag n) (s.cmdIrq n) ∧
        t.log = s.log ∧ (x.state = .up → (t.fabric.port p).state = .draining) ∧ (x.state ≠ .up → (t.fabric.port p).state = x.state ∧ (t.fabric.port p).active = x.active) ∧
        ∃ a, a ∈ t.fabric.packets ∧ a.kind = .teardown ∧ a.dst = x.peer ∧ a.addr = p)) ∧
      (w 1 / 256 % 2 = 0 → x.peer = w 1 / 2 ^ 52 → atOnce .circuit (fun t => t.fabric.packets = s.fabric.packets ∧ (t.fabric.port p).circuit = .up)) ∧
      (w 1 / 256 % 2 = 0 → x.peer ≠ w 1 / 2 ^ 52 → taken .circuit (fun t => t.log = s.log ∧ t.fabric.packets = s.fabric.packets ∧
        t.fabric.port p = { x with asks := [⟨w 1 / 2 ^ 52, false, .command n q.head (s.cmdTag n) (s.cmdIrq n)⟩] }))) ∧
    (good → (s.fabric.port (w 1 % 32)).waiting = [] →
      let p := w 1 % 32
      let x := s.fabric.port p
      (op = 3 →
        (x.state = .up → taken .drainPort (fun t => (t.fabric.port p).state = .draining ∧ (t.fabric.port p).active = some (cmd true) ∧ t.log = s.log ∧
          ∃ a, t.fabric.packets = s.fabric.packets ++ [a, { a with pathB := true }] ∧ a.kind = .drain ∧ a.pathB = false ∧ a.src = s.chip ∧ a.dst = s.portPeer p ∧
            a.addr = portEnd p)) ∧
        (x.state = .draining → taken .drainPort (fun t => t.fabric.port p = { x with waiting := [cmd true] } ∧ t.log = s.log)) ∧
        (x.state ≠ .up → x.state ≠ .draining → atOnce .drainPort (fun t => t.fabric.port p = x))) ∧
      (op = 4 →
        (x.state = .up → atOnce .retrainPort (fun t => t.fabric.port p = x)) ∧
        (x.state = .draining ∨ x.state = .training → taken .retrainPort (fun t => t.fabric.port p = { x with waiting := [cmd false] } ∧ t.log = s.log)) ∧
        (x.state = .drained ∨ x.state = .failed → taken .retrainPort (fun t => (t.fabric.port p).state = .training ∧
          (t.fabric.port p).active = some (cmd false) ∧ (t.fabric.port p).since = s.portTime p ∧ t.log = s.log)))) ∧
    (good → op = 5 →
      (s.host.tierUp = true → ∃ t, exec .checkpoint s = .next t ∧ (t.queue n).head = q.head + 1 ∧ SameMemory s t ∧
        t.host.checkpoint = some { queue := n, index := q.head, tag := s.cmdTag n, irq := s.cmdIrq n, base := w 1, hold := decide (w 2 = 1) } ∧
        (∀ g, (t.core g).staged = none ∧ (t.core g).task = (s.core g).task) ∧
        (∀ e ∈ s.cores, ∀ k, e.2.task = some k → ∃ p ∈ t.preempts, p.launch = k.launch ∧ p.stage = k.stage ∧ p.tidx = k.tidx)) ∧
      (s.host.tierUp = false → s.host.waiting = [] → taken .checkpoint (fun t => t.host = { s.host with hold := decide (w 2 = 1) } ∧
        t.log = (s.enter (s.commandRecord n 0x6C q.head (s.cmdTag n) (s.cmdIrq n) 0 0x6B)).log))) ∧
    (good → op = 6 → (q.pending = [] → atOnce .fenceCommand (fun t => t.launches = s.launches)) ∧ (q.pending ≠ [] → exec .fenceCommand s = .next s)) ∧
    (good → op = 7 →
      (q.pending = [] → taken .signal (fun t => t.log = (s.enter (s.commandRecord n 0x83 q.head (s.cmdTag n) (s.cmdIrq n) 0 (BitVec.ofNat 64 (w 1)))).log)) ∧
      (∀ p rest, q.pending = p :: rest → p.2.2.2 = none → taken .signal (fun t => t.log = s.log ∧
        (t.queue n).pending = q.pending ++ [(q.head, s.cmdTag n, s.cmdIrq n, some (BitVec.ofNat 64 (w 1)))]))) ∧
    (q.waiting = none → exec .launchAccept s = .next s) ∧
    (∀ l, q.waiting = some l →
      (q.stopped = true ∨ s.host.checkpoint ≠ none ∨ s.admits l = false → exec .launchAccept s = .next s) ∧
      (q.stopped = false → s.host.checkpoint = none → s.admits l = true → l.queue = n → ∃ t y, exec .launchAccept s = .next t ∧
        t.launches = s.launches ++ [y] ∧ y.id = s.nextLaunch ∧ y.tag = l.tag ∧ (t.queue n).head = q.head + 1 ∧ (t.queue n).waiting = none)) ∧
    (s.ev.flag = false →
      let v : BitVec 32 := s.ev.word.extractLsb' 0 32
      let c : BitVec 5 := s.ev.word.extractLsb' 0 5
      (s.mgmt.ready = false ∨ q.stopped = true ∨ q.log2n = 0 → exec .lqtailWrite s = .next s) ∧
      (16 ≤ n → exec .lqtailWrite s = .next s ∧ exec .lqcfgWrite s = .next s) ∧
      (s.mgmt.down = true → exec .lqcfgWrite s = .next s) ∧
      (n < 16 → s.mgmt.ready = true → q.stopped = false → q.log2n ≠ 0 →
        ((v - q.head).toNat ≤ 2 ^ q.log2n.toNat → exec .lqtailWrite s = .next (s.onQueue n (fun q => { q with tail := v }))) ∧
        (2 ^ q.log2n.toNat < (v - q.head).toNat → exec .lqtailWrite s = .next ((s.onQueue n (fun q => { q with tail := v, stopped := true })).enter
          { s.deviceRecord 8 0x19 head (BitVec.ofNat 64 n) with ctx := n }))) ∧
      (n < 16 → s.mgmt.down = false → q.stopped = true → c = 0 → exec .lqcfgWrite s =
        .next (s.onQueue n (fun q => { q with log2n := 0, head := 0, tail := 0, stopped := false, waiting := none }))) ∧
      (n < 16 → s.mgmt.down = false → q.stopped = true → c ≠ 0 → exec .lqcfgWrite s =
        .next (if 4 ≤ c.toNat ∧ c.toNat ≤ 16 then s.onQueue n (fun q => { q with log2n := c }) else s)) ∧
      (q.stopped = false → q.head ≠ q.tail → exec .lqcfgWrite s = .next s) ∧
      (n < 16 → s.mgmt.down = false → q.stopped = false → q.head = q.tail → exec .lqcfgWrite s =
        .next (if c = 0 ∨ (4 ≤ c.toNat ∧ c.toNat ≤ 16) then s.onQueue n (fun q => { q with log2n := c }) else s)))) ∧
  (∀ s : State,
    (s.host.checkpoint = none → exec .checkpointCompletion s = .next s) ∧
    (∀ c, s.host.checkpoint = some c → s.isQuiet = false → exec .checkpointCompletion s = .next s) ∧
    (∀ c, s.host.checkpoint = some c → s.isQuiet = true → s.host.tierUp = true → s.memOk → (∀ e ∈ s.mem, e.1 < 2 ^ 52) →
      (∀ e ∈ s.dies, e.2.granules = []) → s.host.waiting = [] → c.base ≤ 980606976000 → ∃ t, exec .checkpointCompletion s = .next t ∧ t.host.checkpoint = none ∧ t.host.hold = c.hold ∧
        (∀ i, i < 8 * 2 ^ 36 → i % 2 ^ 36 < 64000000000 → t.byte (2 ^ 48 + c.base + i) = s.byte i) ∧
        (∀ a, paSpace a ≠ 1 → t.byte a = s.byte a)))

/-! ### Events of the log, the registers and firmware -/

/-- R321, R352, R353 and R381: the arbiter enters a source's next record, laid out as R381 has it, at ELBASE and the sequence
number, advances ELWR and sends its message; a full, disabled or unwritable log takes none. R388: a failing launch whose records are
in the log and whose effects have come to rest closes its rings and makes its record of cause 0x81. R11, R21, R352, R362, R377, R380,
R384, R394, R414 to R416 and R447: the log's registers, the polls and their periods, the commits and the register writes; over a host
link that is down writes are lost, and a module that has stopped takes only the mailbox's. -/
def Obligations.LogRegisterEvents : Prop :=
  (∀ s : State,
    let d := s.ev.num
    let e := s.log
    (∀ l c, s.launches = [l] → l.state = .failing c → e.blocked = true → e.held = [] →
      (s.failureSettled l = false → exec .eventRecordEntry s = .next s) ∧
      (s.failureSettled l = true → ∃ t r, exec .eventRecordEntry s = .next t ∧ t.launches = [{ l with rings := l.rings.map (fun r => { r with closed := true }) }] ∧
        t.log.held = [(8, [r])] ∧ r.cause = 0x81 ∧ r.rcl = 6 ∧ r.lfail = true ∧ r.data = c.setWidth 64 ∧ r.tag = l.tag ∧ r.ends = some l.id)) ∧
    ((∀ l ∈ s.launches, l.state = .running ∨ l.state = .completed ∨ l.state = .failed) →
    (e.blocked = true ∨ e.entered = some s.mgmt.kcy ∨ (look [] e.held d = [] ∧ ∀ x ∈ e.dropped, x.1 / 256 ≠ d) → exec .eventRecordEntry s = .next s) ∧
    (∀ (r : Record) (rest : List Record), look [] e.held d = r :: rest → e.behind d r.made = true → exec .eventRecordEntry s = .next s) ∧
    (∀ (r : Record) (rest : List Record), look [] e.held d = r :: rest → e.blocked = false → e.entered ≠ some s.mgmt.kcy → e.behind d r.made = false →
      let at' := e.base.toNat + 64 * (e.wr.toNat % 2 ^ e.log2n.toNat)
      let m := look 0 e.msix r.cls
      (s.logWritable = false → exec .eventRecordEntry s = .next { s with log := { e with unwritable := true, triedAt := (s.die 8).time.toNat } }) ∧
      (s.logWritable = true → r.ends = none → r.done = none → r.evsig = none → r.sequel = .none → ∃ t, exec .eventRecordEntry s = .next t ∧
        let w (i : Nat) : Nat := t.loadLE (at' + 8 * i) 8
        t.log.wr = e.wr + 1 ∧ t.log.entered = some s.mgmt.kcy ∧ look [] t.log.held d = rest ∧ t.cores = s.cores ∧ (∀ a, (∀ i, i < 64 → memKey a ≠ memKey (at' + i)) → t.byte a = s.byte a) ∧
        w 0 = e.wr.toNat ∧ w 1 % 2 ^ 8 = r.cause.toNat ∧ w 1 / 2 ^ 8 % 16 = r.cls % 16 ∧ w 1 / 2 ^ 12 % 16 = r.rcl % 16 ∧ w 1 / 2 ^ 16 % 16 = r.src % 16 ∧
        w 1 / 2 ^ 20 % 16 = r.ctx % 16 ∧ (w 1).testBit 24 = r.prc ∧ (w 1).testBit 25 = r.lfail ∧ (w 1).testBit 26 = r.seald ∧ w 1 / 2 ^ 27 % 32 = 0 ∧
        w 1 / 2 ^ 32 = r.tag.toNat ∧ w 2 = r.time.toNat ∧ w 3 % 2 ^ 10 = r.gcore % 2 ^ 10 ∧ w 3 / 2 ^ 10 % 2 ^ 10 = 0 ∧ w 3 / 2 ^ 20 % 16 = r.stg % 16 ∧
        w 3 / 2 ^ 24 % 4 = r.strand % 4 ∧ (w 3).testBit 26 = r.tv ∧ w 3 / 2 ^ 27 = 0 ∧ w 4 = r.tidx % 2 ^ 64 ∧ w 5 = r.pc.toNat ∧ w 6 = r.addr.toNat ∧
        w 7 = r.data.toNat ∧
        t.log.sent = (if (m.getLsbD 8 = true ∨ r.irq = true) ∧ e.msixOn = true ∧ e.msixMask = false ∧
            (look msixReset e.msixTable (m.toNat % 256)).getLsbD 96 = false
          then e.sent ++ [(m.toNat % 256, e.wr.toNat)] else e.sent))))) ∧
  (∀ s : State,
    let w := s.ev.word
    let n := w.toNat
    (s.ev.flag = true → s.host.linkUp = false ∨ s.mgmt.down = true →
      exec .elcfgWrite s = .next s ∧ exec .elbaseWrite s = .next s ∧ exec .elrdWrite s = .next s ∧
      (s.host.linkUp = false ∨ inMailbox s.ev.reg = false → exec .registerWrite s = .next s)) ∧
    (∀ k, k < 8 → s.host.linkUp = true → s.ev.reg = .mbdata k → exec .registerWrite s =
      .next { s with mgmt := { s.mgmt with mbdata := put 0 s.mgmt.mbdata k w } }) ∧
    (s.ev.flag = false ∨ (s.host.linkUp = true ∧ s.mgmt.down = false) →
      (∃ t, exec .elcfgWrite s = .next t ∧ { t with log := s.log } = s ∧ t.log = { s.log with
        log2n := if n % 32 = 0 ∨ (6 ≤ n % 32 ∧ n % 32 ≤ 20) then BitVec.ofNat 5 n else s.log.log2n, unwritable := false }) ∧
      (∃ t, exec .elbaseWrite s = .next t ∧ { t with log := s.log } = s ∧ t.log = { s.log with
        base := if n / 2 ^ 48 % 16 = 0 ∨ n / 2 ^ 48 % 16 = 2 then BitVec.ofNat 64 (n - n % 4096) else s.log.base, unwritable := false }) ∧
      exec .elrdWrite s = .next { s with log := { s.log with rd := w } } ∧
      (let sets (r : RegName) (t : State) : Prop := s.ev.reg = r → exec .registerWrite s = .next t
       (∀ q, sets (.lqhead q) s) ∧ sets .elwr s ∧ sets .brst s ∧ sets .pstat s ∧ sets .rtst s ∧ sets .cairnst s ∧
       (s.ev.reg = .xfcon → s.ev.flag = true → exec .registerWrite s = .next s) ∧
       (s.ev.reg = .xfcon → s.ev.flag = false → ∃ t, exec .registerWrite s = .next t ∧ { t with xfcon := s.xfcon } = s ∧ ∀ j, j < 4 →
         let b := s.bus (j + 4)
         let now := (s.die 8).time.toNat
         t.xfcon.getLsbD j = (if w.getLsbD j then s.xfcon.getLsbD j || decide (b.lpc.toNat ≤ 1 ∧ b.steadySince + 10000000 ≤ now)
           else s.xfcon.getLsbD j && !decide (b.lpc = 3 ∧ b.since + 100000000 ≤ now))) ∧
       sets .pcap (if 1200 ≤ n % 4096 ∧ n % 4096 ≤ 3000 then { s with mgmt := { s.mgmt with
         pcap := BitVec.ofNat 12 n, capNow := if s.mgmt.windowKcy = some s.mgmt.kcy then BitVec.ofNat 12 n else s.mgmt.capNow,
         capEnd := if (s.mgmt.windows + 1) * 1000000 ≤ (s.die 8).time.toNat ∧ s.mgmt.capEnd = none then some s.mgmt.pcap else s.mgmt.capEnd } } else s) ∧
       sets .ftout (if s.fabric.flife.toNat < n % 65536 then { s with fabric := { s.fabric with ftout := BitVec.ofNat 16 n } } else s) ∧
       sets .flife (if n % 65536 ≠ 0 ∧ n % 65536 < s.fabric.ftout.toNat then { s with fabric := { s.fabric with flife := BitVec.ofNat 16 n } } else s) ∧
       (∀ i x, (i = 1 ↔ s.fabric.cur = true) ∨ s.fabric.idleBusy = true → sets (.rtdef i) s ∧ sets (.rtovr i x) s) ∧
       (s.fabric.cur = false → s.fabric.idleBusy = false → sets (.rtdef 1) { s with fabric := { s.fabric with def1 := BitVec.ofNat 24 n } }) ∧
       (∀ q, (s.queue q).head ≠ (s.queue q).tail → sets (.lqbase q) s) ∧
       (∀ q, 16 ≤ q → sets (.lqbase q) s) ∧
       (∀ q, q < 16 → (s.queue q).head = (s.queue q).tail → sets (.lqbase q) (s.onQueue q (fun x => { x with base := BitVec.ofNat 64 (n - n % 4096) }))) ∧
       (∀ d, d < 8 → sets (.dlkcfg d) (s.onDie d (fun x => { x with dlk := BitVec.ofNat 16 n }))) ∧
       (∀ c, sets (.ttbase c) (if c < 16 then { s with ttbase := put 0 s.ttbase c w, walked := [] } else s))))) ∧
  (∀ s : State,
    let now := (s.die 8).time.toNat
    exec .eventLogRetry s = .next (if s.log.base.toNat / 2 ^ 48 % 16 = 2 ∧ s.log.triedAt + 1000000 ≤ now then
      { s with log := { s.log with unwritable := false, triedAt := now } } else s)) ∧
  (∀ s : State,
    let u := unitNumber s.ev.unit
    let x := (look 0 s.atst u).toNat
    let last := look 0 s.mgmt.polled u
    let now := (s.die 8).time.toNat
    let polled (t : State) : Prop := t.mgmt = { s.mgmt with polled := put 0 s.mgmt.polled u (now + 1) }
    (last ≠ 0 → now < last - 1 + 1000000 → exec .atomicStatusPoll s = .next s) ∧
    (x % 32 = 0 → last = 0 ∨ last - 1 + 1000000 ≤ now → ∃ t, exec .atomicStatusPoll s = .next t ∧ polled t ∧ { t with mgmt := s.mgmt } = s) ∧
    (x % 32 ≠ 0 → last = 0 ∨ last - 1 + 1000000 ≤ now → ∃ t, polled t ∧ exec .atomicStatusPoll s = .next t ∧ (look 0 t.atst u).toNat = x / 256 * 256 ∧ (∀ v, v ≠ u → look 0 t.atst v = look 0 s.atst v) ∧
      t.log = (s.enter { s.deviceRecord (unitDie s.ev.unit) 0x5A 0 (BitVec.ofNat 64 (x % 32)) with ctx := x / 256 }).log)) ∧
  (∀ s : State,
    let k := s.ev.num
    let x := look (0, 0) s.mgmt.corrected k
    let last := look 0 s.mgmt.reported k
    let now := (s.die 8).time.toNat
    (x.2 = 0 ∨ (last ≠ 0 ∧ now < last - 1 + 1000000) → exec .correctedErrorReport s = .next s) ∧
    (x.2 ≠ 0 → last = 0 ∨ last - 1 + 1000000 ≤ now → ∃ t, exec .correctedErrorReport s = .next t ∧ look (0, 0) t.mgmt.corrected k = (0, 0) ∧
      look 0 t.mgmt.reported k = now + 1 ∧ t.log = (s.notice 8 0x70 (BitVec.ofNat 64 x.1) (BitVec.ofNat 64 x.2)).log)) ∧
  (∀ s : State,
    let k := s.ev.num
    let old := look 0 s.mgmt.hbmCounts k
    let last := look 0 s.mgmt.hbmPolled k
    let now := (s.die 8).time.toNat
    let m : Mgmt := { s.mgmt with hbmPolled := put 0 s.mgmt.hbmPolled k (now + 1) }
    (8 ≤ k ∨ (last ≠ 0 ∧ now < last - 1 + 10000000) → exec .hbmErrorCountPoll s = .next s) ∧
    (k < 8 → last = 0 ∨ last - 1 + 10000000 ≤ now →
      (s.ev.num2 ≤ old → exec .hbmErrorCountPoll s = .next { s with mgmt := m }) ∧
      (old < s.ev.num2 → exec .hbmErrorCountPoll s = .next { s.notice k 0x74 (BitVec.ofNat 64 k) (BitVec.ofNat 64 (s.ev.num2 - old)) with
        mgmt := { m with hbmCounts := put 0 s.mgmt.hbmCounts k s.ev.num2 } }))) ∧
  (∀ s : State, exec .l2CheckModeSwitch s = .next (if s.mgmt.decTed = s.ev.flag then s
    else { s.notice 8 0x73 0 (if s.ev.flag then 1 else 0) with mgmt := { s.mgmt with decTed := s.ev.flag } })) ∧
  (∀ s : State, exec .strataCommit s = .next { s with mgmt := { s.mgmt with committed := s.mgmt.strata } }) ∧
  (∀ s : State,
    let d := s.ev.num
    (13 ≤ d ∨ s.pairsHold d s.ev.pairs = false → exec .timeConversionCommit s = .next s) ∧
    (d < 13 → s.pairsHold d s.ev.pairs = true → s.ev.pairs.length = 13 → ∃ t, exec .timeConversionCommit s = .next t ∧ (t.die d).tgen = (s.die d).tgen + 1 ∧ (∀ e, e ≠ d → t.die e = s.die e) ∧
      ∀ i, i < 13 → (look 0 (t.die d).tofs i, look (BitVec.ofNat 64 (2 ^ 40)) (t.die d).trate i) =
        if i = d then (0, BitVec.ofNat 64 (2 ^ 40)) else s.ev.pairs.getD i (0, 0)))

/-- R2, R21, R195, R197, R350, R375 to R379, R447, R448 and R449: bring-up whose steps all pass makes the unfused cores present and
the module ready; the power and temperature rules set the clock, and 115 °C or a loss of power leaves only what survives; each
mailbox command answers with its return code; a host access through BAR2 reads or stores its bytes or is refused; the host link and
the second tier fail and return. -/
def Obligations.ManagementEvents : Prop :=
  (∀ s : State,
    let f := s.ev.fuses
    let tripped := s.dies.any (fun d => d.2.hot = 3)
    let accepted (i : FwImage) : Prop := i.signed = true ∧ i.key = f.key ∧ f.rollback ≤ i.version
    (s.mgmt.powered = true ∨ tripped = true ∨ firstPairsHold f = false → exec .powerGood s = .next s) ∧
    (∀ i, s.mgmt.powered = false → tripped = false → firstPairsHold f = true → s.cores = [] → f.failStep = none → f.images[s.mgmt.first]? = some i → accepted i →
      (f.rows.map (·.1)).Nodup → ∃ t, exec .powerGood s = .next t ∧ t.mgmt.ready = true ∧
      t.mgmt.fuse = true ∧ t.mgmt.fail = false ∧ t.mgmt.step = 5 ∧ t.mgmt.grade = f.grade ∧ t.mgmt.clk = f.grade ∧ t.host.linkUp = f.link ∧ t.host.tierUp = f.tier ∧
      t.mgmt.copy = s.mgmt.first ∧ t.mgmt.release = i.release ∧ t.mgmt.lasersOff = false ∧ t.mgmt.badStacks = f.badStacks ∧
      t.mgmt.fwStep = f.grade.toNat ∧ t.mason = {} ∧ t.flow = {} ∧ t.fabric.cur = false ∧ t.fabric.def0 = 0 ∧ t.fabric.def1 = 0 ∧ t.fabric.ovr0 = [] ∧ t.fabric.ovr1 = [] ∧
      (∀ g, g < 768 → ((t.core g).present = true ↔ g ∉ f.absent ∧ g ∉ f.skewFailed ∧
        ∀ e ∈ f.rows, e.1 = g → (e.2.2.filter (fun p => decide (p < 68))).eraseDups.length ≤ 4)) ∧
      (∀ e ∈ f.rows, e.1 < 768 → e.1 ∉ f.absent → (t.core e.1).badRows = e.2.2) ∧ (∀ d, d < 13 → (t.die d).tgen = (s.die d).tgen + 1 ∧ (t.die d).time = 0) ∧
      SameMemory s t) ∧
    (s.mgmt.powered = false → tripped = false → firstPairsHold f = true →
      ((∀ i ∈ f.images, ¬accepted i) → ∃ t, exec .powerGood s = .next t ∧ t.mgmt.fail = true ∧ t.mgmt.step = 0 ∧ t.mgmt.ready = s.mgmt.ready ∧ t.cores = s.cores) ∧
      (∀ i, (∀ j, f.images[s.mgmt.first]? = some j → ¬accepted j) → f.images[1 - s.mgmt.first]? = some i → accepted i → ∃ t, exec .powerGood s = .next t ∧
        t.mgmt.copy = 1 - s.mgmt.first ∧ t.mgmt.release = i.release) ∧
      (∀ i k, f.images[s.mgmt.first]? = some i → accepted i → f.failStep = some k → 1 ≤ k.toNat → k.toNat ≤ 5 → ∃ t, exec .powerGood s = .next t ∧ t.mgmt.fail = true ∧
        t.mgmt.step = k ∧ t.mgmt.ready = s.mgmt.ready))) ∧
  (∀ s : State,
    let m := s.mgmt
    let p := s.ev.num
    let limit := min 3000 m.capNow.toNat
    let step := if limit < p then (if 10 < m.hwStep then m.hwStep - 1 else m.hwStep)
      else if 100 * p < 95 * limit ∧ 9 ≤ m.calm ∧ m.hwStep < m.grade.toNat then m.hwStep + 1 else m.hwStep
    let forced := s.dies.any (fun d => d.2.hot = 2)
    let used := min step m.fwStep
    let due := (m.windows + 1) * 1000000
    ((s.die 8).time.toNat < due → exec .powerWindow s = .next s) ∧
    (due ≤ (s.die 8).time.toNat → ∃ t, exec .powerWindow s = .next t ∧ t.mgmt.hwStep = step ∧ t.mgmt.pwr = BitVec.ofNat 12 p ∧
      t.mgmt.clk = BitVec.ofNat 8 (if forced then min 10 used else used) ∧ t.mgmt.capNow = m.capEnd.getD m.pcap ∧ t.mgmt.capEnd = none ∧ t.mgmt.windows = m.windows + 1 ∧ t.mgmt.windowKcy = some m.kcy ∧
      t.mgmt.calm = (if limit < p then 0 else if 100 * p < 95 * limit then (if 9 ≤ m.calm then 0 else m.calm + 1) else 0) ∧
      t.log = (if step < m.hwStep then s.notice 8 0x77 0 0 else s).log ∧ t.cores = s.cores ∧ SameMemory s t)) ∧
  (∀ s : State,
    let d := s.ev.num
    let c := s.ev.num2
    let hot := (s.die d).hot
    let used := min s.mgmt.hwStep s.mgmt.fwStep
    let clock (t : State) : Prop := t.mgmt.clk = BitVec.ofNat 8 (if t.dies.any (fun e => e.2.hot = 2) then min 10 used else used)
    (13 ≤ d ∨ hot = 3 → exec .dieTemperatureThreshold s = .next s) ∧
    (d < 13 → hot < 3 →
      (c < 95 → hot ≠ 1 → exec .dieTemperatureThreshold s = .next s) ∧
      (c < 95 → hot = 1 → exec .dieTemperatureThreshold s = .next (s.onDie d (fun x => { x with hot := 0 }))) ∧
      (95 ≤ c → c < 105 → exec .dieTemperatureThreshold s = .next (if hot = 0 then (s.onDie d (fun x => { x with hot := 1 })).notice d 0x75 0 0 else s)) ∧
      (105 ≤ c → c < 115 → hot = 2 → exec .dieTemperatureThreshold s = .next s) ∧
      (105 ≤ c → c < 115 → hot ≠ 2 → ∃ t, exec .dieTemperatureThreshold s = .next t ∧ (t.die d).hot = 2 ∧ clock t ∧ t.cores = s.cores ∧ SameMemory s t ∧
        t.log = (let z := if hot = 0 then s.notice d 0x75 0 0 else s; z.notice d 0x76 0 0).log) ∧
      (115 ≤ c → ∃ t, exec .dieTemperatureThreshold s = .next t ∧ (t.die d).hot = 3 ∧ t.mgmt.lasersOff = true ∧ t.cores = [] ∧ t.queues = [] ∧
        (s.host.checkpoint = none → ∀ a, t.byte a = if paSpace a = 1 ∨ paSpace a = 2 then s.byte a else 0))) ∧
    (hot ≠ 2 → exec .dieBelow100C s = .next s) ∧
    (hot = 2 → ∃ t, exec .dieBelow100C s = .next t ∧ (t.die d).hot = 1 ∧ clock t ∧ t.log = s.log ∧ t.cores = s.cores ∧ SameMemory s t) ∧
    (s.host.checkpoint = none → ∃ t, exec .powerLoss s = .next t ∧ t.cores = [] ∧ t.queues = [] ∧ t.launches = [] ∧ t.mgmt.powered = false ∧
      t.mgmt.strata = s.mgmt.committed ∧ t.mgmt.flash = s.mgmt.flash ∧ t.mgmt.first = s.mgmt.first ∧ t.mgmt.lasersOff = true ∧ (∀ a, t.byte a = if paSpace a = 1 ∨ paSpace a = 2 then s.byte a else 0))) ∧
  (∀ s : State,
    let m := s.mgmt
    let x := look 0 m.mbdata 0
    let g := x.toNat % 1024
    let op := x.toNat / 2 ^ 16 % 4
    let v := x.toNat / 2 ^ 18 % 4
    let answers (e : Instr) (rc : Nat) (f : State → Prop) : Prop := ∃ t, exec e s = .next t ∧ t.mgmt.mbBusy = false ∧ t.mgmt.mbRc = BitVec.ofNat 8 rc ∧
      t.mgmt.mbTag = (if m.mbBusy then m.mbTag else BitVec.ofNat 16 s.ev.num) ∧ f t
    let refuses (e : Instr) (rc : Nat) : Prop := answers e rc (fun t => t.cores = s.cores ∧ SameMemory s t ∧ t.queues = s.queues)
    (∀ e k, (e, k) ∈ ([(.firmwareVersion, 1), (.presentMask, 2), (.readStrataPage, 3), (.restoreCheckpoint, 5), (.firmwareUpdateBlock, 6)] : List (Instr × Nat)) →
      (m.mbBusy = true → m.mbOp ≠ k → exec e s = .next { s with mgmt := { m with mbOvr := true } }) ∧
      (m.mbBusy = false ∨ m.mbOp = k → m.fail = true → m.step = 0 → k ≠ 1 → k ≠ 6 → refuses e 3)) ∧
    (m.mbBusy = false → m.fail = false ∨ m.step ≠ 0 →
      answers .firmwareVersion 0 (fun t => look 0 t.mgmt.mbdata 0 = Config.firmwareVersion m.release ∧ t.cores = s.cores) ∧
      (2 ≤ x.toNat → refuses .presentMask 2) ∧
      (x.toNat < 2 → answers .presentMask 0 (fun t => ∀ i j, i < 8 → j < 64 →
        (look 0 t.mgmt.mbdata i).getLsbD j = (s.core (512 * x.toNat + 64 * i + j)).present)) ∧
      (14 < x.toNat → refuses .readStrataPage 2) ∧
      (x.toNat ≤ 14 → answers .readStrataPage 0 (fun t => t.cores = s.cores ∧ ∀ i, i < 8 → look 0 t.mgmt.mbdata i =
        Config.strataReply x.toNat i ((m.strata.filter (fun e => decide (e.1 / 2 ^ 16 = x.toNat))).map (fun e => ((e.1 % 2 ^ 16 / 16, e.1 % 16), e.2))))) ∧
      ((s.core g).present = false → op = 0 → refuses .debugHalt 2) ∧ ((s.core g).present = false → op = 1 → refuses .debugResume 2) ∧
      ((s.core g).present = false → op = 2 → refuses .debugSetDbg 2) ∧
      ((s.core g).present = true → op = 0 → answers .debugHalt 0 (fun t => t.core g = { s.core g with halted := true } ∧ SameOthers g s t)) ∧
      ((s.core g).present = true → op = 1 → (∀ tk, (s.core g).task = some tk → tk.gangWait = false) → answers .debugResume 0 (fun t => t.core g = { s.core g with halted := false } ∧ SameOthers g s t)) ∧
      ((s.core g).present = true → op = 2 → answers .debugSetDbg 0 (fun t => t.core g = { s.core g with dbgBe := decide (v / 2 = 1), dbgHz := decide (v % 2 = 1) } ∧
        SameOthers g s t)) ∧
      (x.toNat % 65536 ≠ 0 → refuses .restoreCheckpoint 2) ∧
      (x.toNat % 65536 = 0 → x.toNat ≤ 980606976000 → s.queuesIdle = false ∨ s.host.tierUp = false → refuses .restoreCheckpoint 3) ∧
      (∀ t, x.toNat % 65536 = 0 → x.toNat ≤ 980606976000 → s.queuesIdle = true → s.host.tierUp = true → s.host.checkpoint = none → s.restore x.toNat = some t →
        answers .restoreCheckpoint 0 (fun u => u.mem = t.mem ∧ u.launches = t.launches ∧ u.queues = t.queues)) ∧
      (s.restore x.toNat = none → x.toNat % 65536 = 0 → x.toNat ≤ 980606976000 → refuses .restoreCheckpoint 3) ∧
      (let blockIn (base : Nat) (l : Sparse Byte) : Prop := ∀ i j, i < 6 → j < 8 →
         look 0 l (base + x.toNat + 8 * i + j) = BitVec.ofNat 8 ((look 0 m.mbdata (i + 2)).toNat / 2 ^ (8 * j))
       let kept (t : State) : Prop := t.mgmt.flash = m.flash ∧ t.mgmt.first = m.first ∧ t.cores = s.cores
       (s.ev.flag = false → answers .firmwareUpdateBlock 0 (fun t => kept t ∧ blockIn 0 t.mgmt.update)) ∧
       (∀ i rest, s.ev.flag = true → s.ev.fuses.images = i :: rest →
         (¬(i.signed = true ∧ i.key = m.fusedKey ∧ m.rollback ≤ i.version) → answers .firmwareUpdateBlock 3 (fun t => kept t ∧ t.mgmt.update = [])) ∧
         (i.signed = true → i.key = m.fusedKey → m.rollback ≤ i.version → m.update.Pairwise (fun a b => a.1 < b.1) → m.flash.Pairwise (fun a b => a.1 < b.1) →
           x.toNat + 48 ≤ 2 ^ 64 → answers .firmwareUpdateBlock 0 (fun t => t.cores = s.cores ∧ t.mgmt.first = 1 - m.copy ∧ t.mgmt.copy = m.copy ∧
             blockIn ((1 - m.copy) * 2 ^ 64) t.mgmt.flash)))))) ∧
  (∀ s : State,
    let o := s.host.hwin.toNat * 65536 + s.ev.num
    let replies (e : Instr) (r : Option (List Byte)) : Prop := ∃ t, exec e s = .next t ∧ t.host = { s.host with replies := s.host.replies ++ [r] } ∧ SameMemory s t
    (s.host.linkUp = false ∨ s.mgmt.down = true ∨ 2 ^ s.host.bar2 ≤ s.ev.num → exec .hostBar2Access s = .next s) ∧
    (s.host.linkUp = true → s.mgmt.down = false → s.ev.num < 2 ^ s.host.bar2 → s.checkpointHolds = true → exec .hostBar2Access s =
      .next { s with host := { s.host with waiting := s.host.waiting ++ [(2, s.ev.num, s.ev.host)] } }) ∧
    (s.host.linkUp = true → s.mgmt.down = false → s.ev.num < 2 ^ s.host.bar2 → s.checkpointHolds = false → (∀ a, Upset.metadata a ∉ s.upsets) →
      (s.ev.host = .atomicOp → replies .hostBar2Access none) ∧
      (∀ n i, s.ev.host = .read n → i < n → s.mapped (o + i) = false → replies .hostBar2Access none) ∧
      (∀ n, s.ev.host = .read n → o + n ≤ 2 ^ 48 → (∀ i, i < n → s.mapped (o + i) = true ∧ s.poisoned (o + i) = false) →
        replies .hostBar2Access (some ((List.range n).map (fun i => s.byte (o + i))))) ∧
      (∀ b i, s.ev.host = .write b → i < b.length → s.mapped (o + i) = false → replies .hostBar2Access none) ∧
      (∀ b, s.ev.host = .write b → o + b.length ≤ 2 ^ 48 → (∀ i, i < b.length → s.mapped (o + i) = true) → ∃ t, exec .hostBar2Access s = .next t ∧
        t.cores = s.cores ∧ (∀ i, i < b.length → t.byte (o + i) = b.getD i 0) ∧ (∀ a, (∀ i, i < b.length → memKey a ≠ o + i) → t.byte a = s.byte a))) ∧
    (s.mgmt.powered = true → exec .pcieLinkUp s = .next { s with host := { s.host with linkUp := true } }) ∧
    (s.mgmt.powered = false → exec .pcieLinkUp s = .next s) ∧
    (s.host.linkUp = false → exec .pcieLinkDown s = .next s) ∧
    (s.host.linkUp = true → (∀ e ∈ s.cores, e.2.inSpace .c 2 = [] ∧ e.2.inSpace .a 2 = []) → exec .pcieLinkDown s = .next { s with host := { s.host with linkUp := false } }) ∧
    (s.host.tierUp = false → exec .secondTierFailure s = .next s) ∧
    (s.host.tierUp = true → s.host.checkpoint = none → (∀ e ∈ s.cores, e.2.inSpace .c 1 = [] ∧ e.2.inSpace .a 1 = [] ∧ e.2.tq = [] ∧ ∀ ch, (e.2.channel ch).queue = []) → exec .secondTierFailure s =
      .next (({ s with host := { s.host with tierUp := false } } : State).notice 8 0x6B 0 0)) ∧
    (s.ev.pcie = .correctable → ∃ t, exec .pcieError s = .next t ∧ t.cores = s.cores ∧ SameMemory s t ∧
      (∀ p, s.host.correctedAt = some p → (s.die 8).time.toNat < p + 1000000 → t.host.correctables = s.host.correctables + 1 ∧ t.log = s.log) ∧
      (s.host.correctedAt = none → t.host.correctables = 0 ∧ t.log = (s.notice 8 0x6A 0 (BitVec.ofNat 64 (s.host.correctables + 1))).log)) ∧
    (∀ id st x a, s.ev.pcie = .completion id st → ((s.core s.ev.core).inSpace s.ev.strand 2).find? (fun y => y.id = id) = some x →
      x.bytes.find? (fun b => decide (paSpace b = 2)) = some a → exec .pcieError s =
        .next ((s.notice (s.ev.core / 96) 0x6A 0 st).faultAccess s.ev.core s.ev.strand x 0x60 (BitVec.ofNat 64 a) 0)) ∧
    (∀ g k id, s.ev.pcie = .poisonedTlp g k id → (s.core g).inSpace k 2 = [] → exec .pcieError s = .next s))

/-! ### Events of the Bamyth fabric -/

/-- R358 to R362, R364, R365, R369, R438 to R443 and R446: a packet takes its override or its dimension order, or is dropped and its
source told; a route-carrying packet pops its entry and goes on, waits for its partner and carries the sum, or is duplicated; a home
answers a load, a store and an atomic once each, and repeats what it answered; a requester keeps the first response, reissues with
ALT, gives up with REMOTE_TIMEOUT, waits on BUSY; of two copies of a control packet the first acts. -/
def Obligations.FabricEvents : Prop :=
  (∀ (f : Fabric) (p : Packet),
    let d := (f.def_ p.bank).toNat
    let e := look 0 (f.ovr p.bank) p.dst
    let axis (k : Nat) : Nat × Nat × Nat := (d % 4096 / 16 ^ k % 16, p.dst / 16 ^ k % 16, d / 2 ^ (12 + 4 * k) % 16 + 1)
    let differs (k : Nat) : Prop := (axis k).1 ≠ (axis k).2.1
    let port (k : Nat) : Nat := 4 * (if 2 * (((axis k).2.1 + (axis k).2.2 - (axis k).1) % (axis k).2.2) ≤ (axis k).2.2 then 2 * k else 2 * k + 1)
    p.kind = .request → p.dst < 4096 →
    (p.alt = false → e.getLsbD 5 = true → f.route p = e.toNat % 32) ∧
    (p.alt = false → e.getLsbD 5 = false → (differs 0 → f.route p = port 0) ∧ (¬differs 0 → differs 1 → f.route p = port 1) ∧
      (¬differs 0 → ¬differs 1 → differs 2 → f.route p = port 2)) ∧
    (p.alt = true → (differs 2 → f.route p = port 2) ∧ (¬differs 2 → differs 1 → f.route p = port 1) ∧ (¬differs 2 → ¬differs 1 → differs 0 → f.route p = port 0))) ∧
  (∀ (s : State) (p : Packet), s.fabric.packets[s.ev.num]? = some p →
    (p.kind ≠ .collective →
      (p.dst ≠ s.chip → s.fabric.usable (s.fabric.route p) = true →
        let port := s.fabric.route p
        let gone := s.fabric.packets.erase p
        let out := s.fabric.outbound ++ [(port, p)]
        let back (c : CrossPoint) : Bool := decide (c.src = p.dst ∧ c.dst = p.src ∧ c.port = p.addr)
        let mine : CrossPoint := { out := port, src := p.src, dst := p.dst, port := p.addr }
        (p.kind ≠ .setup ∨ p.pathB = true → exec .packetHop s = .next { s with fabric := { s.fabric with
          packets := gone, outbound := out,
          reserved := if p.kind = .ack ∧ p.step ≠ 1 then s.fabric.reserved.map (fun c => if back c then { c with committed := true } else c)
            else if p.kind = .busy then s.fabric.reserved.filter (fun c => !(back c && !c.committed))
            else if p.kind = .teardown then s.fabric.reserved.filter (fun c => !decide (c.src = p.src ∧ c.dst = p.dst ∧ c.port = p.addr)) else s.fabric.reserved } }) ∧
        (p.kind = .setup → p.pathB = false →
          (s.fabric.reserved.find? (fun e => e.out = port) = none → exec .packetHop s =
            .next { s with fabric := { s.fabric with packets := gone, outbound := out, reserved := s.fabric.reserved ++ [mine] } }) ∧
          (∀ c, s.fabric.reserved.find? (fun e => e.out = port) = some c → ¬(c.src = p.src ∧ c.dst = p.dst ∧ c.port = p.addr) →
            ¬(c.src = p.dst ∧ c.dst = p.src ∧ c.committed = false ∧ p.src < p.dst) → ∃ t a, exec .packetHop s = .next t ∧ t.fabric.outbound = s.fabric.outbound ∧
              t.fabric.reserved = s.fabric.reserved ∧ t.fabric.packets = gone ++ [a, { a with pathB := true }] ∧ a.kind = .busy ∧ a.dst = p.src ∧ a.addr = p.addr))) ∧
      (p.dst ≠ s.chip → s.fabric.takes p.kind (s.fabric.route p) = false → p.kind ≠ .routeBroken → ∃ t q, exec .packetHop s = .next t ∧
        t.fabric.packets = s.fabric.packets.erase p ++ [q] ∧ q.kind = .routeBroken ∧ q.dst = p.src ∧ q.seq = p.seq ∧ t.fabric.outbound = s.fabric.outbound) ∧
      (p.dst = s.chip → p.kind = .request → p.what ≠ none → exec .packetHop s = .next { s with fabric := { s.fabric with
        packets := s.fabric.packets.erase p,
        ingress := s.fabric.ingress ++ [((s.die 8).time.toNat, { p with held := s.chipHalted && !s.expired p })] } }) ∧
      exec .routeCarryingHop s = .next s) ∧
    (p.kind = .collective → exec .packetHop s = .next s) ∧
    (∀ e rest, p.kind = .collective → p.route = e :: rest →
      let op := e.toNat / 32 % 4
      let a := e.toNat % 32
      let b := e.toNat / 128 % 32
      let q := { p with route := rest }
      let gone := s.fabric.packets.erase p
      (op = 0 → s.fabric.usable a = true → exec .routeCarryingHop s =
        .next { s with fabric := { s.fabric with packets := gone, outbound := s.fabric.outbound ++ [(a, q)] } }) ∧
      (op = 1 → s.fabric.adders.find? q.partner = none → exec .routeCarryingHop s =
        .next { s with fabric := { s.fabric with packets := gone, adders := s.fabric.adders ++ [q] } }) ∧
      (∀ o, op = 1 → s.fabric.adders.find? q.partner = some o → s.fabric.usable a = true → exec .routeCarryingHop s = .next { s with fabric := { s.fabric with
        packets := gone, adders := s.fabric.adders.erase o,
        outbound := s.fabric.outbound ++ [(a, { q with
          payload := (addPayloads q.wire o.payload q.payload).1, ovf := q.ovf || o.ovf || (addPayloads q.wire o.payload q.payload).2 })] } }) ∧
      (op = 2 → (∀ x ∈ s.fabric.plans, x.tag ≠ p.tag) → exec .routeCarryingHop s = .next s) ∧
      (op = 3 → s.fabric.usable a = true → s.fabric.usable b = true → exec .routeCarryingHop s =
        .next { s with fabric := { s.fabric with packets := gone, outbound := s.fabric.outbound ++ [(a, q), (b, q)] } }))) ∧
  (∀ a b : Nat,
    let v := signedOf 32 (a % 2 ^ 32) + signedOf 32 (b % 2 ^ 32)
    let w : Int := max (-(2 ^ 31)) (min (2 ^ 31 - 1) v)
    addWire 2 a b = ((BitVec.ofInt 32 w).toNat, decide (w ≠ v)) ∧ addWire 0 a b = ((fAdd fp32 0 false a b).1, false)) ∧
  (∀ (s : State) (p : Packet),
    let n := s.ev.num
    let x := s.fabric.port n
    let now := s.portTime n
    let errors := if now < x.errorsSince + 1000000 then x.errors + 1 else 1
    let lim := s.fabric.ferrlim.toNat
    let gone := s.fabric.packets.erase p
    s.fabric.packets[s.ev.num2]? = some p →
    (p.flits ≤ s.ev.num3 → exec .flitUncorrectable s = .next s) ∧
    (s.ev.num3 < p.flits → ∃ t, exec .flitUncorrectable s = .next t ∧ (t.fabric.port n).errors = errors ∧ SameMemory s t ∧
      (p.kind = .collective → ∀ y ∈ t.fabric.plans, y.tag = p.tag → y.failed = true) ∧ (p.kind ≠ .collective → t.fabric.plans = s.fabric.plans) ∧
      (lim ≠ 0 → lim < errors → x.state = .up → (t.fabric.port n).state = .draining ∧ t.log = (s.notice (9 + n / 8) 0x78 0 0).log ∧
        ∃ a, t.fabric.packets = gone ++ [a, { a with pathB := true }] ∧ a.kind = .drain ∧ a.dst = s.portPeer n) ∧
      (lim = 0 ∨ errors ≤ lim ∨ x.state ≠ .up → (t.fabric.port n).state = x.state ∧ t.log = s.log ∧ t.fabric.packets = gone))) ∧
  (∀ (s : State) (e : Nat × Packet) (k : RequestKind), s.fabric.ingress[s.ev.num]? = some e → e.2.what = some k →
    let p := e.2
    let now := (s.die 8).time.toNat
    let gone := s.fabric.ingress.erase e
    let response (t : State) (c : Nat) (l : List Byte) : Prop := t.fabric.ingress = gone ∧ ∃ q, t.fabric.packets = s.fabric.packets ++ [q] ∧ q.kind = .response ∧
      q.src = s.chip ∧ q.dst = p.src ∧ q.seq = p.seq ∧ q.tag = BitVec.ofNat 32 c ∧ q.payload = l
    let told (ev : Instr) (kind : PacketKind) : Prop := ∃ t q, exec ev s = .next t ∧ t.fabric.ingress = gone ∧ t.fabric.packets = s.fabric.packets ++ [q] ∧
      q.kind = kind ∧ q.dst = p.src ∧ q.seq = p.seq ∧ SameMemory s t ∧ t.cores = s.cores
    (s.chipHalted = true ∨ s.mgmt.down = true → exec .requestAtHome s = .next s) ∧
    (s.chipHalted = true → p.held = true → e.1 + 100000 ≤ now → told .haltedRequestExpiry .targetHalted) ∧
    (s.chipHalted = false ∨ p.held = false ∨ now < e.1 + 100000 → exec .haltedRequestExpiry s = .next s) ∧
    (s.chipHalted = false → s.mgmt.down = false → p.held = false → 1000 * s.fabric.flife.toNat < s.ageOf p.src p.issued → exec .requestAtHome s = .next { s with fabric := { s.fabric with ingress := gone } }) ∧
    (s.chipHalted = false → s.mgmt.down = false → p.held = true ∨ s.ageOf p.src p.issued ≤ 1000 * s.fabric.flife.toNat →
      (s.checkpointHolds = true → told .requestAtHome .busyReply) ∧
      (s.checkpointHolds = false →
        (∀ addrs, k = .load 8 addrs → (∀ a ∈ addrs, paSpace a ≠ 6 ∧ s.poisoned a = false) → s.unreachable addrs = none → ∃ t, exec .requestAtHome s = .next t ∧
          response t 0 (s.load addrs) ∧ SameMemory s t ∧ t.cores = s.cores) ∧
        (∀ addrs bytes marks, k = .store 8 addrs bytes marks → bytes.length = addrs.length → (∀ a ∈ addrs, paSpace a ≠ 6) → (addrs.map memKey).Nodup →
          s.unreachable addrs = none → ∃ t, exec .requestAtHome s = .next t ∧ response t 0 [] ∧ t.load addrs = bytes ∧
          (∀ a, (∀ b ∈ addrs, memKey a ≠ memKey b) → t.byte a = s.byte a) ∧ t.cores = s.cores) ∧
        (∀ op ty cas v x addrs home ctx returns, k = .atomic op ty cas v x 8 addrs home ctx returns → op ≠ 10 ∨ cas = true →
          let w := look [] s.fabric.windows p.src
          let new := atomicNew op ty cas v x (leNat (s.load addrs))
          (∀ y c, w.find? (fun y => y.seq = p.seq) = some y → y.cause = some c → ∃ t, exec .requestAtHome s = .next t ∧ response t c y.bytes ∧ SameMemory s t) ∧
          (∀ y, w.find? (fun y => y.seq = p.seq) = some y → y.cause = none → exec .requestAtHome s = .next { s with fabric := { s.fabric with ingress := gone } }) ∧
          (w.find? (fun y => y.seq = p.seq) = none → w.length < 1024 → s.unreachable addrs = none → (∀ a ∈ addrs, s.poisoned a = false) →
            addrs.length = atomicBytes ty → (addrs.map memKey).Nodup →
            ∃ t, exec .requestAtHome s = .next t ∧ response t 0 (s.load addrs ++ if returns then leBytes 1 new.2.toNat else []) ∧
              leNat (t.load addrs) = new.1 % 2 ^ (8 * atomicBytes ty) ∧
              (∀ a, (∀ b ∈ addrs, memKey a ≠ memKey b) → t.byte a = s.byte a)))))) ∧
  (∀ (s : State) (r : Request),
    let now := s.timeOf r.core
    let again (e : Instr) (r' : Request) : Prop := ∃ t q, exec e s = .next t ∧ t.fabric.packets = s.fabric.packets ++ [q] ∧ q.kind = .request ∧ q.dst = r.chip ∧
      q.seq = r.seq ∧ q.issued = s.stamp ∧ q.alt = r'.alt ∧ q.what = some r.what ∧ t.request? r.id = some r' ∧ SameMemory s t ∧ t.cores = s.cores
    let expires (e : Instr) (b : Option Nat) (data : Nat) : Prop :=
      (r.expiries < s.fabric.fretry.toNat → again e { r with expiries := r.expiries + 1, brokenBy := b, issued := now, reissued := true, alt := true, timing := true,
                                                             busy := false }) ∧
      (s.fabric.fretry.toNat ≤ r.expiries → exec e s = .next (s.endRequest r 0x60 (BitVec.ofNat 64 r.addr) (BitVec.ofNat 64 data)))
    s.request? s.ev.num = some r → r.id = s.ev.num →
    (r.answered ≠ none ∨ r.refused ≠ none → ∀ e ∈ ([.responseArrival, .routeBroken, .busyReply, .targetHalted] : List Instr), exec e s = .next s) ∧
    (s.fabric.requests = [r] → r.answered = none → r.refused = none → r.isSend = false → r.access ≠ 2 ^ 64 → r.access ≠ walkAccess r.addr → exec .responseArrival s =
      .next { s with fabric := { s.fabric with requests := [if s.ev.flag then { r with answered := some s.ev.bytes, marks := [], timing := false }
        else { r with refused := some s.ev.num2, errorAt := leNat (s.ev.bytes.take 8), timing := false }] } }) ∧
    (r.timing = false ∨ now < r.issued + 1000 * s.fabric.ftout.toNat → exec .requesterTimerExpiry s = .next s) ∧
    (r.timing = true → r.issued + 1000 * s.fabric.ftout.toNat ≤ now → expires .requesterTimerExpiry none r.chip) ∧
    (r.answered = none → r.refused = none → expires .routeBroken (some s.ev.num2) s.ev.num2) ∧
    (r.answered = none → r.refused = none → ∃ t, exec .busyReply s = .next t ∧ t.request? r.id = some { r with timing := false, busy := true, busyAt := now } ∧ t.fabric.packets = s.fabric.packets) ∧
    (r.busy = false ∨ now < r.busyAt + 100000 → exec .busyReissue s = .next s) ∧
    (r.busy = true → r.busyAt + 100000 ≤ now → again .busyReissue { r with issued := now, reissued := true, timing := true, busy := false }) ∧
    (r.answered = none → r.refused = none → exec .targetHalted s = .next (s.endRequest r 0x62 (BitVec.ofNat 64 r.addr) (BitVec.ofNat 64 r.chip)))) ∧
  (∀ (s : State) (e : Nat × Packet), s.fabric.ingress[s.ev.num]? = some e →
    let p := e.2
    let w := look [] s.fabric.control p.src
    (p.kind.isControl = false → exec .controlPacketArrival s = .next s) ∧
    (p.kind.isControl = true → p.seq ∈ w → ∃ t, exec .controlPacketArrival s = .next t ∧ t.fabric.ingress = s.fabric.ingress.erase e ∧
      t.fabric.ports = s.fabric.ports ∧ t.fabric.control = s.fabric.control ∧ t.buses = s.buses ∧ t.log = s.log) ∧
    (p.seq ∉ w → p.kind = .arm ∨ p.kind = .drainAck → ∃ t, exec .controlPacketArrival s = .next t ∧ t.fabric.ingress = s.fabric.ingress.erase e ∧
      p.seq ∈ look [] t.fabric.control p.src ∧
      (p.kind = .arm → t.fabric.ports = s.fabric.ports ∧
        let b := s.bus p.addr
        (t.bus p.addr).arms = if (∃ e ∈ b.subs, e.2 = p.src + 1) ∧ (p.tag, p.src) ∉ b.arms ∧ b.passed p.tag = false then b.arms ++ [(p.tag, p.src)] else b.arms) ∧
      (p.kind = .drainAck → (t.fabric.port p.addr) = { (s.fabric.port p.addr) with acked := true } ∧ t.buses = s.buses)) ∧
    (∀ v, p.seq ∉ w → p.kind = .fetch → paChip p.addr = s.chip → s.keystone? (p.addr / 64) = some v → (∀ m, Upset.metadata m ∉ s.upsets) → ∃ t a, exec .controlPacketArrival s = .next t ∧
      t.fabric.packets = s.fabric.packets ++ [a, { a with pathB := true }] ∧ a.kind = .granule ∧ a.dst = p.src ∧ a.addr = 64 * (p.addr / 64) ∧
      a.payload = leBytes 64 v.toNat ∧ a.pathB = false ∧ SameMemory s t) ∧
    (p.seq ∉ w → p.kind = .teardown → ∃ t a, exec .controlPacketArrival s = .next t ∧ t.fabric.packets = s.fabric.packets ++ [a, { a with pathB := true }] ∧
      a.kind = .ack ∧ a.step = 1 ∧ a.dst = p.src ∧ a.addr = p.addr ∧
      (∀ n, n < 32 → let x := s.fabric.port n
        t.fabric.port n = if 24 ≤ n ∧ x.far ≠ .idle ∧ x.farPeer = p.src ∧ x.farPort = p.addr then { x with far := .idle } else x) ∧
      t.fabric.reserved = s.fabric.reserved.filter (fun c => !decide (c.src = p.src ∧ c.dst = s.chip ∧ c.port = p.addr))) ∧
    (∀ x, p.seq ∉ w → p.kind = .control → s.flow.pods = [x] → x.phase = p.offset → s.neighbour x.side = p.src → s.flow.podDirty = [] →
      let m := p.offset
      let ask (t : State) (step : Nat) : Prop := ∃ a, t.fabric.packets = s.fabric.packets ++ [a, { a with pathB := true }] ∧ a.kind = .control ∧
        a.dst = p.src ∧ a.step = step ∧ a.offset = m ∧ a.pathB = false
      let epoch : BitVec 64 := BitVec.ofNat 64 (max s.flow.epoch.toNat (leNat p.payload))
      (s.opens m = false → p.step = 1 → 24 * s.podTime ≤ 24 * s.flow.phaseEnd m + s.flow.podPeriod → x.got = p.addr → x.replied = false → ∃ t,
        exec .controlPacketArrival s = .next t ∧ ask t 2 ∧ t.flow =
          { s.flow with epoch := epoch, pods := [{ x with heard := true, need := p.addr, replied := true, sent := [] }] } ∧ SameMemory s t) ∧
      (s.opens m = true → p.step = 2 → x.got = p.addr → ∃ t, exec .controlPacketArrival s = .next t ∧ ask t 3 ∧
        t.flow = { s.flow with epoch := epoch, pods := [] } ∧ SameMemory s t) ∧
      (s.opens m = false → p.step = 3 → x.replied = true → ∃ t, exec .controlPacketArrival s = .next t ∧ t.flow = { s.flow with pods := [] } ∧
        t.fabric.packets = s.fabric.packets ∧ SameMemory s t)))

/-- R367, R368, R444 and R445: a port that is told to drain acknowledges and drains, is drained once nothing is queued and the peer
has acknowledged, or after 100 µs with a record where something was lost; it trains within 2 ms or fails. A SETUP reserves its
cross-point or is answered BUSY; the requester backs off, tries again, gives up after eight tries; a circuit locks within 20 µs or
fails, where the failure's record ends a command that asked for it (the model's reading, log entry 128), and goes when its TEARDOWN
is acknowledged. -/
def Obligations.PortCircuitEvents : Prop :=
  (∀ s : State,
    let n := s.ev.num
    let x := s.fabric.port n
    let now := s.portTime n
    let toPeer (a : Packet) (kind : PacketKind) : Prop := a.kind = kind ∧ a.src = s.chip ∧ a.dst = s.portPeer n ∧ a.addr = portEnd n ∧ a.pathB = false
    let ends (e : Instr) (st : PortState) (z : State) : Prop := x.waiting = [] → ∃ t, exec e s = .next t ∧
      t.fabric.port n = { x with state := st, since := now, active := none } ∧ t.fabric.outbound = z.fabric.outbound ∧ t.cores = s.cores ∧ SameMemory s t ∧
      t.log = (match x.active with | some c => z.completeCommand c.queue c.index c.tag c.irq | none => z).log
    let tag : BitVec 32 := match x.active with | some c => c.tag | none => 0
    let lost := s.fabric.outbound.any (fun e => e.1 = n)
    (x.state = .up → ∃ t, exec .drainPacketArrival s = .next t ∧ (t.fabric.port n).state = .draining ∧ (t.fabric.port n).since = now ∧
      (t.fabric.port n).active = none ∧ (t.fabric.port n).acked = false ∧ ∃ a b, toPeer a .drainAck ∧ toPeer b .drain ∧
        t.fabric.packets = s.fabric.packets ++ [a, { a with pathB := true }, b, { b with pathB := true }]) ∧
    (x.state ≠ .up → ∃ t a, exec .drainPacketArrival s = .next t ∧ t.fabric.ports = s.fabric.ports ∧ toPeer a .drainAck ∧
      t.fabric.packets = s.fabric.packets ++ [a, { a with pathB := true }]) ∧
    (x.state ≠ .draining ∨ x.acked = false ∨ x.credits ≠ 0 ∨ lost = true → exec .portDrained s = .next s) ∧
    (x.state = .draining → x.acked = true → x.credits = 0 → lost = false → ends .portDrained .drained s) ∧
    (x.state ≠ .draining ∨ now < x.since + 100000 → exec .drainTimeout s = .next s) ∧
    (x.state = .draining → x.since + 100000 ≤ now →
      let z : State := { s with fabric := { s.fabric with outbound := s.fabric.outbound.filter (fun e => decide (e.1 ≠ n)) } }
      ends .drainTimeout .drained (if lost then z.enter { s.deviceRecord (9 + n / 8) 0x67 0 0 with tag := tag } else z)) ∧
    (x.state ≠ .training ∨ x.since + 2000000 < now → exec .trainingPass s = .next s) ∧
    (x.state = .training → now ≤ x.since + 2000000 → ends .trainingPass .up s) ∧
    (x.state ≠ .training → exec .trainingTimeout s = .next s) ∧
    (x.state = .training → x.waiting = [] → ∃ t, exec .trainingTimeout s = .next t ∧ t.fabric.port n = { x with state := .failed, since := now, active := none } ∧
      t.cores = s.cores ∧ SameMemory s t ∧
      let r := s.deviceRecord (9 + n / 8) 0x68 0 0
      t.log = (s.enter (match x.active with
        | some c => { r with tag := c.tag, ctx := c.queue, irq := c.irq, done := some (c.queue, c.index) }
        | none => r)).log)) ∧
  (∀ s : State,
    let src := s.ev.num
    let dst := s.ev.num2
    let out := s.ev.num4
    let x := s.fabric.port out
    let num := s.ev.num3
    let now := s.portTime out
    let mine : CrossPoint := { out := out, src := src, dst := dst, port := num }
    let found := s.fabric.reserved.find? (fun e => e.out = out)
    let mineIs (c : CrossPoint) : Prop := c.src = src ∧ c.dst = dst ∧ c.port = num
    let overtakes (c : CrossPoint) : Prop := c.src = dst ∧ c.dst = src ∧ c.committed = false ∧ src < dst
    let held : List CrossPoint := if found = none then s.fabric.reserved ++ [mine] else s.fabric.reserved
    let two (t : State) (kind : PacketKind) (to' addr : Nat) : Prop := ∃ a, t.fabric.packets = s.fabric.packets ++ [a, { a with pathB := true }] ∧ a.kind = kind ∧
      a.dst = to' ∧ a.addr = addr ∧ a.pathB = false
    let busy (r : List CrossPoint) : Prop := ∃ t, exec .circuitSetupHop s = .next t ∧ two t .busy src num ∧ t.fabric.ports = s.fabric.ports ∧ t.fabric.reserved = r
    let joined (y : Port) : Port := { y with far := .locking, farSince := now, farPeer := src, farPort := num }
    (∀ c, found = some c →
      (¬mineIs c → ¬overtakes c → busy s.fabric.reserved) ∧
      (mineIs c → dst ≠ s.chip → exec .circuitSetupHop s = .next s) ∧
      (overtakes c → ¬mineIs c → dst ≠ s.chip → ∃ t, exec .circuitSetupHop s = .next t ∧ two t .busy dst c.port ∧ t.fabric.ports = s.fabric.ports ∧
        t.fabric.reserved = s.fabric.reserved.erase c ++ [mine])) ∧
    (found = none → dst ≠ s.chip → exec .circuitSetupHop s = .next { s with fabric := { s.fabric with reserved := held } }) ∧
    (dst = s.chip → (∀ c, found = some c → mineIs c) →
      (x.far ≠ .idle → busy held) ∧
      (x.far = .idle → x.circuit = .idle ∨ x.circuit = .wait → ∃ t, exec .circuitSetupHop s = .next t ∧ two t .ack src num ∧ t.fabric.reserved = held ∧
        t.fabric.port out = joined x) ∧
      (x.far = .idle → x.circuit = .setup → x.peer = src → src < s.chip → x.tries < 7 → ∃ t, exec .circuitSetupHop s = .next t ∧ two t .ack src num ∧
        t.fabric.port out = joined { x with circuit := .wait, circuitSince := now, tries := x.tries + 1 }) ∧
      (x.far = .idle → x.circuit = .setup → x.peer = src → src < s.chip → 7 ≤ x.tries → x.asks = [] → ∃ t, exec .circuitSetupHop s = .next t ∧ two t .ack src num ∧
        (t.fabric.port out).circuit = .idle ∧ (t.fabric.port out).far = .locking) ∧
      (x.far = .idle → x.circuit ≠ .idle → x.circuit ≠ .wait → ¬(x.circuit = .setup ∧ x.peer = src ∧ src < s.chip) → busy held))) ∧
  (∀ s : State,
    let n := s.ev.num
    let x := s.fabric.port n
    let now := s.portTime n
    let port (e : Instr) (f : Port → Prop) : Prop := ∃ t, exec e s = .next t ∧ f (t.fabric.port n) ∧ SameMemory s t
    let fails (e : Instr) : Prop := x.asks = [] → port e (fun y => y.circuit = .idle ∧ y.asker = .none ∧ y.circuitSince = now)
    let tries (e : Instr) : Prop := (x.tries < 7 → port e (fun y => y = { x with circuit := .wait, circuitSince := now, tries := x.tries + 1 })) ∧
      (7 ≤ x.tries → fails e)
    (x.circuit ≠ .setup → exec .circuitAck s = .next s ∧ exec .circuitBusy s = .next s ∧ exec .setupReplyTimeout s = .next s) ∧
    (x.circuit = .setup → port .circuitAck (fun y => y = { x with circuit := .locking, circuitSince := now })) ∧
    (x.circuit = .setup → tries .circuitBusy) ∧
    (x.circuit = .setup → x.circuitSince + 50000 ≤ now → tries .setupReplyTimeout) ∧
    (x.circuit = .setup → now < x.circuitSince + 50000 → exec .setupReplyTimeout s = .next s) ∧
    (let due := x.circuitSince + 2000 * 2 ^ (x.tries - 1) + s.chip % 8 * 250
     (x.circuit ≠ .wait ∨ now < due → exec .circuitBackoffEnd s = .next s) ∧
     (x.circuit = .wait → due ≤ now → ∃ t a, exec .circuitBackoffEnd s = .next t ∧ t.fabric.port n = { x with circuit := .setup, circuitSince := now } ∧
       t.fabric.packets = s.fabric.packets ++ [a, { a with pathB := true }] ∧ a.addr = n ∧ a.pathB = false ∧
       (x.far = .idle → a.kind = .setup ∧ a.dst = x.peer) ∧ (x.far ≠ .idle → a.kind = .busy ∧ a.dst = s.chip))) ∧
    (x.circuit ≠ .locking → x.far ≠ .locking → exec .circuitFecLock s = .next s ∧ exec .circuitLockTimeout s = .next s) ∧
    (x.circuit = .locking → x.circuitSince + 20000 < now → x.far ≠ .locking → exec .circuitFecLock s = .next s) ∧
    (x.circuit = .locking → now ≤ x.circuitSince + 20000 → x.asks = [] → x.waiting = [] → (∀ c, x.active = some c → c.drain = false) →
      port .circuitFecLock (fun y => y.circuit = .up ∧ y.state = .up ∧ y.asker = .none ∧
      y.circuitSince = now ∧ y.peer = x.peer)) ∧
    (∀ g f d l pc tk, x.circuit = .locking → now ≤ x.circuitSince + 20000 → x.asks = [] → x.asker = .xcirc g f d l pc → (s.core g).task = some tk → tk.launch = l →
      (s.core g).flagRank < 2 → f ≠ 63 → ∃ t, exec .circuitFecLock s = .next t ∧ (t.core g).getF f = (s.core g).getF f + 1 ∧
        (t.core g).sbA = (s.core g).sbA &&& ~~~ slotBit d) ∧
    (x.circuit ≠ .locking → x.far = .locking → now ≤ x.farSince + 20000 → x.asks = [] → x.waiting = [] → (∀ c, x.active = some c → c.drain = false) →
      port .circuitFecLock (fun y => y.far = .up ∧ y.state = .up ∧ y.farSince = now ∧ y.circuit = x.circuit)) ∧
    (x.circuit ≠ .locking → x.far = .locking → x.farSince + 20000 ≤ now → port .circuitLockTimeout (fun y => y = { x with far := .idle })) ∧
    (x.circuit = .locking → now < x.circuitSince + 20000 → x.far ≠ .locking → exec .circuitLockTimeout s = .next s) ∧
    (x.circuit = .locking → x.circuitSince + 20000 ≤ now → fails .circuitLockTimeout) ∧
    (∀ q i tg irq, x.circuit = .locking → x.circuitSince + 20000 ≤ now → x.asks = [] → x.asker = .command q i tg irq → ∃ t, exec .circuitLockTimeout s = .next t ∧
      t.log = (s.enter { s.deviceRecord (9 + n / 8) 0x65 (BitVec.ofNat 64 (x.peer * 2 ^ 52 + n)) (BitVec.ofNat 64 (x.tries + 1)) with
        tag := tg, ctx := q, irq := irq, done := some (q, i) }).log) ∧
    (x.circuit ≠ .tearing → exec .teardownAck s = .next s) ∧
    (x.circuit = .tearing → x.asks = [] → port .teardownAck (fun y => y = { x with circuit := .idle, circuitSince := now, asker := .none })))

/-! ### The whole machine -/

/-- R151 and R396: every well-formed instruction that has a word is read back from it with every operand, and every word that is
read gives a well-formed instruction whose word it is, so that no bit of an encoding is dropped and no two words read alike. -/
def Obligations.EncodeDecode : Prop :=
  (∀ (i : Instr) (c : Code), i.wf = true → encode i = some c → decode c = some i) ∧
  (∀ (i : Instr) (c : Code), decode c = some i → encode i = some c ∧ i.wf = true)

/-- The words that the spec's own examples write out (R185, R210, R216, R281 and their neighbours), read as the instructions and
operands they stand for. -/
def Obligations.DecodeWords : Prop :=
  decode (.c 0xC181400000000030#64) = some (.loop { cond := 0, sa := 20, sb := 0, pg := 0, off := 6 }) ∧
  decode (.c 0x5000A02000038840#64) = some (.vcvt { vd := 10, va := 8, vb := 0, vc := 14, pg := 1, bs := 0, rm := 0, sat := 1, ty := 0, sub := 0 }) ∧
  decode (.c 0x544030001F000400#64) = some (.twr { vd := 3, va := 0, vb := 31, vc := 0, pg := 0, bs := 1, rm := 0, sat := 0, ty := 0, sub := 0 }) ∧
  decode (.c 0x8180051061280100#64) = some (.amov { idx := 0, sd := 5, sa := 4, sb := 6, imm := 0x4A0, opt := 0, set := 1, wait := 0 }) ∧
  decode (.c 0x8C00000000001000#64) = some (.fence { idx := 0, sd := 0, sa := 0, sb := 0, imm := 0, opt := 2, set := 0, wait := 0 }) ∧
  decode (.a 0xA006000620000000#64) = some (.copy { d := 0, crd := 12, dk := 0, dx := 0, flag := 6, ch := 1, set := 0, wait := 0, ord := 0, var := 0 }) ∧
  decode (.m 0x00110012083000000000000000000000#128) = some (.mma
    { aty := 1, bty := 1, asrc := 0, aidx := 0, bsrc := 0, bidx := 1, cacc := 4, cmode := 0, scl := 0, tsm := 1, btr := 0, flag := 3 }) ∧
  decode (.o 0x014110C000C014000000000000000000#128) = some (.owin
    { bus := 2, seg := 1, wsrc := 2, acc := 3, row0 := 0, nrow := 0, sh := 3, mode := 0, tsm := 0, flag := 5, segoff := 0 })

/-- R24, R25, R150, R184, R396 and R72: when a strand that may issue moves and the bytes at its PC decode to an instruction, the
step is that instruction's effect on this state, and nothing is added around it; a fetch that faults raises 0x06 and a reserved
encoding 0x00, each with no effect but the fault's; a page that is not there blocks the strand; a strand that may not issue stands
still. An event that is taken is its row's effect. -/
def Obligations.StepRunsDecoded : Prop :=
  (∀ (s : State) (g : Nat) (k : StrandKind) (rest : List Agent), s.agenda = .issue g k :: rest →
    let t : State := { s with agenda := rest, cur := g }
    let x := (t.core g).strand k
    ((t.core g).issues k = false → step s = .next t) ∧
    ((t.core g).issues k = true →
      (∀ w i, t.fetchAt g k x.pc = .word w → decode (codeOf k w) = some i → step s = exec i t) ∧
      (t.fetchAt g k x.pc = .fault → step s = trapped t k 0x06 x.pc (t.me.ldep k)) ∧
      (∀ w, t.fetchAt g k x.pc = .word w → decode (codeOf k w) = none → k = .c ∨ k = .a → step s = trapped t k 0x00 (BitVec.ofNat 64 w) 0) ∧
      (∀ w, t.fetchAt g k x.pc = .word w → decode (codeOf k w) = none → k = .m ∨ k = .o →
        step s = trapped t k 0x00 (BitVec.ofNat 64 w) (BitVec.ofNat 64 (w / 2 ^ 64))) ∧
      (∀ te p, t.fetchAt g k x.pc = .pageIn te p → ∃ u, step s = .next u ∧ ((u.core g).strand k).status = .blocked ∧ ((u.core g).strand k).pc = x.pc ∧
        (∃ who, (⟨t.myCtx, te, p, who⟩ : PageReq) ∈ u.pageReqs) ∧ SameMemory s u ∧ SameOthers g s u))) ∧
  (∀ (s : State) (i : Instr) (x : Args) (rest : List Agent), s.agenda = .event i x :: rest →
    (encode i = none → step s = exec i { s with agenda := rest, ev := x }) ∧ (encode i ≠ none → step s = .next { s with agenda := rest }))

/-- A step from any state whose memory is in its canonical form answers a next state, and its memory is in that form: no
instruction, event, fault or refusal breaks it, and none stops the machine. -/
def Obligations.StepKeepsMemory : Prop :=
  (∀ (i : Instr) (s : State), s.memOk → ∃ t, exec i s = .next t ∧ t.memOk) ∧ (∀ s : State, s.memOk → ∃ t, step s = .next t ∧ t.memOk)

/-- The machine right after reset: R11's register map values where the spec gives them (R21, R195, R304, R330, R339, R345, R352,
R359, R362, R375, R377, R379, R405, R415), no task on any core (R25), every poison mark clear, and memory in its canonical form.
General registers at zero are the model's choice (log entry 3), as are bytes that read 0 (log entry 4). -/
def Obligations.ResetState : Prop :=
  let s := State.reset
  let reads (r : RegName) (n : Nat) : Prop := s.readRegister r = BitVec.ofNat 64 n
  s.memOk ∧ s.poison = [] ∧ (∀ a, s.byte a = 0) ∧ s.launches = [] ∧
  (∀ g, (s.core g).task = none ∧ (s.core g).halted = false ∧ (∀ k, ((s.core g).strand k).status = .unstarted ∧ (s.core g).issues k = false) ∧
    (s.core g).dbgBe = false ∧ (s.core g).dbgHz = false ∧ (∀ n, (s.core g).getS n = 0 ∧ (s.core g).getV n = 0 ∧ (s.core g).getF n = 0)) ∧
  (∀ d, (s.die d).time = 0 ∧ (s.die d).tgen = 0 ∧ reads (.dlkcfg d) 0x400 ∧ reads (.fxstat d) 0) ∧
  (∀ n, reads (.lqbase n) 0 ∧ reads (.lqcfg n) 0 ∧ reads (.lqhead n) 0 ∧ reads (.lqtail n) 0) ∧
  reads .elbase 0 ∧ reads .elcfg 0 ∧ reads .elwr 0 ∧ reads .elrd 0 ∧ reads .fxctl (0x1388 * 2 ^ 32 + 0x3E8) ∧ reads .fxplt 0 ∧ reads .mctl 0 ∧ reads .cairnctx 0 ∧
  reads .cairnst 0 ∧ reads .mrepst 0 ∧ reads .mstep 0 ∧ reads .mdone 0 ∧ reads .rtst 0 ∧ reads .ftout 0x14 ∧ reads .fretry 3 ∧ reads .flife 0x10 ∧
  reads .ferrlim 0x40 ∧ reads .pcap 3000 ∧ reads .brst 0 ∧ reads .mbsts 0 ∧ reads .hwin 0 ∧ reads .xfcon 0

/-- R384, R385, R386, R388, R44, R45, R334 and R420: a precise fault enters a record that names the instruction, and at once stops what
its class stops: the strand, or every strand of the task and of its gang. Its recovery, which the arbiter runs once the record is in the
log, makes the launch fail, discards the task to its region start with its gang, counted where R420 says, or lets the strand go on; a
discard is left to the launch's failure where that comes first. PRC and PC stand as R381 and R383 have them for the cause. The
instruction has no effect: no register, no memory byte and no PC changes. -/
def Obligations.PreciseFault : Prop :=
  ∀ (s : State) (k : StrandKind) (cause : Nat) (addr data : Word) (tk : Task),
    let g := s.cur
    let d := g / 96
    let rcl := s.rclOf g cause
    let keeps (t : State) : Prop := SameMemory s t ∧ (∀ h, (t.core h).files = (s.core h).files ∧ ∀ j, (t.core h).strand j = (s.core h).strand j)
    let precise := cause ≤ 0x0C ∨ cause ∈ [0x0E, 0x10, 0x11, 0x12, 0x13, 0x20, 0x21, 0x22, 0x23, 0x24, 0x25, 0x27, 0x28, 0x40, 0x41, 0x44, 0x50, 0x52, 0x63, 0x64]
    let entered (t : State) (r : Record) : Prop := look [] t.log.held d = look [] s.log.held d ++ [r] ∧ r.prc = decide precise ∧ r.cause = BitVec.ofNat 8 cause ∧
      r.rcl = rcl ∧ r.lfail = decide (rcl = 6) ∧ r.pc = (if cause ∈ [0x15, 0x1D, 0x47, 0x6B, 0x71, 0x72, 0x84] then 0 else (s.me.strand k).pc) ∧ r.addr = addr ∧
      r.data = data ∧ r.gcore = g ∧ r.strand = strandNum k ∧ r.stg = tk.stage ∧ r.tidx = tk.tidx ∧ r.ctx = tk.ctx ∧ r.tv = true ∧ r.time = (s.die d).time
    let failing : Prop := (∃ l, s.launch? tk.launch = some l ∧ l.state ≠ .running) ∨ ∃ q ∈ s.log.held, ∃ r ∈ q.2, r.ends = some tk.launch
    s.me.task = some tk → cause < 256 → cause ≠ 0x29 → rcl ∈ [2, 3, 4, 5, 6] → ∃ t r, trapped s k cause addr data = .next t ∧ entered t r ∧ keeps t ∧
      let u := t.recover r.sequel
      keeps u ∧
      (rcl = 3 ∨ rcl = 6 → t.me.task = some { tk with stopped := true } ∧ ∀ h ∈ s.gangCores g, ∀ j, (t.core h).issues j = false) ∧
      (rcl = 2 ∨ rcl = 4 ∨ rcl = 5 → t.me.task = some tk ∧ t.me.issues k = false ∧ u.me = s.me ∧ SameOthers g s u) ∧
      (rcl = 6 → ∀ l, s.launch? tk.launch = some l → l.state = .running → (u.launch? tk.launch).map (fun l => l.state) = some (.failing (BitVec.ofNat 8 cause)) ∧
        ∀ h w j, (s.core h).task = some w → w.launch = tk.launch → (u.core h).issues j = false) ∧
      (rcl = 3 → (failing → u = t) ∧
        (¬failing → tk.region ≠ .discarding → u.launches = s.launches ∧ (u.die d).immediate = true ∧
          (∀ h ∈ s.gangCores g, ∃ w, (u.core h).task = some w ∧ w.region = .discarding ∧ w.stopped = true) ∧
          u.me.task.map (fun w => w.restarts) = some (if cause ∈ [0x2C, 0x45, 0x46] then tk.restarts + 1 else tk.restarts)))

/-- Frames: whatever comes of them, completion, wait or fault, the integer and floating instructions of C and the arithmetic of A
leave every byte of memory, every other core's registers, and of their own core's every register but the destination (and FPST for
the floating ones) as they were. -/
def Obligations.ArithmeticFrames : Prop :=
  ∀ s : State,
    let c := s.core s.cur
    let kept (t : State) : Prop := SameMemory s t ∧ ∀ h, h ≠ s.cur → (t.core h).files = (s.core h).files
    let writesS (i : Instr) (d : Nat) (fp : Bool) : Prop := ∀ t, exec i s = .next t →
      kept t ∧ (∀ n, n ≠ d → (t.core s.cur).getS n = c.getS n) ∧ (fp = false → (t.core s.cur).fpst = c.fpst) ∧
      (t.core s.cur).files = { c.files with s := (t.core s.cur).getS, fpst := (t.core s.cur).fpst }
    let writesA (i : Instr) (d : Nat) : Prop := ∀ t, exec i s = .next t →
      kept t ∧ (∀ n, n ≠ d → (t.core s.cur).getA n = c.getA n) ∧ (t.core s.cur).files = { c.files with a := (t.core s.cur).getA }
    let writesV (i : Instr) (d : Nat) (fp : Bool) : Prop := ∀ t, exec i s = .next t →
      kept t ∧ (∀ n, n ≠ d → (t.core s.cur).getV n = c.getV n) ∧ (fp = false → (t.core s.cur).fpst = c.fpst) ∧
      (t.core s.cur).files = { c.files with v := (t.core s.cur).getV, fpst := (t.core s.cur).fpst }
    (∀ f : SR, ∀ i ∈ ([.add f, .sub f, .mul f, .mulh f, .mulhu f, .div f, .divu f, .rem f, .remu f, .and f, .or f, .xor f, .shl f, .shr f, .sar f, .min f, .max f,
      .minu f, .maxu f, .seq f, .sne f, .slt f, .sltu f, .clz f, .popc f, .bfx f, .bfi f, .sext f, .zext f] : List Instr), writesS i f.sd.toNat false) ∧
    (∀ f : SR, ∀ i ∈ ([.fadds f, .fsubs f, .fmuls f, .fmas f, .fmins f, .fmaxs f, .fcmps f, .fcvtis f, .fcvtsi f] : List Instr), writesS i f.sd.toNat true) ∧
    (∀ f : SI, ∀ i ∈ ([.addi f, .muli f, .andi f, .ori f, .xori f, .shli f, .shri f, .sari f, .slti f, .sltui f, .li f, .lih f] : List Instr),
      writesS i f.sd.toNat false) ∧
    (∀ f : AR, ∀ i ∈ ([.aadd f, .asub f, .amul f, .aand f, .aor f, .axor f, .ashl f, .ashr f, .amin f, .amax f] : List Instr), writesA i f.ad.toNat) ∧
    (∀ f : AI, ∀ i ∈ ([.aaddi f, .ali f, .alih f] : List Instr), writesA i f.ad.toNat) ∧
    (∀ f : VR, ∀ i ∈ ([.vadd f, .vsub f, .vmul f, .vmulh f, .vmad f, .vmin f, .vmax f, .vand f, .vor f, .vxor f, .vshl f, .vshr f, .vsar f, .vabs f, .vclz f,
      .vpopc f] : List Instr), writesV i f.vd.toNat false) ∧
    (∀ f : VR, ∀ i ∈ ([.vfadd f, .vfsub f, .vfmul f, .vfma f, .vfmin f, .vfmax f, .vfneg f] : List Instr), writesV i f.vd.toNat true)
end

