-- ==== Sys2Proof/Laws/Maps.lean ====
section
/-! SUPPORT. Laws of the sparse maps: what a look finds after a change, and that every change keeps the canonical form. -/

namespace Sys2Proof.Machine

variable {α : Type}

/-- A key of a canonical map lies above every bound that the map was built above. -/
theorem wfFrom_mono [DecidableEq α] {d : α} {m : Sparse α} {a b : Nat} (hab : a ≤ b) (h : Sparse.wfFrom d (some b) m = true) :
    Sparse.wfFrom d (some a) m = true := by
  cases m with
  | nil => rfl
  | cons e m =>
    obtain ⟨k, v⟩ := e
    simp only [Sparse.wfFrom, Bool.and_eq_true, decide_eq_true_eq] at h ⊢
    exact ⟨⟨by omega, h.1.2⟩, h.2⟩

theorem wfFrom_none [DecidableEq α] {d : α} {m : Sparse α} {a : Nat} (h : Sparse.wfFrom d (some a) m = true) :
    Sparse.wfFrom d none m = true := by
  cases m with
  | nil => rfl
  | cons e m =>
    obtain ⟨k, v⟩ := e
    simp only [Sparse.wfFrom, Bool.and_eq_true] at h ⊢
    exact ⟨⟨trivial, h.1.2⟩, h.2⟩

/-- Dropping entries by any test keeps the form. -/
theorem wfFrom_filter [DecidableEq α] {d : α} (p : Nat × α → Bool) {m : Sparse α} :
    ∀ {lo : Option Nat}, Sparse.wfFrom d lo m = true → Sparse.wfFrom d lo (m.filter p) = true := by
  induction m with
  | nil => intro lo h; simpa using h
  | cons e m ih =>
    obtain ⟨k, v⟩ := e
    intro lo h
    simp only [Sparse.wfFrom, Bool.and_eq_true] at h
    obtain ⟨⟨h1, h2⟩, h3⟩ := h
    rw [List.filter_cons]
    split
    · simp only [Sparse.wfFrom, Bool.and_eq_true]; exact ⟨⟨h1, h2⟩, ih h3⟩
    · have h4 := ih h3
      cases lo with
      | none => exact wfFrom_none h4
      | some l => simp at h1; exact wfFrom_mono (by omega) h4

theorem wf_filter [DecidableEq α] {d : α} (p : Nat × α → Bool) {m : Sparse α} (h : Sparse.wf d m = true) :
    Sparse.wf d (m.filter p) = true := wfFrom_filter p h

theorem wfFrom_place [DecidableEq α] {d x : α} (n : Nat) (hx : x ≠ d) {m : Sparse α} :
    ∀ {lo : Option Nat}, (∀ l, lo = some l → l < n) → Sparse.wfFrom d lo m = true → Sparse.wfFrom d lo (place n x m) = true := by
  induction m with
  | nil =>
    intro lo hl _
    cases lo with
    | none => simp [place, Sparse.wfFrom, hx]
    | some l => simp [place, Sparse.wfFrom, hx, hl l rfl]
  | cons e m ih =>
    obtain ⟨k, v⟩ := e
    intro lo hl h
    simp only [Sparse.wfFrom, Bool.and_eq_true, decide_eq_true_eq] at h
    obtain ⟨⟨h1, h2⟩, h3⟩ := h
    unfold place
    split
    · rename_i hnk
      simp only [Sparse.wfFrom, Bool.and_eq_true, decide_eq_true_eq]
      refine ⟨⟨?_, hx⟩, ⟨hnk, h2⟩, h3⟩
      cases lo with
      | none => rfl
      | some l => simpa using hl l rfl
    · split
      · rename_i hn hnk
        subst hnk
        simp only [Sparse.wfFrom, Bool.and_eq_true, decide_eq_true_eq]
        exact ⟨⟨h1, hx⟩, h3⟩
      · simp only [Sparse.wfFrom, Bool.and_eq_true, decide_eq_true_eq]
        refine ⟨⟨h1, h2⟩, ih ?_ h3⟩
        intro l hl'; cases hl'; omega

/-- Giving a key a value keeps the canonical form. -/
theorem wf_put [DecidableEq α] {d x : α} {m : Sparse α} (n : Nat) (h : Sparse.wf d m = true) : Sparse.wf d (put d m n x) = true := by
  unfold put
  split
  · exact wf_filter _ h
  · rename_i hx; exact wfFrom_place n hx (by intro l hl; cases hl) h

theorem look_drop_other {d : α} {m : Sparse α} {n k : Nat} (h : k ≠ n) : look d (drop n m) k = look d m k := by
  induction m with
  | nil => rfl
  | cons e m ih =>
    obtain ⟨j, v⟩ := e
    by_cases hj : j = n
    · subst hj; simpa [drop, look, h] using ih
    · simp only [drop, List.filter_cons, ne_eq, hj, not_false_eq_true, decide_true, if_true, look]
      split
      · rfl
      · exact ih

theorem look_drop_same {d : α} {m : Sparse α} {n : Nat} : look d (drop n m) n = d := by
  induction m with
  | nil => rfl
  | cons e m ih =>
    obtain ⟨j, v⟩ := e
    by_cases hj : j = n
    · subst hj; simpa [drop] using ih
    · have : n ≠ j := fun h => hj h.symm
      simpa [drop, List.filter_cons, hj, look, this] using ih

theorem look_place_same {d x : α} {m : Sparse α} {n : Nat} : look d (place n x m) n = x := by
  induction m with
  | nil => simp [place, look]
  | cons e m ih =>
    obtain ⟨j, v⟩ := e
    unfold place
    split
    · simp [look]
    · split
      · simp [look]
      · rename_i h1 h2; simp [look, h2, ih]

theorem look_place_other {d x : α} {m : Sparse α} {n k : Nat} (h : k ≠ n) : look d (place n x m) k = look d m k := by
  induction m with
  | nil => simp [place, look, h]
  | cons e m ih =>
    obtain ⟨j, v⟩ := e
    unfold place
    split
    · simp [look, h]
    · split
      · rename_i h1 h2; subst h2; simp [look, h]
      · simp only [look]
        split
        · rfl
        · exact ih

/-- A look after a change: the new value at the key, the old one elsewhere. -/
@[simp] theorem look_put [DecidableEq α] {d x : α} {m : Sparse α} {n k : Nat} :
    look d (put d m n x) k = if k = n then x else look d m k := by
  unfold put
  split
  · rename_i hx
    split
    · rename_i hk; subst hk hx; exact look_drop_same
    · rename_i hk; exact look_drop_other hk
  · split
    · rename_i hk; subst hk; exact look_place_same
    · rename_i hk; exact look_place_other hk

/-- An empty map has the form and answers its default. -/
@[simp] theorem wf_nil [DecidableEq α] {d : α} : Sparse.wf d ([] : Sparse α) = true := rfl
@[simp] theorem look_nil {d : α} {n : Nat} : look d ([] : Sparse α) n = d := rfl

end Sys2Proof.Machine
end

