-- ==== Sys2Proof/Laws/State.lean ====
section
/-! SUPPORT. One lemma per field per update of the state and of a core: what each named update leaves as it was. -/

namespace Sys2Proof.Machine

/-! ### State.setCore -/
@[simp] theorem State.setCore_cur (s : State) (g : Nat) (c : Core) : (s.setCore g c).cur = s.cur := rfl
@[simp] theorem State.setCore_ev (s : State) (g : Nat) (c : Core) : (s.setCore g c).ev = s.ev := rfl
@[simp] theorem State.setCore_agenda (s : State) (g : Nat) (c : Core) : (s.setCore g c).agenda = s.agenda := rfl
@[simp] theorem State.setCore_freeCtr (s : State) (g : Nat) (c : Core) : (s.setCore g c).freeCtr = s.freeCtr := rfl
@[simp] theorem State.setCore_dies (s : State) (g : Nat) (c : Core) : (s.setCore g c).dies = s.dies := rfl
@[simp] theorem State.setCore_mem (s : State) (g : Nat) (c : Core) : (s.setCore g c).mem = s.mem := rfl
@[simp] theorem State.setCore_poison (s : State) (g : Nat) (c : Core) : (s.setCore g c).poison = s.poison := rfl
@[simp] theorem State.setCore_past (s : State) (g : Nat) (c : Core) : (s.setCore g c).past = s.past := rfl
@[simp] theorem State.setCore_upsets (s : State) (g : Nat) (c : Core) : (s.setCore g c).upsets = s.upsets := rfl
@[simp] theorem State.setCore_ttbase (s : State) (g : Nat) (c : Core) : (s.setCore g c).ttbase = s.ttbase := rfl
@[simp] theorem State.setCore_stale (s : State) (g : Nat) (c : Core) : (s.setCore g c).stale = s.stale := rfl
@[simp] theorem State.setCore_pageReqs (s : State) (g : Nat) (c : Core) : (s.setCore g c).pageReqs = s.pageReqs := rfl
@[simp] theorem State.setCore_residents (s : State) (g : Nat) (c : Core) : (s.setCore g c).residents = s.residents := rfl
@[simp] theorem State.setCore_pins (s : State) (g : Nat) (c : Core) : (s.setCore g c).pins = s.pins := rfl
@[simp] theorem State.setCore_walked (s : State) (g : Nat) (c : Core) : (s.setCore g c).walked = s.walked := rfl
@[simp] theorem State.setCore_frames (s : State) (g : Nat) (c : Core) : (s.setCore g c).frames = s.frames := rfl
@[simp] theorem State.setCore_moves (s : State) (g : Nat) (c : Core) : (s.setCore g c).moves = s.moves := rfl
@[simp] theorem State.setCore_launches (s : State) (g : Nat) (c : Core) : (s.setCore g c).launches = s.launches := rfl
@[simp] theorem State.setCore_nextLaunch (s : State) (g : Nat) (c : Core) : (s.setCore g c).nextLaunch = s.nextLaunch := rfl
@[simp] theorem State.setCore_queues (s : State) (g : Nat) (c : Core) : (s.setCore g c).queues = s.queues := rfl
@[simp] theorem State.setCore_rot (s : State) (g : Nat) (c : Core) : (s.setCore g c).rot = s.rot := rfl
@[simp] theorem State.setCore_preempts (s : State) (g : Nat) (c : Core) : (s.setCore g c).preempts = s.preempts := rfl
@[simp] theorem State.setCore_buses (s : State) (g : Nat) (c : Core) : (s.setCore g c).buses = s.buses := rfl
@[simp] theorem State.setCore_xfcon (s : State) (g : Nat) (c : Core) : (s.setCore g c).xfcon = s.xfcon := rfl
@[simp] theorem State.setCore_mason (s : State) (g : Nat) (c : Core) : (s.setCore g c).mason = s.mason := rfl
@[simp] theorem State.setCore_log (s : State) (g : Nat) (c : Core) : (s.setCore g c).log = s.log := rfl
@[simp] theorem State.setCore_fabric (s : State) (g : Nat) (c : Core) : (s.setCore g c).fabric = s.fabric := rfl
@[simp] theorem State.setCore_flow (s : State) (g : Nat) (c : Core) : (s.setCore g c).flow = s.flow := rfl
@[simp] theorem State.setCore_host (s : State) (g : Nat) (c : Core) : (s.setCore g c).host = s.host := rfl
@[simp] theorem State.setCore_mgmt (s : State) (g : Nat) (c : Core) : (s.setCore g c).mgmt = s.mgmt := rfl
@[simp] theorem State.setCore_atst (s : State) (g : Nat) (c : Core) : (s.setCore g c).atst = s.atst := rfl

/-! ### State.onCore -/
@[simp] theorem State.onCore_cur (s : State) (g : Nat) (f : Core → Core) : (s.onCore g f).cur = s.cur := rfl
@[simp] theorem State.onCore_ev (s : State) (g : Nat) (f : Core → Core) : (s.onCore g f).ev = s.ev := rfl
@[simp] theorem State.onCore_agenda (s : State) (g : Nat) (f : Core → Core) : (s.onCore g f).agenda = s.agenda := rfl
@[simp] theorem State.onCore_freeCtr (s : State) (g : Nat) (f : Core → Core) : (s.onCore g f).freeCtr = s.freeCtr := rfl
@[simp] theorem State.onCore_dies (s : State) (g : Nat) (f : Core → Core) : (s.onCore g f).dies = s.dies := rfl
@[simp] theorem State.onCore_mem (s : State) (g : Nat) (f : Core → Core) : (s.onCore g f).mem = s.mem := rfl
@[simp] theorem State.onCore_poison (s : State) (g : Nat) (f : Core → Core) : (s.onCore g f).poison = s.poison := rfl
@[simp] theorem State.onCore_past (s : State) (g : Nat) (f : Core → Core) : (s.onCore g f).past = s.past := rfl
@[simp] theorem State.onCore_upsets (s : State) (g : Nat) (f : Core → Core) : (s.onCore g f).upsets = s.upsets := rfl
@[simp] theorem State.onCore_ttbase (s : State) (g : Nat) (f : Core → Core) : (s.onCore g f).ttbase = s.ttbase := rfl
@[simp] theorem State.onCore_stale (s : State) (g : Nat) (f : Core → Core) : (s.onCore g f).stale = s.stale := rfl
@[simp] theorem State.onCore_pageReqs (s : State) (g : Nat) (f : Core → Core) : (s.onCore g f).pageReqs = s.pageReqs := rfl
@[simp] theorem State.onCore_residents (s : State) (g : Nat) (f : Core → Core) : (s.onCore g f).residents = s.residents := rfl
@[simp] theorem State.onCore_pins (s : State) (g : Nat) (f : Core → Core) : (s.onCore g f).pins = s.pins := rfl
@[simp] theorem State.onCore_walked (s : State) (g : Nat) (f : Core → Core) : (s.onCore g f).walked = s.walked := rfl
@[simp] theorem State.onCore_frames (s : State) (g : Nat) (f : Core → Core) : (s.onCore g f).frames = s.frames := rfl
@[simp] theorem State.onCore_moves (s : State) (g : Nat) (f : Core → Core) : (s.onCore g f).moves = s.moves := rfl
@[simp] theorem State.onCore_launches (s : State) (g : Nat) (f : Core → Core) : (s.onCore g f).launches = s.launches := rfl
@[simp] theorem State.onCore_nextLaunch (s : State) (g : Nat) (f : Core → Core) : (s.onCore g f).nextLaunch = s.nextLaunch := rfl
@[simp] theorem State.onCore_queues (s : State) (g : Nat) (f : Core → Core) : (s.onCore g f).queues = s.queues := rfl
@[simp] theorem State.onCore_rot (s : State) (g : Nat) (f : Core → Core) : (s.onCore g f).rot = s.rot := rfl
@[simp] theorem State.onCore_preempts (s : State) (g : Nat) (f : Core → Core) : (s.onCore g f).preempts = s.preempts := rfl
@[simp] theorem State.onCore_buses (s : State) (g : Nat) (f : Core → Core) : (s.onCore g f).buses = s.buses := rfl
@[simp] theorem State.onCore_xfcon (s : State) (g : Nat) (f : Core → Core) : (s.onCore g f).xfcon = s.xfcon := rfl
@[simp] theorem State.onCore_mason (s : State) (g : Nat) (f : Core → Core) : (s.onCore g f).mason = s.mason := rfl
@[simp] theorem State.onCore_log (s : State) (g : Nat) (f : Core → Core) : (s.onCore g f).log = s.log := rfl
@[simp] theorem State.onCore_fabric (s : State) (g : Nat) (f : Core → Core) : (s.onCore g f).fabric = s.fabric := rfl
@[simp] theorem State.onCore_flow (s : State) (g : Nat) (f : Core → Core) : (s.onCore g f).flow = s.flow := rfl
@[simp] theorem State.onCore_host (s : State) (g : Nat) (f : Core → Core) : (s.onCore g f).host = s.host := rfl
@[simp] theorem State.onCore_mgmt (s : State) (g : Nat) (f : Core → Core) : (s.onCore g f).mgmt = s.mgmt := rfl
@[simp] theorem State.onCore_atst (s : State) (g : Nat) (f : Core → Core) : (s.onCore g f).atst = s.atst := rfl

/-! ### State.onMe -/
@[simp] theorem State.onMe_cur (s : State) (f : Core → Core) : (s.onMe f).cur = s.cur := rfl
@[simp] theorem State.onMe_ev (s : State) (f : Core → Core) : (s.onMe f).ev = s.ev := rfl
@[simp] theorem State.onMe_agenda (s : State) (f : Core → Core) : (s.onMe f).agenda = s.agenda := rfl
@[simp] theorem State.onMe_freeCtr (s : State) (f : Core → Core) : (s.onMe f).freeCtr = s.freeCtr := rfl
@[simp] theorem State.onMe_dies (s : State) (f : Core → Core) : (s.onMe f).dies = s.dies := rfl
@[simp] theorem State.onMe_mem (s : State) (f : Core → Core) : (s.onMe f).mem = s.mem := rfl
@[simp] theorem State.onMe_poison (s : State) (f : Core → Core) : (s.onMe f).poison = s.poison := rfl
@[simp] theorem State.onMe_past (s : State) (f : Core → Core) : (s.onMe f).past = s.past := rfl
@[simp] theorem State.onMe_upsets (s : State) (f : Core → Core) : (s.onMe f).upsets = s.upsets := rfl
@[simp] theorem State.onMe_ttbase (s : State) (f : Core → Core) : (s.onMe f).ttbase = s.ttbase := rfl
@[simp] theorem State.onMe_stale (s : State) (f : Core → Core) : (s.onMe f).stale = s.stale := rfl
@[simp] theorem State.onMe_pageReqs (s : State) (f : Core → Core) : (s.onMe f).pageReqs = s.pageReqs := rfl
@[simp] theorem State.onMe_residents (s : State) (f : Core → Core) : (s.onMe f).residents = s.residents := rfl
@[simp] theorem State.onMe_pins (s : State) (f : Core → Core) : (s.onMe f).pins = s.pins := rfl
@[simp] theorem State.onMe_walked (s : State) (f : Core → Core) : (s.onMe f).walked = s.walked := rfl
@[simp] theorem State.onMe_frames (s : State) (f : Core → Core) : (s.onMe f).frames = s.frames := rfl
@[simp] theorem State.onMe_moves (s : State) (f : Core → Core) : (s.onMe f).moves = s.moves := rfl
@[simp] theorem State.onMe_launches (s : State) (f : Core → Core) : (s.onMe f).launches = s.launches := rfl
@[simp] theorem State.onMe_nextLaunch (s : State) (f : Core → Core) : (s.onMe f).nextLaunch = s.nextLaunch := rfl
@[simp] theorem State.onMe_queues (s : State) (f : Core → Core) : (s.onMe f).queues = s.queues := rfl
@[simp] theorem State.onMe_rot (s : State) (f : Core → Core) : (s.onMe f).rot = s.rot := rfl
@[simp] theorem State.onMe_preempts (s : State) (f : Core → Core) : (s.onMe f).preempts = s.preempts := rfl
@[simp] theorem State.onMe_buses (s : State) (f : Core → Core) : (s.onMe f).buses = s.buses := rfl
@[simp] theorem State.onMe_xfcon (s : State) (f : Core → Core) : (s.onMe f).xfcon = s.xfcon := rfl
@[simp] theorem State.onMe_mason (s : State) (f : Core → Core) : (s.onMe f).mason = s.mason := rfl
@[simp] theorem State.onMe_log (s : State) (f : Core → Core) : (s.onMe f).log = s.log := rfl
@[simp] theorem State.onMe_fabric (s : State) (f : Core → Core) : (s.onMe f).fabric = s.fabric := rfl
@[simp] theorem State.onMe_flow (s : State) (f : Core → Core) : (s.onMe f).flow = s.flow := rfl
@[simp] theorem State.onMe_host (s : State) (f : Core → Core) : (s.onMe f).host = s.host := rfl
@[simp] theorem State.onMe_mgmt (s : State) (f : Core → Core) : (s.onMe f).mgmt = s.mgmt := rfl
@[simp] theorem State.onMe_atst (s : State) (f : Core → Core) : (s.onMe f).atst = s.atst := rfl

/-! ### State.onDie -/
@[simp] theorem State.onDie_cur (s : State) (d : Nat) (f : Die → Die) : (s.onDie d f).cur = s.cur := rfl
@[simp] theorem State.onDie_ev (s : State) (d : Nat) (f : Die → Die) : (s.onDie d f).ev = s.ev := rfl
@[simp] theorem State.onDie_agenda (s : State) (d : Nat) (f : Die → Die) : (s.onDie d f).agenda = s.agenda := rfl
@[simp] theorem State.onDie_freeCtr (s : State) (d : Nat) (f : Die → Die) : (s.onDie d f).freeCtr = s.freeCtr := rfl
@[simp] theorem State.onDie_cores (s : State) (d : Nat) (f : Die → Die) : (s.onDie d f).cores = s.cores := rfl
@[simp] theorem State.onDie_mem (s : State) (d : Nat) (f : Die → Die) : (s.onDie d f).mem = s.mem := rfl
@[simp] theorem State.onDie_poison (s : State) (d : Nat) (f : Die → Die) : (s.onDie d f).poison = s.poison := rfl
@[simp] theorem State.onDie_past (s : State) (d : Nat) (f : Die → Die) : (s.onDie d f).past = s.past := rfl
@[simp] theorem State.onDie_upsets (s : State) (d : Nat) (f : Die → Die) : (s.onDie d f).upsets = s.upsets := rfl
@[simp] theorem State.onDie_ttbase (s : State) (d : Nat) (f : Die → Die) : (s.onDie d f).ttbase = s.ttbase := rfl
@[simp] theorem State.onDie_stale (s : State) (d : Nat) (f : Die → Die) : (s.onDie d f).stale = s.stale := rfl
@[simp] theorem State.onDie_pageReqs (s : State) (d : Nat) (f : Die → Die) : (s.onDie d f).pageReqs = s.pageReqs := rfl
@[simp] theorem State.onDie_residents (s : State) (d : Nat) (f : Die → Die) : (s.onDie d f).residents = s.residents := rfl
@[simp] theorem State.onDie_pins (s : State) (d : Nat) (f : Die → Die) : (s.onDie d f).pins = s.pins := rfl
@[simp] theorem State.onDie_walked (s : State) (d : Nat) (f : Die → Die) : (s.onDie d f).walked = s.walked := rfl
@[simp] theorem State.onDie_frames (s : State) (d : Nat) (f : Die → Die) : (s.onDie d f).frames = s.frames := rfl
@[simp] theorem State.onDie_moves (s : State) (d : Nat) (f : Die → Die) : (s.onDie d f).moves = s.moves := rfl
@[simp] theorem State.onDie_launches (s : State) (d : Nat) (f : Die → Die) : (s.onDie d f).launches = s.launches := rfl
@[simp] theorem State.onDie_nextLaunch (s : State) (d : Nat) (f : Die → Die) : (s.onDie d f).nextLaunch = s.nextLaunch := rfl
@[simp] theorem State.onDie_queues (s : State) (d : Nat) (f : Die → Die) : (s.onDie d f).queues = s.queues := rfl
@[simp] theorem State.onDie_rot (s : State) (d : Nat) (f : Die → Die) : (s.onDie d f).rot = s.rot := rfl
@[simp] theorem State.onDie_preempts (s : State) (d : Nat) (f : Die → Die) : (s.onDie d f).preempts = s.preempts := rfl
@[simp] theorem State.onDie_buses (s : State) (d : Nat) (f : Die → Die) : (s.onDie d f).buses = s.buses := rfl
@[simp] theorem State.onDie_xfcon (s : State) (d : Nat) (f : Die → Die) : (s.onDie d f).xfcon = s.xfcon := rfl
@[simp] theorem State.onDie_mason (s : State) (d : Nat) (f : Die → Die) : (s.onDie d f).mason = s.mason := rfl
@[simp] theorem State.onDie_log (s : State) (d : Nat) (f : Die → Die) : (s.onDie d f).log = s.log := rfl
@[simp] theorem State.onDie_fabric (s : State) (d : Nat) (f : Die → Die) : (s.onDie d f).fabric = s.fabric := rfl
@[simp] theorem State.onDie_flow (s : State) (d : Nat) (f : Die → Die) : (s.onDie d f).flow = s.flow := rfl
@[simp] theorem State.onDie_host (s : State) (d : Nat) (f : Die → Die) : (s.onDie d f).host = s.host := rfl
@[simp] theorem State.onDie_mgmt (s : State) (d : Nat) (f : Die → Die) : (s.onDie d f).mgmt = s.mgmt := rfl
@[simp] theorem State.onDie_atst (s : State) (d : Nat) (f : Die → Die) : (s.onDie d f).atst = s.atst := rfl

/-! ### State.mapCores -/
@[simp] theorem State.mapCores_cur (s : State) (f : Nat → Core → Core) : (s.mapCores f).cur = s.cur := rfl
@[simp] theorem State.mapCores_ev (s : State) (f : Nat → Core → Core) : (s.mapCores f).ev = s.ev := rfl
@[simp] theorem State.mapCores_agenda (s : State) (f : Nat → Core → Core) : (s.mapCores f).agenda = s.agenda := rfl
@[simp] theorem State.mapCores_freeCtr (s : State) (f : Nat → Core → Core) : (s.mapCores f).freeCtr = s.freeCtr := rfl
@[simp] theorem State.mapCores_dies (s : State) (f : Nat → Core → Core) : (s.mapCores f).dies = s.dies := rfl
@[simp] theorem State.mapCores_mem (s : State) (f : Nat → Core → Core) : (s.mapCores f).mem = s.mem := rfl
@[simp] theorem State.mapCores_poison (s : State) (f : Nat → Core → Core) : (s.mapCores f).poison = s.poison := rfl
@[simp] theorem State.mapCores_past (s : State) (f : Nat → Core → Core) : (s.mapCores f).past = s.past := rfl
@[simp] theorem State.mapCores_upsets (s : State) (f : Nat → Core → Core) : (s.mapCores f).upsets = s.upsets := rfl
@[simp] theorem State.mapCores_ttbase (s : State) (f : Nat → Core → Core) : (s.mapCores f).ttbase = s.ttbase := rfl
@[simp] theorem State.mapCores_stale (s : State) (f : Nat → Core → Core) : (s.mapCores f).stale = s.stale := rfl
@[simp] theorem State.mapCores_pageReqs (s : State) (f : Nat → Core → Core) : (s.mapCores f).pageReqs = s.pageReqs := rfl
@[simp] theorem State.mapCores_residents (s : State) (f : Nat → Core → Core) : (s.mapCores f).residents = s.residents := rfl
@[simp] theorem State.mapCores_pins (s : State) (f : Nat → Core → Core) : (s.mapCores f).pins = s.pins := rfl
@[simp] theorem State.mapCores_walked (s : State) (f : Nat → Core → Core) : (s.mapCores f).walked = s.walked := rfl
@[simp] theorem State.mapCores_frames (s : State) (f : Nat → Core → Core) : (s.mapCores f).frames = s.frames := rfl
@[simp] theorem State.mapCores_moves (s : State) (f : Nat → Core → Core) : (s.mapCores f).moves = s.moves := rfl
@[simp] theorem State.mapCores_launches (s : State) (f : Nat → Core → Core) : (s.mapCores f).launches = s.launches := rfl
@[simp] theorem State.mapCores_nextLaunch (s : State) (f : Nat → Core → Core) : (s.mapCores f).nextLaunch = s.nextLaunch := rfl
@[simp] theorem State.mapCores_queues (s : State) (f : Nat → Core → Core) : (s.mapCores f).queues = s.queues := rfl
@[simp] theorem State.mapCores_rot (s : State) (f : Nat → Core → Core) : (s.mapCores f).rot = s.rot := rfl
@[simp] theorem State.mapCores_preempts (s : State) (f : Nat → Core → Core) : (s.mapCores f).preempts = s.preempts := rfl
@[simp] theorem State.mapCores_buses (s : State) (f : Nat → Core → Core) : (s.mapCores f).buses = s.buses := rfl
@[simp] theorem State.mapCores_xfcon (s : State) (f : Nat → Core → Core) : (s.mapCores f).xfcon = s.xfcon := rfl
@[simp] theorem State.mapCores_mason (s : State) (f : Nat → Core → Core) : (s.mapCores f).mason = s.mason := rfl
@[simp] theorem State.mapCores_log (s : State) (f : Nat → Core → Core) : (s.mapCores f).log = s.log := rfl
@[simp] theorem State.mapCores_fabric (s : State) (f : Nat → Core → Core) : (s.mapCores f).fabric = s.fabric := rfl
@[simp] theorem State.mapCores_flow (s : State) (f : Nat → Core → Core) : (s.mapCores f).flow = s.flow := rfl
@[simp] theorem State.mapCores_host (s : State) (f : Nat → Core → Core) : (s.mapCores f).host = s.host := rfl
@[simp] theorem State.mapCores_mgmt (s : State) (f : Nat → Core → Core) : (s.mapCores f).mgmt = s.mgmt := rfl
@[simp] theorem State.mapCores_atst (s : State) (f : Nat → Core → Core) : (s.mapCores f).atst = s.atst := rfl

/-! ### State.mapBuses -/
@[simp] theorem State.mapBuses_cur (s : State) (f : Nat → Bus → Bus) : (s.mapBuses f).cur = s.cur := rfl
@[simp] theorem State.mapBuses_ev (s : State) (f : Nat → Bus → Bus) : (s.mapBuses f).ev = s.ev := rfl
@[simp] theorem State.mapBuses_agenda (s : State) (f : Nat → Bus → Bus) : (s.mapBuses f).agenda = s.agenda := rfl
@[simp] theorem State.mapBuses_freeCtr (s : State) (f : Nat → Bus → Bus) : (s.mapBuses f).freeCtr = s.freeCtr := rfl
@[simp] theorem State.mapBuses_cores (s : State) (f : Nat → Bus → Bus) : (s.mapBuses f).cores = s.cores := rfl
@[simp] theorem State.mapBuses_dies (s : State) (f : Nat → Bus → Bus) : (s.mapBuses f).dies = s.dies := rfl
@[simp] theorem State.mapBuses_mem (s : State) (f : Nat → Bus → Bus) : (s.mapBuses f).mem = s.mem := rfl
@[simp] theorem State.mapBuses_poison (s : State) (f : Nat → Bus → Bus) : (s.mapBuses f).poison = s.poison := rfl
@[simp] theorem State.mapBuses_past (s : State) (f : Nat → Bus → Bus) : (s.mapBuses f).past = s.past := rfl
@[simp] theorem State.mapBuses_upsets (s : State) (f : Nat → Bus → Bus) : (s.mapBuses f).upsets = s.upsets := rfl
@[simp] theorem State.mapBuses_ttbase (s : State) (f : Nat → Bus → Bus) : (s.mapBuses f).ttbase = s.ttbase := rfl
@[simp] theorem State.mapBuses_stale (s : State) (f : Nat → Bus → Bus) : (s.mapBuses f).stale = s.stale := rfl
@[simp] theorem State.mapBuses_pageReqs (s : State) (f : Nat → Bus → Bus) : (s.mapBuses f).pageReqs = s.pageReqs := rfl
@[simp] theorem State.mapBuses_residents (s : State) (f : Nat → Bus → Bus) : (s.mapBuses f).residents = s.residents := rfl
@[simp] theorem State.mapBuses_pins (s : State) (f : Nat → Bus → Bus) : (s.mapBuses f).pins = s.pins := rfl
@[simp] theorem State.mapBuses_walked (s : State) (f : Nat → Bus → Bus) : (s.mapBuses f).walked = s.walked := rfl
@[simp] theorem State.mapBuses_frames (s : State) (f : Nat → Bus → Bus) : (s.mapBuses f).frames = s.frames := rfl
@[simp] theorem State.mapBuses_moves (s : State) (f : Nat → Bus → Bus) : (s.mapBuses f).moves = s.moves := rfl
@[simp] theorem State.mapBuses_launches (s : State) (f : Nat → Bus → Bus) : (s.mapBuses f).launches = s.launches := rfl
@[simp] theorem State.mapBuses_nextLaunch (s : State) (f : Nat → Bus → Bus) : (s.mapBuses f).nextLaunch = s.nextLaunch := rfl
@[simp] theorem State.mapBuses_queues (s : State) (f : Nat → Bus → Bus) : (s.mapBuses f).queues = s.queues := rfl
@[simp] theorem State.mapBuses_rot (s : State) (f : Nat → Bus → Bus) : (s.mapBuses f).rot = s.rot := rfl
@[simp] theorem State.mapBuses_preempts (s : State) (f : Nat → Bus → Bus) : (s.mapBuses f).preempts = s.preempts := rfl
@[simp] theorem State.mapBuses_xfcon (s : State) (f : Nat → Bus → Bus) : (s.mapBuses f).xfcon = s.xfcon := rfl
@[simp] theorem State.mapBuses_mason (s : State) (f : Nat → Bus → Bus) : (s.mapBuses f).mason = s.mason := rfl
@[simp] theorem State.mapBuses_log (s : State) (f : Nat → Bus → Bus) : (s.mapBuses f).log = s.log := rfl
@[simp] theorem State.mapBuses_fabric (s : State) (f : Nat → Bus → Bus) : (s.mapBuses f).fabric = s.fabric := rfl
@[simp] theorem State.mapBuses_flow (s : State) (f : Nat → Bus → Bus) : (s.mapBuses f).flow = s.flow := rfl
@[simp] theorem State.mapBuses_host (s : State) (f : Nat → Bus → Bus) : (s.mapBuses f).host = s.host := rfl
@[simp] theorem State.mapBuses_mgmt (s : State) (f : Nat → Bus → Bus) : (s.mapBuses f).mgmt = s.mgmt := rfl
@[simp] theorem State.mapBuses_atst (s : State) (f : Nat → Bus → Bus) : (s.mapBuses f).atst = s.atst := rfl

/-! ### State.mapDies -/
@[simp] theorem State.mapDies_cur (s : State) (f : Nat → Die → Die) : (s.mapDies f).cur = s.cur := rfl
@[simp] theorem State.mapDies_ev (s : State) (f : Nat → Die → Die) : (s.mapDies f).ev = s.ev := rfl
@[simp] theorem State.mapDies_agenda (s : State) (f : Nat → Die → Die) : (s.mapDies f).agenda = s.agenda := rfl
@[simp] theorem State.mapDies_freeCtr (s : State) (f : Nat → Die → Die) : (s.mapDies f).freeCtr = s.freeCtr := rfl
@[simp] theorem State.mapDies_cores (s : State) (f : Nat → Die → Die) : (s.mapDies f).cores = s.cores := rfl
@[simp] theorem State.mapDies_mem (s : State) (f : Nat → Die → Die) : (s.mapDies f).mem = s.mem := rfl
@[simp] theorem State.mapDies_poison (s : State) (f : Nat → Die → Die) : (s.mapDies f).poison = s.poison := rfl
@[simp] theorem State.mapDies_past (s : State) (f : Nat → Die → Die) : (s.mapDies f).past = s.past := rfl
@[simp] theorem State.mapDies_upsets (s : State) (f : Nat → Die → Die) : (s.mapDies f).upsets = s.upsets := rfl
@[simp] theorem State.mapDies_ttbase (s : State) (f : Nat → Die → Die) : (s.mapDies f).ttbase = s.ttbase := rfl
@[simp] theorem State.mapDies_stale (s : State) (f : Nat → Die → Die) : (s.mapDies f).stale = s.stale := rfl
@[simp] theorem State.mapDies_pageReqs (s : State) (f : Nat → Die → Die) : (s.mapDies f).pageReqs = s.pageReqs := rfl
@[simp] theorem State.mapDies_residents (s : State) (f : Nat → Die → Die) : (s.mapDies f).residents = s.residents := rfl
@[simp] theorem State.mapDies_pins (s : State) (f : Nat → Die → Die) : (s.mapDies f).pins = s.pins := rfl
@[simp] theorem State.mapDies_walked (s : State) (f : Nat → Die → Die) : (s.mapDies f).walked = s.walked := rfl
@[simp] theorem State.mapDies_frames (s : State) (f : Nat → Die → Die) : (s.mapDies f).frames = s.frames := rfl
@[simp] theorem State.mapDies_moves (s : State) (f : Nat → Die → Die) : (s.mapDies f).moves = s.moves := rfl
@[simp] theorem State.mapDies_launches (s : State) (f : Nat → Die → Die) : (s.mapDies f).launches = s.launches := rfl
@[simp] theorem State.mapDies_nextLaunch (s : State) (f : Nat → Die → Die) : (s.mapDies f).nextLaunch = s.nextLaunch := rfl
@[simp] theorem State.mapDies_queues (s : State) (f : Nat → Die → Die) : (s.mapDies f).queues = s.queues := rfl
@[simp] theorem State.mapDies_rot (s : State) (f : Nat → Die → Die) : (s.mapDies f).rot = s.rot := rfl
@[simp] theorem State.mapDies_preempts (s : State) (f : Nat → Die → Die) : (s.mapDies f).preempts = s.preempts := rfl
@[simp] theorem State.mapDies_buses (s : State) (f : Nat → Die → Die) : (s.mapDies f).buses = s.buses := rfl
@[simp] theorem State.mapDies_xfcon (s : State) (f : Nat → Die → Die) : (s.mapDies f).xfcon = s.xfcon := rfl
@[simp] theorem State.mapDies_mason (s : State) (f : Nat → Die → Die) : (s.mapDies f).mason = s.mason := rfl
@[simp] theorem State.mapDies_log (s : State) (f : Nat → Die → Die) : (s.mapDies f).log = s.log := rfl
@[simp] theorem State.mapDies_fabric (s : State) (f : Nat → Die → Die) : (s.mapDies f).fabric = s.fabric := rfl
@[simp] theorem State.mapDies_flow (s : State) (f : Nat → Die → Die) : (s.mapDies f).flow = s.flow := rfl
@[simp] theorem State.mapDies_host (s : State) (f : Nat → Die → Die) : (s.mapDies f).host = s.host := rfl
@[simp] theorem State.mapDies_mgmt (s : State) (f : Nat → Die → Die) : (s.mapDies f).mgmt = s.mgmt := rfl
@[simp] theorem State.mapDies_atst (s : State) (f : Nat → Die → Die) : (s.mapDies f).atst = s.atst := rfl

/-! ### State.onQueue -/
@[simp] theorem State.onQueue_cur (s : State) (q : Nat) (f : Queue → Queue) : (s.onQueue q f).cur = s.cur := rfl
@[simp] theorem State.onQueue_ev (s : State) (q : Nat) (f : Queue → Queue) : (s.onQueue q f).ev = s.ev := rfl
@[simp] theorem State.onQueue_agenda (s : State) (q : Nat) (f : Queue → Queue) : (s.onQueue q f).agenda = s.agenda := rfl
@[simp] theorem State.onQueue_freeCtr (s : State) (q : Nat) (f : Queue → Queue) : (s.onQueue q f).freeCtr = s.freeCtr := rfl
@[simp] theorem State.onQueue_cores (s : State) (q : Nat) (f : Queue → Queue) : (s.onQueue q f).cores = s.cores := rfl
@[simp] theorem State.onQueue_dies (s : State) (q : Nat) (f : Queue → Queue) : (s.onQueue q f).dies = s.dies := rfl
@[simp] theorem State.onQueue_mem (s : State) (q : Nat) (f : Queue → Queue) : (s.onQueue q f).mem = s.mem := rfl
@[simp] theorem State.onQueue_poison (s : State) (q : Nat) (f : Queue → Queue) : (s.onQueue q f).poison = s.poison := rfl
@[simp] theorem State.onQueue_past (s : State) (q : Nat) (f : Queue → Queue) : (s.onQueue q f).past = s.past := rfl
@[simp] theorem State.onQueue_upsets (s : State) (q : Nat) (f : Queue → Queue) : (s.onQueue q f).upsets = s.upsets := rfl
@[simp] theorem State.onQueue_ttbase (s : State) (q : Nat) (f : Queue → Queue) : (s.onQueue q f).ttbase = s.ttbase := rfl
@[simp] theorem State.onQueue_stale (s : State) (q : Nat) (f : Queue → Queue) : (s.onQueue q f).stale = s.stale := rfl
@[simp] theorem State.onQueue_pageReqs (s : State) (q : Nat) (f : Queue → Queue) : (s.onQueue q f).pageReqs = s.pageReqs := rfl
@[simp] theorem State.onQueue_residents (s : State) (q : Nat) (f : Queue → Queue) : (s.onQueue q f).residents = s.residents := rfl
@[simp] theorem State.onQueue_pins (s : State) (q : Nat) (f : Queue → Queue) : (s.onQueue q f).pins = s.pins := rfl
@[simp] theorem State.onQueue_walked (s : State) (q : Nat) (f : Queue → Queue) : (s.onQueue q f).walked = s.walked := rfl
@[simp] theorem State.onQueue_frames (s : State) (q : Nat) (f : Queue → Queue) : (s.onQueue q f).frames = s.frames := rfl
@[simp] theorem State.onQueue_moves (s : State) (q : Nat) (f : Queue → Queue) : (s.onQueue q f).moves = s.moves := rfl
@[simp] theorem State.onQueue_launches (s : State) (q : Nat) (f : Queue → Queue) : (s.onQueue q f).launches = s.launches := rfl
@[simp] theorem State.onQueue_nextLaunch (s : State) (q : Nat) (f : Queue → Queue) : (s.onQueue q f).nextLaunch = s.nextLaunch := rfl
@[simp] theorem State.onQueue_rot (s : State) (q : Nat) (f : Queue → Queue) : (s.onQueue q f).rot = s.rot := rfl
@[simp] theorem State.onQueue_preempts (s : State) (q : Nat) (f : Queue → Queue) : (s.onQueue q f).preempts = s.preempts := rfl
@[simp] theorem State.onQueue_buses (s : State) (q : Nat) (f : Queue → Queue) : (s.onQueue q f).buses = s.buses := rfl
@[simp] theorem State.onQueue_xfcon (s : State) (q : Nat) (f : Queue → Queue) : (s.onQueue q f).xfcon = s.xfcon := rfl
@[simp] theorem State.onQueue_mason (s : State) (q : Nat) (f : Queue → Queue) : (s.onQueue q f).mason = s.mason := rfl
@[simp] theorem State.onQueue_log (s : State) (q : Nat) (f : Queue → Queue) : (s.onQueue q f).log = s.log := rfl
@[simp] theorem State.onQueue_fabric (s : State) (q : Nat) (f : Queue → Queue) : (s.onQueue q f).fabric = s.fabric := rfl
@[simp] theorem State.onQueue_flow (s : State) (q : Nat) (f : Queue → Queue) : (s.onQueue q f).flow = s.flow := rfl
@[simp] theorem State.onQueue_host (s : State) (q : Nat) (f : Queue → Queue) : (s.onQueue q f).host = s.host := rfl
@[simp] theorem State.onQueue_mgmt (s : State) (q : Nat) (f : Queue → Queue) : (s.onQueue q f).mgmt = s.mgmt := rfl
@[simp] theorem State.onQueue_atst (s : State) (q : Nat) (f : Queue → Queue) : (s.onQueue q f).atst = s.atst := rfl

/-! ### State.onBus -/
@[simp] theorem State.onBus_cur (s : State) (b : Nat) (f : Bus → Bus) : (s.onBus b f).cur = s.cur := rfl
@[simp] theorem State.onBus_ev (s : State) (b : Nat) (f : Bus → Bus) : (s.onBus b f).ev = s.ev := rfl
@[simp] theorem State.onBus_agenda (s : State) (b : Nat) (f : Bus → Bus) : (s.onBus b f).agenda = s.agenda := rfl
@[simp] theorem State.onBus_freeCtr (s : State) (b : Nat) (f : Bus → Bus) : (s.onBus b f).freeCtr = s.freeCtr := rfl
@[simp] theorem State.onBus_cores (s : State) (b : Nat) (f : Bus → Bus) : (s.onBus b f).cores = s.cores := rfl
@[simp] theorem State.onBus_dies (s : State) (b : Nat) (f : Bus → Bus) : (s.onBus b f).dies = s.dies := rfl
@[simp] theorem State.onBus_mem (s : State) (b : Nat) (f : Bus → Bus) : (s.onBus b f).mem = s.mem := rfl
@[simp] theorem State.onBus_poison (s : State) (b : Nat) (f : Bus → Bus) : (s.onBus b f).poison = s.poison := rfl
@[simp] theorem State.onBus_past (s : State) (b : Nat) (f : Bus → Bus) : (s.onBus b f).past = s.past := rfl
@[simp] theorem State.onBus_upsets (s : State) (b : Nat) (f : Bus → Bus) : (s.onBus b f).upsets = s.upsets := rfl
@[simp] theorem State.onBus_ttbase (s : State) (b : Nat) (f : Bus → Bus) : (s.onBus b f).ttbase = s.ttbase := rfl
@[simp] theorem State.onBus_stale (s : State) (b : Nat) (f : Bus → Bus) : (s.onBus b f).stale = s.stale := rfl
@[simp] theorem State.onBus_pageReqs (s : State) (b : Nat) (f : Bus → Bus) : (s.onBus b f).pageReqs = s.pageReqs := rfl
@[simp] theorem State.onBus_residents (s : State) (b : Nat) (f : Bus → Bus) : (s.onBus b f).residents = s.residents := rfl
@[simp] theorem State.onBus_pins (s : State) (b : Nat) (f : Bus → Bus) : (s.onBus b f).pins = s.pins := rfl
@[simp] theorem State.onBus_walked (s : State) (b : Nat) (f : Bus → Bus) : (s.onBus b f).walked = s.walked := rfl
@[simp] theorem State.onBus_frames (s : State) (b : Nat) (f : Bus → Bus) : (s.onBus b f).frames = s.frames := rfl
@[simp] theorem State.onBus_moves (s : State) (b : Nat) (f : Bus → Bus) : (s.onBus b f).moves = s.moves := rfl
@[simp] theorem State.onBus_launches (s : State) (b : Nat) (f : Bus → Bus) : (s.onBus b f).launches = s.launches := rfl
@[simp] theorem State.onBus_nextLaunch (s : State) (b : Nat) (f : Bus → Bus) : (s.onBus b f).nextLaunch = s.nextLaunch := rfl
@[simp] theorem State.onBus_queues (s : State) (b : Nat) (f : Bus → Bus) : (s.onBus b f).queues = s.queues := rfl
@[simp] theorem State.onBus_rot (s : State) (b : Nat) (f : Bus → Bus) : (s.onBus b f).rot = s.rot := rfl
@[simp] theorem State.onBus_preempts (s : State) (b : Nat) (f : Bus → Bus) : (s.onBus b f).preempts = s.preempts := rfl
@[simp] theorem State.onBus_xfcon (s : State) (b : Nat) (f : Bus → Bus) : (s.onBus b f).xfcon = s.xfcon := rfl
@[simp] theorem State.onBus_mason (s : State) (b : Nat) (f : Bus → Bus) : (s.onBus b f).mason = s.mason := rfl
@[simp] theorem State.onBus_log (s : State) (b : Nat) (f : Bus → Bus) : (s.onBus b f).log = s.log := rfl
@[simp] theorem State.onBus_fabric (s : State) (b : Nat) (f : Bus → Bus) : (s.onBus b f).fabric = s.fabric := rfl
@[simp] theorem State.onBus_flow (s : State) (b : Nat) (f : Bus → Bus) : (s.onBus b f).flow = s.flow := rfl
@[simp] theorem State.onBus_host (s : State) (b : Nat) (f : Bus → Bus) : (s.onBus b f).host = s.host := rfl
@[simp] theorem State.onBus_mgmt (s : State) (b : Nat) (f : Bus → Bus) : (s.onBus b f).mgmt = s.mgmt := rfl
@[simp] theorem State.onBus_atst (s : State) (b : Nat) (f : Bus → Bus) : (s.onBus b f).atst = s.atst := rfl

/-! ### State.setByte -/
@[simp] theorem State.setByte_cur (s : State) (pa : Nat) (b : Byte) : (s.setByte pa b).cur = s.cur := rfl
@[simp] theorem State.setByte_ev (s : State) (pa : Nat) (b : Byte) : (s.setByte pa b).ev = s.ev := rfl
@[simp] theorem State.setByte_agenda (s : State) (pa : Nat) (b : Byte) : (s.setByte pa b).agenda = s.agenda := rfl
@[simp] theorem State.setByte_freeCtr (s : State) (pa : Nat) (b : Byte) : (s.setByte pa b).freeCtr = s.freeCtr := rfl
@[simp] theorem State.setByte_cores (s : State) (pa : Nat) (b : Byte) : (s.setByte pa b).cores = s.cores := rfl
@[simp] theorem State.setByte_dies (s : State) (pa : Nat) (b : Byte) : (s.setByte pa b).dies = s.dies := rfl
@[simp] theorem State.setByte_poison (s : State) (pa : Nat) (b : Byte) : (s.setByte pa b).poison = s.poison := rfl
@[simp] theorem State.setByte_past (s : State) (pa : Nat) (b : Byte) : (s.setByte pa b).past = s.past := rfl
@[simp] theorem State.setByte_upsets (s : State) (pa : Nat) (b : Byte) : (s.setByte pa b).upsets = s.upsets := rfl
@[simp] theorem State.setByte_ttbase (s : State) (pa : Nat) (b : Byte) : (s.setByte pa b).ttbase = s.ttbase := rfl
@[simp] theorem State.setByte_stale (s : State) (pa : Nat) (b : Byte) : (s.setByte pa b).stale = s.stale := rfl
@[simp] theorem State.setByte_pageReqs (s : State) (pa : Nat) (b : Byte) : (s.setByte pa b).pageReqs = s.pageReqs := rfl
@[simp] theorem State.setByte_residents (s : State) (pa : Nat) (b : Byte) : (s.setByte pa b).residents = s.residents := rfl
@[simp] theorem State.setByte_pins (s : State) (pa : Nat) (b : Byte) : (s.setByte pa b).pins = s.pins := rfl
@[simp] theorem State.setByte_walked (s : State) (pa : Nat) (b : Byte) : (s.setByte pa b).walked = s.walked := rfl
@[simp] theorem State.setByte_frames (s : State) (pa : Nat) (b : Byte) : (s.setByte pa b).frames = s.frames := rfl
@[simp] theorem State.setByte_moves (s : State) (pa : Nat) (b : Byte) : (s.setByte pa b).moves = s.moves := rfl
@[simp] theorem State.setByte_launches (s : State) (pa : Nat) (b : Byte) : (s.setByte pa b).launches = s.launches := rfl
@[simp] theorem State.setByte_nextLaunch (s : State) (pa : Nat) (b : Byte) : (s.setByte pa b).nextLaunch = s.nextLaunch := rfl
@[simp] theorem State.setByte_queues (s : State) (pa : Nat) (b : Byte) : (s.setByte pa b).queues = s.queues := rfl
@[simp] theorem State.setByte_rot (s : State) (pa : Nat) (b : Byte) : (s.setByte pa b).rot = s.rot := rfl
@[simp] theorem State.setByte_preempts (s : State) (pa : Nat) (b : Byte) : (s.setByte pa b).preempts = s.preempts := rfl
@[simp] theorem State.setByte_buses (s : State) (pa : Nat) (b : Byte) : (s.setByte pa b).buses = s.buses := rfl
@[simp] theorem State.setByte_xfcon (s : State) (pa : Nat) (b : Byte) : (s.setByte pa b).xfcon = s.xfcon := rfl
@[simp] theorem State.setByte_mason (s : State) (pa : Nat) (b : Byte) : (s.setByte pa b).mason = s.mason := rfl
@[simp] theorem State.setByte_log (s : State) (pa : Nat) (b : Byte) : (s.setByte pa b).log = s.log := rfl
@[simp] theorem State.setByte_fabric (s : State) (pa : Nat) (b : Byte) : (s.setByte pa b).fabric = s.fabric := rfl
@[simp] theorem State.setByte_flow (s : State) (pa : Nat) (b : Byte) : (s.setByte pa b).flow = s.flow := rfl
@[simp] theorem State.setByte_host (s : State) (pa : Nat) (b : Byte) : (s.setByte pa b).host = s.host := rfl
@[simp] theorem State.setByte_mgmt (s : State) (pa : Nat) (b : Byte) : (s.setByte pa b).mgmt = s.mgmt := rfl
@[simp] theorem State.setByte_atst (s : State) (pa : Nat) (b : Byte) : (s.setByte pa b).atst = s.atst := rfl

/-! ### State.onLaunch -/
@[simp] theorem State.onLaunch_cur (s : State) (l : Nat) (f : Launch → Launch) : (s.onLaunch l f).cur = s.cur := rfl
@[simp] theorem State.onLaunch_ev (s : State) (l : Nat) (f : Launch → Launch) : (s.onLaunch l f).ev = s.ev := rfl
@[simp] theorem State.onLaunch_agenda (s : State) (l : Nat) (f : Launch → Launch) : (s.onLaunch l f).agenda = s.agenda := rfl
@[simp] theorem State.onLaunch_freeCtr (s : State) (l : Nat) (f : Launch → Launch) : (s.onLaunch l f).freeCtr = s.freeCtr := rfl
@[simp] theorem State.onLaunch_cores (s : State) (l : Nat) (f : Launch → Launch) : (s.onLaunch l f).cores = s.cores := rfl
@[simp] theorem State.onLaunch_dies (s : State) (l : Nat) (f : Launch → Launch) : (s.onLaunch l f).dies = s.dies := rfl
@[simp] theorem State.onLaunch_mem (s : State) (l : Nat) (f : Launch → Launch) : (s.onLaunch l f).mem = s.mem := rfl
@[simp] theorem State.onLaunch_poison (s : State) (l : Nat) (f : Launch → Launch) : (s.onLaunch l f).poison = s.poison := rfl
@[simp] theorem State.onLaunch_past (s : State) (l : Nat) (f : Launch → Launch) : (s.onLaunch l f).past = s.past := rfl
@[simp] theorem State.onLaunch_upsets (s : State) (l : Nat) (f : Launch → Launch) : (s.onLaunch l f).upsets = s.upsets := rfl
@[simp] theorem State.onLaunch_ttbase (s : State) (l : Nat) (f : Launch → Launch) : (s.onLaunch l f).ttbase = s.ttbase := rfl
@[simp] theorem State.onLaunch_stale (s : State) (l : Nat) (f : Launch → Launch) : (s.onLaunch l f).stale = s.stale := rfl
@[simp] theorem State.onLaunch_pageReqs (s : State) (l : Nat) (f : Launch → Launch) : (s.onLaunch l f).pageReqs = s.pageReqs := rfl
@[simp] theorem State.onLaunch_residents (s : State) (l : Nat) (f : Launch → Launch) : (s.onLaunch l f).residents = s.residents := rfl
@[simp] theorem State.onLaunch_pins (s : State) (l : Nat) (f : Launch → Launch) : (s.onLaunch l f).pins = s.pins := rfl
@[simp] theorem State.onLaunch_walked (s : State) (l : Nat) (f : Launch → Launch) : (s.onLaunch l f).walked = s.walked := rfl
@[simp] theorem State.onLaunch_frames (s : State) (l : Nat) (f : Launch → Launch) : (s.onLaunch l f).frames = s.frames := rfl
@[simp] theorem State.onLaunch_moves (s : State) (l : Nat) (f : Launch → Launch) : (s.onLaunch l f).moves = s.moves := rfl
@[simp] theorem State.onLaunch_nextLaunch (s : State) (l : Nat) (f : Launch → Launch) : (s.onLaunch l f).nextLaunch = s.nextLaunch := rfl
@[simp] theorem State.onLaunch_queues (s : State) (l : Nat) (f : Launch → Launch) : (s.onLaunch l f).queues = s.queues := rfl
@[simp] theorem State.onLaunch_rot (s : State) (l : Nat) (f : Launch → Launch) : (s.onLaunch l f).rot = s.rot := rfl
@[simp] theorem State.onLaunch_preempts (s : State) (l : Nat) (f : Launch → Launch) : (s.onLaunch l f).preempts = s.preempts := rfl
@[simp] theorem State.onLaunch_buses (s : State) (l : Nat) (f : Launch → Launch) : (s.onLaunch l f).buses = s.buses := rfl
@[simp] theorem State.onLaunch_xfcon (s : State) (l : Nat) (f : Launch → Launch) : (s.onLaunch l f).xfcon = s.xfcon := rfl
@[simp] theorem State.onLaunch_mason (s : State) (l : Nat) (f : Launch → Launch) : (s.onLaunch l f).mason = s.mason := rfl
@[simp] theorem State.onLaunch_log (s : State) (l : Nat) (f : Launch → Launch) : (s.onLaunch l f).log = s.log := rfl
@[simp] theorem State.onLaunch_fabric (s : State) (l : Nat) (f : Launch → Launch) : (s.onLaunch l f).fabric = s.fabric := rfl
@[simp] theorem State.onLaunch_flow (s : State) (l : Nat) (f : Launch → Launch) : (s.onLaunch l f).flow = s.flow := rfl
@[simp] theorem State.onLaunch_host (s : State) (l : Nat) (f : Launch → Launch) : (s.onLaunch l f).host = s.host := rfl
@[simp] theorem State.onLaunch_mgmt (s : State) (l : Nat) (f : Launch → Launch) : (s.onLaunch l f).mgmt = s.mgmt := rfl
@[simp] theorem State.onLaunch_atst (s : State) (l : Nat) (f : Launch → Launch) : (s.onLaunch l f).atst = s.atst := rfl

/-! ### State.onLog -/
@[simp] theorem State.onLog_cur (s : State) (f : EventLog → EventLog) : (s.onLog f).cur = s.cur := rfl
@[simp] theorem State.onLog_ev (s : State) (f : EventLog → EventLog) : (s.onLog f).ev = s.ev := rfl
@[simp] theorem State.onLog_agenda (s : State) (f : EventLog → EventLog) : (s.onLog f).agenda = s.agenda := rfl
@[simp] theorem State.onLog_freeCtr (s : State) (f : EventLog → EventLog) : (s.onLog f).freeCtr = s.freeCtr := rfl
@[simp] theorem State.onLog_cores (s : State) (f : EventLog → EventLog) : (s.onLog f).cores = s.cores := rfl
@[simp] theorem State.onLog_dies (s : State) (f : EventLog → EventLog) : (s.onLog f).dies = s.dies := rfl
@[simp] theorem State.onLog_mem (s : State) (f : EventLog → EventLog) : (s.onLog f).mem = s.mem := rfl
@[simp] theorem State.onLog_poison (s : State) (f : EventLog → EventLog) : (s.onLog f).poison = s.poison := rfl
@[simp] theorem State.onLog_past (s : State) (f : EventLog → EventLog) : (s.onLog f).past = s.past := rfl
@[simp] theorem State.onLog_upsets (s : State) (f : EventLog → EventLog) : (s.onLog f).upsets = s.upsets := rfl
@[simp] theorem State.onLog_ttbase (s : State) (f : EventLog → EventLog) : (s.onLog f).ttbase = s.ttbase := rfl
@[simp] theorem State.onLog_stale (s : State) (f : EventLog → EventLog) : (s.onLog f).stale = s.stale := rfl
@[simp] theorem State.onLog_pageReqs (s : State) (f : EventLog → EventLog) : (s.onLog f).pageReqs = s.pageReqs := rfl
@[simp] theorem State.onLog_residents (s : State) (f : EventLog → EventLog) : (s.onLog f).residents = s.residents := rfl
@[simp] theorem State.onLog_pins (s : State) (f : EventLog → EventLog) : (s.onLog f).pins = s.pins := rfl
@[simp] theorem State.onLog_walked (s : State) (f : EventLog → EventLog) : (s.onLog f).walked = s.walked := rfl
@[simp] theorem State.onLog_frames (s : State) (f : EventLog → EventLog) : (s.onLog f).frames = s.frames := rfl
@[simp] theorem State.onLog_moves (s : State) (f : EventLog → EventLog) : (s.onLog f).moves = s.moves := rfl
@[simp] theorem State.onLog_launches (s : State) (f : EventLog → EventLog) : (s.onLog f).launches = s.launches := rfl
@[simp] theorem State.onLog_nextLaunch (s : State) (f : EventLog → EventLog) : (s.onLog f).nextLaunch = s.nextLaunch := rfl
@[simp] theorem State.onLog_queues (s : State) (f : EventLog → EventLog) : (s.onLog f).queues = s.queues := rfl
@[simp] theorem State.onLog_rot (s : State) (f : EventLog → EventLog) : (s.onLog f).rot = s.rot := rfl
@[simp] theorem State.onLog_preempts (s : State) (f : EventLog → EventLog) : (s.onLog f).preempts = s.preempts := rfl
@[simp] theorem State.onLog_buses (s : State) (f : EventLog → EventLog) : (s.onLog f).buses = s.buses := rfl
@[simp] theorem State.onLog_xfcon (s : State) (f : EventLog → EventLog) : (s.onLog f).xfcon = s.xfcon := rfl
@[simp] theorem State.onLog_mason (s : State) (f : EventLog → EventLog) : (s.onLog f).mason = s.mason := rfl
@[simp] theorem State.onLog_fabric (s : State) (f : EventLog → EventLog) : (s.onLog f).fabric = s.fabric := rfl
@[simp] theorem State.onLog_flow (s : State) (f : EventLog → EventLog) : (s.onLog f).flow = s.flow := rfl
@[simp] theorem State.onLog_host (s : State) (f : EventLog → EventLog) : (s.onLog f).host = s.host := rfl
@[simp] theorem State.onLog_mgmt (s : State) (f : EventLog → EventLog) : (s.onLog f).mgmt = s.mgmt := rfl
@[simp] theorem State.onLog_atst (s : State) (f : EventLog → EventLog) : (s.onLog f).atst = s.atst := rfl

/-! ### State.onMason -/
@[simp] theorem State.onMason_cur (s : State) (f : Mason → Mason) : (s.onMason f).cur = s.cur := rfl
@[simp] theorem State.onMason_ev (s : State) (f : Mason → Mason) : (s.onMason f).ev = s.ev := rfl
@[simp] theorem State.onMason_agenda (s : State) (f : Mason → Mason) : (s.onMason f).agenda = s.agenda := rfl
@[simp] theorem State.onMason_freeCtr (s : State) (f : Mason → Mason) : (s.onMason f).freeCtr = s.freeCtr := rfl
@[simp] theorem State.onMason_cores (s : State) (f : Mason → Mason) : (s.onMason f).cores = s.cores := rfl
@[simp] theorem State.onMason_dies (s : State) (f : Mason → Mason) : (s.onMason f).dies = s.dies := rfl
@[simp] theorem State.onMason_mem (s : State) (f : Mason → Mason) : (s.onMason f).mem = s.mem := rfl
@[simp] theorem State.onMason_poison (s : State) (f : Mason → Mason) : (s.onMason f).poison = s.poison := rfl
@[simp] theorem State.onMason_past (s : State) (f : Mason → Mason) : (s.onMason f).past = s.past := rfl
@[simp] theorem State.onMason_upsets (s : State) (f : Mason → Mason) : (s.onMason f).upsets = s.upsets := rfl
@[simp] theorem State.onMason_ttbase (s : State) (f : Mason → Mason) : (s.onMason f).ttbase = s.ttbase := rfl
@[simp] theorem State.onMason_stale (s : State) (f : Mason → Mason) : (s.onMason f).stale = s.stale := rfl
@[simp] theorem State.onMason_pageReqs (s : State) (f : Mason → Mason) : (s.onMason f).pageReqs = s.pageReqs := rfl
@[simp] theorem State.onMason_residents (s : State) (f : Mason → Mason) : (s.onMason f).residents = s.residents := rfl
@[simp] theorem State.onMason_pins (s : State) (f : Mason → Mason) : (s.onMason f).pins = s.pins := rfl
@[simp] theorem State.onMason_walked (s : State) (f : Mason → Mason) : (s.onMason f).walked = s.walked := rfl
@[simp] theorem State.onMason_frames (s : State) (f : Mason → Mason) : (s.onMason f).frames = s.frames := rfl
@[simp] theorem State.onMason_moves (s : State) (f : Mason → Mason) : (s.onMason f).moves = s.moves := rfl
@[simp] theorem State.onMason_launches (s : State) (f : Mason → Mason) : (s.onMason f).launches = s.launches := rfl
@[simp] theorem State.onMason_nextLaunch (s : State) (f : Mason → Mason) : (s.onMason f).nextLaunch = s.nextLaunch := rfl
@[simp] theorem State.onMason_queues (s : State) (f : Mason → Mason) : (s.onMason f).queues = s.queues := rfl
@[simp] theorem State.onMason_rot (s : State) (f : Mason → Mason) : (s.onMason f).rot = s.rot := rfl
@[simp] theorem State.onMason_preempts (s : State) (f : Mason → Mason) : (s.onMason f).preempts = s.preempts := rfl
@[simp] theorem State.onMason_buses (s : State) (f : Mason → Mason) : (s.onMason f).buses = s.buses := rfl
@[simp] theorem State.onMason_xfcon (s : State) (f : Mason → Mason) : (s.onMason f).xfcon = s.xfcon := rfl
@[simp] theorem State.onMason_log (s : State) (f : Mason → Mason) : (s.onMason f).log = s.log := rfl
@[simp] theorem State.onMason_fabric (s : State) (f : Mason → Mason) : (s.onMason f).fabric = s.fabric := rfl
@[simp] theorem State.onMason_flow (s : State) (f : Mason → Mason) : (s.onMason f).flow = s.flow := rfl
@[simp] theorem State.onMason_host (s : State) (f : Mason → Mason) : (s.onMason f).host = s.host := rfl
@[simp] theorem State.onMason_mgmt (s : State) (f : Mason → Mason) : (s.onMason f).mgmt = s.mgmt := rfl
@[simp] theorem State.onMason_atst (s : State) (f : Mason → Mason) : (s.onMason f).atst = s.atst := rfl

/-! ### State.onFabric -/
@[simp] theorem State.onFabric_cur (s : State) (f : Fabric → Fabric) : (s.onFabric f).cur = s.cur := rfl
@[simp] theorem State.onFabric_ev (s : State) (f : Fabric → Fabric) : (s.onFabric f).ev = s.ev := rfl
@[simp] theorem State.onFabric_agenda (s : State) (f : Fabric → Fabric) : (s.onFabric f).agenda = s.agenda := rfl
@[simp] theorem State.onFabric_freeCtr (s : State) (f : Fabric → Fabric) : (s.onFabric f).freeCtr = s.freeCtr := rfl
@[simp] theorem State.onFabric_cores (s : State) (f : Fabric → Fabric) : (s.onFabric f).cores = s.cores := rfl
@[simp] theorem State.onFabric_dies (s : State) (f : Fabric → Fabric) : (s.onFabric f).dies = s.dies := rfl
@[simp] theorem State.onFabric_mem (s : State) (f : Fabric → Fabric) : (s.onFabric f).mem = s.mem := rfl
@[simp] theorem State.onFabric_poison (s : State) (f : Fabric → Fabric) : (s.onFabric f).poison = s.poison := rfl
@[simp] theorem State.onFabric_past (s : State) (f : Fabric → Fabric) : (s.onFabric f).past = s.past := rfl
@[simp] theorem State.onFabric_upsets (s : State) (f : Fabric → Fabric) : (s.onFabric f).upsets = s.upsets := rfl
@[simp] theorem State.onFabric_ttbase (s : State) (f : Fabric → Fabric) : (s.onFabric f).ttbase = s.ttbase := rfl
@[simp] theorem State.onFabric_stale (s : State) (f : Fabric → Fabric) : (s.onFabric f).stale = s.stale := rfl
@[simp] theorem State.onFabric_pageReqs (s : State) (f : Fabric → Fabric) : (s.onFabric f).pageReqs = s.pageReqs := rfl
@[simp] theorem State.onFabric_residents (s : State) (f : Fabric → Fabric) : (s.onFabric f).residents = s.residents := rfl
@[simp] theorem State.onFabric_pins (s : State) (f : Fabric → Fabric) : (s.onFabric f).pins = s.pins := rfl
@[simp] theorem State.onFabric_walked (s : State) (f : Fabric → Fabric) : (s.onFabric f).walked = s.walked := rfl
@[simp] theorem State.onFabric_frames (s : State) (f : Fabric → Fabric) : (s.onFabric f).frames = s.frames := rfl
@[simp] theorem State.onFabric_moves (s : State) (f : Fabric → Fabric) : (s.onFabric f).moves = s.moves := rfl
@[simp] theorem State.onFabric_launches (s : State) (f : Fabric → Fabric) : (s.onFabric f).launches = s.launches := rfl
@[simp] theorem State.onFabric_nextLaunch (s : State) (f : Fabric → Fabric) : (s.onFabric f).nextLaunch = s.nextLaunch := rfl
@[simp] theorem State.onFabric_queues (s : State) (f : Fabric → Fabric) : (s.onFabric f).queues = s.queues := rfl
@[simp] theorem State.onFabric_rot (s : State) (f : Fabric → Fabric) : (s.onFabric f).rot = s.rot := rfl
@[simp] theorem State.onFabric_preempts (s : State) (f : Fabric → Fabric) : (s.onFabric f).preempts = s.preempts := rfl
@[simp] theorem State.onFabric_buses (s : State) (f : Fabric → Fabric) : (s.onFabric f).buses = s.buses := rfl
@[simp] theorem State.onFabric_xfcon (s : State) (f : Fabric → Fabric) : (s.onFabric f).xfcon = s.xfcon := rfl
@[simp] theorem State.onFabric_mason (s : State) (f : Fabric → Fabric) : (s.onFabric f).mason = s.mason := rfl
@[simp] theorem State.onFabric_log (s : State) (f : Fabric → Fabric) : (s.onFabric f).log = s.log := rfl
@[simp] theorem State.onFabric_flow (s : State) (f : Fabric → Fabric) : (s.onFabric f).flow = s.flow := rfl
@[simp] theorem State.onFabric_host (s : State) (f : Fabric → Fabric) : (s.onFabric f).host = s.host := rfl
@[simp] theorem State.onFabric_mgmt (s : State) (f : Fabric → Fabric) : (s.onFabric f).mgmt = s.mgmt := rfl
@[simp] theorem State.onFabric_atst (s : State) (f : Fabric → Fabric) : (s.onFabric f).atst = s.atst := rfl

/-! ### Core.setS -/
@[simp] theorem Core.setS_present (c : Core) (n : Nat) (x : Word) : (c.setS n x).present = c.present := by unfold Core.setS; split <;> rfl
@[simp] theorem Core.setS_strandC (c : Core) (n : Nat) (x : Word) : (c.setS n x).strandC = c.strandC := by unfold Core.setS; split <;> rfl
@[simp] theorem Core.setS_strandA (c : Core) (n : Nat) (x : Word) : (c.setS n x).strandA = c.strandA := by unfold Core.setS; split <;> rfl
@[simp] theorem Core.setS_strandM (c : Core) (n : Nat) (x : Word) : (c.setS n x).strandM = c.strandM := by unfold Core.setS; split <;> rfl
@[simp] theorem Core.setS_strandO (c : Core) (n : Nat) (x : Word) : (c.setS n x).strandO = c.strandO := by unfold Core.setS; split <;> rfl
@[simp] theorem Core.setS_a (c : Core) (n : Nat) (x : Word) : (c.setS n x).a = c.a := by unfold Core.setS; split <;> rfl
@[simp] theorem Core.setS_m (c : Core) (n : Nat) (x : Word) : (c.setS n x).m = c.m := by unfold Core.setS; split <;> rfl
@[simp] theorem Core.setS_o (c : Core) (n : Nat) (x : Word) : (c.setS n x).o = c.o := by unfold Core.setS; split <;> rfl
@[simp] theorem Core.setS_v (c : Core) (n : Nat) (x : Word) : (c.setS n x).v = c.v := by unfold Core.setS; split <;> rfl
@[simp] theorem Core.setS_p (c : Core) (n : Nat) (x : Word) : (c.setS n x).p = c.p := by unfold Core.setS; split <;> rfl
@[simp] theorem Core.setS_f (c : Core) (n : Nat) (x : Word) : (c.setS n x).f = c.f := by unfold Core.setS; split <;> rfl
@[simp] theorem Core.setS_t (c : Core) (n : Nat) (x : Word) : (c.setS n x).t = c.t := by unfold Core.setS; split <;> rfl
@[simp] theorem Core.setS_q (c : Core) (n : Nat) (x : Word) : (c.setS n x).q = c.q := by unfold Core.setS; split <;> rfl
@[simp] theorem Core.setS_d (c : Core) (n : Nat) (x : Word) : (c.setS n x).d = c.d := by unfold Core.setS; split <;> rfl
@[simp] theorem Core.setS_sbC (c : Core) (n : Nat) (x : Word) : (c.setS n x).sbC = c.sbC := by unfold Core.setS; split <;> rfl
@[simp] theorem Core.setS_sbA (c : Core) (n : Nat) (x : Word) : (c.setS n x).sbA = c.sbA := by unfold Core.setS; split <;> rfl
@[simp] theorem Core.setS_fpst (c : Core) (n : Nat) (x : Word) : (c.setS n x).fpst = c.fpst := by unfold Core.setS; split <;> rfl
@[simp] theorem Core.setS_dbgHz (c : Core) (n : Nat) (x : Word) : (c.setS n x).dbgHz = c.dbgHz := by unfold Core.setS; split <;> rfl
@[simp] theorem Core.setS_halted (c : Core) (n : Nat) (x : Word) : (c.setS n x).halted = c.halted := by unfold Core.setS; split <;> rfl
@[simp] theorem Core.setS_outC (c : Core) (n : Nat) (x : Word) : (c.setS n x).outC = c.outC := by unfold Core.setS; split <;> rfl
@[simp] theorem Core.setS_outA (c : Core) (n : Nat) (x : Word) : (c.setS n x).outA = c.outA := by unfold Core.setS; split <;> rfl
@[simp] theorem Core.setS_nextId (c : Core) (n : Nat) (x : Word) : (c.setS n x).nextId = c.nextId := by unfold Core.setS; split <;> rfl
@[simp] theorem Core.setS_tq (c : Core) (n : Nat) (x : Word) : (c.setS n x).tq = c.tq := by unfold Core.setS; split <;> rfl
@[simp] theorem Core.setS_ch (c : Core) (n : Nat) (x : Word) : (c.setS n x).ch = c.ch := by unfold Core.setS; split <;> rfl
@[simp] theorem Core.setS_sq (c : Core) (n : Nat) (x : Word) : (c.setS n x).sq = c.sq := by unfold Core.setS; split <;> rfl
@[simp] theorem Core.setS_bq (c : Core) (n : Nat) (x : Word) : (c.setS n x).bq = c.bq := by unfold Core.setS; split <;> rfl
@[simp] theorem Core.setS_mq (c : Core) (n : Nat) (x : Word) : (c.setS n x).mq = c.mq := by unfold Core.setS; split <;> rfl
@[simp] theorem Core.setS_oq (c : Core) (n : Nat) (x : Word) : (c.setS n x).oq = c.oq := by unfold Core.setS; split <;> rfl
@[simp] theorem Core.setS_items (c : Core) (n : Nat) (x : Word) : (c.setS n x).items = c.items := by unfold Core.setS; split <;> rfl
@[simp] theorem Core.setS_unitHalt (c : Core) (n : Nat) (x : Word) : (c.setS n x).unitHalt = c.unitHalt := by unfold Core.setS; split <;> rfl
@[simp] theorem Core.setS_task (c : Core) (n : Nat) (x : Word) : (c.setS n x).task = c.task := by unfold Core.setS; split <;> rfl
@[simp] theorem Core.setS_staged (c : Core) (n : Nat) (x : Word) : (c.setS n x).staged = c.staged := by unfold Core.setS; split <;> rfl

/-! ### Core.setA -/
@[simp] theorem Core.setA_present (c : Core) (n : Nat) (x : Word) : (c.setA n x).present = c.present := by unfold Core.setA; split <;> rfl
@[simp] theorem Core.setA_strandC (c : Core) (n : Nat) (x : Word) : (c.setA n x).strandC = c.strandC := by unfold Core.setA; split <;> rfl
@[simp] theorem Core.setA_strandA (c : Core) (n : Nat) (x : Word) : (c.setA n x).strandA = c.strandA := by unfold Core.setA; split <;> rfl
@[simp] theorem Core.setA_strandM (c : Core) (n : Nat) (x : Word) : (c.setA n x).strandM = c.strandM := by unfold Core.setA; split <;> rfl
@[simp] theorem Core.setA_strandO (c : Core) (n : Nat) (x : Word) : (c.setA n x).strandO = c.strandO := by unfold Core.setA; split <;> rfl
@[simp] theorem Core.setA_s (c : Core) (n : Nat) (x : Word) : (c.setA n x).s = c.s := by unfold Core.setA; split <;> rfl
@[simp] theorem Core.setA_m (c : Core) (n : Nat) (x : Word) : (c.setA n x).m = c.m := by unfold Core.setA; split <;> rfl
@[simp] theorem Core.setA_o (c : Core) (n : Nat) (x : Word) : (c.setA n x).o = c.o := by unfold Core.setA; split <;> rfl
@[simp] theorem Core.setA_v (c : Core) (n : Nat) (x : Word) : (c.setA n x).v = c.v := by unfold Core.setA; split <;> rfl
@[simp] theorem Core.setA_p (c : Core) (n : Nat) (x : Word) : (c.setA n x).p = c.p := by unfold Core.setA; split <;> rfl
@[simp] theorem Core.setA_f (c : Core) (n : Nat) (x : Word) : (c.setA n x).f = c.f := by unfold Core.setA; split <;> rfl
@[simp] theorem Core.setA_t (c : Core) (n : Nat) (x : Word) : (c.setA n x).t = c.t := by unfold Core.setA; split <;> rfl
@[simp] theorem Core.setA_q (c : Core) (n : Nat) (x : Word) : (c.setA n x).q = c.q := by unfold Core.setA; split <;> rfl
@[simp] theorem Core.setA_d (c : Core) (n : Nat) (x : Word) : (c.setA n x).d = c.d := by unfold Core.setA; split <;> rfl
@[simp] theorem Core.setA_sbC (c : Core) (n : Nat) (x : Word) : (c.setA n x).sbC = c.sbC := by unfold Core.setA; split <;> rfl
@[simp] theorem Core.setA_sbA (c : Core) (n : Nat) (x : Word) : (c.setA n x).sbA = c.sbA := by unfold Core.setA; split <;> rfl
@[simp] theorem Core.setA_fpst (c : Core) (n : Nat) (x : Word) : (c.setA n x).fpst = c.fpst := by unfold Core.setA; split <;> rfl
@[simp] theorem Core.setA_dbgHz (c : Core) (n : Nat) (x : Word) : (c.setA n x).dbgHz = c.dbgHz := by unfold Core.setA; split <;> rfl
@[simp] theorem Core.setA_halted (c : Core) (n : Nat) (x : Word) : (c.setA n x).halted = c.halted := by unfold Core.setA; split <;> rfl
@[simp] theorem Core.setA_outC (c : Core) (n : Nat) (x : Word) : (c.setA n x).outC = c.outC := by unfold Core.setA; split <;> rfl
@[simp] theorem Core.setA_outA (c : Core) (n : Nat) (x : Word) : (c.setA n x).outA = c.outA := by unfold Core.setA; split <;> rfl
@[simp] theorem Core.setA_nextId (c : Core) (n : Nat) (x : Word) : (c.setA n x).nextId = c.nextId := by unfold Core.setA; split <;> rfl
@[simp] theorem Core.setA_tq (c : Core) (n : Nat) (x : Word) : (c.setA n x).tq = c.tq := by unfold Core.setA; split <;> rfl
@[simp] theorem Core.setA_ch (c : Core) (n : Nat) (x : Word) : (c.setA n x).ch = c.ch := by unfold Core.setA; split <;> rfl
@[simp] theorem Core.setA_sq (c : Core) (n : Nat) (x : Word) : (c.setA n x).sq = c.sq := by unfold Core.setA; split <;> rfl
@[simp] theorem Core.setA_bq (c : Core) (n : Nat) (x : Word) : (c.setA n x).bq = c.bq := by unfold Core.setA; split <;> rfl
@[simp] theorem Core.setA_mq (c : Core) (n : Nat) (x : Word) : (c.setA n x).mq = c.mq := by unfold Core.setA; split <;> rfl
@[simp] theorem Core.setA_oq (c : Core) (n : Nat) (x : Word) : (c.setA n x).oq = c.oq := by unfold Core.setA; split <;> rfl
@[simp] theorem Core.setA_items (c : Core) (n : Nat) (x : Word) : (c.setA n x).items = c.items := by unfold Core.setA; split <;> rfl
@[simp] theorem Core.setA_unitHalt (c : Core) (n : Nat) (x : Word) : (c.setA n x).unitHalt = c.unitHalt := by unfold Core.setA; split <;> rfl
@[simp] theorem Core.setA_task (c : Core) (n : Nat) (x : Word) : (c.setA n x).task = c.task := by unfold Core.setA; split <;> rfl
@[simp] theorem Core.setA_staged (c : Core) (n : Nat) (x : Word) : (c.setA n x).staged = c.staged := by unfold Core.setA; split <;> rfl

/-! ### Core.setM -/
@[simp] theorem Core.setM_present (c : Core) (n : Nat) (x : Word) : (c.setM n x).present = c.present := rfl
@[simp] theorem Core.setM_strandC (c : Core) (n : Nat) (x : Word) : (c.setM n x).strandC = c.strandC := rfl
@[simp] theorem Core.setM_strandA (c : Core) (n : Nat) (x : Word) : (c.setM n x).strandA = c.strandA := rfl
@[simp] theorem Core.setM_strandM (c : Core) (n : Nat) (x : Word) : (c.setM n x).strandM = c.strandM := rfl
@[simp] theorem Core.setM_strandO (c : Core) (n : Nat) (x : Word) : (c.setM n x).strandO = c.strandO := rfl
@[simp] theorem Core.setM_s (c : Core) (n : Nat) (x : Word) : (c.setM n x).s = c.s := rfl
@[simp] theorem Core.setM_a (c : Core) (n : Nat) (x : Word) : (c.setM n x).a = c.a := rfl
@[simp] theorem Core.setM_o (c : Core) (n : Nat) (x : Word) : (c.setM n x).o = c.o := rfl
@[simp] theorem Core.setM_v (c : Core) (n : Nat) (x : Word) : (c.setM n x).v = c.v := rfl
@[simp] theorem Core.setM_p (c : Core) (n : Nat) (x : Word) : (c.setM n x).p = c.p := rfl
@[simp] theorem Core.setM_f (c : Core) (n : Nat) (x : Word) : (c.setM n x).f = c.f := rfl
@[simp] theorem Core.setM_t (c : Core) (n : Nat) (x : Word) : (c.setM n x).t = c.t := rfl
@[simp] theorem Core.setM_q (c : Core) (n : Nat) (x : Word) : (c.setM n x).q = c.q := rfl
@[simp] theorem Core.setM_d (c : Core) (n : Nat) (x : Word) : (c.setM n x).d = c.d := rfl
@[simp] theorem Core.setM_sbC (c : Core) (n : Nat) (x : Word) : (c.setM n x).sbC = c.sbC := rfl
@[simp] theorem Core.setM_sbA (c : Core) (n : Nat) (x : Word) : (c.setM n x).sbA = c.sbA := rfl
@[simp] theorem Core.setM_fpst (c : Core) (n : Nat) (x : Word) : (c.setM n x).fpst = c.fpst := rfl
@[simp] theorem Core.setM_dbgHz (c : Core) (n : Nat) (x : Word) : (c.setM n x).dbgHz = c.dbgHz := rfl
@[simp] theorem Core.setM_halted (c : Core) (n : Nat) (x : Word) : (c.setM n x).halted = c.halted := rfl
@[simp] theorem Core.setM_outC (c : Core) (n : Nat) (x : Word) : (c.setM n x).outC = c.outC := rfl
@[simp] theorem Core.setM_outA (c : Core) (n : Nat) (x : Word) : (c.setM n x).outA = c.outA := rfl
@[simp] theorem Core.setM_nextId (c : Core) (n : Nat) (x : Word) : (c.setM n x).nextId = c.nextId := rfl
@[simp] theorem Core.setM_tq (c : Core) (n : Nat) (x : Word) : (c.setM n x).tq = c.tq := rfl
@[simp] theorem Core.setM_ch (c : Core) (n : Nat) (x : Word) : (c.setM n x).ch = c.ch := rfl
@[simp] theorem Core.setM_sq (c : Core) (n : Nat) (x : Word) : (c.setM n x).sq = c.sq := rfl
@[simp] theorem Core.setM_bq (c : Core) (n : Nat) (x : Word) : (c.setM n x).bq = c.bq := rfl
@[simp] theorem Core.setM_mq (c : Core) (n : Nat) (x : Word) : (c.setM n x).mq = c.mq := rfl
@[simp] theorem Core.setM_oq (c : Core) (n : Nat) (x : Word) : (c.setM n x).oq = c.oq := rfl
@[simp] theorem Core.setM_items (c : Core) (n : Nat) (x : Word) : (c.setM n x).items = c.items := rfl
@[simp] theorem Core.setM_unitHalt (c : Core) (n : Nat) (x : Word) : (c.setM n x).unitHalt = c.unitHalt := rfl
@[simp] theorem Core.setM_task (c : Core) (n : Nat) (x : Word) : (c.setM n x).task = c.task := rfl
@[simp] theorem Core.setM_staged (c : Core) (n : Nat) (x : Word) : (c.setM n x).staged = c.staged := rfl

/-! ### Core.setO -/
@[simp] theorem Core.setO_present (c : Core) (n : Nat) (x : Word) : (c.setO n x).present = c.present := rfl
@[simp] theorem Core.setO_strandC (c : Core) (n : Nat) (x : Word) : (c.setO n x).strandC = c.strandC := rfl
@[simp] theorem Core.setO_strandA (c : Core) (n : Nat) (x : Word) : (c.setO n x).strandA = c.strandA := rfl
@[simp] theorem Core.setO_strandM (c : Core) (n : Nat) (x : Word) : (c.setO n x).strandM = c.strandM := rfl
@[simp] theorem Core.setO_strandO (c : Core) (n : Nat) (x : Word) : (c.setO n x).strandO = c.strandO := rfl
@[simp] theorem Core.setO_s (c : Core) (n : Nat) (x : Word) : (c.setO n x).s = c.s := rfl
@[simp] theorem Core.setO_a (c : Core) (n : Nat) (x : Word) : (c.setO n x).a = c.a := rfl
@[simp] theorem Core.setO_m (c : Core) (n : Nat) (x : Word) : (c.setO n x).m = c.m := rfl
@[simp] theorem Core.setO_v (c : Core) (n : Nat) (x : Word) : (c.setO n x).v = c.v := rfl
@[simp] theorem Core.setO_p (c : Core) (n : Nat) (x : Word) : (c.setO n x).p = c.p := rfl
@[simp] theorem Core.setO_f (c : Core) (n : Nat) (x : Word) : (c.setO n x).f = c.f := rfl
@[simp] theorem Core.setO_t (c : Core) (n : Nat) (x : Word) : (c.setO n x).t = c.t := rfl
@[simp] theorem Core.setO_q (c : Core) (n : Nat) (x : Word) : (c.setO n x).q = c.q := rfl
@[simp] theorem Core.setO_d (c : Core) (n : Nat) (x : Word) : (c.setO n x).d = c.d := rfl
@[simp] theorem Core.setO_sbC (c : Core) (n : Nat) (x : Word) : (c.setO n x).sbC = c.sbC := rfl
@[simp] theorem Core.setO_sbA (c : Core) (n : Nat) (x : Word) : (c.setO n x).sbA = c.sbA := rfl
@[simp] theorem Core.setO_fpst (c : Core) (n : Nat) (x : Word) : (c.setO n x).fpst = c.fpst := rfl
@[simp] theorem Core.setO_dbgHz (c : Core) (n : Nat) (x : Word) : (c.setO n x).dbgHz = c.dbgHz := rfl
@[simp] theorem Core.setO_halted (c : Core) (n : Nat) (x : Word) : (c.setO n x).halted = c.halted := rfl
@[simp] theorem Core.setO_outC (c : Core) (n : Nat) (x : Word) : (c.setO n x).outC = c.outC := rfl
@[simp] theorem Core.setO_outA (c : Core) (n : Nat) (x : Word) : (c.setO n x).outA = c.outA := rfl
@[simp] theorem Core.setO_nextId (c : Core) (n : Nat) (x : Word) : (c.setO n x).nextId = c.nextId := rfl
@[simp] theorem Core.setO_tq (c : Core) (n : Nat) (x : Word) : (c.setO n x).tq = c.tq := rfl
@[simp] theorem Core.setO_ch (c : Core) (n : Nat) (x : Word) : (c.setO n x).ch = c.ch := rfl
@[simp] theorem Core.setO_sq (c : Core) (n : Nat) (x : Word) : (c.setO n x).sq = c.sq := rfl
@[simp] theorem Core.setO_bq (c : Core) (n : Nat) (x : Word) : (c.setO n x).bq = c.bq := rfl
@[simp] theorem Core.setO_mq (c : Core) (n : Nat) (x : Word) : (c.setO n x).mq = c.mq := rfl
@[simp] theorem Core.setO_oq (c : Core) (n : Nat) (x : Word) : (c.setO n x).oq = c.oq := rfl
@[simp] theorem Core.setO_items (c : Core) (n : Nat) (x : Word) : (c.setO n x).items = c.items := rfl
@[simp] theorem Core.setO_unitHalt (c : Core) (n : Nat) (x : Word) : (c.setO n x).unitHalt = c.unitHalt := rfl
@[simp] theorem Core.setO_task (c : Core) (n : Nat) (x : Word) : (c.setO n x).task = c.task := rfl
@[simp] theorem Core.setO_staged (c : Core) (n : Nat) (x : Word) : (c.setO n x).staged = c.staged := rfl

/-! ### Core.setV -/
@[simp] theorem Core.setV_present (c : Core) (n : Nat) (x : Vec) : (c.setV n x).present = c.present := rfl
@[simp] theorem Core.setV_strandC (c : Core) (n : Nat) (x : Vec) : (c.setV n x).strandC = c.strandC := rfl
@[simp] theorem Core.setV_strandA (c : Core) (n : Nat) (x : Vec) : (c.setV n x).strandA = c.strandA := rfl
@[simp] theorem Core.setV_strandM (c : Core) (n : Nat) (x : Vec) : (c.setV n x).strandM = c.strandM := rfl
@[simp] theorem Core.setV_strandO (c : Core) (n : Nat) (x : Vec) : (c.setV n x).strandO = c.strandO := rfl
@[simp] theorem Core.setV_s (c : Core) (n : Nat) (x : Vec) : (c.setV n x).s = c.s := rfl
@[simp] theorem Core.setV_a (c : Core) (n : Nat) (x : Vec) : (c.setV n x).a = c.a := rfl
@[simp] theorem Core.setV_m (c : Core) (n : Nat) (x : Vec) : (c.setV n x).m = c.m := rfl
@[simp] theorem Core.setV_o (c : Core) (n : Nat) (x : Vec) : (c.setV n x).o = c.o := rfl
@[simp] theorem Core.setV_p (c : Core) (n : Nat) (x : Vec) : (c.setV n x).p = c.p := rfl
@[simp] theorem Core.setV_f (c : Core) (n : Nat) (x : Vec) : (c.setV n x).f = c.f := rfl
@[simp] theorem Core.setV_t (c : Core) (n : Nat) (x : Vec) : (c.setV n x).t = c.t := rfl
@[simp] theorem Core.setV_q (c : Core) (n : Nat) (x : Vec) : (c.setV n x).q = c.q := rfl
@[simp] theorem Core.setV_d (c : Core) (n : Nat) (x : Vec) : (c.setV n x).d = c.d := rfl
@[simp] theorem Core.setV_sbC (c : Core) (n : Nat) (x : Vec) : (c.setV n x).sbC = c.sbC := rfl
@[simp] theorem Core.setV_sbA (c : Core) (n : Nat) (x : Vec) : (c.setV n x).sbA = c.sbA := rfl
@[simp] theorem Core.setV_fpst (c : Core) (n : Nat) (x : Vec) : (c.setV n x).fpst = c.fpst := rfl
@[simp] theorem Core.setV_dbgHz (c : Core) (n : Nat) (x : Vec) : (c.setV n x).dbgHz = c.dbgHz := rfl
@[simp] theorem Core.setV_halted (c : Core) (n : Nat) (x : Vec) : (c.setV n x).halted = c.halted := rfl
@[simp] theorem Core.setV_outC (c : Core) (n : Nat) (x : Vec) : (c.setV n x).outC = c.outC := rfl
@[simp] theorem Core.setV_outA (c : Core) (n : Nat) (x : Vec) : (c.setV n x).outA = c.outA := rfl
@[simp] theorem Core.setV_nextId (c : Core) (n : Nat) (x : Vec) : (c.setV n x).nextId = c.nextId := rfl
@[simp] theorem Core.setV_tq (c : Core) (n : Nat) (x : Vec) : (c.setV n x).tq = c.tq := rfl
@[simp] theorem Core.setV_ch (c : Core) (n : Nat) (x : Vec) : (c.setV n x).ch = c.ch := rfl
@[simp] theorem Core.setV_sq (c : Core) (n : Nat) (x : Vec) : (c.setV n x).sq = c.sq := rfl
@[simp] theorem Core.setV_bq (c : Core) (n : Nat) (x : Vec) : (c.setV n x).bq = c.bq := rfl
@[simp] theorem Core.setV_mq (c : Core) (n : Nat) (x : Vec) : (c.setV n x).mq = c.mq := rfl
@[simp] theorem Core.setV_oq (c : Core) (n : Nat) (x : Vec) : (c.setV n x).oq = c.oq := rfl
@[simp] theorem Core.setV_items (c : Core) (n : Nat) (x : Vec) : (c.setV n x).items = c.items := rfl
@[simp] theorem Core.setV_unitHalt (c : Core) (n : Nat) (x : Vec) : (c.setV n x).unitHalt = c.unitHalt := rfl
@[simp] theorem Core.setV_task (c : Core) (n : Nat) (x : Vec) : (c.setV n x).task = c.task := rfl
@[simp] theorem Core.setV_staged (c : Core) (n : Nat) (x : Vec) : (c.setV n x).staged = c.staged := rfl

/-! ### Core.setP -/
@[simp] theorem Core.setP_present (c : Core) (n : Nat) (x : BitVec 32) : (c.setP n x).present = c.present := by unfold Core.setP; split <;> rfl
@[simp] theorem Core.setP_strandC (c : Core) (n : Nat) (x : BitVec 32) : (c.setP n x).strandC = c.strandC := by unfold Core.setP; split <;> rfl
@[simp] theorem Core.setP_strandA (c : Core) (n : Nat) (x : BitVec 32) : (c.setP n x).strandA = c.strandA := by unfold Core.setP; split <;> rfl
@[simp] theorem Core.setP_strandM (c : Core) (n : Nat) (x : BitVec 32) : (c.setP n x).strandM = c.strandM := by unfold Core.setP; split <;> rfl
@[simp] theorem Core.setP_strandO (c : Core) (n : Nat) (x : BitVec 32) : (c.setP n x).strandO = c.strandO := by unfold Core.setP; split <;> rfl
@[simp] theorem Core.setP_s (c : Core) (n : Nat) (x : BitVec 32) : (c.setP n x).s = c.s := by unfold Core.setP; split <;> rfl
@[simp] theorem Core.setP_a (c : Core) (n : Nat) (x : BitVec 32) : (c.setP n x).a = c.a := by unfold Core.setP; split <;> rfl
@[simp] theorem Core.setP_m (c : Core) (n : Nat) (x : BitVec 32) : (c.setP n x).m = c.m := by unfold Core.setP; split <;> rfl
@[simp] theorem Core.setP_o (c : Core) (n : Nat) (x : BitVec 32) : (c.setP n x).o = c.o := by unfold Core.setP; split <;> rfl
@[simp] theorem Core.setP_v (c : Core) (n : Nat) (x : BitVec 32) : (c.setP n x).v = c.v := by unfold Core.setP; split <;> rfl
@[simp] theorem Core.setP_f (c : Core) (n : Nat) (x : BitVec 32) : (c.setP n x).f = c.f := by unfold Core.setP; split <;> rfl
@[simp] theorem Core.setP_t (c : Core) (n : Nat) (x : BitVec 32) : (c.setP n x).t = c.t := by unfold Core.setP; split <;> rfl
@[simp] theorem Core.setP_q (c : Core) (n : Nat) (x : BitVec 32) : (c.setP n x).q = c.q := by unfold Core.setP; split <;> rfl
@[simp] theorem Core.setP_d (c : Core) (n : Nat) (x : BitVec 32) : (c.setP n x).d = c.d := by unfold Core.setP; split <;> rfl
@[simp] theorem Core.setP_sbC (c : Core) (n : Nat) (x : BitVec 32) : (c.setP n x).sbC = c.sbC := by unfold Core.setP; split <;> rfl
@[simp] theorem Core.setP_sbA (c : Core) (n : Nat) (x : BitVec 32) : (c.setP n x).sbA = c.sbA := by unfold Core.setP; split <;> rfl
@[simp] theorem Core.setP_fpst (c : Core) (n : Nat) (x : BitVec 32) : (c.setP n x).fpst = c.fpst := by unfold Core.setP; split <;> rfl
@[simp] theorem Core.setP_dbgHz (c : Core) (n : Nat) (x : BitVec 32) : (c.setP n x).dbgHz = c.dbgHz := by unfold Core.setP; split <;> rfl
@[simp] theorem Core.setP_halted (c : Core) (n : Nat) (x : BitVec 32) : (c.setP n x).halted = c.halted := by unfold Core.setP; split <;> rfl
@[simp] theorem Core.setP_outC (c : Core) (n : Nat) (x : BitVec 32) : (c.setP n x).outC = c.outC := by unfold Core.setP; split <;> rfl
@[simp] theorem Core.setP_outA (c : Core) (n : Nat) (x : BitVec 32) : (c.setP n x).outA = c.outA := by unfold Core.setP; split <;> rfl
@[simp] theorem Core.setP_nextId (c : Core) (n : Nat) (x : BitVec 32) : (c.setP n x).nextId = c.nextId := by unfold Core.setP; split <;> rfl
@[simp] theorem Core.setP_tq (c : Core) (n : Nat) (x : BitVec 32) : (c.setP n x).tq = c.tq := by unfold Core.setP; split <;> rfl
@[simp] theorem Core.setP_ch (c : Core) (n : Nat) (x : BitVec 32) : (c.setP n x).ch = c.ch := by unfold Core.setP; split <;> rfl
@[simp] theorem Core.setP_sq (c : Core) (n : Nat) (x : BitVec 32) : (c.setP n x).sq = c.sq := by unfold Core.setP; split <;> rfl
@[simp] theorem Core.setP_bq (c : Core) (n : Nat) (x : BitVec 32) : (c.setP n x).bq = c.bq := by unfold Core.setP; split <;> rfl
@[simp] theorem Core.setP_mq (c : Core) (n : Nat) (x : BitVec 32) : (c.setP n x).mq = c.mq := by unfold Core.setP; split <;> rfl
@[simp] theorem Core.setP_oq (c : Core) (n : Nat) (x : BitVec 32) : (c.setP n x).oq = c.oq := by unfold Core.setP; split <;> rfl
@[simp] theorem Core.setP_items (c : Core) (n : Nat) (x : BitVec 32) : (c.setP n x).items = c.items := by unfold Core.setP; split <;> rfl
@[simp] theorem Core.setP_unitHalt (c : Core) (n : Nat) (x : BitVec 32) : (c.setP n x).unitHalt = c.unitHalt := by unfold Core.setP; split <;> rfl
@[simp] theorem Core.setP_task (c : Core) (n : Nat) (x : BitVec 32) : (c.setP n x).task = c.task := by unfold Core.setP; split <;> rfl
@[simp] theorem Core.setP_staged (c : Core) (n : Nat) (x : BitVec 32) : (c.setP n x).staged = c.staged := by unfold Core.setP; split <;> rfl

/-! ### Core.setF -/
@[simp] theorem Core.setF_present (c : Core) (n : Nat) (x : BitVec 48) : (c.setF n x).present = c.present := rfl
@[simp] theorem Core.setF_strandC (c : Core) (n : Nat) (x : BitVec 48) : (c.setF n x).strandC = c.strandC := rfl
@[simp] theorem Core.setF_strandA (c : Core) (n : Nat) (x : BitVec 48) : (c.setF n x).strandA = c.strandA := rfl
@[simp] theorem Core.setF_strandM (c : Core) (n : Nat) (x : BitVec 48) : (c.setF n x).strandM = c.strandM := rfl
@[simp] theorem Core.setF_strandO (c : Core) (n : Nat) (x : BitVec 48) : (c.setF n x).strandO = c.strandO := rfl
@[simp] theorem Core.setF_s (c : Core) (n : Nat) (x : BitVec 48) : (c.setF n x).s = c.s := rfl
@[simp] theorem Core.setF_a (c : Core) (n : Nat) (x : BitVec 48) : (c.setF n x).a = c.a := rfl
@[simp] theorem Core.setF_m (c : Core) (n : Nat) (x : BitVec 48) : (c.setF n x).m = c.m := rfl
@[simp] theorem Core.setF_o (c : Core) (n : Nat) (x : BitVec 48) : (c.setF n x).o = c.o := rfl
@[simp] theorem Core.setF_v (c : Core) (n : Nat) (x : BitVec 48) : (c.setF n x).v = c.v := rfl
@[simp] theorem Core.setF_p (c : Core) (n : Nat) (x : BitVec 48) : (c.setF n x).p = c.p := rfl
@[simp] theorem Core.setF_t (c : Core) (n : Nat) (x : BitVec 48) : (c.setF n x).t = c.t := rfl
@[simp] theorem Core.setF_q (c : Core) (n : Nat) (x : BitVec 48) : (c.setF n x).q = c.q := rfl
@[simp] theorem Core.setF_d (c : Core) (n : Nat) (x : BitVec 48) : (c.setF n x).d = c.d := rfl
@[simp] theorem Core.setF_sbC (c : Core) (n : Nat) (x : BitVec 48) : (c.setF n x).sbC = c.sbC := rfl
@[simp] theorem Core.setF_sbA (c : Core) (n : Nat) (x : BitVec 48) : (c.setF n x).sbA = c.sbA := rfl
@[simp] theorem Core.setF_fpst (c : Core) (n : Nat) (x : BitVec 48) : (c.setF n x).fpst = c.fpst := rfl
@[simp] theorem Core.setF_dbgHz (c : Core) (n : Nat) (x : BitVec 48) : (c.setF n x).dbgHz = c.dbgHz := rfl
@[simp] theorem Core.setF_halted (c : Core) (n : Nat) (x : BitVec 48) : (c.setF n x).halted = c.halted := rfl
@[simp] theorem Core.setF_outC (c : Core) (n : Nat) (x : BitVec 48) : (c.setF n x).outC = c.outC := rfl
@[simp] theorem Core.setF_outA (c : Core) (n : Nat) (x : BitVec 48) : (c.setF n x).outA = c.outA := rfl
@[simp] theorem Core.setF_nextId (c : Core) (n : Nat) (x : BitVec 48) : (c.setF n x).nextId = c.nextId := rfl
@[simp] theorem Core.setF_tq (c : Core) (n : Nat) (x : BitVec 48) : (c.setF n x).tq = c.tq := rfl
@[simp] theorem Core.setF_ch (c : Core) (n : Nat) (x : BitVec 48) : (c.setF n x).ch = c.ch := rfl
@[simp] theorem Core.setF_sq (c : Core) (n : Nat) (x : BitVec 48) : (c.setF n x).sq = c.sq := rfl
@[simp] theorem Core.setF_bq (c : Core) (n : Nat) (x : BitVec 48) : (c.setF n x).bq = c.bq := rfl
@[simp] theorem Core.setF_mq (c : Core) (n : Nat) (x : BitVec 48) : (c.setF n x).mq = c.mq := rfl
@[simp] theorem Core.setF_oq (c : Core) (n : Nat) (x : BitVec 48) : (c.setF n x).oq = c.oq := rfl
@[simp] theorem Core.setF_items (c : Core) (n : Nat) (x : BitVec 48) : (c.setF n x).items = c.items := rfl
@[simp] theorem Core.setF_unitHalt (c : Core) (n : Nat) (x : BitVec 48) : (c.setF n x).unitHalt = c.unitHalt := rfl
@[simp] theorem Core.setF_task (c : Core) (n : Nat) (x : BitVec 48) : (c.setF n x).task = c.task := rfl
@[simp] theorem Core.setF_staged (c : Core) (n : Nat) (x : BitVec 48) : (c.setF n x).staged = c.staged := rfl

/-! ### Core.setTile -/
@[simp] theorem Core.setTile_present (c : Core) (n : Nat) (x : Tile) : (c.setTile n x).present = c.present := rfl
@[simp] theorem Core.setTile_strandC (c : Core) (n : Nat) (x : Tile) : (c.setTile n x).strandC = c.strandC := rfl
@[simp] theorem Core.setTile_strandA (c : Core) (n : Nat) (x : Tile) : (c.setTile n x).strandA = c.strandA := rfl
@[simp] theorem Core.setTile_strandM (c : Core) (n : Nat) (x : Tile) : (c.setTile n x).strandM = c.strandM := rfl
@[simp] theorem Core.setTile_strandO (c : Core) (n : Nat) (x : Tile) : (c.setTile n x).strandO = c.strandO := rfl
@[simp] theorem Core.setTile_s (c : Core) (n : Nat) (x : Tile) : (c.setTile n x).s = c.s := rfl
@[simp] theorem Core.setTile_a (c : Core) (n : Nat) (x : Tile) : (c.setTile n x).a = c.a := rfl
@[simp] theorem Core.setTile_m (c : Core) (n : Nat) (x : Tile) : (c.setTile n x).m = c.m := rfl
@[simp] theorem Core.setTile_o (c : Core) (n : Nat) (x : Tile) : (c.setTile n x).o = c.o := rfl
@[simp] theorem Core.setTile_v (c : Core) (n : Nat) (x : Tile) : (c.setTile n x).v = c.v := rfl
@[simp] theorem Core.setTile_p (c : Core) (n : Nat) (x : Tile) : (c.setTile n x).p = c.p := rfl
@[simp] theorem Core.setTile_f (c : Core) (n : Nat) (x : Tile) : (c.setTile n x).f = c.f := rfl
@[simp] theorem Core.setTile_q (c : Core) (n : Nat) (x : Tile) : (c.setTile n x).q = c.q := rfl
@[simp] theorem Core.setTile_d (c : Core) (n : Nat) (x : Tile) : (c.setTile n x).d = c.d := rfl
@[simp] theorem Core.setTile_sbC (c : Core) (n : Nat) (x : Tile) : (c.setTile n x).sbC = c.sbC := rfl
@[simp] theorem Core.setTile_sbA (c : Core) (n : Nat) (x : Tile) : (c.setTile n x).sbA = c.sbA := rfl
@[simp] theorem Core.setTile_fpst (c : Core) (n : Nat) (x : Tile) : (c.setTile n x).fpst = c.fpst := rfl
@[simp] theorem Core.setTile_dbgHz (c : Core) (n : Nat) (x : Tile) : (c.setTile n x).dbgHz = c.dbgHz := rfl
@[simp] theorem Core.setTile_halted (c : Core) (n : Nat) (x : Tile) : (c.setTile n x).halted = c.halted := rfl
@[simp] theorem Core.setTile_outC (c : Core) (n : Nat) (x : Tile) : (c.setTile n x).outC = c.outC := rfl
@[simp] theorem Core.setTile_outA (c : Core) (n : Nat) (x : Tile) : (c.setTile n x).outA = c.outA := rfl
@[simp] theorem Core.setTile_nextId (c : Core) (n : Nat) (x : Tile) : (c.setTile n x).nextId = c.nextId := rfl
@[simp] theorem Core.setTile_tq (c : Core) (n : Nat) (x : Tile) : (c.setTile n x).tq = c.tq := rfl
@[simp] theorem Core.setTile_ch (c : Core) (n : Nat) (x : Tile) : (c.setTile n x).ch = c.ch := rfl
@[simp] theorem Core.setTile_sq (c : Core) (n : Nat) (x : Tile) : (c.setTile n x).sq = c.sq := rfl
@[simp] theorem Core.setTile_bq (c : Core) (n : Nat) (x : Tile) : (c.setTile n x).bq = c.bq := rfl
@[simp] theorem Core.setTile_mq (c : Core) (n : Nat) (x : Tile) : (c.setTile n x).mq = c.mq := rfl
@[simp] theorem Core.setTile_oq (c : Core) (n : Nat) (x : Tile) : (c.setTile n x).oq = c.oq := rfl
@[simp] theorem Core.setTile_items (c : Core) (n : Nat) (x : Tile) : (c.setTile n x).items = c.items := rfl
@[simp] theorem Core.setTile_unitHalt (c : Core) (n : Nat) (x : Tile) : (c.setTile n x).unitHalt = c.unitHalt := rfl
@[simp] theorem Core.setTile_task (c : Core) (n : Nat) (x : Tile) : (c.setTile n x).task = c.task := rfl
@[simp] theorem Core.setTile_staged (c : Core) (n : Nat) (x : Tile) : (c.setTile n x).staged = c.staged := rfl

/-! ### Core.setStream -/
@[simp] theorem Core.setStream_present (c : Core) (n : Nat) (x : Stream) : (c.setStream n x).present = c.present := rfl
@[simp] theorem Core.setStream_strandC (c : Core) (n : Nat) (x : Stream) : (c.setStream n x).strandC = c.strandC := rfl
@[simp] theorem Core.setStream_strandA (c : Core) (n : Nat) (x : Stream) : (c.setStream n x).strandA = c.strandA := rfl
@[simp] theorem Core.setStream_strandM (c : Core) (n : Nat) (x : Stream) : (c.setStream n x).strandM = c.strandM := rfl
@[simp] theorem Core.setStream_strandO (c : Core) (n : Nat) (x : Stream) : (c.setStream n x).strandO = c.strandO := rfl
@[simp] theorem Core.setStream_s (c : Core) (n : Nat) (x : Stream) : (c.setStream n x).s = c.s := rfl
@[simp] theorem Core.setStream_a (c : Core) (n : Nat) (x : Stream) : (c.setStream n x).a = c.a := rfl
@[simp] theorem Core.setStream_m (c : Core) (n : Nat) (x : Stream) : (c.setStream n x).m = c.m := rfl
@[simp] theorem Core.setStream_o (c : Core) (n : Nat) (x : Stream) : (c.setStream n x).o = c.o := rfl
@[simp] theorem Core.setStream_v (c : Core) (n : Nat) (x : Stream) : (c.setStream n x).v = c.v := rfl
@[simp] theorem Core.setStream_p (c : Core) (n : Nat) (x : Stream) : (c.setStream n x).p = c.p := rfl
@[simp] theorem Core.setStream_f (c : Core) (n : Nat) (x : Stream) : (c.setStream n x).f = c.f := rfl
@[simp] theorem Core.setStream_t (c : Core) (n : Nat) (x : Stream) : (c.setStream n x).t = c.t := rfl
@[simp] theorem Core.setStream_d (c : Core) (n : Nat) (x : Stream) : (c.setStream n x).d = c.d := rfl
@[simp] theorem Core.setStream_sbC (c : Core) (n : Nat) (x : Stream) : (c.setStream n x).sbC = c.sbC := rfl
@[simp] theorem Core.setStream_sbA (c : Core) (n : Nat) (x : Stream) : (c.setStream n x).sbA = c.sbA := rfl
@[simp] theorem Core.setStream_fpst (c : Core) (n : Nat) (x : Stream) : (c.setStream n x).fpst = c.fpst := rfl
@[simp] theorem Core.setStream_dbgHz (c : Core) (n : Nat) (x : Stream) : (c.setStream n x).dbgHz = c.dbgHz := rfl
@[simp] theorem Core.setStream_halted (c : Core) (n : Nat) (x : Stream) : (c.setStream n x).halted = c.halted := rfl
@[simp] theorem Core.setStream_outC (c : Core) (n : Nat) (x : Stream) : (c.setStream n x).outC = c.outC := rfl
@[simp] theorem Core.setStream_outA (c : Core) (n : Nat) (x : Stream) : (c.setStream n x).outA = c.outA := rfl
@[simp] theorem Core.setStream_nextId (c : Core) (n : Nat) (x : Stream) : (c.setStream n x).nextId = c.nextId := rfl
@[simp] theorem Core.setStream_tq (c : Core) (n : Nat) (x : Stream) : (c.setStream n x).tq = c.tq := rfl
@[simp] theorem Core.setStream_ch (c : Core) (n : Nat) (x : Stream) : (c.setStream n x).ch = c.ch := rfl
@[simp] theorem Core.setStream_sq (c : Core) (n : Nat) (x : Stream) : (c.setStream n x).sq = c.sq := rfl
@[simp] theorem Core.setStream_bq (c : Core) (n : Nat) (x : Stream) : (c.setStream n x).bq = c.bq := rfl
@[simp] theorem Core.setStream_mq (c : Core) (n : Nat) (x : Stream) : (c.setStream n x).mq = c.mq := rfl
@[simp] theorem Core.setStream_oq (c : Core) (n : Nat) (x : Stream) : (c.setStream n x).oq = c.oq := rfl
@[simp] theorem Core.setStream_items (c : Core) (n : Nat) (x : Stream) : (c.setStream n x).items = c.items := rfl
@[simp] theorem Core.setStream_unitHalt (c : Core) (n : Nat) (x : Stream) : (c.setStream n x).unitHalt = c.unitHalt := rfl
@[simp] theorem Core.setStream_task (c : Core) (n : Nat) (x : Stream) : (c.setStream n x).task = c.task := rfl
@[simp] theorem Core.setStream_staged (c : Core) (n : Nat) (x : Stream) : (c.setStream n x).staged = c.staged := rfl

/-! ### Core.setSlot -/
@[simp] theorem Core.setSlot_present (c : Core) (n : Nat) (x : Slot) : (c.setSlot n x).present = c.present := rfl
@[simp] theorem Core.setSlot_strandC (c : Core) (n : Nat) (x : Slot) : (c.setSlot n x).strandC = c.strandC := rfl
@[simp] theorem Core.setSlot_strandA (c : Core) (n : Nat) (x : Slot) : (c.setSlot n x).strandA = c.strandA := rfl
@[simp] theorem Core.setSlot_strandM (c : Core) (n : Nat) (x : Slot) : (c.setSlot n x).strandM = c.strandM := rfl
@[simp] theorem Core.setSlot_strandO (c : Core) (n : Nat) (x : Slot) : (c.setSlot n x).strandO = c.strandO := rfl
@[simp] theorem Core.setSlot_s (c : Core) (n : Nat) (x : Slot) : (c.setSlot n x).s = c.s := rfl
@[simp] theorem Core.setSlot_a (c : Core) (n : Nat) (x : Slot) : (c.setSlot n x).a = c.a := rfl
@[simp] theorem Core.setSlot_m (c : Core) (n : Nat) (x : Slot) : (c.setSlot n x).m = c.m := rfl
@[simp] theorem Core.setSlot_o (c : Core) (n : Nat) (x : Slot) : (c.setSlot n x).o = c.o := rfl
@[simp] theorem Core.setSlot_v (c : Core) (n : Nat) (x : Slot) : (c.setSlot n x).v = c.v := rfl
@[simp] theorem Core.setSlot_p (c : Core) (n : Nat) (x : Slot) : (c.setSlot n x).p = c.p := rfl
@[simp] theorem Core.setSlot_f (c : Core) (n : Nat) (x : Slot) : (c.setSlot n x).f = c.f := rfl
@[simp] theorem Core.setSlot_t (c : Core) (n : Nat) (x : Slot) : (c.setSlot n x).t = c.t := rfl
@[simp] theorem Core.setSlot_q (c : Core) (n : Nat) (x : Slot) : (c.setSlot n x).q = c.q := rfl
@[simp] theorem Core.setSlot_sbC (c : Core) (n : Nat) (x : Slot) : (c.setSlot n x).sbC = c.sbC := rfl
@[simp] theorem Core.setSlot_sbA (c : Core) (n : Nat) (x : Slot) : (c.setSlot n x).sbA = c.sbA := rfl
@[simp] theorem Core.setSlot_fpst (c : Core) (n : Nat) (x : Slot) : (c.setSlot n x).fpst = c.fpst := rfl
@[simp] theorem Core.setSlot_dbgHz (c : Core) (n : Nat) (x : Slot) : (c.setSlot n x).dbgHz = c.dbgHz := rfl
@[simp] theorem Core.setSlot_halted (c : Core) (n : Nat) (x : Slot) : (c.setSlot n x).halted = c.halted := rfl
@[simp] theorem Core.setSlot_outC (c : Core) (n : Nat) (x : Slot) : (c.setSlot n x).outC = c.outC := rfl
@[simp] theorem Core.setSlot_outA (c : Core) (n : Nat) (x : Slot) : (c.setSlot n x).outA = c.outA := rfl
@[simp] theorem Core.setSlot_nextId (c : Core) (n : Nat) (x : Slot) : (c.setSlot n x).nextId = c.nextId := rfl
@[simp] theorem Core.setSlot_tq (c : Core) (n : Nat) (x : Slot) : (c.setSlot n x).tq = c.tq := rfl
@[simp] theorem Core.setSlot_ch (c : Core) (n : Nat) (x : Slot) : (c.setSlot n x).ch = c.ch := rfl
@[simp] theorem Core.setSlot_sq (c : Core) (n : Nat) (x : Slot) : (c.setSlot n x).sq = c.sq := rfl
@[simp] theorem Core.setSlot_bq (c : Core) (n : Nat) (x : Slot) : (c.setSlot n x).bq = c.bq := rfl
@[simp] theorem Core.setSlot_mq (c : Core) (n : Nat) (x : Slot) : (c.setSlot n x).mq = c.mq := rfl
@[simp] theorem Core.setSlot_oq (c : Core) (n : Nat) (x : Slot) : (c.setSlot n x).oq = c.oq := rfl
@[simp] theorem Core.setSlot_items (c : Core) (n : Nat) (x : Slot) : (c.setSlot n x).items = c.items := rfl
@[simp] theorem Core.setSlot_unitHalt (c : Core) (n : Nat) (x : Slot) : (c.setSlot n x).unitHalt = c.unitHalt := rfl
@[simp] theorem Core.setSlot_task (c : Core) (n : Nat) (x : Slot) : (c.setSlot n x).task = c.task := rfl
@[simp] theorem Core.setSlot_staged (c : Core) (n : Nat) (x : Slot) : (c.setSlot n x).staged = c.staged := rfl

/-! ### Core.setChannel -/
@[simp] theorem Core.setChannel_present (c : Core) (n : Nat) (x : Channel) : (c.setChannel n x).present = c.present := rfl
@[simp] theorem Core.setChannel_strandC (c : Core) (n : Nat) (x : Channel) : (c.setChannel n x).strandC = c.strandC := rfl
@[simp] theorem Core.setChannel_strandA (c : Core) (n : Nat) (x : Channel) : (c.setChannel n x).strandA = c.strandA := rfl
@[simp] theorem Core.setChannel_strandM (c : Core) (n : Nat) (x : Channel) : (c.setChannel n x).strandM = c.strandM := rfl
@[simp] theorem Core.setChannel_strandO (c : Core) (n : Nat) (x : Channel) : (c.setChannel n x).strandO = c.strandO := rfl
@[simp] theorem Core.setChannel_s (c : Core) (n : Nat) (x : Channel) : (c.setChannel n x).s = c.s := rfl
@[simp] theorem Core.setChannel_a (c : Core) (n : Nat) (x : Channel) : (c.setChannel n x).a = c.a := rfl
@[simp] theorem Core.setChannel_m (c : Core) (n : Nat) (x : Channel) : (c.setChannel n x).m = c.m := rfl
@[simp] theorem Core.setChannel_o (c : Core) (n : Nat) (x : Channel) : (c.setChannel n x).o = c.o := rfl
@[simp] theorem Core.setChannel_v (c : Core) (n : Nat) (x : Channel) : (c.setChannel n x).v = c.v := rfl
@[simp] theorem Core.setChannel_p (c : Core) (n : Nat) (x : Channel) : (c.setChannel n x).p = c.p := rfl
@[simp] theorem Core.setChannel_f (c : Core) (n : Nat) (x : Channel) : (c.setChannel n x).f = c.f := rfl
@[simp] theorem Core.setChannel_t (c : Core) (n : Nat) (x : Channel) : (c.setChannel n x).t = c.t := rfl
@[simp] theorem Core.setChannel_q (c : Core) (n : Nat) (x : Channel) : (c.setChannel n x).q = c.q := rfl
@[simp] theorem Core.setChannel_d (c : Core) (n : Nat) (x : Channel) : (c.setChannel n x).d = c.d := rfl
@[simp] theorem Core.setChannel_sbC (c : Core) (n : Nat) (x : Channel) : (c.setChannel n x).sbC = c.sbC := rfl
@[simp] theorem Core.setChannel_sbA (c : Core) (n : Nat) (x : Channel) : (c.setChannel n x).sbA = c.sbA := rfl
@[simp] theorem Core.setChannel_fpst (c : Core) (n : Nat) (x : Channel) : (c.setChannel n x).fpst = c.fpst := rfl
@[simp] theorem Core.setChannel_dbgHz (c : Core) (n : Nat) (x : Channel) : (c.setChannel n x).dbgHz = c.dbgHz := rfl
@[simp] theorem Core.setChannel_halted (c : Core) (n : Nat) (x : Channel) : (c.setChannel n x).halted = c.halted := rfl
@[simp] theorem Core.setChannel_outC (c : Core) (n : Nat) (x : Channel) : (c.setChannel n x).outC = c.outC := rfl
@[simp] theorem Core.setChannel_outA (c : Core) (n : Nat) (x : Channel) : (c.setChannel n x).outA = c.outA := rfl
@[simp] theorem Core.setChannel_nextId (c : Core) (n : Nat) (x : Channel) : (c.setChannel n x).nextId = c.nextId := rfl
@[simp] theorem Core.setChannel_tq (c : Core) (n : Nat) (x : Channel) : (c.setChannel n x).tq = c.tq := rfl
@[simp] theorem Core.setChannel_sq (c : Core) (n : Nat) (x : Channel) : (c.setChannel n x).sq = c.sq := rfl
@[simp] theorem Core.setChannel_bq (c : Core) (n : Nat) (x : Channel) : (c.setChannel n x).bq = c.bq := rfl
@[simp] theorem Core.setChannel_mq (c : Core) (n : Nat) (x : Channel) : (c.setChannel n x).mq = c.mq := rfl
@[simp] theorem Core.setChannel_oq (c : Core) (n : Nat) (x : Channel) : (c.setChannel n x).oq = c.oq := rfl
@[simp] theorem Core.setChannel_items (c : Core) (n : Nat) (x : Channel) : (c.setChannel n x).items = c.items := rfl
@[simp] theorem Core.setChannel_unitHalt (c : Core) (n : Nat) (x : Channel) : (c.setChannel n x).unitHalt = c.unitHalt := rfl
@[simp] theorem Core.setChannel_task (c : Core) (n : Nat) (x : Channel) : (c.setChannel n x).task = c.task := rfl
@[simp] theorem Core.setChannel_staged (c : Core) (n : Nat) (x : Channel) : (c.setChannel n x).staged = c.staged := rfl

/-! ### Core.accrue -/
@[simp] theorem Core.accrue_present (c : Core) (x : Flags) : (c.accrue x).present = c.present := rfl
@[simp] theorem Core.accrue_strandC (c : Core) (x : Flags) : (c.accrue x).strandC = c.strandC := rfl
@[simp] theorem Core.accrue_strandA (c : Core) (x : Flags) : (c.accrue x).strandA = c.strandA := rfl
@[simp] theorem Core.accrue_strandM (c : Core) (x : Flags) : (c.accrue x).strandM = c.strandM := rfl
@[simp] theorem Core.accrue_strandO (c : Core) (x : Flags) : (c.accrue x).strandO = c.strandO := rfl
@[simp] theorem Core.accrue_s (c : Core) (x : Flags) : (c.accrue x).s = c.s := rfl
@[simp] theorem Core.accrue_a (c : Core) (x : Flags) : (c.accrue x).a = c.a := rfl
@[simp] theorem Core.accrue_m (c : Core) (x : Flags) : (c.accrue x).m = c.m := rfl
@[simp] theorem Core.accrue_o (c : Core) (x : Flags) : (c.accrue x).o = c.o := rfl
@[simp] theorem Core.accrue_v (c : Core) (x : Flags) : (c.accrue x).v = c.v := rfl
@[simp] theorem Core.accrue_p (c : Core) (x : Flags) : (c.accrue x).p = c.p := rfl
@[simp] theorem Core.accrue_f (c : Core) (x : Flags) : (c.accrue x).f = c.f := rfl
@[simp] theorem Core.accrue_t (c : Core) (x : Flags) : (c.accrue x).t = c.t := rfl
@[simp] theorem Core.accrue_q (c : Core) (x : Flags) : (c.accrue x).q = c.q := rfl
@[simp] theorem Core.accrue_d (c : Core) (x : Flags) : (c.accrue x).d = c.d := rfl
@[simp] theorem Core.accrue_sbC (c : Core) (x : Flags) : (c.accrue x).sbC = c.sbC := rfl
@[simp] theorem Core.accrue_sbA (c : Core) (x : Flags) : (c.accrue x).sbA = c.sbA := rfl
@[simp] theorem Core.accrue_dbgHz (c : Core) (x : Flags) : (c.accrue x).dbgHz = c.dbgHz := rfl
@[simp] theorem Core.accrue_halted (c : Core) (x : Flags) : (c.accrue x).halted = c.halted := rfl
@[simp] theorem Core.accrue_outC (c : Core) (x : Flags) : (c.accrue x).outC = c.outC := rfl
@[simp] theorem Core.accrue_outA (c : Core) (x : Flags) : (c.accrue x).outA = c.outA := rfl
@[simp] theorem Core.accrue_nextId (c : Core) (x : Flags) : (c.accrue x).nextId = c.nextId := rfl
@[simp] theorem Core.accrue_tq (c : Core) (x : Flags) : (c.accrue x).tq = c.tq := rfl
@[simp] theorem Core.accrue_ch (c : Core) (x : Flags) : (c.accrue x).ch = c.ch := rfl
@[simp] theorem Core.accrue_sq (c : Core) (x : Flags) : (c.accrue x).sq = c.sq := rfl
@[simp] theorem Core.accrue_bq (c : Core) (x : Flags) : (c.accrue x).bq = c.bq := rfl
@[simp] theorem Core.accrue_mq (c : Core) (x : Flags) : (c.accrue x).mq = c.mq := rfl
@[simp] theorem Core.accrue_oq (c : Core) (x : Flags) : (c.accrue x).oq = c.oq := rfl
@[simp] theorem Core.accrue_items (c : Core) (x : Flags) : (c.accrue x).items = c.items := rfl
@[simp] theorem Core.accrue_unitHalt (c : Core) (x : Flags) : (c.accrue x).unitHalt = c.unitHalt := rfl
@[simp] theorem Core.accrue_task (c : Core) (x : Flags) : (c.accrue x).task = c.task := rfl
@[simp] theorem Core.accrue_staged (c : Core) (x : Flags) : (c.accrue x).staged = c.staged := rfl

/-! ### Core.onTask -/
@[simp] theorem Core.onTask_present (c : Core) (f : Task → Task) : (c.onTask f).present = c.present := rfl
@[simp] theorem Core.onTask_strandC (c : Core) (f : Task → Task) : (c.onTask f).strandC = c.strandC := rfl
@[simp] theorem Core.onTask_strandA (c : Core) (f : Task → Task) : (c.onTask f).strandA = c.strandA := rfl
@[simp] theorem Core.onTask_strandM (c : Core) (f : Task → Task) : (c.onTask f).strandM = c.strandM := rfl
@[simp] theorem Core.onTask_strandO (c : Core) (f : Task → Task) : (c.onTask f).strandO = c.strandO := rfl
@[simp] theorem Core.onTask_s (c : Core) (f : Task → Task) : (c.onTask f).s = c.s := rfl
@[simp] theorem Core.onTask_a (c : Core) (f : Task → Task) : (c.onTask f).a = c.a := rfl
@[simp] theorem Core.onTask_m (c : Core) (f : Task → Task) : (c.onTask f).m = c.m := rfl
@[simp] theorem Core.onTask_o (c : Core) (f : Task → Task) : (c.onTask f).o = c.o := rfl
@[simp] theorem Core.onTask_v (c : Core) (f : Task → Task) : (c.onTask f).v = c.v := rfl
@[simp] theorem Core.onTask_p (c : Core) (f : Task → Task) : (c.onTask f).p = c.p := rfl
@[simp] theorem Core.onTask_f (c : Core) (f : Task → Task) : (c.onTask f).f = c.f := rfl
@[simp] theorem Core.onTask_t (c : Core) (f : Task → Task) : (c.onTask f).t = c.t := rfl
@[simp] theorem Core.onTask_q (c : Core) (f : Task → Task) : (c.onTask f).q = c.q := rfl
@[simp] theorem Core.onTask_d (c : Core) (f : Task → Task) : (c.onTask f).d = c.d := rfl
@[simp] theorem Core.onTask_sbC (c : Core) (f : Task → Task) : (c.onTask f).sbC = c.sbC := rfl
@[simp] theorem Core.onTask_sbA (c : Core) (f : Task → Task) : (c.onTask f).sbA = c.sbA := rfl
@[simp] theorem Core.onTask_fpst (c : Core) (f : Task → Task) : (c.onTask f).fpst = c.fpst := rfl
@[simp] theorem Core.onTask_dbgHz (c : Core) (f : Task → Task) : (c.onTask f).dbgHz = c.dbgHz := rfl
@[simp] theorem Core.onTask_halted (c : Core) (f : Task → Task) : (c.onTask f).halted = c.halted := rfl
@[simp] theorem Core.onTask_outC (c : Core) (f : Task → Task) : (c.onTask f).outC = c.outC := rfl
@[simp] theorem Core.onTask_outA (c : Core) (f : Task → Task) : (c.onTask f).outA = c.outA := rfl
@[simp] theorem Core.onTask_nextId (c : Core) (f : Task → Task) : (c.onTask f).nextId = c.nextId := rfl
@[simp] theorem Core.onTask_tq (c : Core) (f : Task → Task) : (c.onTask f).tq = c.tq := rfl
@[simp] theorem Core.onTask_ch (c : Core) (f : Task → Task) : (c.onTask f).ch = c.ch := rfl
@[simp] theorem Core.onTask_sq (c : Core) (f : Task → Task) : (c.onTask f).sq = c.sq := rfl
@[simp] theorem Core.onTask_bq (c : Core) (f : Task → Task) : (c.onTask f).bq = c.bq := rfl
@[simp] theorem Core.onTask_mq (c : Core) (f : Task → Task) : (c.onTask f).mq = c.mq := rfl
@[simp] theorem Core.onTask_oq (c : Core) (f : Task → Task) : (c.onTask f).oq = c.oq := rfl
@[simp] theorem Core.onTask_items (c : Core) (f : Task → Task) : (c.onTask f).items = c.items := rfl
@[simp] theorem Core.onTask_unitHalt (c : Core) (f : Task → Task) : (c.onTask f).unitHalt = c.unitHalt := rfl
@[simp] theorem Core.onTask_staged (c : Core) (f : Task → Task) : (c.onTask f).staged = c.staged := rfl

/-! ### Core.setStrand -/
@[simp] theorem Core.setStrand_present (c : Core) (k : StrandKind) (x : Strand) : (c.setStrand k x).present = c.present := by cases k <;> rfl
@[simp] theorem Core.setStrand_s (c : Core) (k : StrandKind) (x : Strand) : (c.setStrand k x).s = c.s := by cases k <;> rfl
@[simp] theorem Core.setStrand_a (c : Core) (k : StrandKind) (x : Strand) : (c.setStrand k x).a = c.a := by cases k <;> rfl
@[simp] theorem Core.setStrand_m (c : Core) (k : StrandKind) (x : Strand) : (c.setStrand k x).m = c.m := by cases k <;> rfl
@[simp] theorem Core.setStrand_o (c : Core) (k : StrandKind) (x : Strand) : (c.setStrand k x).o = c.o := by cases k <;> rfl
@[simp] theorem Core.setStrand_v (c : Core) (k : StrandKind) (x : Strand) : (c.setStrand k x).v = c.v := by cases k <;> rfl
@[simp] theorem Core.setStrand_p (c : Core) (k : StrandKind) (x : Strand) : (c.setStrand k x).p = c.p := by cases k <;> rfl
@[simp] theorem Core.setStrand_f (c : Core) (k : StrandKind) (x : Strand) : (c.setStrand k x).f = c.f := by cases k <;> rfl
@[simp] theorem Core.setStrand_t (c : Core) (k : StrandKind) (x : Strand) : (c.setStrand k x).t = c.t := by cases k <;> rfl
@[simp] theorem Core.setStrand_q (c : Core) (k : StrandKind) (x : Strand) : (c.setStrand k x).q = c.q := by cases k <;> rfl
@[simp] theorem Core.setStrand_d (c : Core) (k : StrandKind) (x : Strand) : (c.setStrand k x).d = c.d := by cases k <;> rfl
@[simp] theorem Core.setStrand_sbC (c : Core) (k : StrandKind) (x : Strand) : (c.setStrand k x).sbC = c.sbC := by cases k <;> rfl
@[simp] theorem Core.setStrand_sbA (c : Core) (k : StrandKind) (x : Strand) : (c.setStrand k x).sbA = c.sbA := by cases k <;> rfl
@[simp] theorem Core.setStrand_fpst (c : Core) (k : StrandKind) (x : Strand) : (c.setStrand k x).fpst = c.fpst := by cases k <;> rfl
@[simp] theorem Core.setStrand_dbgHz (c : Core) (k : StrandKind) (x : Strand) : (c.setStrand k x).dbgHz = c.dbgHz := by cases k <;> rfl
@[simp] theorem Core.setStrand_halted (c : Core) (k : StrandKind) (x : Strand) : (c.setStrand k x).halted = c.halted := by cases k <;> rfl
@[simp] theorem Core.setStrand_outC (c : Core) (k : StrandKind) (x : Strand) : (c.setStrand k x).outC = c.outC := by cases k <;> rfl
@[simp] theorem Core.setStrand_outA (c : Core) (k : StrandKind) (x : Strand) : (c.setStrand k x).outA = c.outA := by cases k <;> rfl
@[simp] theorem Core.setStrand_nextId (c : Core) (k : StrandKind) (x : Strand) : (c.setStrand k x).nextId = c.nextId := by cases k <;> rfl
@[simp] theorem Core.setStrand_tq (c : Core) (k : StrandKind) (x : Strand) : (c.setStrand k x).tq = c.tq := by cases k <;> rfl
@[simp] theorem Core.setStrand_ch (c : Core) (k : StrandKind) (x : Strand) : (c.setStrand k x).ch = c.ch := by cases k <;> rfl
@[simp] theorem Core.setStrand_sq (c : Core) (k : StrandKind) (x : Strand) : (c.setStrand k x).sq = c.sq := by cases k <;> rfl
@[simp] theorem Core.setStrand_bq (c : Core) (k : StrandKind) (x : Strand) : (c.setStrand k x).bq = c.bq := by cases k <;> rfl
@[simp] theorem Core.setStrand_mq (c : Core) (k : StrandKind) (x : Strand) : (c.setStrand k x).mq = c.mq := by cases k <;> rfl
@[simp] theorem Core.setStrand_oq (c : Core) (k : StrandKind) (x : Strand) : (c.setStrand k x).oq = c.oq := by cases k <;> rfl
@[simp] theorem Core.setStrand_items (c : Core) (k : StrandKind) (x : Strand) : (c.setStrand k x).items = c.items := by cases k <;> rfl
@[simp] theorem Core.setStrand_unitHalt (c : Core) (k : StrandKind) (x : Strand) : (c.setStrand k x).unitHalt = c.unitHalt := by cases k <;> rfl
@[simp] theorem Core.setStrand_task (c : Core) (k : StrandKind) (x : Strand) : (c.setStrand k x).task = c.task := by cases k <;> rfl
@[simp] theorem Core.setStrand_staged (c : Core) (k : StrandKind) (x : Strand) : (c.setStrand k x).staged = c.staged := by cases k <;> rfl

/-! ### Core.onStrand -/
@[simp] theorem Core.onStrand_present (c : Core) (k : StrandKind) (f : Strand → Strand) : (c.onStrand k f).present = c.present := by cases k <;> rfl
@[simp] theorem Core.onStrand_s (c : Core) (k : StrandKind) (f : Strand → Strand) : (c.onStrand k f).s = c.s := by cases k <;> rfl
@[simp] theorem Core.onStrand_a (c : Core) (k : StrandKind) (f : Strand → Strand) : (c.onStrand k f).a = c.a := by cases k <;> rfl
@[simp] theorem Core.onStrand_m (c : Core) (k : StrandKind) (f : Strand → Strand) : (c.onStrand k f).m = c.m := by cases k <;> rfl
@[simp] theorem Core.onStrand_o (c : Core) (k : StrandKind) (f : Strand → Strand) : (c.onStrand k f).o = c.o := by cases k <;> rfl
@[simp] theorem Core.onStrand_v (c : Core) (k : StrandKind) (f : Strand → Strand) : (c.onStrand k f).v = c.v := by cases k <;> rfl
@[simp] theorem Core.onStrand_p (c : Core) (k : StrandKind) (f : Strand → Strand) : (c.onStrand k f).p = c.p := by cases k <;> rfl
@[simp] theorem Core.onStrand_f (c : Core) (k : StrandKind) (f : Strand → Strand) : (c.onStrand k f).f = c.f := by cases k <;> rfl
@[simp] theorem Core.onStrand_t (c : Core) (k : StrandKind) (f : Strand → Strand) : (c.onStrand k f).t = c.t := by cases k <;> rfl
@[simp] theorem Core.onStrand_q (c : Core) (k : StrandKind) (f : Strand → Strand) : (c.onStrand k f).q = c.q := by cases k <;> rfl
@[simp] theorem Core.onStrand_d (c : Core) (k : StrandKind) (f : Strand → Strand) : (c.onStrand k f).d = c.d := by cases k <;> rfl
@[simp] theorem Core.onStrand_sbC (c : Core) (k : StrandKind) (f : Strand → Strand) : (c.onStrand k f).sbC = c.sbC := by cases k <;> rfl
@[simp] theorem Core.onStrand_sbA (c : Core) (k : StrandKind) (f : Strand → Strand) : (c.onStrand k f).sbA = c.sbA := by cases k <;> rfl
@[simp] theorem Core.onStrand_fpst (c : Core) (k : StrandKind) (f : Strand → Strand) : (c.onStrand k f).fpst = c.fpst := by cases k <;> rfl
@[simp] theorem Core.onStrand_dbgHz (c : Core) (k : StrandKind) (f : Strand → Strand) : (c.onStrand k f).dbgHz = c.dbgHz := by cases k <;> rfl
@[simp] theorem Core.onStrand_halted (c : Core) (k : StrandKind) (f : Strand → Strand) : (c.onStrand k f).halted = c.halted := by cases k <;> rfl
@[simp] theorem Core.onStrand_outC (c : Core) (k : StrandKind) (f : Strand → Strand) : (c.onStrand k f).outC = c.outC := by cases k <;> rfl
@[simp] theorem Core.onStrand_outA (c : Core) (k : StrandKind) (f : Strand → Strand) : (c.onStrand k f).outA = c.outA := by cases k <;> rfl
@[simp] theorem Core.onStrand_nextId (c : Core) (k : StrandKind) (f : Strand → Strand) : (c.onStrand k f).nextId = c.nextId := by cases k <;> rfl
@[simp] theorem Core.onStrand_tq (c : Core) (k : StrandKind) (f : Strand → Strand) : (c.onStrand k f).tq = c.tq := by cases k <;> rfl
@[simp] theorem Core.onStrand_ch (c : Core) (k : StrandKind) (f : Strand → Strand) : (c.onStrand k f).ch = c.ch := by cases k <;> rfl
@[simp] theorem Core.onStrand_sq (c : Core) (k : StrandKind) (f : Strand → Strand) : (c.onStrand k f).sq = c.sq := by cases k <;> rfl
@[simp] theorem Core.onStrand_bq (c : Core) (k : StrandKind) (f : Strand → Strand) : (c.onStrand k f).bq = c.bq := by cases k <;> rfl
@[simp] theorem Core.onStrand_mq (c : Core) (k : StrandKind) (f : Strand → Strand) : (c.onStrand k f).mq = c.mq := by cases k <;> rfl
@[simp] theorem Core.onStrand_oq (c : Core) (k : StrandKind) (f : Strand → Strand) : (c.onStrand k f).oq = c.oq := by cases k <;> rfl
@[simp] theorem Core.onStrand_items (c : Core) (k : StrandKind) (f : Strand → Strand) : (c.onStrand k f).items = c.items := by cases k <;> rfl
@[simp] theorem Core.onStrand_unitHalt (c : Core) (k : StrandKind) (f : Strand → Strand) : (c.onStrand k f).unitHalt = c.unitHalt := by cases k <;> rfl
@[simp] theorem Core.onStrand_task (c : Core) (k : StrandKind) (f : Strand → Strand) : (c.onStrand k f).task = c.task := by cases k <;> rfl
@[simp] theorem Core.onStrand_staged (c : Core) (k : StrandKind) (f : Strand → Strand) : (c.onStrand k f).staged = c.staged := by cases k <;> rfl

/-! ### Core.setOut -/
@[simp] theorem Core.setOut_present (c : Core) (k : StrandKind) (l : List Access) : (c.setOut k l).present = c.present := by cases k <;> rfl
@[simp] theorem Core.setOut_strandC (c : Core) (k : StrandKind) (l : List Access) : (c.setOut k l).strandC = c.strandC := by cases k <;> rfl
@[simp] theorem Core.setOut_strandA (c : Core) (k : StrandKind) (l : List Access) : (c.setOut k l).strandA = c.strandA := by cases k <;> rfl
@[simp] theorem Core.setOut_strandM (c : Core) (k : StrandKind) (l : List Access) : (c.setOut k l).strandM = c.strandM := by cases k <;> rfl
@[simp] theorem Core.setOut_strandO (c : Core) (k : StrandKind) (l : List Access) : (c.setOut k l).strandO = c.strandO := by cases k <;> rfl
@[simp] theorem Core.setOut_s (c : Core) (k : StrandKind) (l : List Access) : (c.setOut k l).s = c.s := by cases k <;> rfl
@[simp] theorem Core.setOut_a (c : Core) (k : StrandKind) (l : List Access) : (c.setOut k l).a = c.a := by cases k <;> rfl
@[simp] theorem Core.setOut_m (c : Core) (k : StrandKind) (l : List Access) : (c.setOut k l).m = c.m := by cases k <;> rfl
@[simp] theorem Core.setOut_o (c : Core) (k : StrandKind) (l : List Access) : (c.setOut k l).o = c.o := by cases k <;> rfl
@[simp] theorem Core.setOut_v (c : Core) (k : StrandKind) (l : List Access) : (c.setOut k l).v = c.v := by cases k <;> rfl
@[simp] theorem Core.setOut_p (c : Core) (k : StrandKind) (l : List Access) : (c.setOut k l).p = c.p := by cases k <;> rfl
@[simp] theorem Core.setOut_f (c : Core) (k : StrandKind) (l : List Access) : (c.setOut k l).f = c.f := by cases k <;> rfl
@[simp] theorem Core.setOut_t (c : Core) (k : StrandKind) (l : List Access) : (c.setOut k l).t = c.t := by cases k <;> rfl
@[simp] theorem Core.setOut_q (c : Core) (k : StrandKind) (l : List Access) : (c.setOut k l).q = c.q := by cases k <;> rfl
@[simp] theorem Core.setOut_d (c : Core) (k : StrandKind) (l : List Access) : (c.setOut k l).d = c.d := by cases k <;> rfl
@[simp] theorem Core.setOut_sbC (c : Core) (k : StrandKind) (l : List Access) : (c.setOut k l).sbC = c.sbC := by cases k <;> rfl
@[simp] theorem Core.setOut_sbA (c : Core) (k : StrandKind) (l : List Access) : (c.setOut k l).sbA = c.sbA := by cases k <;> rfl
@[simp] theorem Core.setOut_fpst (c : Core) (k : StrandKind) (l : List Access) : (c.setOut k l).fpst = c.fpst := by cases k <;> rfl
@[simp] theorem Core.setOut_dbgHz (c : Core) (k : StrandKind) (l : List Access) : (c.setOut k l).dbgHz = c.dbgHz := by cases k <;> rfl
@[simp] theorem Core.setOut_halted (c : Core) (k : StrandKind) (l : List Access) : (c.setOut k l).halted = c.halted := by cases k <;> rfl
@[simp] theorem Core.setOut_nextId (c : Core) (k : StrandKind) (l : List Access) : (c.setOut k l).nextId = c.nextId := by cases k <;> rfl
@[simp] theorem Core.setOut_tq (c : Core) (k : StrandKind) (l : List Access) : (c.setOut k l).tq = c.tq := by cases k <;> rfl
@[simp] theorem Core.setOut_ch (c : Core) (k : StrandKind) (l : List Access) : (c.setOut k l).ch = c.ch := by cases k <;> rfl
@[simp] theorem Core.setOut_sq (c : Core) (k : StrandKind) (l : List Access) : (c.setOut k l).sq = c.sq := by cases k <;> rfl
@[simp] theorem Core.setOut_bq (c : Core) (k : StrandKind) (l : List Access) : (c.setOut k l).bq = c.bq := by cases k <;> rfl
@[simp] theorem Core.setOut_mq (c : Core) (k : StrandKind) (l : List Access) : (c.setOut k l).mq = c.mq := by cases k <;> rfl
@[simp] theorem Core.setOut_oq (c : Core) (k : StrandKind) (l : List Access) : (c.setOut k l).oq = c.oq := by cases k <;> rfl
@[simp] theorem Core.setOut_items (c : Core) (k : StrandKind) (l : List Access) : (c.setOut k l).items = c.items := by cases k <;> rfl
@[simp] theorem Core.setOut_unitHalt (c : Core) (k : StrandKind) (l : List Access) : (c.setOut k l).unitHalt = c.unitHalt := by cases k <;> rfl
@[simp] theorem Core.setOut_task (c : Core) (k : StrandKind) (l : List Access) : (c.setOut k l).task = c.task := by cases k <;> rfl
@[simp] theorem Core.setOut_staged (c : Core) (k : StrandKind) (l : List Access) : (c.setOut k l).staged = c.staged := by cases k <;> rfl

/-! ### Core.setSb -/
@[simp] theorem Core.setSb_present (c : Core) (k : StrandKind) (x : BitVec 7) : (c.setSb k x).present = c.present := by cases k <;> rfl
@[simp] theorem Core.setSb_strandC (c : Core) (k : StrandKind) (x : BitVec 7) : (c.setSb k x).strandC = c.strandC := by cases k <;> rfl
@[simp] theorem Core.setSb_strandA (c : Core) (k : StrandKind) (x : BitVec 7) : (c.setSb k x).strandA = c.strandA := by cases k <;> rfl
@[simp] theorem Core.setSb_strandM (c : Core) (k : StrandKind) (x : BitVec 7) : (c.setSb k x).strandM = c.strandM := by cases k <;> rfl
@[simp] theorem Core.setSb_strandO (c : Core) (k : StrandKind) (x : BitVec 7) : (c.setSb k x).strandO = c.strandO := by cases k <;> rfl
@[simp] theorem Core.setSb_s (c : Core) (k : StrandKind) (x : BitVec 7) : (c.setSb k x).s = c.s := by cases k <;> rfl
@[simp] theorem Core.setSb_a (c : Core) (k : StrandKind) (x : BitVec 7) : (c.setSb k x).a = c.a := by cases k <;> rfl
@[simp] theorem Core.setSb_m (c : Core) (k : StrandKind) (x : BitVec 7) : (c.setSb k x).m = c.m := by cases k <;> rfl
@[simp] theorem Core.setSb_o (c : Core) (k : StrandKind) (x : BitVec 7) : (c.setSb k x).o = c.o := by cases k <;> rfl
@[simp] theorem Core.setSb_v (c : Core) (k : StrandKind) (x : BitVec 7) : (c.setSb k x).v = c.v := by cases k <;> rfl
@[simp] theorem Core.setSb_p (c : Core) (k : StrandKind) (x : BitVec 7) : (c.setSb k x).p = c.p := by cases k <;> rfl
@[simp] theorem Core.setSb_f (c : Core) (k : StrandKind) (x : BitVec 7) : (c.setSb k x).f = c.f := by cases k <;> rfl
@[simp] theorem Core.setSb_t (c : Core) (k : StrandKind) (x : BitVec 7) : (c.setSb k x).t = c.t := by cases k <;> rfl
@[simp] theorem Core.setSb_q (c : Core) (k : StrandKind) (x : BitVec 7) : (c.setSb k x).q = c.q := by cases k <;> rfl
@[simp] theorem Core.setSb_d (c : Core) (k : StrandKind) (x : BitVec 7) : (c.setSb k x).d = c.d := by cases k <;> rfl
@[simp] theorem Core.setSb_fpst (c : Core) (k : StrandKind) (x : BitVec 7) : (c.setSb k x).fpst = c.fpst := by cases k <;> rfl
@[simp] theorem Core.setSb_dbgHz (c : Core) (k : StrandKind) (x : BitVec 7) : (c.setSb k x).dbgHz = c.dbgHz := by cases k <;> rfl
@[simp] theorem Core.setSb_halted (c : Core) (k : StrandKind) (x : BitVec 7) : (c.setSb k x).halted = c.halted := by cases k <;> rfl
@[simp] theorem Core.setSb_outC (c : Core) (k : StrandKind) (x : BitVec 7) : (c.setSb k x).outC = c.outC := by cases k <;> rfl
@[simp] theorem Core.setSb_outA (c : Core) (k : StrandKind) (x : BitVec 7) : (c.setSb k x).outA = c.outA := by cases k <;> rfl
@[simp] theorem Core.setSb_nextId (c : Core) (k : StrandKind) (x : BitVec 7) : (c.setSb k x).nextId = c.nextId := by cases k <;> rfl
@[simp] theorem Core.setSb_tq (c : Core) (k : StrandKind) (x : BitVec 7) : (c.setSb k x).tq = c.tq := by cases k <;> rfl
@[simp] theorem Core.setSb_ch (c : Core) (k : StrandKind) (x : BitVec 7) : (c.setSb k x).ch = c.ch := by cases k <;> rfl
@[simp] theorem Core.setSb_sq (c : Core) (k : StrandKind) (x : BitVec 7) : (c.setSb k x).sq = c.sq := by cases k <;> rfl
@[simp] theorem Core.setSb_bq (c : Core) (k : StrandKind) (x : BitVec 7) : (c.setSb k x).bq = c.bq := by cases k <;> rfl
@[simp] theorem Core.setSb_mq (c : Core) (k : StrandKind) (x : BitVec 7) : (c.setSb k x).mq = c.mq := by cases k <;> rfl
@[simp] theorem Core.setSb_oq (c : Core) (k : StrandKind) (x : BitVec 7) : (c.setSb k x).oq = c.oq := by cases k <;> rfl
@[simp] theorem Core.setSb_items (c : Core) (k : StrandKind) (x : BitVec 7) : (c.setSb k x).items = c.items := by cases k <;> rfl
@[simp] theorem Core.setSb_unitHalt (c : Core) (k : StrandKind) (x : BitVec 7) : (c.setSb k x).unitHalt = c.unitHalt := by cases k <;> rfl
@[simp] theorem Core.setSb_task (c : Core) (k : StrandKind) (x : BitVec 7) : (c.setSb k x).task = c.task := by cases k <;> rfl
@[simp] theorem Core.setSb_staged (c : Core) (k : StrandKind) (x : BitVec 7) : (c.setSb k x).staged = c.staged := by cases k <;> rfl

end Sys2Proof.Machine
end

