-- ==== Sys2Proof/Laws/Issue.lean ====
section
/-! SUPPORT. Laws of issue: what it answers, what it does when the strand is ready, and how core updates combine. -/

namespace Sys2Proof.Machine

/-- A core reads back as it was put. -/
@[simp] theorem core_setCore (s : State) (g h : Nat) (c : Core) : (s.setCore g c).core h = if h = g then c else s.core h := by
  simp [State.core, State.setCore]
/-- A changed core reads as the change gives it, every other as before. -/
@[simp] theorem core_onCore (s : State) (g h : Nat) (f : Core → Core) : (s.onCore g f).core h = if h = g then f (s.core g) else s.core h := by
  simp [State.onCore]
/-- The issuing core after a change of it. -/
@[simp] theorem me_onMe (s : State) (f : Core → Core) : (s.onMe f).me = f s.me := by
  simp [State.me, State.onMe]

/-- Issue always answers a next state. -/
theorem issue_next (f : Form) (body : State → Did) (s : State) : ∃ t, issue f body s = .next t := ⟨_, rfl⟩

/-- Issue of an instruction that is ready settles what its body did. -/
theorem issue_ready {f : Form} {s : State} (h : ready f s = true) (body : State → Did) : issue f body s = .next (s.settle f.k (body s)) := by
  simp only [ready, Bool.and_eq_true, Bool.not_eq_true', Bool.or_eq_true] at h
  obtain ⟨⟨⟨⟨⟨⟨⟨h1, h2⟩, h3⟩, h4⟩, hr⟩, h5⟩, h6⟩, h7⟩ := h
  replace hr := Option.isNone_iff_eq_none.mp hr
  have h3' : (f.release && !s.settled f.k 0) = false := by cases h3 <;> simp_all
  have hz : (if s.me.dbgHz then s.me.hazard f.k f.refs else none) = none := by
    rcases h5 with h5 | h5
    · simp [h5]
    · split
      · simpa using h5
      · rfl
  simp only [issue, h1, h2, h3', h4, hr, hz, h6, h7]
  rfl

/-- Issue of a ready instruction that only changes its core. -/
theorem issueCore_ready {f : Form} {s : State} (h : ready f s = true) (body : Core → Core) :
    issueCore f body s = .next (s.stepped f.k body) := issue_ready h _

end Sys2Proof.Machine
end

