-- ==== Sys2Proof/Laws/Memory.lean ====
section
/-! SUPPORT. Laws of memory bytes: a byte written reads back and no other byte changes; every memory operation keeps the
canonical form. -/

namespace Sys2Proof.Machine

/-! ### Reading after writing -/

/-- One byte written: it reads back at every address of the same key, and every other byte reads as before. -/
theorem byte_setByte (s : State) (pa x : Nat) (b : Byte) :
    (s.setByte pa b).byte x = if memKey x = memKey pa then b else s.byte x := by
  simp [State.byte, State.setByte]

/-- Bytes written: an address that none of them has the key of reads as before. -/
theorem byte_setBytes_other (as : List Nat) : ∀ (bs : List Byte) (s : State) (x : Nat), (∀ a ∈ as, memKey x ≠ memKey a) →
    (s.setBytes as bs).byte x = s.byte x := by
  induction as with
  | nil => intro bs s x _; cases bs <;> rfl
  | cons a as ih =>
    intro bs s x h
    cases bs with
    | nil => rfl
    | cons b bs =>
      rw [State.setBytes, ih bs _ x (fun y hy => h y (List.mem_cons_of_mem _ hy)), byte_setByte]
      simp [h a (List.mem_cons_self ..)]

/-- A store changes no byte outside its addresses. -/
theorem byte_store_other (s : State) (as : List Nat) (bs : List Byte) (x : Nat) (h : ∀ a ∈ as, memKey x ≠ memKey a) :
    (s.store as bs).byte x = s.byte x := by
  simpa [State.store, State.byte] using byte_setBytes_other as bs s x h

/-- Bytes stored at addresses of distinct keys read back. -/
theorem load_setBytes (as : List Nat) : ∀ (bs : List Byte) (s : State), as.length = bs.length → (as.map memKey).Nodup →
    (s.setBytes as bs).load as = bs := by
  induction as with
  | nil => intro bs s h _; cases bs <;> simp_all [State.load]
  | cons a as ih =>
    intro bs s h hd
    cases bs with
    | nil => simp at h
    | cons b bs =>
      simp only [List.map_cons, List.nodup_cons, List.mem_map, not_exists, not_and] at hd
      have h1 : ((s.setByte a b).setBytes as bs).byte a = b := by
        rw [byte_setBytes_other as bs _ a (fun y hy he => hd.1 y hy he.symm), byte_setByte]; simp
      have h2 := ih bs (s.setByte a b) (by simpa using h) hd.2
      simp only [State.load] at h2
      simp only [State.load, State.setBytes, List.map_cons, h1, h2]

/-! ### The canonical form -/

theorem memOk_setByte {s : State} (h : s.memOk) (pa : Nat) (b : Byte) : (s.setByte pa b).memOk := wf_put (memKey pa) h

theorem memOk_setBytes (as : List Nat) : ∀ (bs : List Byte) (s : State), s.memOk → (s.setBytes as bs).memOk := by
  induction as with
  | nil => intro bs s h; cases bs <;> exact h
  | cons a as ih =>
    intro bs s h
    cases bs with
    | nil => exact h
    | cons b bs => exact ih bs _ (memOk_setByte h a b)

theorem memOk_store {s : State} (h : s.memOk) (as : List Nat) (bs : List Byte) : (s.store as bs).memOk := memOk_setBytes as bs s h

theorem memOk_storeLE {s : State} (h : s.memOk) (pa n x : Nat) : (s.storeLE pa n x).memOk := memOk_store h _ _

theorem memOk_setAcc {s : State} (h : s.memOk) (g i : Nat) (x : BitVec 32) : (s.setAcc g i x).memOk := memOk_storeLE h _ _ _

/-- Keeping only some cells, as a loss of power does, keeps the form. -/
theorem memOk_filter {s : State} (h : s.memOk) (p : Host.Cell → Bool) : ({ s with mem := s.mem.filter p } : State).memOk :=
  wf_filter p h

/-- A change that leaves memory alone keeps its form. -/
theorem memOk_of_mem {s t : State} (h : s.memOk) (he : t.mem = s.mem) : t.memOk := by
  unfold State.memOk at *; rw [he]; exact h

/-- A fold of a change that keeps the form keeps it. -/
theorem memOk_foldl {β : Type} (f : State → β → State) (hf : ∀ s b, s.memOk → (f s b).memOk) (l : List β) :
    ∀ s : State, s.memOk → (l.foldl f s).memOk := by
  induction l with
  | nil => intro s h; exact h
  | cons b l ih => intro s h; exact ih _ (hf s b h)

end Sys2Proof.Machine
end

