-- ==== Sys2Proof/Tests/Slice0.lean ====
section
/-! SUPPORT. The model's own tests: words written out from the spec's encodings, ill-formed terms, small steps with results
that the spec states, and for every statement with premises a state that meets them. -/

namespace Sys2Proof.Tests
open Sys2Proof Sys2Proof.Machine
set_option Elab.async false

def words_scalar : List (BitVec 64 × Instr) := [
  (0x0003042000000000, .add ⟨3, 1, 2, 0⟩), (0x0043042000000000, .sub ⟨3, 1, 2, 0⟩), (0x0083042000000000, .mul ⟨3, 1, 2, 0⟩),
  (0x00C3042000000000, .mulh ⟨3, 1, 2, 0⟩), (0x0103042000000000, .mulhu ⟨3, 1, 2, 0⟩), (0x0143042000000000, .div ⟨3, 1, 2, 0⟩),
  (0x0183042000000000, .divu ⟨3, 1, 2, 0⟩), (0x01C3042000000000, .rem ⟨3, 1, 2, 0⟩), (0x0203042000000000, .remu ⟨3, 1, 2, 0⟩),
  (0x0243042000000000, .and ⟨3, 1, 2, 0⟩), (0x0283042000000000, .or ⟨3, 1, 2, 0⟩), (0x02C3042000000000, .xor ⟨3, 1, 2, 0⟩),
  (0x0303042000000000, .shl ⟨3, 1, 2, 0⟩), (0x0343042000000000, .shr ⟨3, 1, 2, 0⟩), (0x0383042000000000, .sar ⟨3, 1, 2, 0⟩),
  (0x03C3042000000000, .min ⟨3, 1, 2, 0⟩), (0x0403042000000000, .max ⟨3, 1, 2, 0⟩), (0x0443042000000000, .minu ⟨3, 1, 2, 0⟩),
  (0x0483042000000000, .maxu ⟨3, 1, 2, 0⟩), (0x04C3042000000000, .seq ⟨3, 1, 2, 0⟩), (0x0503042000000000, .sne ⟨3, 1, 2, 0⟩),
  (0x0543042000000000, .slt ⟨3, 1, 2, 0⟩), (0x0583042000000000, .sltu ⟨3, 1, 2, 0⟩), (0x05FF840000000000, .clz ⟨63, 33, 0, 0⟩),
  (0x063F840000000000, .popc ⟨63, 33, 0, 0⟩), (0x0643042000000000, .bfx ⟨3, 1, 2, 0⟩), (0x0683042000000000, .bfi ⟨3, 1, 2, 0⟩),
  (0x06FF840200000000, .sext ⟨63, 33, 0, 2⟩), (0x073F840200000000, .zext ⟨63, 33, 0, 2⟩)]
theorem test_decode_scalar : words_scalar.all (fun e => decode (.c e.1) = some e.2) = true := by decide +kernel

def words_immediate : List (BitVec 64 × Instr) := [
  (0x08010BFFFFFFFC00, .addi ⟨1, 2, 0xFFFFFFFF⟩), (0x08410BFFFFFFFC00, .muli ⟨1, 2, 0xFFFFFFFF⟩),
  (0x08810BFFFFFFFC00, .andi ⟨1, 2, 0xFFFFFFFF⟩), (0x08C10BFFFFFFFC00, .ori ⟨1, 2, 0xFFFFFFFF⟩),
  (0x09010BFFFFFFFC00, .xori ⟨1, 2, 0xFFFFFFFF⟩), (0x094108000000FC00, .shli ⟨1, 2, 63⟩), (0x098108000000FC00, .shri ⟨1, 2, 63⟩),
  (0x09C108000000FC00, .sari ⟨1, 2, 63⟩), (0x0A010A0000000400, .slti ⟨1, 2, 0x80000001⟩),
  (0x0A410A0000000400, .sltui ⟨1, 2, 0x80000001⟩), (0x0A8103FFFFFFF800, .li ⟨1, 0, 0xFFFFFFFE⟩),
  (0x0AC10848D159E000, .lih ⟨1, 2, 0x12345678⟩)]
theorem test_decode_immediate : words_immediate.all (fun e => decode (.c e.1) = some e.2) = true := by decide +kernel

def words_scalar_float : List (BitVec 64 × Instr) := [
  (0x0C03042400000000, .fadds ⟨3, 1, 2, 4⟩), (0x0C43042400000000, .fsubs ⟨3, 1, 2, 4⟩), (0x0C83042400000000, .fmuls ⟨3, 1, 2, 4⟩),
  (0x0CC3042400000000, .fmas ⟨3, 1, 2, 4⟩), (0x0D03042400000000, .fmins ⟨3, 1, 2, 4⟩), (0x0D43042400000000, .fmaxs ⟨3, 1, 2, 4⟩),
  (0x0D83042600000000, .fcmps ⟨3, 1, 2, 6⟩), (0x0DC3040700000000, .fcvtis ⟨3, 1, 0, 7⟩), (0x0E03040700000000, .fcvtsi ⟨3, 1, 0, 7⟩)]
theorem test_decode_scalar_float : words_scalar_float.all (fun e => decode (.c e.1) = some e.2) = true := by decide +kernel

def words_vector_integer : List (BitVec 64 × Instr) := [
  (0x4000100803002070, .vadd ⟨1, 2, 3, 0, 4, 0, 0, 1, 6, 0⟩), (0x4040100803002070, .vsub ⟨1, 2, 3, 0, 4, 0, 0, 1, 6, 0⟩),
  (0x4080100803002070, .vmul ⟨1, 2, 3, 0, 4, 0, 0, 1, 6, 0⟩), (0x40C0100803002031, .vmulh ⟨1, 2, 3, 0, 4, 0, 0, 0, 6, 1⟩),
  (0x4100100803BFE078, .vmad ⟨1, 2, 3, 767, 4, 0, 0, 1, 7, 0⟩), (0x4140100803002031, .vmin ⟨1, 2, 3, 0, 4, 0, 0, 0, 6, 1⟩),
  (0x4180100803002031, .vmax ⟨1, 2, 3, 0, 4, 0, 0, 0, 6, 1⟩), (0x41C0100803002028, .vand ⟨1, 2, 3, 0, 4, 0, 0, 0, 5, 0⟩),
  (0x4200100803002028, .vor ⟨1, 2, 3, 0, 4, 0, 0, 0, 5, 0⟩), (0x4240100803002028, .vxor ⟨1, 2, 3, 0, 4, 0, 0, 0, 5, 0⟩),
  (0x428010083F002468, .vshl ⟨1, 2, 63, 0, 4, 1, 0, 1, 5, 0⟩), (0x42C010083F002428, .vshr ⟨1, 2, 63, 0, 4, 1, 0, 0, 5, 0⟩),
  (0x430010083F002428, .vsar ⟨1, 2, 63, 0, 4, 1, 0, 0, 5, 0⟩), (0x4340100800002068, .vabs ⟨1, 2, 0, 0, 4, 0, 0, 1, 5, 0⟩),
  (0x4380100800002028, .vclz ⟨1, 2, 0, 0, 4, 0, 0, 0, 5, 0⟩), (0x43C0100800002028, .vpopc ⟨1, 2, 0, 0, 4, 0, 0, 0, 5, 0⟩),
  (0x44002007FFFF9828, .vaddi ⟨2, 1, 0xFFFFE, 3, 5, 0⟩), (0x4D00200009001C38, .vidx ⟨2, 0, 9, 0, 3, 1, 0, 0, 7, 0⟩),
  (0x4D402003FFFF5830, .vli ⟨2, 0, 0xFFFFD, 3, 6, 0⟩)]
theorem test_decode_vector_integer : words_vector_integer.all (fun e => decode (.c e.1) = some e.2) = true := by decide +kernel

def words_vector_float : List (BitVec 64 × Instr) := [
  (0x4800301005001088, .vfadd ⟨3, 4, 5, 0, 2, 0, 1, 0, 1, 0⟩), (0x4840301005001088, .vfsub ⟨3, 4, 5, 0, 2, 0, 1, 0, 1, 0⟩),
  (0x4880301005001088, .vfmul ⟨3, 4, 5, 0, 2, 0, 1, 0, 1, 0⟩), (0x48C0301005019088, .vfma ⟨3, 4, 5, 6, 2, 0, 1, 0, 1, 0⟩),
  (0x4900301005001010, .vfmin ⟨3, 4, 5, 0, 2, 0, 0, 0, 2, 0⟩), (0x4940301005001010, .vfmax ⟨3, 4, 5, 0, 2, 0, 0, 0, 2, 0⟩),
  (0x4980301005001012, .vfneg ⟨3, 4, 5, 0, 2, 0, 0, 0, 2, 2⟩), (0x4E00301000001200, .vexp2 ⟨3, 4, 0, 0, 2, 0, 4, 0, 0, 0⟩),
  (0x4E40301000001200, .vlog2 ⟨3, 4, 0, 0, 2, 0, 4, 0, 0, 0⟩), (0x4E80301000001200, .vrcp ⟨3, 4, 0, 0, 2, 0, 4, 0, 0, 0⟩),
  (0x4EC0301000001200, .vrsqrt ⟨3, 4, 0, 0, 2, 0, 4, 0, 0, 0⟩), (0x4F00301000001200, .vtanh ⟨3, 4, 0, 0, 2, 0, 4, 0, 0, 0⟩),
  (0x4F40301000001200, .vsigm ⟨3, 4, 0, 0, 2, 0, 4, 0, 0, 0⟩)]
theorem test_decode_vector_float : words_vector_float.all (fun e => decode (.c e.1) = some e.2) = true := by decide +kernel

def words_predicate : List (BitVec 64 × Instr) := [
  (0x4A0070100500102B, .vcmp ⟨7, 4, 5, 0, 2, 0, 0, 0, 5, 3⟩), (0x4A40701005001007, .vfcmp ⟨7, 4, 5, 0, 2, 0, 0, 0, 0, 7⟩),
  (0x4A80701805000000, .pand ⟨7, 6, 5, 0, 0, 0, 0, 0, 0, 0⟩), (0x4AC0701805000000, .por ⟨7, 6, 5, 0, 0, 0, 0, 0, 0, 0⟩),
  (0x4B00701805000000, .pxor ⟨7, 6, 5, 0, 0, 0, 0, 0, 0, 0⟩), (0x4B40701800000000, .pnot ⟨7, 6, 0, 0, 0, 0, 0, 0, 0, 0⟩),
  (0x4B8070003F000400, .pmovs ⟨7, 0, 63, 0, 0, 1, 0, 0, 0, 0⟩), (0x4BC3F01C00000000, .smovp ⟨63, 7, 0, 0, 0, 0, 0, 0, 0, 0⟩)]
theorem test_decode_predicate : words_predicate.all (fun e => decode (.c e.1) = some e.2) = true := by decide +kernel

def words_lane : List (BitVec 64 × Instr) := [
  (0x4C0010080301E000, .vsel ⟨1, 2, 3, 7, 4, 0, 0, 0, 0, 0⟩), (0x4C40100800002000, .vmov ⟨1, 2, 0, 0, 4, 0, 0, 0, 0, 0⟩),
  (0x4C40103C00002001, .vmovStream ⟨1, 15, 0, 0, 4, 0, 0, 0, 0, 1⟩), (0x4C83F0080007C000, .vmvs ⟨63, 2, 0, 31, 0, 0, 0, 0, 0, 0⟩),
  (0x4CC010003F07C400, .vmvl ⟨1, 0, 63, 31, 0, 1, 0, 0, 0, 0⟩), (0x5000A02000038840, .vcvt ⟨10, 8, 0, 14, 1, 0, 0, 1, 0, 0⟩),
  (0x504010080001E000, .vpack ⟨1, 2, 0, 7, 4, 0, 0, 0, 0, 0⟩), (0x5080100800006001, .vunpk ⟨1, 2, 0, 1, 4, 0, 0, 0, 0, 1⟩),
  (0x5200100803012800, .vperm ⟨1, 2, 3, 4, 5, 0, 0, 0, 0, 0⟩), (0x524010080007E800, .vbcl ⟨1, 2, 0, 31, 5, 0, 0, 0, 0, 0⟩),
  (0x528010080307E801, .vslide ⟨1, 2, 3, 31, 5, 0, 0, 0, 0, 1⟩), (0x52C0100800002870, .vred ⟨1, 2, 0, 0, 5, 0, 0, 1, 6, 0⟩),
  (0x5300100800002870, .vscan ⟨1, 2, 0, 0, 5, 0, 0, 1, 6, 0⟩)]
theorem test_decode_lane : words_lane.all (fun e => decode (.c e.1) = some e.2) = true := by decide +kernel

def words_tile_accumulator : List (BitVec 64 × Instr) := [
  (0x5400103C0007E800, .trd ⟨1, 15, 0, 31, 5, 0, 0, 0, 0, 0⟩), (0x544030001F000400, .twr ⟨3, 0, 31, 0, 0, 1, 0, 0, 0, 0⟩),
  (0x5480F00000000000, .tsetf ⟨15, 0, 0, 0, 0, 0, 0, 0, 0, 0⟩), (0x54C0F00000000000, .trel ⟨15, 0, 0, 0, 0, 0, 0, 0, 0, 0⟩),
  (0x550010003FFFEC00, .accrd ⟨1, 0, 63, 1023, 5, 1, 0, 0, 0, 0⟩), (0x554000043FFFEC00, .accwr ⟨0, 1, 63, 1023, 5, 1, 0, 0, 0, 0⟩),
  (0x558000003FFFC400, .accz ⟨0, 0, 63, 1023, 0, 1, 0, 0, 0, 0⟩)]
theorem test_decode_tile_accumulator : words_tile_accumulator.all (fun e => decode (.c e.1) = some e.2) = true := by decide +kernel

def words_memory : List (BitVec 64 × Instr) := [
  (0x8000513FFFF80A82, .ldv ⟨5, 4, 0x3FFFF8, 0, 1, 2, 65⟩), (0x8040513FFFF84A82, .stv ⟨5, 4, 0x3FFFF8, 1, 1, 2, 65⟩),
  (0x8080513FFFF8C282, .lds ⟨5, 4, 0x3FFFF8, 3, 0, 2, 65⟩), (0x80E0513FFFF8C282, .sts ⟨517, 4, 0x3FFFF8, 3, 0, 2, 65⟩),
  (0x8100510090008A00, .ldvx ⟨5, 4, 0x9000, 2, 1, 2, 0⟩), (0x8140510090010A00, .stvx ⟨5, 4, 0x9001, 0, 1, 2, 0⟩)]
theorem test_decode_memory : words_memory.all (fun e => decode (.c e.1) = some e.2) = true := by decide +kernel

def words_synchronisation : List (BitVec 64 × Instr) := [
  (0x8180051061280100, .amov ⟨0, 5, 4, 6, 0x4A0, 0, 1, 0⟩), (0x81C00610808C4104, .casv ⟨0, 6, 4, 8, 561, 0, 1, 2⟩),
  (0x840FC51008004104, .fladd ⟨63, 5, 4, 0, 0x2001, 0, 1, 2⟩), (0x8441090000400800, .flwait ⟨4, 9, 0, 0, 256, 1, 0, 0⟩),
  (0x848FC5100001C104, .flset ⟨63, 5, 4, 0, 7, 0, 1, 2⟩), (0x84CFC50000000104, .flrd ⟨63, 5, 0, 0, 0, 0, 1, 2⟩),
  (0x8500001000000804, .wait ⟨0, 0, 4, 0, 0, 1, 0, 2⟩), (0x8541C51000000104, .tidwait ⟨7, 5, 4, 0, 0, 0, 1, 2⟩),
  (0x8607C50000000904, .rclaim ⟨31, 5, 0, 0, 0, 1, 1, 2⟩), (0x8647C01000000104, .rpub ⟨31, 0, 4, 0, 0, 0, 1, 2⟩),
  (0x8687C51000024104, .rwfill ⟨31, 5, 4, 0, 9, 0, 1, 2⟩), (0x86C7C51000024104, .rwfree ⟨31, 5, 4, 0, 9, 0, 1, 2⟩),
  (0x8707C01000000104, .rcons ⟨31, 0, 4, 0, 0, 0, 1, 2⟩), (0x8747C50000000104, .rinfo ⟨31, 5, 0, 0, 0, 0, 1, 2⟩),
  (0x883FDA0000000104, .gbar ⟨255, 26, 0, 0, 0, 0, 1, 2⟩), (0x887FDA0000000104, .garr ⟨255, 26, 0, 0, 0, 0, 1, 2⟩),
  (0x88BFC01000000104, .gwait ⟨255, 0, 4, 0, 0, 0, 1, 2⟩), (0x8A00001060080104, .ljoin ⟨0, 0, 4, 6, 32, 0, 1, 2⟩),
  (0x8A6FF01000082104, .ljoinv ⟨191, 48, 4, 0, 32, 4, 1, 2⟩), (0x8A80051060041104, .lldt ⟨0, 5, 4, 6, 16, 2, 1, 2⟩),
  (0x8AAFF01000043104, .lldtV ⟨191, 48, 4, 0, 16, 6, 1, 2⟩), (0x8AC0051000040104, .lld ⟨0, 5, 4, 0, 16, 0, 1, 2⟩),
  (0x8AEFF01000042104, .lldV ⟨191, 48, 4, 0, 16, 4, 1, 2⟩), (0x8C00000000001000, .fence ⟨0, 0, 0, 0, 0, 2, 0, 0⟩),
  (0x8C40000007FFC104, .qfence ⟨0, 0, 0, 0, 0x1FFF, 0, 1, 2⟩), (0x8E00005000100000, .evsig ⟨0, 0, 20, 0, 64, 0, 0, 0⟩)]
theorem test_decode_synchronisation : words_synchronisation.all (fun e => decode (.c e.1) = some e.2) = true := by decide +kernel

def words_control : List (BitVec 64 × Instr) := [
  (0xC0181087FFFFFFE8, .br ⟨6, 1, 2, 0, 0xFFFFFFFD⟩), (0xC0601007FFFFFFE8, .brz ⟨8, 1, 0, 0, 0xFFFFFFFD⟩),
  (0xC0A400D000000028, .brp ⟨9, 0, 3, 2, 5⟩), (0xC0C00007FFFFFFE8, .jmp ⟨0, 0, 0, 0, 0xFFFFFFFD⟩),
  (0xC1001007FFFFFFE8, .jal ⟨0, 1, 0, 0, 0xFFFFFFFD⟩), (0xC1401007FFFFFFE8, .jr ⟨0, 1, 0, 0, 0xFFFFFFFD⟩),
  (0xC181400000000030, .loop ⟨0, 20, 0, 0, 6⟩), (0xC1C0000000000000, .nop ⟨0, 0, 0, 0⟩),
  (0xC40003FFFFFFA008, .fork ⟨0, 0, 0xFFFFFFE8, 8⟩), (0xC44000000000000F, .join ⟨0, 0, 0, 15⟩),
  (0xC480000000000000, .endC ⟨0, 0, 0, 0⟩), (0xC4C0000000000000, .region ⟨0, 0, 0, 0⟩),
  (0xC601000000008081, .csrrd ⟨1, 0, 32, 129⟩), (0xC6410800000007FF, .csrwr ⟨1, 2, 1, 1023⟩),
  (0xC6810800000007FF, .csrset ⟨1, 2, 1, 1023⟩), (0xC6C10800000007FF, .csrclr ⟨1, 2, 1, 1023⟩),
  (0xC800000003FFFC00, .trap ⟨0, 0, 0xFFFF, 0⟩), (0xC840000003FFFC00, .bkpt ⟨0, 0, 0xFFFF, 0⟩),
  (0xC881080000000C00, .syscall ⟨1, 2, 3, 0⟩)]
theorem test_decode_control : words_control.all (fun e => decode (.c e.1) = some e.2) = true := by decide +kernel

def words_access_arithmetic : List (BitVec 64 × Instr) := [
  (0x0022180000000000, .aadd ⟨1, 2, 3, 0⟩), (0x0422180000000000, .asub ⟨1, 2, 3, 0⟩), (0x0822180000000000, .amul ⟨1, 2, 3, 0⟩),
  (0x0C22180000000000, .aand ⟨1, 2, 3, 0⟩), (0x1022180000000000, .aor ⟨1, 2, 3, 0⟩), (0x1422180000000000, .axor ⟨1, 2, 3, 0⟩),
  (0x1822180000000000, .ashl ⟨1, 2, 3, 0⟩), (0x1C22180000000000, .ashr ⟨1, 2, 3, 0⟩), (0x2022180000000000, .amin ⟨1, 2, 3, 0⟩),
  (0x2422180000000000, .amax ⟨1, 2, 3, 0⟩), (0x2863000000400000, .aaddi ⟨3, 3, 64⟩),
  (0x2FE0FFFFFFFF0000, .ali ⟨31, 0, 0xFFFFFFFF⟩), (0x33E0123456780000, .alih ⟨31, 0, 0x12345678⟩),
  (0x41822FFFFFFFD000, .abr ⟨6, 1, 2, 0xFFFFFFFD⟩), (0x44000FFFFFFFD000, .ajmp ⟨0, 0, 0, 0xFFFFFFFD⟩),
  (0x483E000000002000, .aloop ⟨0, 31, 0, 2⟩), (0x4C00000000000000, .aend ⟨0, 0, 0, 0⟩), (0x5000000000000000, .anop ⟨0, 0, 0, 0⟩)]
theorem test_decode_access_arithmetic : words_access_arithmetic.all (fun e => decode (.a e.1) = some e.2) = true := by decide +kernel

def words_access : List (BitVec 64 × Instr) := [
  (0x63FF80001FF80000, .dld ⟨63, 31, 0, 0, 0, 0, 7, 127, 0, 0⟩), (0x67FF80001FF80001, .dset ⟨63, 31, 0, 0, 0, 0, 7, 127, 0, 1⟩),
  (0x680F87801FF81FFF, .alds ⟨0, 31, 0, 30, 0, 0, 7, 127, 0, 0x1FFF⟩),
  (0x68000F801FF80018, .aldsStatus ⟨0, 0, 0, 62, 0, 0, 7, 127, 0, 24⟩), (0x8055008404002001, .tld ⟨5, 10, 0, 2, 4, 0, 1, 0, 1, 1⟩),
  (0x8455008404042001, .tst ⟨5, 10, 0, 2, 4, 0, 1, 0, 33, 1⟩), (0x885527C404000007, .tgath ⟨5, 10, 2, 31, 4, 0, 1, 0, 0, 7⟩),
  (0x8C5513C404000007, .tscat ⟨5, 10, 1, 15, 4, 0, 1, 0, 0, 7⟩), (0x9055300404000007, .tpref ⟨5, 10, 3, 0, 4, 0, 1, 0, 0, 7⟩),
  (0x9455400404000007, .scld ⟨5, 10, 4, 0, 4, 0, 1, 0, 0, 7⟩), (0xA006000620000000, .copy ⟨0, 12, 0, 0, 6, 1, 0, 0, 0, 0⟩),
  (0xA40A01C900000000, .xsend ⟨0, 20, 0, 7, 9, 0, 0, 0, 0, 0⟩), (0xA80E00091C080000, .xcoll ⟨0, 28, 0, 0, 9, 0, 7, 1, 0, 0⟩),
  (0xAC0E00091C080000, .xrtsw ⟨0, 28, 0, 0, 9, 0, 7, 1, 0, 0⟩), (0xB00E00091C080000, .xcirc ⟨0, 28, 0, 0, 9, 0, 7, 1, 0, 0⟩),
  (0xC00E00091C080000, .amo ⟨0, 28, 0, 0, 9, 0, 7, 1, 0, 0⟩), (0xC40E00091C080000, .acas ⟨0, 28, 0, 0, 9, 0, 7, 1, 0, 0⟩),
  (0xC805000300000000, .dispatch ⟨0, 10, 0, 0, 3, 0, 0, 0, 0, 0⟩), (0xCC0A00FF00000000, .bcast ⟨0, 20, 0, 3, 63, 0, 0, 0, 0, 0⟩),
  (0xE000000004180000, .await ⟨0, 0, 0, 0, 1, 3⟩), (0xE443080008000000, .aflwait ⟨4, 6, 0, 4, 2, 0⟩),
  (0xE843000008080000, .afladd ⟨4, 6, 0, 0, 2, 1⟩), (0xEC03700008080000, .atidwait ⟨0, 6, 7, 0, 2, 1⟩)]
theorem test_decode_access : words_access.all (fun e => decode (.a e.1) = some e.2) = true := by decide +kernel

def words_matrix : List (BitVec 128 × Instr) := [
  (0x00110012083000000000000000000000, .mma ⟨1, 1, 0, 0, 0, 1, 4, 0, 0, 1, 0, 3⟩),
  (0x02CCB8F7D7F000000000000000000000, .bmma ⟨12, 12, 1, 14, 0, 15, 15, 2, 1, 0, 1, 63⟩),
  (0x087F0000000000000000000000000000, .mgang ⟨1, 63⟩), (0x102400000000000000000008FFFFFFE0, .mnest ⟨1, 2, 8, 0xFFFFFFE0⟩),
  (0x11A00000000000000000000000000000, .mgo ⟨5, 0, 0, 0⟩), (0x18301400000000000000000000000000, .mtz ⟨3, 0, 5, 0, 0⟩),
  (0x190914000000000000000000000003FF, .maccz ⟨0, 9, 5, 0, 1023⟩), (0x1A391600000000000000000000000001, .mtacc ⟨3, 9, 5, 4, 1⟩),
  (0x1BF00000000000000000000000000000, .msetf ⟨15, 0, 0, 0, 0⟩), (0x1CF00000000000000000000000000000, .mtrel ⟨15, 0, 0, 0, 0⟩),
  (0x1D091400000000000000FFFFFFFFFFFF, .mfladd ⟨0, 9, 5, 0, 0xFFFFFFFFFFFF⟩),
  (0x1E091480000000000000000000000007, .mflwait ⟨0, 9, 5, 1, 7⟩),
  (0x20100000000000000000020000000000, .mli ⟨1, 0, 0, 0, 0x20000000000⟩),
  (0x2112300000000000FFFFFFFFFFFFFFFF, .madd ⟨1, 2, 3, 0, 0xFFFFFFFFFFFFFFFF⟩),
  (0x2202360000000000FFFFFFFFFFFFFFFC, .mbr ⟨0, 2, 3, 6, 0xFFFFFFFFFFFFFFFC⟩),
  (0x23020000000000000000000000000002, .mloop ⟨0, 2, 0, 0, 2⟩), (0x24000000000000000000000000000000, .mend ⟨0, 0, 0, 0, 0⟩),
  (0x25000000000000000000000004000043, .mscq ⟨0, 0, 0, 0, 0x4000043⟩)]
theorem test_decode_matrix : words_matrix.all (fun e => decode (.m e.1) = some e.2) = true := by decide +kernel

def words_optical : List (BitVec 128 × Instr) := [
  (0x0048FE00000000000000000000000000, .ocfg ⟨2, 1, 127⟩),
  (0x014110C00CE014000000000000000000, .owin ⟨2, 1, 2, 3, 0, 3, 3, 1, 0, 5, 0⟩),
  (0x03450000000000000000000000000000, .owait ⟨4, 5, 0, 0⟩), (0x04450000000000000000000000000000, .ostat ⟨4, 5, 0, 0⟩),
  (0x05002000000000000000000000000000, .ocal ⟨0, 0, 1, 0⟩), (0x06004000000000000000000000000000, .oref ⟨0, 0, 2, 0⟩),
  (0x08200000000000000000000003010000, .oli ⟨2, 0, 0, 0, 0, 0x3010000⟩),
  (0x0923400000000000FFFFFFFFFFFFFFFF, .oadd ⟨2, 3, 4, 0, 0, 0xFFFFFFFFFFFFFFFF⟩),
  (0x0A03460000000000FFFFFFFFFFFFFFFC, .obr ⟨0, 3, 4, 6, 0, 0xFFFFFFFFFFFFFFFC⟩),
  (0x0B030000000000000000000000000002, .oloop ⟨0, 3, 0, 0, 0, 2⟩), (0x0C000000000000000000000000000000, .oend ⟨0, 0, 0, 0, 0, 0⟩),
  (0x0D000000000018000000000000000001, .ofladd ⟨0, 0, 0, 0, 6, 1⟩),
  (0x0E03010000001800FFFFFFFFFFFFFFFF, .oflwait ⟨0, 3, 0, 1, 6, 0xFFFFFFFFFFFFFFFF⟩)]
theorem test_decode_optical : words_optical.all (fun e => decode (.o e.1) = some e.2) = true := by decide +kernel

/-! ### Ill-formed terms, one for each check -/

def sr0 : SR := ⟨3, 1, 2, 0⟩
def si0 : SI := ⟨1, 2, 3⟩
def vi0 : VR := ⟨1, 2, 3, 0, 4, 0, 0, 0, 5, 0⟩
def vu0 : VR := ⟨1, 2, 0, 0, 4, 0, 0, 0, 5, 0⟩
def vf0 : VR := ⟨1, 2, 3, 0, 4, 0, 0, 0, 0, 0⟩
def vb0 : VR := ⟨1, 2, 0, 0, 0, 0, 0, 0, 0, 0⟩
def vm0 : VI := ⟨2, 1, 9, 3, 5, 0⟩
def mv0 : MV := ⟨5, 4, 0, 0, 0, 0, 0⟩
def sy0 : SY := ⟨0, 0, 4, 0, 0, 0, 0, 0⟩
def br0 : BR := ⟨0, 0, 0, 0, 2⟩
def ct0 : CT := ⟨0, 0, 0, 0⟩
def at0 : AT := ⟨0, 5, 0, 0, 0, 0, 0, 0, 0, 0⟩
def mm0 : MM := ⟨1, 1, 0, 0, 0, 1, 4, 0, 0, 0, 0, 3⟩
def mt0 : MT := ⟨0, 0, 0, 0, 0⟩
def ms0 : MS := ⟨0, 0, 0, 0, 2⟩
def ow0 : OW := ⟨2, 1, 2, 3, 0, 3, 3, 1, 0, 5, 0⟩
def os0 : OS := ⟨4, 5, 0, 0⟩
def ox0 : OX := ⟨0, 0, 0, 0, 0, 2⟩

/-- Every term of the list breaks a check of its page and is refused. -/
def refused (l : List Instr) : Bool := l.all (fun i => !i.wf)

theorem test_ill_formed_scalar : refused [.add { sr0 with fn := 1 }, .clz sr0, .popc ⟨3, 1, 0, 1⟩, .sext sr0, .zext ⟨3, 1, 0, 3⟩, .fadds { sr0 with fn := 8 },
  .fadds { sr0 with fn := 5 }, .fmas { sr0 with fn := 6 }, .fcmps { sr0 with fn := 8 }, .fcvtis sr0, .fcvtsi { sr0 with fn := 5, sb := 0 },
  .shli { si0 with imm := 64 }, .sari { si0 with imm := -1 }, .li si0] = true := by decide +kernel

theorem test_ill_formed_vector : refused [.vadd { vi0 with ty := 2 }, .vadd { vi0 with vd := 768 }, .vadd { vi0 with va := 768 }, .vadd { vi0 with vb := 768 },
  .vadd { vi0 with bs := 1, vb := 64 }, .vadd { vi0 with vc := 1 }, .vadd { vi0 with rm := 1 }, .vadd { vi0 with sub := 1 }, .vmulh { vi0 with sub := 2 },
  .vmulh { vi0 with sat := 1 }, .vmad { vi0 with vc := 768 }, .vand { vi0 with sat := 1 }, .vabs vi0, .vaddi { vm0 with ty := 4 }, .vaddi { vm0 with sub := 1 },
  .vfadd { vf0 with ty := 3 }, .vfadd { vf0 with rm := 5 }, .vfma { vf0 with vc := 768 }, .vfneg { vf0 with sub := 1 }, .vfneg { vf0 with sub := 3 },
  .vcmp { vi0 with vd := 8 }, .vcmp { vi0 with ty := 6 }, .vfcmp { vf0 with ty := 1 }, .pand { vb0 with pg := 1 }, .pand { vb0 with vb := 8 }, .pmovs vb0,
  .smovp { vb0 with va := 8 }, .vsel { vf0 with vc := 8 }, .vsel { vf0 with rm := 1 }, .vmovStream { vb0 with sub := 1, va := 16 }, .vmvs { vb0 with vc := 32 },
  .vmvl { vb0 with bs := 1 }, .vidx vi0, .vli vm0, .vcvt { vb0 with vc := 9 * 64 }, .vcvt { vb0 with vc := 9 * 4 }, .vcvt { vb0 with vc := 1 },
  .vcvt { vb0 with vc := 7 * 4 + 0 * 64 + 0, ty := 1 }, .vpack { vb0 with vc := 8 }, .vpack { vb0 with sub := 1, vc := 2 }, .vunpk { vb0 with sat := 1 },
  .vperm { vf0 with vc := 768 }, .vbcl { vb0 with vc := 32 }, .vslide { vf0 with sub := 2 }, .vred { vu0 with sub := 6 }, .vred { vu0 with sat := 1, sub := 1 },
  .vscan { vu0 with ty := 0, sub := 3 }, .trd { vb0 with va := 16 }, .trd { vb0 with va := 1, vc := 32 }, .twr { vb0 with bs := 1, vc := 1 }, .twr { vb0 with vd := 16 },
  .tsetf { vb0 with pg := 1, va := 0 }, .accrd { vb0 with va := 0 }, .accwr { vb0 with bs := 1 }, .accz { vb0 with bs := 1, vd := 0, va := 0, pg := 1 }] = true := by
  decide +kernel

theorem test_ill_formed_memory : refused [.ldv { mv0 with wd := 1 }, .ldv { mv0 with reg := 768 }, .stv { mv0 with wd := 2 }, .lds { mv0 with reg := 64 }, .lds { mv0 with pg := 1 },
  .sts { mv0 with reg := 64 }, .ldvx { mv0 with wd := 3 }, .ldvx { mv0 with off := 1 }, .ldvx { mv0 with off := 768 * 4096 }, .stvx { mv0 with off := 2 },
  .amov { sy0 with imm := 12 * 1024 }, .amov { sy0 with imm := 4 * 16 }, .amov { sy0 with imm := 1 * 1024 + 2 * 128 }, .amov { sy0 with imm := 9 * 1024 },
  .amov { sy0 with imm := 4 * 128, sd := 5 }, .amov { sy0 with imm := 1 * 1024 + 1 * 2, sd := 5 }, .amov { sy0 with imm := 10 * 1024, sb := 1 }, .amov { sy0 with idx := 1 },
  .casv { sy0 with imm := 1024 }, .casv { sy0 with imm := 4 * 128, sb := 3 }, .fladd { sy0 with idx := 64 }, .flwait { sy0 with opt := 2 }, .flrd sy0,
  .wait sy0, .wait { sy0 with opt := 1, set := 1 }, .tidwait { sy0 with idx := 8 }, .rclaim { sy0 with idx := 32, sa := 0 }, .rpub { sy0 with sd := 1 },
  .rwfill { sy0 with sb := 1 }, .gbar sy0, .gwait { sy0 with sd := 1 }, .ljoin { sy0 with imm := 16 }, .ljoinv { sy0 with opt := 4, idx := 192 }, .ljoinv { sy0 with opt := 4, sd := 1 },
  .lldt { sy0 with opt := 1 }, .lldtV { sy0 with opt := 2 }, .lld { sy0 with sb := 1 }, .lldV { sy0 with opt := 0 }, .fence { sy0 with sa := 0, opt := 4 },
  .qfence { sy0 with sa := 0 }, .qfence { sy0 with sa := 0, imm := 8192 }, .evsig { sy0 with opt := 1 }] = true := by decide +kernel

theorem test_ill_formed_control : refused [.br { br0 with cond := 7 }, .br { br0 with pg := 1 }, .brz br0, .brp { br0 with cond := 12 }, .brp { br0 with cond := 9, sb := 8 },
  .jmp { br0 with sa := 1 }, .jal { br0 with sb := 1 }, .loop { br0 with off := 1 }, .loop { br0 with off := -1 }, .nop { ct0 with opt := 1 }, .fork { ct0 with opt := 6 },
  .join { ct0 with opt := 16 }, .region { ct0 with imm := 1 }, .csrrd { ct0 with imm := 2 }, .csrrd { ct0 with sa := 1 }, .csrwr { ct0 with imm := 0x10 },
  .trap { ct0 with imm := 65536 }, .syscall { ct0 with opt := 1 }] = true := by decide +kernel

theorem test_ill_formed_access : refused [.aadd ⟨1, 2, 3, 1⟩, .ali ⟨1, 2, 3⟩, .abr ⟨7, 0, 0, 0⟩, .ajmp ⟨0, 1, 0, 0⟩, .aloop ⟨0, 1, 0, 1⟩, .anop ⟨0, 0, 0, 1⟩,
  .dld { at0 with var := 1 }, .dset at0, .alds { at0 with dx := 32 }, .aldsStatus { at0 with dx := 32, crd := 0, var := 25 }, .tld { at0 with var := 8 }, .tld { at0 with dx := 16 },
  .tld { at0 with ord := 9 }, .tld { at0 with ord := 0x20 }, .tst { at0 with ord := 0x30 }, .tgath { at0 with dk := 3 }, .tpref at0, .scld { at0 with dk := 4, dx := 1 },
  .copy { at0 with crd := 28 }, .copy { at0 with d := 1 }, .xsend { at0 with ch := 1 }, .xcoll { at0 with dx := 1 }, .dispatch { at0 with crd := 28 }, .bcast { at0 with dx := 4 },
  .await ⟨1, 0, 0, 0, 0, 0⟩, .aflwait ⟨1, 0, 0, 2, 0, 0⟩, .afladd ⟨1, 0, 1, 0, 0, 0⟩, .atidwait ⟨1, 0, 0, 0, 0, 0⟩] = true := by decide +kernel

theorem test_ill_formed_engines : refused [.mma { mm0 with bty := 0 }, .mma { mm0 with scl := 1 }, .mma { mm0 with aidx := 16 }, .mma { mm0 with bsrc := 1 }, .mma { mm0 with cacc := 16 },
  .mma { mm0 with cmode := 3 }, .bmma mm0, .mnest ⟨6, 0, 0, 0⟩, .mgo ⟨0, 1, 0, 0⟩, .mtz { mt0 with imm := 1 }, .maccz { mt0 with imm := 1024 }, .mtacc { mt0 with opt := 5 },
  .mtacc { mt0 with imm := 2 }, .msetf { mt0 with flag := 1 }, .mfladd { mt0 with flag := 63 }, .mflwait { mt0 with opt := 2 }, .mli { ms0 with cond := 1 }, .mbr { ms0 with cond := 7 },
  .mbr { ms0 with imm := 0x80000000 }, .mloop { ms0 with imm := 1 }, .mend ms0, .mscq { ms0 with imm := 5 }, .mscq { ms0 with imm := 1025 * 65536 }, .ocfg ⟨0, 0, 30⟩,
  .owin { ow0 with seg := 16 }, .owin { ow0 with sh := 11 }, .owin { ow0 with row0 := 61 }, .owait { os0 with kind := 1 }, .ocal ⟨0, 0, 2, 0⟩, .oref ⟨0, 0, 3, 0⟩,
  .oli { ox0 with oa := 1 }, .oadd { ox0 with flag := 1 }, .obr { ox0 with cond := 7 }, .oloop { ox0 with imm := 1 }, .oend ox0, .ofladd { ox0 with flag := 63 },
  .oflwait { ox0 with cond := 2 }] = true := by decide +kernel

/-- An ill-formed term's word is refused by the decoder: `BR` with the reserved condition 7, and `LI` naming a source (R151, R396). -/
theorem test_decode_refuses : decode (.c 0xC01C000000000010) = none ∧ decode (.c 0x0A81080000000C00) = none ∧ decode (.c 0x0780000000000000) = none ∧
  decode (.c 0x0003042000000001) = none := by decide +kernel

/-! ### Witnesses: states and operands that meet the premises of each statement, clause by clause -/

/-- A core whose task runs in launch 0, with all four strands running. -/
def core0 : Core :=
  { present := true, task := some placedTask, strandC := { status := .running, pc := placedPc }, strandA := { status := .running, pc := placedPc },
    strandM := { status := .running, pc := placedPc }, strandO := { status := .running, pc := placedPc } }
/-- The module with that core alone. -/
def run : State := { cores := [(0, core0)] }
/-- The same with something of the core changed. -/
def with0 (f : Core → Core) : State := run.onMe f

theorem witness_IntegerResults : ready (srForm sr0) run = true ∧
    ready (srForm sr0) (with0 (fun c => (c.setS 1 (BitVec.ofInt 64 (-2 ^ 63))).setS 2 (BitVec.allOnes 64))) = true := by decide +kernel
theorem witness_BitImmediateResults : ready (srForm { sr0 with fn := 2 }) run = true ∧ ready (siForm { si0 with imm := 63 }) run = true ∧ (63#32).toNat < 64 ∧ ready (siForm { si0 with imm := -1 }) run = true := by
  decide +kernel
theorem witness_RoundedArithmetic :
    (readFloat fp32 false 0x3F800001 = .fin false 8388609 (-23) ∧ readFloat fp32 false 0xBF800000 = .fin true 8388608 (-23) ∧ readFloat fp32 false 0 = .fin false 0 (-149)) ∧
    (readFloat fp32 false 0x7FC00000 = .nan false ∧ readFloat fp32 false 0x7FA00000 = .nan true ∧ readFloat fp32 false 0xFF800000 = .inf true) ∧
    (∃ k, k ≤ (fmtOf 0).maxBits ∧ k < 2 ^ (fmtOf 0).M ∧ readFloat (fmtOf 0) true k = .fin false 0 (-149) ∧ k ≠ 0) ∧
    (readFloat fp32 false 0xBF800000).lt (readFloat fp32 false 0x3F800001) = true := by
  refine ⟨by decide +kernel, by decide +kernel, ⟨1, by decide +kernel⟩, by decide +kernel⟩
theorem witness_ScalarFloatResults : ready (srForm { sr0 with fn := 7 }) run = true ∧
    ∃ r, toIntRange 0 (-2 ^ 63) (2 ^ 63 - 1) (readFloat fp32 false 0x7FC00000) = r := ⟨by decide +kernel, _, rfl⟩

theorem witness_BranchResults :
    (∀ c : BitVec 4, c.toNat ≤ 8 → ready { brForm { br0 with cond := c } with notLast := true } run = true) ∧
    ready { k := .c, notLast := true, refs := [.p 0, .p 0] } run = true ∧
    (∃ i, i < 32 ∧ (run.me.getP 0).getLsbD i = true) ∧ ((run.me.getP 1).getLsbD 31 = false) ∧
    ready { k := .c, notLast := true, refs := [.s 1] } run = true ∧
    (run.me.getS 1 + BitVec.ofInt 64 (8 * 2)).toNat % 8 = 0 ∧
    (let s := with0 (fun c => c.setS 1 4); ready { k := .c, notLast := true, refs := [.s 1] } s = true ∧ (s.me.getS 1 + BitVec.ofInt 64 (8 * 0)).toNat % 8 ≠ 0) := by
  decide +kernel

/-- Loop levels of the C strand, innermost first. -/
def loops0 (l : List LoopLevel) : State := with0 (fun c => { (c.setS 1 1) with strandC := { c.strandC with loops := l } })
def level0 : LoopLevel := ⟨placedPc, placedPc + 64, 1⟩
theorem witness_LoopResults :
    (ready { k := .c, notLast := true, refs := [.s 1] } run = true ∧ run.me.getS 1 = 0) ∧
    (let s := loops0 [level0, level0, level0, level0]
     ready { k := .c, notLast := true, refs := [.s 1] } s = true ∧ s.me.getS 1 ≠ 0 ∧ 4 ≤ s.me.strandC.loops.length) ∧
    (let s := loops0 [level0]
     ready { k := .c, notLast := true, refs := [.s 1] } s = true ∧ s.me.getS 1 ≠ 0 ∧ s.me.strandC.loops = [level0] ∧
       level0.stop.toNat < (s.me.strandC.pc + BitVec.ofInt 64 (8 * 9)).toNat ∧
       (∀ l ∈ s.me.strandC.loops.head?, (s.me.strandC.pc + BitVec.ofInt 64 (8 * 8)).toNat ≤ l.stop.toNat)) ∧
    (let x : Strand := { pc := placedPc + 56, loops := [{ level0 with count := 2 }] }; x.pc + BitVec.ofNat 64 (wordBytes .c) = placedPc + 64 ∧ 1 < (2#64).toNat) ∧
    (let x : Strand := { pc := placedPc + 48, loops := [level0] }; x.pc + BitVec.ofNat 64 (wordBytes .c) ≠ placedPc + 64) := by decide +kernel

/-- C alone, in an open region. -/
def alone : State := with0 (fun c => { c with strandA := {}, strandM := {}, strandO := {} })
theorem witness_ForkRegionResults :
    (ready { k := .c, notLast := true, effect := true } alone = true ∧ (alone.me.strand .a).status = .unstarted ∧
      (alone.me.strandC.pc + BitVec.ofInt 64 16).toNat % wordBytes .o = 0 ∧ (alone.me.strandC.pc + BitVec.ofInt 64 4).toNat % wordBytes .a ≠ 0 ∧
      (run.me.strand .a).status = .running) ∧
    (ready { k := .c, notLast := true } alone = true ∧ alone.me.strandM.status = .unstarted ∧ (4#4).getLsbD 2 = true ∧ (0#4).getLsbD 2 = false ∧
      (with0 (fun c => c.onStrand .m (fun x => { x with status := .ended }))).me.strandM.status = .ended ∧ run.me.strandM.status ≠ .unstarted ∧ run.me.strandM.status ≠ .ended) ∧
    (alone.me.task = some placedTask ∧ placedTask.region = .opened ∧ alone.me.strandC.loops = [] ∧ alone.me.sbC = 0 ∧ alone.entriesDone 0 = true ∧
      alone.me.gangOwed = [] ∧ alone.me.scales = [] ∧ alone.me.mwin.releases = []) ∧
    (ready { k := .c, notLast := true } (loops0 [level0]) = true ∧ (loops0 [level0]).me.strandC.loops ≠ []) ∧ ready { k := .c } run = true := by decide +kernel

/-- A C access that writes or reads a CSR, not yet performed, and the event that performs it. -/
def csrAsked (op a : Nat) : Access := { id := 7, grp := 7, pc := 0, slot := 1, kind := .csr op a 5, dest := .s 3, loose := true }
def csrWaits (op a : Nat) : State := { (with0 (fun c => { c with outC := [csrAsked op a] })) with ev := { core := 0, strand := .c, num := 7 } }
/-- The premises of the performing of a CSR access. -/
def csrDue (s : State) (x : Access) : Bool :=
  decide (s.ev.strand = .c) && decide (s.ev.nums = []) && decide (s.access? (s.ev.core, .c, s.ev.num) = some x) && decide (x.phase = .issued) && !x.spc &&
  decide (x.flag = 63) && decide (x.flags = 0) && s.mayPerform s.ev.core .c x
theorem witness_CsrResults : ready (csrForm { ct0 with imm := 1 } false) run = true ∧ ready (csrForm { ct0 with imm := 1 } true) run = true ∧
    (run.cur < 768 ∧ run.me.task = some placedTask ∧ placedTask.ctx < 16 ∧ placedTask.stage < 16) ∧
    (4 < ((0xA0#64).extractLsb' 5 3).toNat ∧ ((0x80#64).extractLsb' 5 3).toNat ≤ 4) ∧
    (ready (csrForm ct0 true) run = true ∧ run.me.outC = [] ∧ ready (csrForm ct0 true) (csrWaits 2 0) = true ∧
      ∃ y ∈ (csrWaits 2 0).me.outC, y.kind = .csr 2 0 5) ∧
    [(0, 0x20), (1, 0), (2, 1), (3, 1)].all (fun e => csrDue (csrWaits e.1 e.2) (csrAsked e.1 e.2)) = true := by decide +kernel

theorem witness_SystemResults : ready { k := .c } run = true ∧ run.me.dbgBe = false ∧
    (let s := with0 (fun c => { c with dbgBe := true }); ready { k := .c } s = true ∧ s.me.dbgBe = true) ∧
    (ready { k := .c, refs := [.s 1, .s 2] } run = true ∧ run.me.strandC.hold = .fresh ∧ run.settled .c 1 = true) := by decide +kernel

theorem witness_VectorIntegerResults : ready (vrForm vi0 run [.v 2 allLanes, vbRef vi0]) run = true ∧
    ready (vrForm { vi0 with bs := 1 } run [.v 2 allLanes, vbRef { vi0 with bs := 1 }, .v 0 allLanes]) run = true ∧ ready (vrForm vu0 run [.v 2 allLanes]) run = true ∧
    ready (vrForm vu0 run []) run = true ∧ ready { k := .c, refs := [.v 2 (run.me.getP 3), .v 1 allLanes] } run = true ∧ vi0.sat = 0 ∧ vi0.sub = 0 := by decide +kernel

theorem witness_VectorFloatResults : vf0.ty.toNat ≤ 2 ∧ ready (vrForm vf0 run [.v 2 allLanes, vbRef vf0]) run = true ∧
    ready (vrForm vf0 run [.v 2 allLanes, vbRef vf0, .v 0 allLanes]) run = true ∧ ready (vrForm { vf0 with sub := 1 } run [.v 2 allLanes]) run = true := by decide +kernel

/-- A stream with one element. -/
def streamed : State := with0 (fun c => c.setStream 2 { elems := [⟨0, 1⟩] })
theorem witness_PredicateLaneResults : ready { k := .c, refs := [.v 2 allLanes, vbRef vi0] } run = true ∧ ready { k := .c } run = true ∧
    ready { k := .c, refs := [.s 63] } run = true ∧ ready (vrForm vf0 run [.v 2 allLanes, vbRef vf0, .v 0 allLanes]) run = true ∧
    ready (vrForm { vf0 with sub := 1 } run [.v 2 allLanes, .v 3 allLanes]) run = true ∧ ready { k := .c, refs := [.s 1, .v 2 allLanes] } run = true ∧
    ready { k := .c, refs := [.s 3, .v 1 1] } run = true ∧ ready { vrForm vf0 run [] with effect := true, access := true } run = true ∧
    (run.me.stream 2).elems = [] ∧ ready { vrForm vf0 streamed [] with effect := true, access := true } streamed = true ∧ (streamed.me.stream 2).elems = [⟨0, 1⟩] := by
  decide +kernel

theorem witness_SpecialFunctionReference : (5 < 6 ∧ 8388609 ≠ 0 ∧ 8388609 < 2 ^ 24) ∧ (-149 ≤ (-23 : Int) ∧ (-23 : Int) ≤ 104) ∧ readFloat fp32 false 0x3F800001 = .fin false 8388609 (-23) := by
  decide +kernel

theorem witness_ConversionResults : ready (vrForm vb0 run [.v 2 allLanes]) run = true ∧
    (readNum 0 false 0x40200000 = .fin false 10485760 (-22) ∧ readNum 0 false 0x7FC00000 = .nan false ∧ readNum 0 false 0xFF800000 = .inf true ∧
      readNum 7 false 0x85 = .fin true 123 0 ∧ isIntType 7 = true ∧ isIntType 0 = false ∧ holdsAll 0 1 = false) ∧
    (0 ≤ 13 ∧ 7 ≤ 11 ∧ 7 ≠ 9 ∧ regWidth 7 ≤ regWidth 0 ∧ 3 < regWidth 0 / regWidth 7) ∧ (13 ≤ 13 ∧ regWidth 13 < regWidth 0 ∧ 3 < regWidth 0 / regWidth 13) := by decide +kernel

theorem witness_ReductionResults : ready { k := .c, refs := [.v 1 1, .v 2 allLanes] } run = true ∧ ready (vrForm vu0 run [.v 2 allLanes]) run = true ∧
    5 ≤ vu0.ty.toNat ∧ vu0.sub = 0 ∧ vu0.sat = 0 ∧ (run.me.getP 0).getLsbD 31 = true := by decide +kernel

/-- Tile 2 is full. -/
def tiled : State := with0 (fun c => c.setTile 2 { full := true, data := 5 })
/-- Its first unit is poisoned. -/
def tiledBad : State := with0 (fun c => c.setTile 2 { full := true, data := 5, poison := [0] })
theorem witness_TileResults : (ready { vrForm vb0 tiledBad [.s 0] with effect := true, access := true } tiledBad = true ∧ (tiledBad.me.tile 2).full = true ∧
      (tiledBad.me.getP vb0.pg.toNat).getLsbD 0 = true ∧ 16 * 0 + 0 / 2 ∈ (tiledBad.me.tile 2).poison) ∧ ready { vrForm vb0 run [] with effect := true, access := true } run = true ∧ (run.me.tile 2).full = false ∧
    ready { vrForm vb0 tiled [.s 0] with effect := true, access := true } tiled = true ∧ (tiled.me.tile 2).full = true ∧ (tiled.me.tile 2).poison = [] ∧
    ready { k := .c, refs := [.v 2 allLanes, .s 31], effect := true, access := true } run = true ∧ (run.me.tile 1).full = false ∧
    ready { k := .c, refs := [.v 2 allLanes], effect := true, access := true } tiled = true ∧ ready { k := .c, effect := true, release := true } tiled = true ∧
    ready { k := .c, effect := true, release := true } run = true ∧ ready { k := .c, effect := true } run = true ∧ ready { k := .c, effect := true } tiled = true ∧
    tiled.settled .c 0 = true ∧
    (let s := tiled.onMe (fun c => { c with outC := [{ id := 7, grp := 7, pc := 0, addrs := [vaultAt 0 0] }] })
     ready { k := .c, effect := true } s = true ∧ (s.me.tile 2).full = true ∧ s.settled .c 0 = false) := by decide +kernel

theorem witness_AccumulatorResults :
    (let s := { (with0 (fun c => c.setS 3 64)) with poison := [unitOf (accAt 0 64)] }
     ready { vrForm vb0 s [.s 3] with effect := true, access := true } s = true ∧ s.poisoned (accAt s.cur (64 + 0) + 0) = true) ∧ run.cur < 768 ∧ ready { vrForm vb0 run [.s 0] with effect := true, access := true } run = true ∧
    (let s := with0 (fun c => c.setS 3 786401); ready { vrForm vb0 s [.s 3] with effect := true, access := true } s = true ∧
      786432 < (s.me.getS 3).toNat % 2 ^ 20 + 32 * 0 + 32) ∧
    (let s := with0 (fun c => c.setS 3 786400); ready { k := .c, refs := [.s 3, .v 2 allLanes], effect := true, access := true } s = true ∧
      (s.me.getS 3).toNat % 2 ^ 20 + 32 * 0 + 32 ≤ 786432 ∧ ready { k := .c, refs := [.s 3], effect := true, access := true } s = true ∧
      (∀ i, i < 32 → ∀ b, b < 4 → s.poisoned (accAt 0 (786400 + i) + b) = false)) := by decide +kernel

theorem witness_VaultAddressing : tensorOf 0 = 0 ∧ (0 : Nat) < 768 ∧
    (tensorOf 0x20000000 = 0 ∧ (0x20000000#64).toNat / 2 ^ 29 ≠ 0) ∧ (0x18000000#64).toNat / 2 ^ 22 % 128 = 96 ∧ (run.core 1).present = false ∧
    (let s : State := { run with cores := [(0, core0), (1, { core0 with task := some { placedTask with ctx := 1 } })] }
     (s.core 1).present = true ∧ (s.core 1).serves 0 = false ∧ (0x00400000#64).toNat / 2 ^ 22 % 128 = 1) ∧
    (0x1#64).toNat % 8 ≠ 0 ∧ 2 ^ 22 ≤ (0x3FFFF8#64).toNat % 2 ^ 22 + 8 ∧ (run.core 0).present = true ∧
    (∀ x ∈ span 0 8, (0x3FFFF8#64).toNat % 2 ^ 22 + x < 2 ^ 22) := by decide +kernel

/-- A store whose pages can be read. -/
def okSeal : Except Did Bool → Bool | .ok _ => true | _ => false
/-- Core 0 with tensor 1 (raw bytes, one tile of 256) in HBM, its one page entry given. -/
def mapped1 (entry : Nat) : State := { run with mem := ((State.reset.placeCode (.c 0)).storeLE 0x1000 8 entry).mem }
/-- Frame 0x10000, FMT raw, PR, PW, V. -/
def plainPage : Nat := 0x1E019
def okTarget : Checked → Bool | .ok _ => true | _ => false
/-- The target of a check, where it has one. -/
def targetOf : Checked → Target | .ok t => t | _ => { addrs := [] }

theorem witness_ScalarLoadStoreIssue : ready (mvForm mv0 [.s 4, .s 5]) run = true ∧
    okTarget (run.check 0 0 0 1 1 (span 0 1) .load) = true ∧ okTarget (run.check 0 0 0 8 8 (span 0 8) .store) = true ∧
    run.check 0 0 1 8 8 (span 0 8) .load = .fault 0x22 1 ∧ run.check 0 0 1 8 8 (span 0 8) .store = .fault 0x22 1 ∧
    (let s := (mapped1 0).onMe (fun c => c.setS 4 placedPc); ready (mvForm mv0 [.s 4, .s 5]) s = true ∧ s.check 0 0 placedPc 1 1 (span 0 1) .load = .pageIn 1 0) ∧
    (let s := mapped1 (2 * 2 ^ 48 + plainPage); okTarget (s.check 0 0 placedPc 8 8 (span 0 8) .store) = true ∧
      (targetOf (s.check 0 0 placedPc 8 8 (span 0 8) .store)).virtual = true ∧ (targetOf (s.check 0 0 placedPc 8 8 (span 0 8) .store)).space = 2) ∧
    (517#10).getLsbD 9 = true := by decide +kernel

theorem witness_VectorLoadStoreIssue : ready (mvForm mv0 [.s 4, .v 5 allLanes]) run = true ∧ ready (mvForm mv0 [.s 4, .v 0 allLanes, .v 5 allLanes]) run = true ∧
    (List.range 32).all (fun i => okTarget (run.check 0 0 (0x3FFF80) 16 128 (span (4 * i) 4) .load (some 0))) = true ∧
    (List.range 32).all (fun i => okTarget ((mapped1 plainPage).check 0 0 (placedPc + 128) 16 128 (span (4 * i) 4) .store (some 0))) = true ∧
    (List.range 32).all (fun i => okTarget (run.check 0 0 (BitVec.ofNat 64 i) 1 1 (span 0 1) .load)) = true ∧
    run.check 0 0 8 16 128 (span (4 * 0) 4) .load (some 0) = .fault 0x22 8 := by decide +kernel

/-- s6 holds 1, the operand of the atomics below. -/
def operand1 : State := with0 (fun c => c.setS 6 1)
def am0 : SY := { sy0 with sa := 4, sb := 6, sd := 8 }
theorem witness_AtomicIssue : ready (syForm am0 (amovRefs am0)) run = true ∧
    (let f : SY := { am0 with imm := 1 * 1024 + 3 * 2, sd := 0 }
     ready (syForm f (amovRefs f)) run = true ∧ (f.imm.toNat / 2 % 8 = 3 ∧ signedOf 32 ((run.me.getS 6).toNat % 2 ^ 32) ≤ 0) ∧
     ready (syForm f (amovRefs f)) operand1 = true ∧ 0 < signedOf 32 ((operand1.me.getS 6).toNat % 2 ^ 32)) ∧
    (let f : SY := { am0 with imm := 4 * 128 + 1 * 16 }; ready (syForm f (amovRefs f)) run = true ∧ f.imm.toNat / 2 % 8 ≠ 4 ∧
      okTarget (run.check 0 0 0 16 16 (span 0 16) (.atomic false)) = true ∧ (targetOf (run.check 0 0 0 16 16 (span 0 16) (.atomic false))).virtual = false) ∧
    run.check 0 0 2 4 4 (span 0 4) (.atomic true) = .fault 0x22 2 ∧ (2 ^ 32 - 1 < 2 ^ 32 ∧ 2 ^ 64 - 1 < 2 ^ 64) := by decide +kernel

/-- A C access not yet performed. -/
def waiting : State := with0 (fun c => { c with outC := [{ id := 7, grp := 7, pc := 0, addrs := [vaultAt 0 0] }] })
theorem witness_FlagResults : ready (syForm sy0 [.s 4, .s 0]) run = true ∧ run.settled .c 0 = true ∧ run.me.triggers = [] ∧ run.me.flagRank < 2 ∧
    (ready (syForm sy0 [.s 4, .s 0]) waiting = true ∧ waiting.settled .c 0 = false) ∧
    (run.me.flagPending .c 63 = false ∧ run.me.acquiring .c = false ∧ (0 : BitVec 48).toNat ≤ (run.me.getF 63).toNat) ∧
    (run.me.getF 63).toNat < ((run.me.getS 4 + BitVec.ofInt 64 1).setWidth 48).toNat ∧ (run.me.getS 4).toNat % 2 ^ 48 ≤ (run.me.channel 7).tidst % 2 ^ 48 ∧
    (let s := with0 (fun c => c.setS 4 1); ready (syForm sy0 [.s 4, .s 0]) s = true ∧ (s.me.channel 7).tidst % 2 ^ 48 < (s.me.getS 4).toNat % 2 ^ 48 ∧
      ready (syForm { sy0 with opt := 1 } [.s 4]) s = true ∧ (s.die 0).time.toNat < (s.me.getS 4).toNat) ∧
    ready (syForm sy0 [.s 5]) run = true ∧ (run.me.getS 4).toNat ≤ (run.die 0).time.toNat := by decide +kernel

def ring0 : Ring := { area := placedPc, tref := 1, size := 64, logs := 1, producer := 0, consumer := 0 }
def launch0 : Launch :=
  { id := 0, queue := 0, head := 0, tag := 9, irq := false, ctx := 0, pod := false, save := 0, saveBytes := 0, stages := [], rings := [ring0], groups := [] }
/-- Launch 0 with a ring in some state, C at ring 0 with a slot address in s4. -/
def ringed (r : Ring) (tk : Task) : State := { (with0 (fun c => { (c.setS 4 (placedPc + 64)) with task := some tk })) with launches := [{ launch0 with rings := [r] }] }
def sy1 : SY := { sy0 with sd := 5 }
/-- The premises of every clause on rings. -/
def onRing0 (s : State) (r : Ring) (t : Task) : Bool :=
  decide (s.me.task = some t) && decide (s.launch? t.launch = some { launch0 with rings := [r] }) && ready (syForm sy1 [.s 5]) s && ready (syForm sy1 [.s 4]) s &&
  ready (syForm sy1 [.s 4, .s 5]) s && Sparse.wf .free r.slots
theorem witness_RingResults :
    onRing0 (ringed ring0 placedTask) ring0 placedTask = true ∧ (look .free ring0.slots 0 = .free) ∧
    (let r := { ring0 with producer := 1 }; onRing0 (ringed r placedTask) r placedTask = true ∧ r.producer ≠ placedTask.stage) ∧
    (let r := { ring0 with closed := true }; onRing0 (ringed r placedTask) r placedTask = true ∧ r.closed = true) ∧
    (let r := { ring0 with slots := [(0, SlotState.claimed 0 0 0), (1, .claimed 0 0 0)] }
     onRing0 (ringed r placedTask) r placedTask = true ∧ (∀ i, i < 2 → look .free r.slots i ≠ .free) ∧ r.slotIndex ((ringed r placedTask).me.getS 4) = some 1 ∧
       look .free r.slots 1 = .claimed 0 0 0 ∧ (ringed r placedTask).me.publishing 0 1 = false ∧
       (ringed r placedTask).settled .c ((ringed r placedTask).ringScope 0 r) = true ∧ ¬(r.count - r.slots.length ≥ 1)) ∧
    (let r := { ring0 with slots := [(1, SlotState.taken 0 0)] }; let t := { placedTask with ringSlot := some (0, 1) }
     onRing0 (ringed r t) r t = true ∧ r.slotIndex ((ringed r t).me.getS 4) = some 1 ∧ look .free r.slots 1 = .taken 0 0) ∧
    (let r := { ring0 with consumer := 1 }; onRing0 (ringed r placedTask) r placedTask = true ∧ r.consumer ≠ placedTask.stage ∧ r.slotIndex (placedPc + 64) = some 1) ∧
    (let s := (ringed ring0 placedTask).onMe (fun c => c.setS 4 0); onRing0 s ring0 placedTask = true ∧ (s.me.getS 4).toNat + 0 ≤ ring0.pub ∧
      ¬((s.me.getS 4).toNat + 1 ≤ ring0.pub ∨ ring0.closed = true)) := by decide +kernel

/-- Launch 0 with one group of a kind, of which the task of core 0 is a member. -/
def grouped (kind : Nat) (members : List (Nat × Nat)) (x : Group) : State :=
  { (with0 (fun c => { c with task := some { placedTask with members := [some ⟨3, 0⟩, none, none, none] } })) with
    launches := [{ launch0 with groups := [(3, { x with kind := kind, members := members })] }] }
def group0 : Group := { kind := 1, members := [] }
theorem witness_BarrierResults :
    (run.me.task = some placedTask ∧ run.rankIn placedTask 3 1 = none ∧ ready (syForm sy1 [.s 5]) run = true) ∧
    (let s := grouped 1 [(0, 0)] group0; let t := { placedTask with members := [some ⟨3, 0⟩, none, none, none] }
     s.me.task = some t ∧ s.rankIn t 3 1 = some 0 ∧ ready (syForm sy1 [.s 5]) s = true ∧ s.settled .c (s.groupScope 0 3) = true ∧ s.me.strandC.hold = .fresh ∧
     after (((s.onMe (fun c => c.setS 5 0)).arrive 0 3 0 none).episode 0 3) (s.episode 0 3) = true ∧ ready (syForm sy1 [.s 4]) s = true ∧
     after (s.episode 0 3) (BitVec.allOnes 32) = true ∧ after (s.episode 0 3) 0 = false) ∧
    (let s := grouped 1 [(0, 0), (0, 1)] group0
     after (((s.onMe (fun c => c.setS 5 0)).arrive 0 3 0 none).episode 0 3) (s.episode 0 3) = false) ∧
    (let s := (grouped 1 [(0, 0), (0, 1)] group0).onMe (fun c => c.onStrand .c (Strand.block (.arrived 3 0)))
     ready (syForm sy1 [.s 5]) s = true ∧ ready (syForm sy0 [.s 0]) s = true ∧ s.me.strandC.hold = .arrived 3 0 ∧ after (s.episode 0 3) 0 = false) ∧
    ((grouped 1 [(0, 0)] group0).launch? 0).bind (fun x => x.group? 3) = some { group0 with members := [(0, 0)] } := by decide +kernel

/-- The page of tensor 1 with a lattice type, and the die's replica of its first granule. -/
def latticed (lat : Nat) (v : BitVec 512) : State := (mapped1 (0x1E019 + 256 * lat)).onDie 0 (fun d => { d with granules := [(0x10000 / 64, { lat := lat, value := v })] })
def atLattice (s : State) : State := s.onMe (fun c => c.setS 4 placedPc)
theorem witness_LatticeIssue :
    (let s := atLattice (latticed 1 7)
     okTarget (s.checkLattice placedPc .join false) = true ∧ ready (syForm sy1 [.s 4, .s 0]) s = true ∧ (targetOf (s.checkLattice placedPc .join false)).lat ≠ 6 ∧
     okTarget (s.checkLattice placedPc (.latticeLoad false) false) = true ∧ okTarget (s.checkLattice placedPc (.latticeLoad true) false) = true ∧
     s.tableLost 0x10000 (cellBytes 1) = false ∧ ready (syForm sy1 [.s 4, .s 5]) s = true ∧ ready (syForm sy1 [.s 4, .s 0, .s 5]) s = true ∧
     s.me.task.all (fun k => !k.awaitExchange) = true ∧ s.me.loadHeld [0x10000] = false ∧ s.me.strandC.hold = .fresh ∧
     (s.die 0).granule? (granuleOf 0x10000) = some { lat := 1, value := 7 } ∧ granuleBits (7#512) (0x10000 % 64) (cellBytes 1) = 7 ∧
     thresholdMet 1 7 7 = true ∧ thresholdMet 1 8 7 = false ∧ (s.die 0).parked.length < 4096) ∧
    (let s := atLattice (latticed 6 0)
     okTarget (s.checkLattice placedPc .join false) = true ∧ (targetOf (s.checkLattice placedPc .join false)).lat = 6) ∧
    (let s := atLattice (latticed 5 1)
     okTarget (s.checkLattice placedPc .join true) = true ∧ ready (syForm sy1 [.s 4, .v 0 255]) s = true ∧ okTarget (s.checkLattice placedPc (.latticeLoad true) true) = true ∧ okTarget (s.checkLattice placedPc (.latticeLoad false) true) = true ∧
     granuleBits (1#512) (0x10000 % 64) (cellBytes 5) = 1 ∧ thresholdMet 5 1 1 = true ∧ thresholdMet 5 2 1 = false) := by decide +kernel

theorem witness_LatticeMergeLaws : (1 ≤ 9 ∧ 9 ≤ 9) ∧ (0x3F800000 < 2 ^ (8 * cellBytes 9) ∧ isNan32 0x3F800000 = false ∧ isNan32 0xBF800000 = false) ∧
    thresholdMet 9 0xBF800000 0x3F800000 = true ∧ (2 ^ 256 - 1 < 2 ^ (8 * cellBytes 5)) := by decide +kernel

theorem witness_FenceResults : ready (syForm sy0 []) run = true ∧ (run.die 0).qua = [] ∧ run.me.strandC.hold = .fresh ∧ run.settled .c 3 = true ∧
    (ready (syForm sy0 []) waiting = true ∧ waiting.settled .c 0 = false) ∧ ready { syForm sy0 [] with access := true } run = true ∧
    Core.fenceRoom run.me.nextId [0, 1, 9, 10, 11, 12] run.me = true ∧ ready (syForm sy0 [.s 4]) run = true := by decide +kernel

def ab0 : AB := ⟨0, 1, 2, 9⟩
def aLoops (n : Word) (l : List LoopLevel) : State := with0 (fun c => { (c.setA 1 n) with strandA := { c.strandA with loops := l } })
theorem witness_AccessRegisterResults : ready (arForm ⟨1, 2, 3, 0⟩) run = true ∧ ready (aiForm ⟨1, 2, 3⟩) run = true ∧ ready { k := .a } run = true ∧
    (∀ c : BitVec 4, c.toNat ≤ 6 → ready { abForm { ab0 with cond := c } with notLast := true } run = true) ∧ ready { k := .a, notLast := true } run = true ∧
    run.me.mwin.releases = [] ∧ ready { k := .a, notLast := true, refs := [.a 1] } run = true ∧ run.me.getA 1 = 0 ∧
    (let s := aLoops 1 [level0, level0, level0, level0]; ready { k := .a, notLast := true, refs := [.a 1] } s = true ∧ s.me.getA 1 ≠ 0 ∧ 4 ≤ s.me.strandA.loops.length) ∧
    (let s := aLoops 1 [level0]; ready { k := .a, notLast := true, refs := [.a 1] } s = true ∧ s.me.getA 1 ≠ 0 ∧ s.me.strandA.loops.length < 4 ∧
      ∀ l ∈ s.me.strandA.loops.head?, (s.me.strandA.pc + BitVec.ofInt 64 (8 * 8)).toNat ≤ l.stop.toNat) := by decide +kernel

/-- Tensor 1's descriptor, as `placeCode` lays it out. -/
def desc1 : Desc := { tbase := 0x1000, etype := 14, rank := 1, tid := 1, dim := [256, 1, 1, 1, 1], tdim := [256, 1, 1, 1, 1] }
/-- A slot with that descriptor, a5 holding a number. -/
def sloted (n : Word) : State := (mapped1 plainPage).onMe (fun c => (c.setA 5 n).setSlot 0 { valid := true, desc := desc1 })
theorem witness_DescriptorResults :
    (let s := sloted 1; ready (atForm at0 1 []) s = true ∧ (s.me.slot 0).busy = false ∧ (s.me.getA 5).toNat < 2 ^ 20 ∧ s.tableHeld (s.descAddr s.myCtx 1) 64 = true ∧
      s.reachesLate (span (s.descAddr s.myCtx 1) 64) = false ∧ s.desc? s.myCtx 1 = some desc1) ∧
    (let s := sloted 0xFFFFF; ready (atForm at0 1 []) s = true ∧ (s.me.slot 0).busy = false ∧ (s.me.getA 5).toNat < 2 ^ 20 ∧
      s.tableHeld (s.descAddr s.myCtx 0xFFFFF) 64 = true ∧ s.reachesLate (span (s.descAddr s.myCtx 0xFFFFF) 64) = false ∧ s.desc? s.myCtx 0xFFFFF = none) ∧
    (let s := sloted 0x100000; ready (atForm at0 1 []) s = true ∧ 2 ^ 20 ≤ (s.me.getA 5).toNat) ∧ (sloted 0).me.getA 5 = 0 ∧ ready (atForm at0 1 []) (sloted 0) = true ∧
    (let s := (sloted 0).onMe (fun c => c.setSlot 0 { valid := true, busy := true, desc := desc1 }); ready (atForm at0 1 []) s = true ∧ (s.me.slot 0).busy = true) ∧
    (let s := sloted 0xFF00000000; s.me.slot 0 = { valid := true, desc := desc1 } ∧ (s.me.getA 5).toNat / 2 ^ 32 < 2 ^ desc1.eb) ∧
    (let s := sloted 0x10000000000; s.me.slot 0 = { valid := true, desc := desc1 } ∧ 2 ^ desc1.eb ≤ (s.me.getA 5).toNat / 2 ^ 32) ∧ (run.me.slot 0).valid = false ∧
    (let s := sloted 0; ready { atForm at0 1 [.a 30] with access := false } s = true ∧ okTarget (s.check 0 0 0 8 8 (span 0 8) .load) = true ∧
      s.check 0 0 4 8 8 (span 0 8) .load = .fault 0x22 4 ∧ s.wasDenied s.cur s.myCtx 4 0x22 = false ∧ (mapped1 0).check 0 0 placedPc 8 8 (span 0 8) .load = .pageIn 1 0 ∧
      ready { atForm at0 0 [.a 30] with access := false } s = true) ∧ (sloted 0).myCtx = 0 ∧
    (let s := ((mapped1 0).onMe (fun c => { c with denied := [{ ctx := 0, tensor := 1, page := 0, cause := 0x24, data := 0 }] })).onMe (fun c => c.setA 5 placedPc)
     ready { atForm at0 1 [.a 30] with access := false } s = true ∧ s.check 0 0 placedPc 8 8 (span 0 8) .load = .fault 0x24 placedPc ∧
       s.wasDenied s.cur s.myCtx placedPc 0x24 = true) := by
  decide +kernel

theorem witness_TransferIssue :
    (let s := sloted 0
     desc1.dim.length = 5 ∧ desc1.tdim.length = 5 ∧ ready (atForm { at0 with dk := 1 } desc1.rank []) s = true ∧ (s.me.slot 0).valid = true ∧ (s.me.slot 0).busy = false ∧ at0.crd.toNat + desc1.rank ≤ 32 ∧
     desc1.tb ≤ 4096 ∧ at0.dx.toNat + 0 ≤ 15 ∧ (∀ k, k < 5 → (0 : Nat) % desc1.tdim.getD k 1 = 0) ∧ (∀ k, k < 5 → 0 < desc1.dim.getD k 1) ∧
     okSeal (s.storeSeals desc1 (storePages desc1 [0, 0, 0, 0, 0] 1) false) = true ∧ s.me.room 16 = true ∧ s.vaultRange 0 0 0 32 desc1.tb = none) ∧
    (let s := sloted 4; ready (atForm at0 desc1.rank []) s = true ∧ (s.me.getA 5).toNat % desc1.tdim.getD 0 1 ≠ 0) ∧
    (let s := sloted 256; ready (atForm at0 desc1.rank []) s = true ∧ (s.me.getA 5).toNat % desc1.tdim.getD 0 1 = 0 ∧ ¬((s.me.getA 5).toNat < desc1.dim.getD 0 1)) ∧
    (let d := { desc1 with rank := 2, dim := [256, 4, 1, 1, 1] }
     let s := (sloted 0).onMe (fun c => c.setSlot 0 { valid := true, desc := d })
     d.dim.length = 5 ∧ 2 ≤ d.rank ∧ ready (atForm at0 d.rank []) s = true ∧ s.vaultRange 0 0 (s.me.getA 6) 4 (4 * 1) = none ∧
     (-1 ≤ (s.indexList 0 (s.me.getA 6) 1).getD 0 0 ∧ (s.indexList 0 (s.me.getA 6) 1).getD 0 0 < (d.dim.getD 1 1 : Int)) ∧
     okSeal (s.storeSeals d ((scatterRows d [0, 0, 0, 0, 0] 1 (s.indexList 0 (s.me.getA 6) 1)).map (·.2)) true) = true) ∧
    (let s := sloted 0; let f := { at0 with crd := 31 }; let d := { desc1 with rank := 2 }; let z := s.onMe (fun c => c.setSlot 0 { valid := true, desc := d })
     s.scopeFault desc1 ((List.zip (span 0 1) (storePages desc1 [0, 0, 0, 0, 0] 1)).map (fun e => (e.2, desc1.addrOf (tileStart desc1 [0, 0, 0, 0, 0] e.1), e.1))) = none ∧
     ready (atForm f d.rank []) z = true ∧ 32 < f.crd.toNat + d.rank ∧ (encode (.tld f)).isSome = true) ∧
    ((mapped1 (0x1E019 + 256 + 2 ^ 52)).scopeFault desc1 [(0, placedPc, 0)] = some (placedPc, 0)) ∧
    (let s := (sloted 0).onMe (fun c => { c with tq := List.replicate 512 (.fence 0) }); s.me.room 16 = false ∧ ready (atForm at0 desc1.rank []) s = true) ∧
    (let s := (sloted 0).onMe (fun c => c.setSlot 0 { valid := true, busy := true, desc := desc1 })
     ready (atForm at0 desc1.rank []) s = true ∧ (s.me.slot 0).busy = true) ∧
    (let s := (sloted 0).onMe (fun c => c.setSlot 0 { desc := desc1 }); ready (atForm at0 desc1.rank []) s = true ∧ (s.me.slot 0).valid = false) := by decide +kernel

/-- The operand block of a COPY or a send at a5. -/
def blocked5 (l : List Word) : State := with0 (fun c => (List.range 5).foldl (fun c i => c.setA (5 + i) (l.getD i 0)) c)
theorem witness_CopySendIssue :
    (let s := blocked5 [0, 64, 32, 0, 0]
     ready (atForm at0 5 []) s = true ∧ (s.me.getA 7).toNat ≠ 0 ∧ (s.me.getA 7).toNat < 2 ^ 32 ∧ s.copyRange 0 0 (s.me.getA 5) 32 = none ∧ s.copyRange 0 0 (s.me.getA 6) 32 = none ∧
     tensorOf (s.me.getA 6) = 0 ∧ (s.me.getA 8).toNat ≤ s.timeOf 0 ∧ s.me.room 17 = true ∧
     s.walkFor s.myCtx (s.me.getA 5) = none ∧ s.walkFor s.myCtx (s.me.getA 6) = none ∧ s.me.copyDue 0 (s.timeOf 0) = false ∧ s.scopeAt (s.me.getA 5) 32 = false) ∧
    (let s := blocked5 [0, 64, 32, 1, 0]; ready (atForm at0 5 []) s = true ∧ s.timeOf 0 < (s.me.getA 8).toNat ∧ s.me.room 30 = true) ∧
    okSeal ((mapped1 plainPage).storeSeals ((mapped1 plainPage).copyPages 0 placedPc 256).1 ((mapped1 plainPage).copyPages 0 placedPc 256).2 false) = true ∧
    (let s := blocked5 [0, 64, 0, 0xFFFFFFFF, 1]
     ready (atForm at0 5 []) s = true ∧ (s.me.getA 7).toNat % 2 ^ 22 = 0 ∧ s.me.getA 8 ≠ 0 ∧ (s.me.getA 8).toNat < 2 ^ 32 ∧ (s.me.getA 9).toNat < 2 ^ 48 ∧ s.inTorus 0 = true ∧ s.scopeAt (s.me.getA 5) 0xFFFFFFFF = false ∧
     s.me.room 25 = true ∧ s.me.room 29 = true ∧ s.me.triggers = [] ∧ (s.me.getF 0).toNat < (s.me.getA 9).toNat) ∧
    (let s := { blocked5 [0, 64, 2 ^ 22, 1, 0] with launches := [{ launch0 with groups := [(0, { group0 with kind := 4 })] }] }
     (s.me.getA 7).getLsbD 22 = true ∧ s.chip = 0 ∧ s.groupKind 0 kindMulticast = true ∧ (s.me.getA 9).toNat ≤ (s.me.getF 0).toNat) ∧
    (let s := blocked5 [0, 64, 0, 0x2FFFFFFFF, 0]; ready (atForm at0 4 []) s = true ∧ (s.me.getA 8).toNat < 3 * 2 ^ 32 ∧ s.me.room 25 = true ∧ s.scopeAt (s.me.getA 6) ((s.me.getA 8).toNat % 2 ^ 32) = false) := by decide +kernel

theorem witness_AccessFabricAtomicIssue :
    (let s := (grouped 1 [(0, 0)] group0).onMe (fun c => c.setA 5 3); let t := { placedTask with members := [some ⟨3, 0⟩, none, none, none] }
     ready (atForm at0 1 []) s = true ∧ s.me.task = some t ∧ s.rankIn t 3 1 = some 0 ∧ (s.me.getA 5).toNat < 512 ∧ s.settled .a (s.groupScope 0 3) = true ∧
       (s.launch? 0).bind (fun l => l.group? 3) = some { group0 with members := [(0, 0)] }) ∧
    (let s := (grouped 1 [(0, 0)] { group0 with bank := some 1 }).onMe (fun c => c.setA 5 3)
     ((s.launch? 0).bind (fun l => l.group? 3)).bind (fun g => g.bank) = some 1 ∧ 1 ≠ (s.me.getA 5).toNat / 2 ^ 8) ∧
    (let s := blocked5 [31, 0, 0, 0, 0]; let w := (s.me.getA 5).toNat
     ready (atForm at0 1 []) s = true ∧ 24 ≤ w % 32 ∧ w / 2 ^ 5 % 8 = 0 ∧ w / 2 ^ 9 % 2 ^ 43 = 0) ∧
    (let s := blocked5 [0, 2 ^ 16 + 1024 + 16, 1, 2, 0]; let m := (s.me.getA 6).toNat
     m < 2 ^ 21 ∧ m / 2 ^ 14 % 4 = 0 ∧ m / 2 % 8 ≠ 4 ∧ amoFieldsOk false (m / 2 ^ 10 % 16) (m / 2 ^ 7 % 8) (m / 2 ^ 4 % 8) (m / 2 % 8) (m / 2 ^ 16) = true ∧
     ready { atForm at0 3 [.a 1] with access := false } s = true ∧ okTarget (s.check 0 0 (s.me.getA 5) 4 4 (span 0 4) (.atomic false)) = true) ∧
    (let s := blocked5 [8, 128, 1, 2, 0]; amoFieldsOk true 0 1 0 0 0 = true ∧ ready { atForm at0 4 [.a 0] with access := false } s = true ∧
     okTarget (s.check 0 0 (s.me.getA 5) 8 8 (span 0 8) (.atomic false)) = true) ∧
    (amoFieldsOk false 1 0 0 3 0 = true ∧ 0 < signedOf 32 1) := by decide +kernel

theorem witness_DispatchBroadcastWaits :
    (let s := blocked5 [0xFFF, 1, 2, 65504, 0]; ready (atForm at0 5 []) s = true ∧ (s.me.getA 5).toNat / 2 ^ 12 % 2 ^ 20 = 0 ∧ (s.me.getA 8).toNat % 32 = 0 ∧
      32 ≤ (s.me.getA 8).toNat ∧ (s.me.getA 8).toNat ≤ 65504 ∧ s.scopeAt (s.me.getA 7) 65504 = false) ∧
    (let s := { blocked5 [2 ^ 44, 0, 31 * 2 ^ 32 + 1, 2 * 2 ^ 32 + 1, 0] with launches := [{ launch0 with groups := [(0, { group0 with kind := 2 })] }] }
     ready (atForm at0 4 []) s = true ∧ (s.me.getA 5).toNat % 2 ^ 44 = 0 ∧ (s.me.getA 7).toNat < 2 ^ 52 ∧ (s.me.getA 8).toNat < 2 ^ 34 ∧
     32 ≤ (s.me.getA 7).toNat / 2 ^ 32 % 2 ^ 10 + 1 ∧ (s.me.getA 7).toNat % 2 ^ 32 ≠ 0 ∧ (s.me.getA 8).toNat % 2 ^ 32 ≠ 0 ∧ (s.me.getA 8).toNat / 2 ^ 32 ≤ 2 ∧
     (look {} s.buses 0).lost = false ∧ s.groupKind 0 kindArm = true ∧ s.me.room 26 = true) ∧
    (let s := blocked5 [2 ^ 44, 0, 30 * 2 ^ 32 + 1, 1, 0]; ready (atForm at0 4 []) s = true ∧ ¬(32 ≤ (s.me.getA 7).toNat / 2 ^ 32 % 2 ^ 10 + 1) ∧ s.groupKind 0 kindArm = false) ∧
    (let f : AS := ⟨4, 6, 0, 4, 0, 0⟩; ready (asForm f []) run = true ∧ ready (asForm f [.a 6]) run = true ∧ run.me.flagPending .a 4 = false ∧ run.me.acquiring .a = false ∧
      run.me.flagTaken .a 4 = false ∧ ((run.me.getA 6).setWidth 48).toNat ≤ (run.me.getF 4).toNat ∧ run.settled .a 0 = true) ∧
    (let s := with0 (fun c => c.setA 6 1); ready (asForm ⟨4, 6, 0, 0, 0, 0⟩ [.a 6]) s = true ∧ (s.me.getF 4).toNat < ((s.me.getA 6).setWidth 48).toNat ∧
      (s.me.channel 0).tidst % 2 ^ 48 < ((s.me.getA 6).setWidth 48).toNat) ∧
    (let s := with0 (fun c => { c with outA := [{ id := 7, grp := 7, pc := 0, addrs := [vaultAt 0 0] }] })
     ready (asForm ⟨4, 6, 0, 0, 0, 0⟩ [.a 6]) s = true ∧ s.settled .a 0 = false) := by decide +kernel

/-- The M queue holds 16 entries. -/
def fullM : State := with0 (fun c => { c with mq := List.replicate 16 (.work (.msetf 0)) })
def mLoops (n : Word) (l : List LoopLevel) : State := with0 (fun c => { (c.setM 1 n) with strandM := { c.strandM with loops := l } })
theorem witness_MatrixControl : ready { k := .m } run = true ∧ ready { k := .m, notLast := true } run = true ∧ run.me.mwin.releases = [] ∧ run.me.getM 1 = 0 ∧
    (let s := mLoops 1 [level0, level0, level0, level0]; ready { k := .m, notLast := true } s = true ∧ s.me.getM 1 ≠ 0 ∧ 4 ≤ s.me.strandM.loops.length) ∧
    (let s := mLoops 1 [level0]; ready { k := .m, notLast := true } s = true ∧ s.me.strandM.loops.length < 4 ∧
      ∀ l ∈ s.me.strandM.loops.head?, (s.me.strandM.pc + BitVec.ofInt 64 (16 * 4)).toNat ≤ l.stop.toNat) ∧
    (run.me.flagPending .m 5 = false ∧ run.me.acquiring .m = false ∧ run.me.flagTaken .m 5 = false ∧ (BitVec.ofNat 48 0).toNat ≤ (run.me.getF 5).toNat ∧
      (run.me.getF 5).toNat < (BitVec.ofNat 48 1).toNat) ∧
    run.me.room 27 = true ∧ fullM.me.room 27 = false ∧ ready { k := .m } fullM = true ∧ (785408 % 32 = 0 ∧ 785408 + 32 * (31 + 1) ≤ 786432 ∧ 785408 + 1024 ≤ 786432) ∧
    786432 < 785408 + 32 * (32 + 1) ∧ (1 % 32 ≠ 0) := by decide +kernel

/-- An MGO or MGANG at the placed page, the spec's MMA word (R281) after it, a gang of one quad. -/
def mm1 : MM := ⟨1, 1, 0, 0, 0, 1, 4, 0, 0, 1, 0, 3⟩
def beforeMma (f : Core → Core) : State :=
  { (((mapped1 plainPage).storeLE 0x10010 16 0x00110012083000000000000000000000).onMe (fun c => f
      { c with task := some { placedTask with members := [some ⟨3, 0⟩, none, none, none] }
               strandM := { status := .running, pc := placedPc } })) with
    launches := [{ launch0 with groups := [(3, { group0 with kind := 3, members := [(0, 0)] })] }] }
theorem witness_MatrixProductIssue :
    (ready { k := .m } run = true ∧ run.me.room 27 = true ∧ ((run.me.getM 4).toNat % 32 = 0 ∧ (run.me.getM 4).toNat + 1024 ≤ 786432)) ∧
    (let s := with0 (fun c => c.setM 4 785409); ready { k := .m } s = true ∧ ¬((s.me.getM 4).toNat % 32 = 0)) ∧
    (let s := beforeMma id
     ready { k := .m, notLast := true } s = true ∧ (match s.following with | .mma f b => decide (f = mm1) && !b | _ => false) = true ∧
     s.me.task = some { placedTask with members := [some ⟨3, 0⟩, none, none, none] } ∧ s.groupKind 3 kindGang = true ∧
     (∀ l ∈ s.me.strandM.loops.head?, l.stop ≠ placedPc + 32) ∧ s.me.mgoDone < s.me.points 0 ∧ s.me.room 27 = true ∧ s.me.mgoDone + 1 = s.me.points 0) ∧
    (let s := beforeMma (fun c => { c with nest := [(0, { cnt := 2 })] }); s.me.mgoDone + 1 < s.me.points 0) ∧
    (let s := beforeMma (fun c => { c with nest := [(0, { cnt := 0 })] }); ready { k := .m, notLast := true } s = true ∧ s.me.points 0 ≤ s.me.mgoDone) ∧
    (let s := beforeMma (fun c => { c with mq := List.replicate 16 (.work (.msetf 0)) }); s.me.room 27 = false ∧ s.me.mgoDone < s.me.points 0) := by decide +kernel

/-- Bus 2 configured for T 128, one window issued and completed with a status word. -/
def opticOn : State := with0 (fun c => { (c.setO 2 0) with buses := [(2, some ⟨128, 0⟩)], winCount := 2, statuses := [(0, 5)] })
def fullO : State := with0 (fun c => { c with oq := List.replicate 8 (.work (.cal false)) })
def window0 : Window :=
  { bus := 0, seg := 0, weights := 0, acc := 0, row0 := 0, rows := 1, t := 32, div := 0, ref := 2, number := 1, sh := 0, accumulate := false, tsm := false, flag := 5, pc := 0 }
theorem witness_OpticWindowIssue : ready { k := .o } run = true ∧ (3 < 4 ∧ run.xfcon.getLsbD 0 = false) ∧
    (let s : State := { run with xfcon := 8 }; ready { k := .o } s = true ∧ s.xfcon.getLsbD (7 - 4) = true) ∧
    run.me.room 28 = true ∧ (ready { k := .o } fullO = true ∧ fullO.me.room 28 = false) ∧ run.me.winCount ≤ (run.me.getO 5).toNat ∧
    (ready { k := .o } opticOn = true ∧ (opticOn.me.getO 5).toNat < opticOn.me.winCount ∧ opticOn.me.oq.any (isWindow 0) = false ∧
      opticOn.me.statuses.find? (fun e => e.1 = 0) = some (0, 5)) ∧
    (let s := opticOn.onMe (fun c => c.setO 5 1); (s.me.getO 5).toNat < s.me.winCount ∧ s.me.oq.any (isWindow 1) = false ∧ ∀ e ∈ s.me.statuses, e.1 ≠ 1) ∧
    (let s := opticOn.onMe (fun c => { (c.setO 5 1) with oq := [.work (.window window0)] }); s.me.oq.any (isWindow 1) = true) ∧
    look none run.me.buses 2 = none ∧ look none opticOn.me.buses 2 = some ⟨128, 0⟩ ∧
    ((0 : Nat) < 2 ^ 29 ∧ 0 / 2 ^ 22 = localOf opticOn.cur ∧ 0 % 32 = 0 ∧ 0 % 2 ^ 22 + 64 * (32 * ((128 + 31) / 32)) + 64 ≤ 2 ^ 22 ∧ 786400 + 32 * 1 ≤ 786432) ∧
    (¬(2 ^ 22 / 2 ^ 22 = localOf opticOn.cur) ∧ ¬(16 % 32 = 0) ∧ ¬(786401 + 32 * 1 ≤ 786432) ∧ opticOn.me.room 28 = true) := by decide +kernel

def oLoops (n : Word) (l : List LoopLevel) : State := with0 (fun c => { (c.setO 1 n) with strandO := { c.strandO with loops := l } })
theorem witness_OpticControl : ready { k := .o } run = true ∧ ready { k := .o, notLast := true } run = true ∧ run.me.triggers = [] ∧ run.me.mwin.releases = [] ∧
    (run.me.flagPending .o 62 = false ∧ run.me.acquiring .o = false ∧ run.me.flagTaken .o 62 = false ∧ (BitVec.ofInt 48 0).toNat ≤ (run.me.getF 62).toNat ∧
      (run.me.getF 62).toNat < (BitVec.ofInt 48 (-1)).toNat) ∧ run.me.getO 1 = 0 ∧
    (let s := oLoops 1 [level0, level0, level0, level0]; ready { k := .o, notLast := true } s = true ∧ s.me.getO 1 ≠ 0 ∧ 4 ≤ s.me.strandO.loops.length) ∧
    (let s := oLoops 1 [level0]; ready { k := .o, notLast := true } s = true ∧ s.me.strandO.loops.length < 4 ∧
      ∀ l ∈ s.me.strandO.loops.head?, (s.me.strandO.pc + BitVec.ofInt 64 (16 * 4)).toNat ≤ l.stop.toNat) := by decide +kernel

/-! Events: what the event names stands in `ev`. -/

/-- One access of C, with what the event names. -/
def withAccess (x : Access) : State := { (with0 (fun c => { c with outC := [x] })) with ev := { core := 0, strand := .c, num := 7 } }
def load0 : Access := { id := 7, grp := 7, pc := 0, slot := 1, kind := .load, dest := .s 5, addrs := span (vaultAt 0 0) 8 }
/-- The premises common to loads and stores. -/
def performs (s : State) (x : Access) : Bool :=
  decide (s.access? (0, .c, 7) = some x) && decide (x.phase = .issued) && s.mayPerform 0 .c x && decide (x.route = .plain) && decide (x.unit = 8) && decide (x.flag = 63) &&
  !x.spc && decide (x.subs = 0) && !s.vaultClosed 0 x && decide (s.unreachable x.addrs = none) && decide (s.ev.num2 = 0)
/-- The premises of the readings, which may be performed now. -/
def reading (s : State) (x : Access) : Bool :=
  decide (s.access? (0, .c, 7) = some x) && decide (x.phase = .issued) && s.mayPerform 0 .c x && decide (x.flag = 63) && !x.spc && decide (x.flags = 0) && decide (s.ev.nums = [])
theorem witness_AccessCompletion :
    (performs (withAccess load0) load0 = true ∧ (∀ a ∈ load0.addrs, (withAccess load0).poisoned a = false) ∧ load0.slotDone = false) ∧
    (let x := { load0 with dest := .lanes 3 [0, 31], addrs := span (vaultAt 0 0) 8 }
     performs (withAccess x) x = true ∧ [0, 31].Nodup ∧ (∀ i ∈ [0, 31], i < 32) ∧ x.addrs.length = 4 * 2) ∧
    (let x := { load0 with dest := .a 31 }; performs (withAccess x) x = true) ∧
    (let x := { load0 with kind := .store [1, 2], dest := .none, addrs := span (vaultAt 0 (2 ^ 22 - 2)) 2 }
     performs (withAccess x) x = true ∧ [1, 2].length = x.addrs.length ∧ (x.addrs.map memKey).Nodup) ∧
    (let x : QFence := { id := 4, queues := [0, 11], slot := 1 }
     let s : State := { (with0 (fun c => { c with fences := [x], tq := [.fence 4], mq := [.fence 4] })) with ev := { core := 0, num := 4 } }
     (s.core 0).fences.find? (fun y => y.id = s.ev.num) = some x ∧ x.queues.Nodup ∧ x.queues.all (s.fenceReached 0 x.id) = true ∧ (s.core 0).mwin.releases = []) ∧
    (let x := { load0 with kind := .flagRead 63, addrs := [] }; reading (withAccess x) x = true) ∧
    (let x := { load0 with kind := .flag 5 true 9, addrs := [], release := true }; let s := withAccess x
     s.access? (0, .c, 7) = some x ∧ x.phase = .issued ∧ s.mayPerform 0 .c x = true ∧ s.ev.nums = []) ∧
    (let x := { load0 with kind := .streamStatus 24, addrs := [] }; reading (withAccess x) x = true) ∧
    (let x := { load0 with kind := .descriptor 1, dest := .slot 7, addrs := [] }; reading (withAccess x) x = true) ∧
    (let x := { load0 with kind := .ringInfo 0, addrs := [] }; let s := { withAccess x with launches := [launch0] }
     reading s x = true ∧ s.launch? (s.launchOn 0) = some launch0 ∧ launch0.rings[0]? = some ring0) ∧
    (let s := with0 (fun c => c.onStrand .c (Strand.block (.requested 5 2 0)))
     (s.core 0).strandC.hold = .requested 5 2 0 ∧ (s.core 0).task = some placedTask ∧ (2 : BitVec 16) ≠ 3 ∧ ((s.core s.ev.core).strand .c).status = .blocked) := by decide +kernel

theorem witness_AtomicExecution :
    (let x := { load0 with kind := .atomic 1 0 false 1 0 0, addrs := span (vaultAt 0 0) 4 }; let s := withAccess x
     (mergeLeaves s.ev.tree).length ≤ 1 ∧ s.access? (0, .c, 7) = some x ∧ s.unreachable x.addrs = none ∧ (∀ a ∈ x.addrs, s.poisoned a = false) ∧ x.addrs.length = atomicBytes 0 ∧
     (x.addrs.map memKey).Nodup ∧ s.mayPerform 0 .c x = true ∧ x.phase = .issued ∧ x.unit = 8 ∧ s.vaultClosed 0 x = false ∧ x.route = .plain) ∧
    (let x := { load0 with kind := .atomic 0 4 true 1 0 0, addrs := span (vaultAt 0 0) 16, phase := .answered 3 }; let s := withAccess x
     s.access? (0, .c, 7) = some x ∧ x.addrs.length = atomicBytes 4 ∧ x.spc = false ∧ x.flag = 63 ∧ s.ev.nums = [] ∧ s.ev.num2 = 0 ∧ s.vaultClosed 0 x = false) ∧
    (let q : Qua := { addrs := span 0 8, ty := 1, sum := 5, home := 0, from_ := [(0, .c, 0)] }; let s : State := run.onDie 0 (fun d => { d with qua := [q] })
     (s.die 0).qua[s.ev.num2]? = some q ∧ q.flying = false ∧ q.counter = none ∧ q.route = .plain ∧ q.unit = 8 ∧ (s.die 0).time.toNat < q.since + 4000 ∧
     q.since + 4000 ≤ ((s.onDie 0 (fun d => { d with time := 4000 })).die 0).time.toNat ∧ s.quaError q = none ∧ ({ s with poison := [unitOf 0] } : State).quaError q ≠ none ∧ q.addrs.length = atomicBytes q.ty ∧ (q.addrs.map memKey).Nodup) := by
  decide +kernel

def transfer0 : Transfer := { op := .tld, desc := desc1, coords := [0, 0, 0, 0, 0], tiles := 1, kind := 1, target := 0, lane := 0, flag := 5, slot := 1, pc := 0, ctx := 0 }
def transferring (x : Transfer) : State := (mapped1 plainPage).onMe (fun c => { c with tq := [.work x] })
def copy0 : Copy := { tid := 0, src := 0, dst := 64, count := 32, time := 0, flag := 5, slot := 1, pc := 0, ctx := 0 }
/-- The checked bytes of an engine. -/
def bytesOf : LaneCheck → List (Nat × Target) | .ok l => l | _ => []
/-- Each byte stands in this module's memory. -/
def plainBytes (l : List (Nat × Target)) (n : Nat) : Bool :=
  decide (l.length = n) && l.all (fun e => decide (e.2.route = .plain) && decide (e.2.unit = 8) && decide (e.2.addrs.length = 1) && e.2.addrs.all (fun a => paSpace a ≠ 6)) &&
  decide (((l.flatMap (fun e => e.2.addrs)).map memKey).Nodup)
theorem witness_TransferCopyEvents :
    (let s := transferring { transfer0 with op := .tpref, kind := 3 }
     (s.core 0).tq = [.work { transfer0 with op := .tpref, kind := 3 }] ∧ (s.core 0).task = some placedTask ∧ placedTask.stopped = false ∧ (s.core 0).flagRank < 2 ∧ s.fabric.requests = [] ∧ transfer0.subs = 0) ∧
    (let s := (transferring transfer0).onMe (fun c => c.setTile 0 { full := true }); (s.core 0).tq = [.work transfer0] ∧ ((s.core 0).tile 0).full = true) ∧
    (let s := transferring transfer0
     ((s.core 0).tile 0).full = false ∧ transfer0.part = 0 ∧ desc1.eb ∈ [1, 4, 8, 16, 32] ∧ desc1.tb ≤ 4096 ∧ desc1.tileBits % 64 = 0 ∧ 8 * desc1.tb / desc1.eb = 256 ∧
     (List.range 256).all (fun te => match s.elemAt 0 transfer0 0 te .load with
       | .at bit .plain _ _ _ => decide (s.unreachable (elemBytesAt desc1.eb bit) = none) && (elemBytesAt desc1.eb bit).all (fun b => !s.markedAt 0 16 [] (b, .plain))
       | _ => false) = true) ∧
    (let s := with0 (fun c => { c with timed := [(3, copy0)] }); (s.core 0).timed = [(3, copy0)] ∧ copy0.time.toNat ≤ s.timeOf 0 ∧ (s.core 0).room 20 = true) ∧
    (let s := with0 (fun c => { c.setChannel 3 { queue := List.replicate 512 (.fence 0) } with timed := [(3, copy0)] }); (s.core 0).timed = [(3, copy0)] ∧ (s.core 0).room 20 = false) ∧
    (let s := with0 (fun c => { c with timed := [(3, { copy0 with time := 1 })] }); s.timeOf 0 < ({ copy0 with time := 1 } : Copy).time.toNat) ∧
    (let s := with0 (fun c => c.setChannel 0 { queue := [.work copy0], next := 1, live := [0] })
     ((s.core 0).channel s.ev.num).queue = [.work copy0] ∧ min (4096 - (copy0.src.toNat + copy0.pos) % 4096) (copy0.count - copy0.pos) = 32 ∧ plainBytes (bytesOf (s.checkBytes 0 0 0 .load 32)) 32 = true ∧
     plainBytes (bytesOf (s.checkBytes 0 0 64 .store 32)) 32 = true ∧
     s.unreachable ((bytesOf (s.checkBytes 0 0 0 .load 32)).flatMap (fun e => e.2.addrs) ++ (bytesOf (s.checkBytes 0 0 64 .store 32)).flatMap (fun e => e.2.addrs)) = none ∧
     copy0.count ≤ copy0.pos + 32 ∧
     (∀ a ∈ (bytesOf (s.checkBytes 0 0 0 .load 32)).flatMap (fun e => e.2.addrs), s.markedAt 0 17 [] (a, .plain) = false)) ∧ ¬(({ copy0 with count := 4097 } : Copy).count ≤ copy0.pos + 4096) := by decide +kernel

def send0 : Send := { id := 3, src := 0, dst := 64, count := 33, gcore := 0, theta := 0, flag := 5, slot := 1, pc := 0, ctx := 0, launch := 0 }
def piece0 : Piece := { id := 0, core := 0, ctx := 0, dst := 64, bytes := [1, 2, 3], marks := [], rflag := 6, sender := none }
theorem witness_SendEvents :
    (let s := with0 (fun c => { c with sq := [.work send0] })
     (s.core 0).sq = [.work send0] ∧ send0.chip = s.chip ∧ send0.begun = false ∧ send0.coll = false ∧ send0.mc = false ∧
     (match s.readSource 0 25 0 0 0 33 with | (z, .bytes l _) => decide (z = s) && decide (l.length = 33) | _ => false) = true ∧ s.destFault 0 0 64 33 = none) ∧
    (let f : Flying := { send := send0, core := 0, owed := 0, localDone := false }
     let s : State := { (with0 (fun c => { c with flying := [f] })) with ev := { core := 0, num := 3 } }
     (s.core 0).flying.find? (fun y => y.send.id = s.ev.num) = some f ∧ f.send.zc = false ∧ f.send.flag ≠ 63 ∧ f.localDone = false ∧ s.fabric.requests = []) ∧
    (let f : Flying := { send := send0, core := 0, owed := 0, localDone := true }; let x := { send0 with begun := true }
     let s : State := { (with0 (fun c => { c with flying := [f], sq := [.work x, .work { send0 with id := 4 }] })) with ev := { core := 0, num := 3 } }
     (s.core 0).flying.find? (fun y => y.send.id = s.ev.num) = some f ∧ f.owed = 0 ∧ f.left = [] ∧ f.localDone = true ∧ (s.core 0).sq = [.work x, .work { send0 with id := 4 }] ∧ x.begun = true ∧
     x.id = f.send.id ∧ ({ send0 with id := 4 } : Send).begun = false ∧ (s.core 0).triggers = [] ∧ s.fabric.requests = [] ∧ ({ f with owed := 1 } : Flying).owed ≠ 0) ∧
    (let s : State := { run with fabric := { pieces := [piece0] } }
     s.fabric.pieces[s.ev.num]? = some piece0 ∧ (s.core 0).present = true ∧ (s.core 0).task = some placedTask ∧ placedTask.ctx = piece0.ctx ∧ piece0.rflag ≠ 63 ∧ piece0.member = none ∧ (s.core 0).flagRank < 2 ∧ s.fabric.requests = [] ∧
     plainBytes (bytesOf (s.checkBytes 0 0 64 .store 3)) 3 = true ∧ s.unreachable ((bytesOf (s.checkBytes 0 0 64 .store 3)).flatMap (fun e => e.2.addrs)) = none) ∧
    (let p : Plan := { core := 0, send := send0, tag := 0, circuits := [(1, 24)], steps := 1 }; let s : State := { run with fabric := { plans := [p, { p with asked := true }] } }
     s.fabric.plans[s.ev.num]? = some p ∧ p.failed = false ∧ p.closing = none ∧ p.asked = false ∧ s.fabric.plans[1]? = some { p with asked := true } ∧ p.up.length < p.circuits.length) := by
  decide +kernel

def mma0 : Mma := { binary := false, aty := 1, bty := 1, a := .tile 0, b := .tile 1, c := 0, cmode := 2, scl := false, tsm := false, btr := false, flag := 3, pc := 0 }
/-- The M queue holds one entry; tiles 0 and 1 are full. -/
def inM (e : MEntry) : State := with0 (fun c => { (c.setTile 0 { full := true, data := 3 }).setTile 1 { full := true, data := 5 } with mq := [.work e] })
/-- What the M queue's events ask of the core. -/
def runsM (s : State) (e : MEntry) : Bool :=
  decide ((s.core 0).mq = [.work e]) && decide ((s.core 0).mwin = {}) && decide ((s.core 0).flagRank < 2) && decide ((s.core 0).strandM.status ≠ .ended) &&
  decide ((s.core 0).strandO.status ≠ .ended) && decide (s.poison = [])
/-- Four cores of a quad with a ganged entry each. -/
def gang0 : State :=
  let e : Mma := { mma0 with gang := some (0, 63, 0) }
  let c (r : Nat) : Core := { ((core0.setTile 0 { full := true }).setTile 1 { full := true }) with
    task := some { placedTask with members := [some ⟨3, r⟩, none, none, none] }, mq := [.work (.mma e)] }
  { cores := [(0, c 0), (1, c 1), (2, c 2), (3, c 3)] }
theorem witness_MatrixEvents :
    (let s := inM (.mma mma0); let z := s.onCore 0 Core.openMwin
     runsM s (.mma mma0) = true ∧ (s.core 0).operandFull (.tile 0) = true ∧ (s.core 0).operandFull (.tile 1) = true ∧
     z.readOperand 0 (.tile 0) (4 * (1024 / 16) * 16) = (z, none) ∧ z.readOperand 0 (.tile 1) (4 * (1024 / 16) * 16) = (z, none) ∧ mma0.c + 1024 ≤ 786432) ∧
    (runsM (inM (.mtz 0 5)) (.mtz 0 5) = true ∧ ((inM (.mtz 0 5)).me.tile 0).full = true) ∧ (runsM (inM (.mtz 2 5)) (.mtz 2 5) = true ∧ ((inM (.mtz 2 5)).me.tile 2).full = false) ∧
    (runsM (inM (.maccz 753664 1023 63 0)) (.maccz 753664 1023 63 0) = true ∧ 753664 + 32 * (1023 + 1) ≤ 786432) ∧
    (runsM (inM (.mtacc 2 785408 4 true 5 0)) (.mtacc 2 785408 4 true 5 0) = true ∧ 785408 + 1024 ≤ 786432 ∧ ((inM (.msetf 2)).me.tile 2).full = false) ∧ runsM (inM (.msetf 2)) (.msetf 2) = true ∧ (runsM (inM (.msetf 0)) (.msetf 0) = true ∧
      ((inM (.msetf 0)).me.tile 0).full = true) ∧ run.me.heldStrands = [] ∧
    runsM (inM (.mtrel 0)) (.mtrel 0) = true ∧ runsM (inM (.mfladd 5 7)) (.mfladd 5 7) = true ∧ (runsM (inM (.mscq 1 2 0)) (.mscq 1 2 0) = true ∧ 0 ≤ run.me.scales.length) ∧
    (runsM (inM (.mscq 1 2 1)) (.mscq 1 2 1) = true ∧ run.me.scales.length < 1) ∧
    (let z := (quadOf 0).foldl (fun s g => s.onCore g Core.openMwin) gang0; let e : Mma := { mma0 with gang := some (0, 63, 0) }
     (quadOf 0).filterMap (fun g => ((z.core g).gangHead).map (fun x => (g, x))) = [(0, e), (1, e), (2, e), (3, e)] ∧
     (∀ x ∈ [(0, e), (1, e), (2, e), (3, e)], x.2.started = none ∧ x.2.counter = e.counter ∧ x.2.scl = false ∧ (z.core x.1).gangReady x.2 = true ∧ e.agrees x.2 = true ∧ x.2.scales = none ∧
       (z.core x.1).heldStrands.contains .m = false ∧ (∀ k ∈ (z.core x.1).task, k.stopped = false)) ∧
     [(0, e), (1, e), (2, e), (3, e)].find? (fun x => (z.core x.1).suppliesB x.2) = some (0, e) ∧ z.readOperand 0 e.b e.bBytes = (z, none)) ∧
    (let e : Mma := { mma0 with gang := some (0, 63, 0) }; let s := (inM (.mma e)).onMe (fun c => { c with gangStall := 65536 })
     (s.core 0).gangHead = some e ∧ s.partnerLost 0 = true ∧ (s.core 0).task = some placedTask ∧ placedTask.stopped = false ∧ 65536 ≤ (s.core 0).gangStall) ∧ gang0.partnerLost 0 = false := by decide +kernel

def bcast0 : Bcast :=
  { bus := 0, tensor := 1, n0 := 5, k0 := 256, group := 3, div := 0, t := 32, n := 2, ref := 2, mask := 1, flag := 5, slot := 1, pc := 0, core := 0, launch := 0, ctx := 0 }
/-- Tensor 1 of rank 2 with one column, a bus as given. -/
def onBus0 (x : Bus) : State := { ((mapped1 plainPage).storeLE (64 + 8) 8 0x0E200001) with buses := [(0, x)] }
/-- The codes of the first segment can be formed, with nothing changed. -/
def formed (s : State) : Bool :=
  match s.formCodes bcast0 0 with | (z, .ready r) => decide (z = s) && decide (r.bad = 0) && decide (r.badScale = none) && decide (s.upsets = []) | _ => false
def frame0 : Frame := { seg := 5, t := 32, div := 0, mask := 1, ea := [], re := none, ref := 2, rs := [], codes := [] }
theorem witness_SequencerEvents :
    (let s := with0 (fun c => { c with bq := [.work bcast0] }); (s.core 0).bq = [.work bcast0] ∧ (s.bus 0).lastQueued = none) ∧
    (let s : State := { (with0 (fun c => { c with bq := [.work bcast0] })) with buses := [(0, { lastQueued := some 4 }), (1, { lastQueued := some 5 })] }
     (s.bus 0).lastQueued = some 4 ∧ after bcast0.n0 4 = true ∧ (s.bus 1).lastQueued = some 5 ∧ after bcast0.n0 5 = false) ∧
    (let s := onBus0 { jobs := [{ cmd := bcast0 }] }
     (s.bus 0).jobs = [{ cmd := bcast0 }] ∧ s.setArmed 0 3 0 5 = true ∧ (∀ e ∈ (s.bus 0).subs, e.2 = 0) ∧ (s.bus 0).lpc ≠ 3 ∧ (s.bus 0).wanted = [] ∧ (∀ c ∈ s.cores, s.driftOwed c.1 c.2 = false ∧ c.2.trimFirst 0 5 = false) ∧ formed s = true) ∧
    (onBus0 { lpc := 3 }).bus 0 = { lpc := 3 } ∧ ((onBus0 { wanted := [(0, 5)] }).bus 0).wanted ≠ [] ∧
    (let s := onBus0 { wanted := [(0, 5)], kept := [{ cmd := bcast0 }] }
     (s.bus 0).wanted.find? (fun e => e.1 = 0) = some (0, 5) ∧ (s.bus 0).keptFor 5 = some (bcast0, 0) ∧ (s.bus 0).lpc ≠ 3 ∧ (s.bus 0).dark = false ∧ (∀ c ∈ s.cores, s.driftOwed c.1 c.2 = false) ∧ formed s = true) ∧
    (let f : Flight := { frame := frame0, reached := [0], cmd := some bcast0 }; let s := onBus0 { flights := [f] }
     (s.bus 0).flights = [f] ∧ (∀ c ∈ s.cores, c.1 ∈ f.reached) ∧ (s.core 0).task = some placedTask ∧ placedTask.launch = bcast0.launch ∧ (s.core 0).flagRank < 2 ∧
     bcast0.flag ≠ 63) ∧
    (let s : State := { onBus0 { subs := [(0, 1)] } with ev := { num2 := 5 } }; (∃ e ∈ (s.bus 0).subs, e.2 = s.ev.num3 + 1) ∧ (5, 0) ∉ (s.bus 0).arms ∧ (s.bus 0).passed 5 = false) ∧
    ((onBus0 { lastEmitted := some 5 }).bus 0).passed 5 = true ∧
    (let s : State := { onBus0 { armSet := some (0, 0, 3, 7, 1), armSent := some (5, 0) } with launches := [launch0], dies := [(8, { time := 20000 })] }
     s.remoteSetArmed 0 5 = some (7, 1) ∧ (s.bus 0).armSent = some (5, 0) ∧ (s.bus 0).passed 5 = false ∧ 0 + 20000 ≤ (s.die 8).time.toNat) ∧
    (with0 (fun c => { c with oq := [.work (.window { window0 with seg := 5, ready := true })], skw := 2 })).cores.any (fun c => c.2.trimFirst 0 5) = true := by decide +kernel

def inO (w : Window) (x : Bus) (f : Core → Core) : State :=
  { (with0 (fun c => f { c with oq := [.work (.window w), .work (.cal false)], skw := 1, mq := [.work (.msetf 0)] })) with buses := [(0, x)] }
theorem witness_WindowEvents :
    (let s := inO window0 {} id
     (s.core 0).oq = .work (.window window0) :: [.work (.cal false)] ∧ window0.ready = false ∧ (s.core 0).calibrating = none ∧ (s.core 0).owedCal = none ∧ (s.core 0).skw ≠ 2 ∧
     window0.tsm = false ∧ window0.bus < 4 ∧ (s.bus 0).passed 0 = false ∧ window0.begun = false ∧ [Entry.work (OEntry.cal false)] ≠ [] ∧ window0.ew = [] ∧ window0.cols = [] ∧ s.poison = []) ∧
    (let w := { window0 with ready := true }; let f : Flight := { frame := { frame0 with seg := 0 } }; let s := inO w { flights := [f] } id
     w.bus = s.ev.num ∧ (s.bus 0).flights = [f] ∧ 0 ∉ f.reached ∧ f.frame.seg = w.seg ∧ f.frame.re = none ∧ w.frame = none ∧ f.frame.crcOk = true ∧ w.t = f.frame.t ∧ w.div = f.frame.div) ∧
    (({ frame0 with crcOk := false } : Frame).crcOk = false ∧ window0.t ≠ ({ frame0 with t := 64 } : Frame).t) ∧
    (let w := { window0 with frame := some { frame0 with codes := List.replicate 32 (List.replicate 32 0) }, skw := 1 }; let s := inO w { lpc := 1 } id
     (s.bus 0).lpc.toNat ≤ 1 ∧ w.skw.toNat ≤ 1 ∧ w.ref = 2 ∧ s.poison = [] ∧ (s.core 0).owin = {} ∧ (s.core 0).flagRank < 2 ∧ w.flag ≠ 63 ∧ (s.core 0).mq ≠ [] ∧
     w.acc + 32 * w.rows ≤ 786432) ∧ ((inO window0 { lpc := 3 } id).bus 0).lpc = 3 ∧
    (let s : State := { (with0 (fun c => { c with oq := [.work (.cal true)] })) with ev := { flag := true } }
     (s.core 0).oq = [.work (.cal true)] ∧ (s.core 0).owedCal = none ∧ (s.core 0).calibrating = none) ∧
    (let s : State := { (with0 (fun c => { c with oq := [.work (.cal true)], calibrating := some true })) with ev := { flag := true } }
     (s.core 0).calibrating = some true ∧ s.ev.nums = [] ∧ s.ev.flag = true ∧ (s.core 0).strandM.status ≠ .ended ∧ (s.core 0).strandO.status ≠ .ended) ∧
    ((with0 (fun c => { c with skw := 1 })).core 0).skw.toNat ≤ 1 ∧
    (let s : State := { run with ev := { num := 7, num2 := 2 }, mgmt := { lasersOff := false } }
     s.ev.num < 8 ∧ s.mgmt.lasersOff = false ∧ (BitVec.ofNat 2 s.ev.num2) ≠ (s.bus 7).lpc ∧ BitVec.ofNat 2 s.ev.num2 ≠ 3) ∧
    (let s : State := { run with buses := [(0, { lpc := 3 })], dies := [(8, { time := 100000000 })] }
     (s.bus 0).lpc = 3 ∧ (s.bus 0).since + 100000000 ≤ (s.die 8).time.toNat ∧ s.unemitted 0 = [] ∧ s.windowsOn 0 (fun w => w.frame.isNone) = []) ∧
    (run.die 8).time.toNat < ({ lpc := 3 } : Bus).since + 100000000 := by decide +kernel

/-- Queue 0 with one command, its words given, at the start of its ring. -/
def queued (ws : List Nat) : State :=
  { ((ws.zip (List.range 8)).foldl (fun s e => s.storeLE (0x3000 + 8 * e.2) 8 e.1) run) with queues := [(0, { base := 0x3000, log2n := 4, tail := 1 })] }
/-- The head command may be taken. -/
def takes (s : State) : Bool :=
  let q := s.queue 0; !q.stopped && decide (q.log2n ≠ 0) && decide (q.head ≠ q.tail) && q.waiting.isNone && s.host.checkpoint.isNone
/-- It may be taken, is well-formed and of a kind. -/
def good (s : State) (op : Nat) : Bool := takes s && commandOk (s.cmdWord 0) && decide (s.cmdWord 0 0 % 256 = op)
def queued' (ws : List Nat) (f : Queue → Queue) : State := (queued ws).onQueue 0 f

/-- Tensor 1 as one page of bytes. -/
def pageDesc : Desc := { tbase := 0x1000, etype := 14, rank := 1, tid := 1, dim := [65536, 1, 1, 1, 1], tdim := [256, 1, 1, 1, 1] }
/-- Its page entry: frame 0x10000, raw, PR, PW, V. -/
def pageEntry : Page := { frame := 0x10000, fmt := 14, lat := 0, sgeo := 0, pr := true, pw := true, pa := false, cmp := false, v := true, scale := 0, pin := false, mig := 0, reserved := false }

theorem keystoneAccess_page {s : State} (hd : s.desc? 0 1 = some pageDesc) (hp : s.readPage 0x1000 = pageEntry) (hc : s.chip = 0)
    (hs : s.stale = []) (ha : paChip (s.descAddr 0 1) = 0 ∧ s.tableLost (s.descAddr 0 1) 64 = false ∧ s.tableLost 0x1000 16 = false) {i : Nat} (hi : i < 65536) :
    s.keystoneAccess 0 (placedPc + BitVec.ofNat 64 i) 1 .load =
      some { addrs := [0x10000 + i], virtual := true, space := 0 } := by
  have ht : (placedPc + BitVec.ofNat 64 i).toNat = 2 ^ 44 + i := by
    have : placedPc.toNat = 2 ^ 44 := rfl
    rw [BitVec.toNat_add, this, BitVec.toNat_ofNat]; omega
  have h1 : tensorOf (placedPc + BitVec.ofNat 64 i) = 1 := by unfold tensorOf; omega
  have h2 : offsetOf (placedPc + BitVec.ofNat 64 i) = i := by unfold offsetOf; omega
  have hb : pageDesc.bitPos i = 8 * i := by
    simp [Desc.bitPos, Desc.place, pageDesc, coordsOf, layoutGo, Desc.tileBits, prod, elemBits, Desc.eb, Nat.mod_eq_of_lt hi]; omega
  have hf : s.malformed pageDesc pageEntry = false := by simp [State.malformed, pageEntry, pageDesc, Desc.eb, elemBits, paSpace]
  have e8 : pageDesc.eb = 8 := rfl
  have hu : pageDesc.units [i] = (8, [i]) := by
    unfold Desc.units
    rw [e8]; simp [hb, Nat.mod_one]
  have hz : i / 65536 = 0 := by omega
  have he : pageDesc.entryAddr 0 = 0x1000 := rfl
  have hl : 8 * i < pageDesc.elems * 8 := by simp [pageDesc, Desc.elems, prod]; omega
  have hw : s.tableHeld (s.descAddr 0 1) 64 = true := by simp [State.tableHeld, ha.1, hc]
  have hv : s.tableHeld 0x1000 16 = true := by simp [State.tableHeld, hc, paChip]
  have hg : pageDesc.tilesAt i = [pageDesc.tileOf i] := by simp [Desc.tilesAt, e8]
  simp [State.keystoneAccess, State.checkFlat, h1, h2, hd, hw, hv, hg, span, hu, hz, he, hs, State.entryFor, hp, e8, hl, ha.2.1, ha.2.2, Need.oneCell, State.pageFault, hf, Nat.mod_one]
  simp [pageEntry, State.routeOf, hc, paSpace, paChip, pageDesc, Nat.mod_eq_of_lt hi]

theorem readBytes_page {s : State} (hd : s.desc? 0 1 = some pageDesc) (hp : s.readPage 0x1000 = pageEntry) (hc : s.chip = 0) (hs : s.stale = [])
    (ha : paChip (s.descAddr 0 1) = 0 ∧ s.tableLost (s.descAddr 0 1) 64 = false ∧ s.tableLost 0x1000 16 = false) : ∀ n i, i + n ≤ 65536 → s.readBytes 0 (placedPc + BitVec.ofNat 64 i) n = some ((span i n).map (fun j => s.byte (0x10000 + j))) := by
  intro n
  induction n with
  | zero => intro i _; rfl
  | succ n ih =>
    intro i hi
    have hx : placedPc + BitVec.ofNat 64 i + 1 = placedPc + BitVec.ofNat 64 (i + 1) := by
      rw [BitVec.add_assoc, BitVec.ofNat_add]; rfl
    simp only [State.readBytes, keystoneAccess_page hd hp hc hs ha (show i < 65536 by omega), hx, ih (i + 1) (by omega), span, List.map]
    simp [State.loadUnits, State.load, leNat]

/-- Queue 0 with a LAUNCH of one stage of one task, and core 0 free. Its record is at tensor 1's offset 0, the task's launch record template at 0x2000. -/
def launching : State :=
  { cores := [(0, { present := true })], queues := [(0, { base := 0x3000, log2n := 4, tail := 1 })],
    mem := [(0x41, 0x10), (0x48, 1), (0x4A, 0x10), (0x4B, 0x0E), (0x52, 1), (0x54, 1), (0x58, 1), (0x5C, 1), (0x60, 1), (0x65, 1), (0x66, 1), (0x68, 1), (0x6A, 1), (0x6C, 1),
      (0x1000, 0x19), (0x1001, 0xE0), (0x1002, 1), (0x3000, 1), (0x300D, 0x10), (0x3019, 2),
      (0x10000, 1), (0x10041, 0x20), (0x10045, 0x10), (0x10048, 1), (0x1004A, 1), (0x10050, 1), (0x10058, 1), (0x12018, 1)] }
theorem launching_page : Memory.wf launching.mem = true ∧ launching.desc? 0 1 = some pageDesc ∧ launching.readPage 0x1000 = pageEntry ∧ launching.chip = 0 ∧
    paChip (launching.descAddr 0 1) = 0 ∧ launching.tableLost (launching.descAddr 0 1) 64 = false ∧ launching.tableLost 0x1000 16 = false := by decide +kernel
theorem record_bytes : 128 + 6080 = 6208 := rfl
/-- The stored record. -/
def record1 : List Byte := (span 0 (128 + 6080)).map (fun j => launching.byte (0x10000 + j))
theorem witness_QueueEvents_launch_reads : launching.readBytes 0 (BitVec.ofNat 64 (launching.cmdWord 0 1)) 6208 = some record1 := by
  have h : BitVec.ofNat 64 (launching.cmdWord 0 1) = placedPc + BitVec.ofNat 64 0 := by decide +kernel
  rw [h, ← record_bytes]
  exact readBytes_page launching_page.2.1 launching_page.2.2.1 launching_page.2.2.2.1 (by rfl) launching_page.2.2.2.2 (128 + 6080) 0 (by omega)
theorem launching_template : launching.templateOk 0 (placedPc + BitVec.ofNat 64 0x2000) = true := by
  unfold State.templateOk
  rw [readBytes_page launching_page.2.1 launching_page.2.2.1 launching_page.2.2.2.1 (by rfl) launching_page.2.2.2.2 256 0x2000 (by omega)]
  decide +kernel
theorem span_map_zero (f : Nat → Byte) : ∀ n a, (∀ j, a ≤ j → j < a + n → f j = 0) → (span a n).map f = List.replicate n 0 := by
  intro n
  induction n with
  | zero => intro a _; rfl
  | succ n ih =>
    intro a h
    simp only [span, List.map, List.replicate, h a (le_refl a) (by omega)]
    rw [ih (a + 1) (fun j h1 h2 => h j (by omega) (by omega))]
theorem span_split : ∀ m a n, span a (m + n) = span a m ++ span (a + m) n := by
  intro m
  induction m with
  | zero => intro a n; simp [span]
  | succ m ih => intro a n; rw [show m + 1 + n = (m + n) + 1 by omega]; simp only [span, ih, List.cons_append]; congr 2; congr 1; omega
theorem launching_high {j : Nat} (h1 : 128 ≤ j) (h2 : j < 8192) : launching.byte (0x10000 + j) = 0 := by
  have : memKey (0x10000 + j) = 0x10000 + j := by unfold memKey; omega
  simp only [State.byte, this, launching, look]
  repeat' rw [if_neg (by omega)]
theorem record_split (n : Nat) (h : n < 8000) : (span 0 (128 + n)).map (fun j => launching.byte (0x10000 + j)) =
    (span 0 128).map (fun j => launching.byte (0x10000 + j)) ++ List.replicate n 0 := by
  rw [span_split, List.map_append, span_map_zero _ n (0 + 128) (fun j h1 h2 => launching_high (by omega) (by omega))]
/-- All but its first 128 bytes are zero. -/
def record1' : List Byte := (span 0 128).map (fun j => launching.byte (0x10000 + j)) ++ List.replicate 6080 0
theorem record1_eq : record1 = record1' := record_split 6080 (by omega)
theorem span_length : ∀ n a, (span a n).length = n := by
  intro n
  induction n with
  | zero => intro _; rfl
  | succ n ih => intro a; simp only [span, List.length_cons, ih]
theorem firstBad_none (n : Nat) {bad : Nat → Bool} (h : ∀ i, i < n → bad i = false) : firstBad n bad = none := by
  have : ∀ m a, (∀ i, i < a + m → bad i = false) → (span a m).find? bad = none := by
    intro m
    induction m with
    | zero => intro a _; rfl
    | succ m ih => intro a h; simp only [span, List.find?, h a (by omega)]; exact ih (a + 1) (fun i hi => h i (by omega))
  exact this n 0 (fun i hi => h i (by omega))
theorem leNat_zero : ∀ n, leNat (List.replicate n 0) = 0 := by
  intro n
  induction n with
  | zero => rfl
  | succ n ih => rw [List.replicate, leNat, ih]; rfl
theorem field_high {o : Nat} (n : Nat) (h : 128 ≤ o) : fieldAt record1' o n = 0 := by
  unfold fieldAt record1'
  have hl : ((span 0 128).map (fun j => launching.byte (0x10000 + j))).length ≤ o := by
    rw [List.length_map, span_length]; exact h
  rw [List.drop_append, List.drop_eq_nil_of_le hl, List.nil_append, List.drop_replicate, List.take_replicate, leNat_zero]
theorem field_head : fieldAt record1' 0 8 = 1 ∧ fieldAt record1' 8 56 = 0 := by decide +kernel
theorem stage_zero : stageEntry record1' 0 = { record := 2 ^ 44 + 0x2000, w := 65537, bound := 1, n := 1, outm := 0, rest := true } := by decide +kernel
theorem group_zero (i : Nat) : groupEntry record1' i = (0, 0) := by
  unfold groupEntry; rw [field_high 8 (by omega), field_high 8 (by omega)]
theorem witness_QueueEvents_launch_passes : launching.recordFault 0 (2 ^ 44) 0 512 record1 = none := by
  rw [record1_eq]
  unfold State.recordFault
  extract_lets at' h ns nr st stages zero group kind count gst rule members mem kinds producers consumers badStage badGang badLoc badRing badEnds badGroup badList crowded cramped pick stageAddr groupAddr
  have hh : h = 1 := field_head.1
  have hns : ns = 1 := by simp only [ns, hh]
  have hnr : nr = 0 := by simp only [nr, hh]
  have hst : st 0 = { record := 2 ^ 44 + 0x2000, w := 65537, bound := 1, n := 1, outm := 0, rest := true } := stage_zero
  have hz : ∀ o n, 128 ≤ o → zero o n = true := by intro o n ho; simp only [zero, field_high n ho, decide_true]
  have hg : ∀ i, group i = (0, 0) := group_zero
  have hk : ∀ i, kind i = 0 := by intro i; simp only [kind, hg]
  have hr : ∀ i, rule i = false := by intro i; simp only [rule, hg]; decide
  have he : ∀ l ∈ members, l = [] := by
    intro l hl
    obtain ⟨i, _, hi⟩ := List.mem_map.1 hl
    rw [← hi, hg]; rfl
  have hm : ∀ i, mem i = [] := by
    intro i
    simp only [mem, List.getD_eq_getElem?_getD]
    rcases hx : members[i]? with _ | x
    · rfl
    · exact he x (List.mem_of_getElem? hx)
  have hks : ∀ k ∈ kinds, k.1 = 0 := by
    intro k hkm
    obtain ⟨i, _, hi⟩ := List.mem_map.1 hkm
    rw [← hi]; exact hk i
  have hp : ∀ (code n : Nat) (bad : Nat → Bool) (addr : Nat → Word) (next : Option BadRecord), (∀ i, i < n → bad i = false) → pick code n bad addr next = next := by
    intro code n bad addr next hb
    simp only [pick, firstBad_none n hb]
  rw [if_neg (by decide), if_neg (by rw [hns, hnr, hh]; simp only [zero, field_head.2]; decide),
    if_neg (by simp only [stages, hns, span, List.map, hst, StageEntry.maxc]; decide), hns, hnr]
  rw [hp, hp, hp, hp, hp, hp, hp, hp, hp]
  · rw [firstBad_none]
    · rfl
    · intro i hi
      have : i = 0 := by omega
      subst this
      rw [hst]; simp only []
      have : BitVec.ofNat 64 (2 ^ 44 + 0x2000) = placedPc + BitVec.ofNat 64 0x2000 := by decide
      rw [this, launching_template]; rfl
  · intro i hi
    simp only [cramped, hk]; rfl
  · intro i hi
    have h1 : (kinds.filter (fun k => decide (k.1 = 3) && decide (k.2 = i))) = [] := by
      rw [List.filter_eq_nil_iff]; intro k hkm; rw [hks k hkm]; simp
    have h2 : members.any (fun l => l.any (fun m => decide (m.1 = i) && decide (4 < groupsOf kinds members m))) = false := by
      rw [List.any_eq_false]; intro l hl; rw [he l hl]; simp
    simp only [crowded, h1, h2]; rfl
  · intro i hi
    simp only [badList, hm]; rw [List.any_nil, Bool.and_false]
  · intro i hi
    simp only [badGroup, hk, hg]; rfl
  · intro i hi; omega
  · intro r hrr
    simp only [badRing, hnr, if_pos (Nat.zero_le r)]; rw [hz _ _ (by omega)]; rfl
  · intro i hi
    have : i = 0 := by omega
    subst this
    simp only [badLoc, hst]; rfl
  · intro i hi
    have : i = 0 := by omega
    subst this
    simp only [badGang, hst]; rfl
  · intro i hi
    by_cases h0 : i = 0
    · subst h0; simp only [badStage, hns, hnr, hst]; rfl
    · simp only [badStage, hns, if_pos (show 1 ≤ i by omega)]; rw [hz _ _ (by omega)]; rfl
theorem witness_QueueEvents_launch : good launching 1 = true ∧ launching.cmdWord 0 1 = 2 ^ 44 ∧ launching.cmdWord 0 2 = 0 ∧ launching.cmdWord 0 3 = 512 ∧
    launching.admits (launching.buildLaunch 0 0 512 record1) = true := by
  refine ⟨by decide +kernel, by decide +kernel, by decide +kernel, by decide +kernel, ?_⟩
  have h : (launching.buildLaunch 0 0 512 record1').stages = [(stageEntry record1' 0).stage] := by
    unfold State.buildLaunch; simp only [field_head, span, List.map]
  unfold State.admits Launch.minCores
  rw [record1_eq, h, stage_zero]
  decide +kernel

/-- Core 0 waits for page 0 of tensor 1. -/
def pageWait (p : PageInResult) : State :=
  { ((mapped1 0).onMe (fun c => c.onStrand .c (Strand.block (.pageIn 0 1 0)))) with pageReqs := [⟨0, 1, 0, {}⟩], ev := { core := 0, strand := .c, page := p } }
/-- Core 0 blocked on a flag that nothing adds to, the other strands ended. -/
def stalled (n : Nat) : State := with0 (fun c => { c with
  strandC := { c.strandC with status := .blocked, hold := .tile 3 }, strandA := {}, strandM := {}, strandO := {}, stall := n })
theorem witness_PagingEvents_resident :
    (let s : State := { (pageWait (.resident 0x2E019 0 none .free)) with frames := [(0, 17)] }
     let who : PageAsker := { queue := 1 }
     let t : State := { s with pageReqs := [⟨0, 1, 0, who⟩] }
     let z := t.refill who
     t.pageReqs.find? (fun q => (q.ctx, q.tensor, q.page) = (0, 1, 0)) = some ⟨0, 1, 0, who⟩ ∧ (z.core 0).reserve = 16 ∧ z.refillOwed who = false ∧ z.isValid desc1 0 = false ∧
     z.ownFrame 0x20000 = true ∧ 0 < z.spareFrames (homeDie 0x20000) ∧ z.ownFrame (2 ^ 52 + 0x20000) = false ∧ paChip (desc1.entryAddr 0) = s.chip ∧
     (s.core 0).waitsPage .c = some (0, 1, 0) ∧ s.ev.page = .resident 0x2E019 0 none .free ∧ s.desc? 0 1 = some desc1 ∧ (0x2E019#64).getLsbD 0 = true ∧ paChip 0x20000 = s.chip ∧ paSpace 0x20000 ≠ 6 ∧
     memKey (desc1.entryAddr 0) + 16 ≤ 2 ^ 52 ∧ memKey (desc1.entryAddr 0) + 16 ≤ memKey 0x20000) := by decide +kernel
theorem witness_PagingEvents :
    (let s := pageWait .notMapped; (s.core 0).waitsPage .c = some (0, 1, 0) ∧ s.pageReqs.find? (fun q => (q.ctx, q.tensor, q.page) = (0, 1, 0)) = some ⟨0, 1, 0, {}⟩ ∧ s.ev.page = .notMapped) ∧
    (let s := pageWait (.noFrame 3 0); s.ev.page = .noFrame 3 0 ∧ ({} : PageAsker).queue = 255 ∧ s.spareFrames (dieOf 0) = 0 ∧ s.residents = [] ∧
     (s.core 0).footprintOf {} = []) ∧
    (let s : State := { (mapped1 plainPage) with ev := { num := 0, num2 := 1, num3 := 0, word := 0x20000 } }; let p := s.readPage (desc1.entryAddr 0)
     s.desc? 0 1 = some desc1 ∧ p.v = true ∧ p.pin = false ∧ movesHeld (s.movesOf 0 (desc1.entryAddr 0)) s.keystoneTime = false ∧ paChip (desc1.entryAddr 0) = s.chip ∧ s.pageReqs = [] ∧ s.frameBusy p.frame = false ∧ paChip p.frame = s.chip ∧ paChip 0x20000 = s.chip ∧
     s.mapped 0x20000 = true ∧ paSpace p.frame ≠ 6 ∧ paSpace 0x20000 ≠ 6 ∧
     movesHeld [0, 0, 0, 0] 15999999 = true ∧ p.frame = 0x10000) ∧ ((mapped1 0).readPage (desc1.entryAddr 0)).v = false ∧
    (let s : State := { (mapped1 plainPage) with ev := { num := 0, num2 := 1, num3 := 0, num4 := 9 } }
     (s.readPage (desc1.entryAddr 0)).v = true ∧ s.ev.num4 < 10 ∧ s.ev.num4 ≠ 0 ∧ paChip (desc1.entryAddr 0) = s.chip ∧ (s.readPage (desc1.entryAddr 0)).lat = 0 ∧ (∀ c ∈ s.cores, c.2.outC = [] ∧ c.2.outA = []) ∧ (∀ e ∈ s.dies, e.2.granules = [] ∧ e.2.parked = [])) ∧
    (let s : State := { (mapped1 plainPage) with ev := { word := placedPc } }; s.ev.flag = false ∧ s.desc? s.ev.num (tensorOf s.ev.word) = some desc1 ∧ s.midTile 0 1 0 = false) ∧
    ((mapped1 plainPage).onMe (fun c => { c with tq := [.work { transfer0 with part := 1 }] })).midTile 0 1 0 = true ∧
    (let s := stalled (1024 * 1024); (s.stallWaits 0).isSome = true ∧ (s.die 0).dlk.toNat * 1024 ≤ (s.core 0).stall ∧ (s.die 0).dlk.toNat * 1024 ≠ 0 ∧ (s.core 0).halted = false ∧
     (s.core 0).task = some placedTask ∧ placedTask.stopped = false) ∧
    (let s := stalled (1024 * 1024 - 1); (s.stallWaits 0).isSome = true ∧ (s.core 0).stall < (s.die 0).dlk.toNat * 1024) ∧
    (let p : Parked := { core := 0, cell := 0, lat := 1, theta := 1, dest := .s 5, slot := 0, pc := 0, vaddr := 0, acquire := false, limit := some 8 }
     let s : State := run.onDie 0 (fun d => { d with parked := [p, { p with limit := some 0 }] })
     (s.die 0).parked[0]? = some p ∧ (s.die 0).time.toNat < 8 ∧ (s.die 0).parked[1]? = some { p with limit := some 0 } ∧ 0 ≤ (s.die 0).time.toNat) := by decide +kernel

def stage0 : Stage := { record := placedPc, sring := none, ldie := 0, loc := 0, gang := false, prio := 0, maxc := 1, minc := 1, bound := 5, n := 1, outm := 0, cores := [0], target := 1 }
/-- Launch 0 with stage 0, the core without a task. -/
def starting : State := { cores := [(0, { present := true })], mem := launching.mem, launches := [{ launch0 with stages := [stage0] }] }
/-- The core's task as given, in a launch with its stage. -/
def tasked (t : Task) : State := { ((mapped1 plainPage).onMe (fun c => { c with task := some t, strandA := {}, strandM := {}, strandO := {} })) with
  launches := [{ launch0 with save := placedPc, stages := [stage0] }] }
theorem witness_TaskEvents_record : ∃ l, starting.readBytes 0 placedPc 256 = some l := by
  have hd : starting.desc? 0 1 = some pageDesc ∧ starting.readPage 0x1000 = pageEntry ∧ starting.chip = 0 ∧ paChip (starting.descAddr 0 1) = 0 ∧
      starting.tableLost (starting.descAddr 0 1) 64 = false ∧ starting.tableLost 0x1000 16 = false := by decide +kernel
  exact ⟨_, readBytes_page hd.1 hd.2.1 hd.2.2.1 (by rfl) hd.2.2.2 256 0 (by omega)⟩
theorem witness_TaskEvents :
    (let s := starting; let l : Launch := { launch0 with stages := [stage0] }
     s.stageOf 0 = some (l, 0, stage0) ∧ stage0.gang = false ∧ (s.core 0).task = none ∧ (s.core 0).staged = none ∧ s.pick l 0 0 = some (.fresh 0 none) ∧ s.givesWay l 0 stage0 0 = false ∧
     l.stages[0]? = some stage0 ∧ s.idleCore 0 = true ∧ stage0.live < stage0.maxc ∧ stage0.cores.length ≤ stage0.target) ∧
    (let s := tasked { placedTask with ending := true }
     s.entriesDone 0 = true ∧ (s.core 0).gangOwed = [] ∧ placedTask.gangWait = false ∧ placedTask.stopped = false ∧ (s.core 0).doneAtDie = true ∧ (s.core 0).scales = [] ∧ (s.die 0).qua = [] ∧ (s.core 0).task = some { placedTask with ending := true } ∧
     ({ placedTask with ending := true } : Task).overrun = false ∧ ({ placedTask with region := .sealedPending, bound := 5, boundCount := 5 } : Task).overrun = true) ∧
    (let p : Preempt := { core := 0, launch := 0, stage := 0, tidx := 0 }; let s : State := { tasked placedTask with preempts := [p] }
     s.preempts.find? (fun p => p.core = 0) = some p ∧ p.tidx = placedTask.tidx ∧ p.launch = placedTask.launch ∧ p.stage = placedTask.stage ∧ (s.core 0).halted = false ∧ (s.core 0).staged = none ∧ placedTask.stopped = false ∧ s.isGang placedTask = false ∧ placedTask.region = .opened) ∧
    (let t : Task := { placedTask with region := .sealed }; let p : Preempt := { core := 0, launch := 0, stage := 0, tidx := 0 }; let s : State := { tasked t with preempts := [p] }
     s.preempts.find? (fun p => p.core = 0) = some p ∧ (s.core 0).task = some t ∧ t.region = .sealed ∧ s.isGang t = false ∧ ((s.onMe (fun c => { c with halted := true })).core 0).halted = true) ∧
    (let t : Task := { placedTask with region := .sealedPending, bound := 5, boundCount := 5 }; (tasked t).me.task = some t ∧ t.stopped = false ∧ t.bound ≤ t.boundCount) ∧
    (let t : Task := { placedTask with region := .discarding, stopped := true }; let s := tasked t; let l : Launch := { launch0 with save := placedPc, stages := [stage0] }
     s.launch? 0 = some l ∧ l.state = .running ∧ s.isGang t = false ∧ s.discarded 0 = true) ∧
    (let l : Launch := { launch0 with stages := [{ stage0 with completed := true }] }; let s : State := { run with launches := [l] }
     s.launch? s.ev.num = some l ∧ l.state = .running ∧ (∀ st ∈ l.stages, st.completed = true) ∧ s.sendsOwed 0 = false ∧ l.left = [] ∧ s.log.held = []) ∧
    (∀ st ∈ ({ launch0 with stages := [stage0] } : Launch).stages, st.completed = false) ∧ starting.periodDue = false ∧
    ({ starting with mgmt := { kcy := 4096 } } : State).periodDue = true ∧ (starting.launches.map (fun l => l.id)).Nodup := by decide +kernel

/-- A torus of 2 in X, of which this is chip 0, with granules owed to X+. -/
def podded : State := { run with fabric := { def0 := 0x001000 }, flow := { podDirty := [(2 ^ 46, 0), (2 ^ 46 + 1, 1)] } }
theorem witness_LatticeExchangeEvents :
    (let x : Granule := { lat := 1, value := 7, dirty := true }; let s : State := run.onDie 7 (fun d => { d with granules := [(0x400, x)], immediate := true })
     let s : State := { s with flow := { slot := 7 }, dies := s.dies ++ [(8, { time := 875 })], ev := { num := 7 } }
     s.ev.num = s.flow.turn ∧ s.flow.due ≤ 16 * s.keystoneTime ∧ s.flow.switchAt = none ∧
     .badExchange 7 ∉ s.upsets ∧ (s.die 7).granules = [(0x400, x)] ∧ x.home0 = false ∧ x.dirty = true ∧ x.stale = false ∧ (s.die 7).parked = [] ∧
     (s.keystone? 0x400).isSome = true ∧ (s.die 7).immediate = true ∧ s.flow.runDie ≠ 7) ∧
    (let s : State := { run with flow := { slot := 7 }, dies := [(8, { time := 874 })], ev := { num := 7 } }; 16 * s.keystoneTime < s.flow.due) ∧
    (let s : State := { run with upsets := [.badExchange 0] }; s.ev.num = s.flow.turn ∧ s.flow.due ≤ 16 * s.keystoneTime ∧ .badExchange 0 ∈ s.upsets ∧ (s.die 0).immediate = false) ∧
    (let s : State := { run with flow := { runs := 1, runDie := 0 } }; s.flow.runDie = s.ev.num ∧ 16 * s.keystoneTime < s.flow.runs) ∧
    (let p : Parked := { core := 0, cell := 0x10000, lat := 1, theta := 1, dest := .s 5, slot := 0, pc := 0, vaddr := 0, acquire := false }
     let s : State := { (run.onDie 0 (fun d => { d with parked := [p] })) with ev := { num := 0, num2 := 0x10000 } }
     s.tableLost (64 * (s.ev.num2 / 64)) 64 = false ∧ s.badMetadata (span (64 * (s.ev.num2 / 64)) 64) = none ∧ s.wantedGranule 0 (s.ev.num2 / 64) = some (1, 0) ∧ (s.die 0).granule? (s.ev.num2 / 64) = none ∧ (s.keystone? (s.ev.num2 / 64)).isSome = true ∧ run.wantedGranule 0 0x400 = none) ∧
    (let p : Parked := { core := 0, cell := 2 ^ 52, lat := 1, theta := 1, dest := .s 5, slot := 0, pc := 0, vaddr := 0, acquire := false, home := 2 }
     let s : State := { (run.onDie 0 (fun d => { d with parked := [p] })) with ev := { num := 0, num2 := 2 ^ 52 } }
     s.tableLost (64 * (s.ev.num2 / 64)) 64 = false ∧ s.badMetadata (span (64 * (s.ev.num2 / 64)) 64) = none ∧ s.wantedGranule 0 (s.ev.num2 / 64) = some (1, 2) ∧ (s.die 0).granule? (s.ev.num2 / 64) = none ∧ s.keystone? (s.ev.num2 / 64) = none) := by decide +kernel
theorem witness_LatticeExchangeEvents_pod :
    (podded.podPhase = 0 ∧ podded.flow.phase ≠ 0 + 1 ∧ podded.podPartner (phaseDir 0) = some 0 ∧ podded.opens 0 = true ∧
     (podded.flow.podDirty.filter (fun e => decide (e.2 = 0))).length = 1) ∧
    (let s : State := { podded with fabric := { def0 := 0x001001 } }; s.chip = 1 ∧ s.podPhase = 0 ∧ s.podPartner (phaseDir 0) = some 1 ∧ s.opens 0 = false) ∧
    (run.flow.phase ≠ run.podPhase + 1 ∧ run.podPartner (phaseDir run.podPhase) = none ∧ ({ run with flow := { phase := 1 } } : State).flow.phase = run.podPhase + 1) ∧
    (let x : PodExchange := { phase := 0, side := 0, began := 0, sent := [2 ^ 46] }
     let s : State := { podded with flow := { pods := [x] }, dies := [(8, { time := 834 })] }
     s.flow.pods = [x] ∧ 6 * x.began + s.flow.podPeriod ≤ 6 * s.podTime ∧ (∀ k ∈ x.sent, (k, x.side) ∉ s.flow.podDirty) ∧
     6 * podded.podTime < 6 * x.began + s.flow.podPeriod) ∧
    (let x : Granule := { lat := 1, value := 7, home0 := true }; let s : State := run.onDie 0 (fun d => { d with granules := [(0x400, x)] })
     (s.die 0).granule? 0x400 = some x ∧ x.home0 = true ∧ x.wroteAt = none ∧ ({ x with home0 := false } : Granule).home0 = false) ∧
    (let x : Granule := { lat := 1, value := 7, home0 := true, wroteAt := some 0 }; let s := (run.onDie 0 (fun d => { d with granules := [(0x400, x)], time := 999999 }))
     (s.die 0).granule? 0x400 = some x ∧ (s.die 0).time.toNat < 0 + 1000000) := by decide +kernel

def item0 : Item := { expert := 2, gate := 1, token := 5, src := 0, bytes := 32, dest := 9, flag := 5, slot := 1, pc := 0, ctx := 0 }
def slot0 : CairnSlot := { ring := 0, st := 1 }
/-- Cairn bound to launch 0, whose ring 0 has slots of 64 bytes in the mapped page; expert 2 has one active replica. -/
def dispatching (size : Nat) : State :=
  { ((mapped1 plainPage).onMe (fun c => { c with items := [item0] })) with
    launches := [{ launch0 with rings := [{ ring0 with size := size }] }], mason := { slots0 := [(16, slot0)] } }
def cairn (m : Mason) : State := { run with mason := m }
def reps0 : Replication := { e := 0, k := 1, src := 0, srcTid := 0, die := 0, wtid := 0, gtid := 0, frames := 1, status := 0, live := true }
theorem witness_MasonEvents :
    (let s := dispatching 64
     (s.core 0).items = [item0] ∧ s.boundLaunch = some { launch0 with rings := [{ ring0 with size := 64 }] } ∧ s.chooseReplica 0 item0 = some (0, 0) ∧
     (s.mason.chosenSlot 2 (0, 0)).ring = 0 ∧ item0.bytes + 32 ≤ 64 ∧ ({ ring0 with size := 64 } : Ring).freeSlot = some 0 ∧
     (s.core 0).allDone .a (s.ringScope 0 { ring0 with size := 64 }) = true ∧
     (let z := s.onCore 0 (fun k => { k with items := [{ item0 with chosen := some (0, 0) }] })
      (match z.readSource 0 29 0 0 0 32 with | (y, .bytes row []) => decide (y = z) && decide (row.length = 32) | _ => false) = true ∧
      plainBytes (bytesOf (z.checkBytes 0 0 (ring0.slotAddr 0) .store 64)) 64 = true ∧ s.ev.nums = [] ∧ s.unreachable ((bytesOf (z.checkBytes 0 0 (ring0.slotAddr 0) .store 64)).flatMap (fun e => e.2.addrs)) = none) ∧
     s.fabric.requests = [] ∧ (s.core 0).flagRank < 2 ∧ (s.mason.chosenSlot 2 (0, 0)).sent = 0 ∧ s.launch? 0 = s.boundLaunch ∧ item0.flag ≠ 63 ∧ item0.dest ≠ 0 ∧ item0.dest < 32) ∧
    (let s : State := { dispatching 64 with mason := {} }; s.boundLaunch.isSome = true ∧ s.chooseReplica 0 item0 = none) ∧
    (let s : State := { dispatching 64 with launches := [{ launch0 with id := 1 }] }; s.boundLaunch = some { launch0 with id := 1 } ∧ s.launchOn 0 = 0) ∧
    (dispatching 63).boundLaunch.isSome = true ∧ 63 < item0.bytes + 32 ∧ run.boundLaunch = none ∧
    (let m : Mason := { half := 1, mcnt := [(3, 5)] }; m.half.toNat ≠ 0 ∧ (cairn m).mgmt.kcy.toNat % 2 ^ m.half.toNat = 0 ∧ m.decayed ≠ some 0 ∧ (m.mcnt.map (fun e => e.1)).Nodup) ∧
    (let s : State := { cairn { ver1 := 1 } with ev := { word := 1 } }
     s.ev.flag = false ∧ s.mason.ibusy = false ∧ s.ev.word.getLsbD 0 ≠ s.mason.cur ∧ s.publishFault (!s.mason.cur) = none ∧ ({ s with ev := {} } : State).ev.word.getLsbD 0 = s.mason.cur) ∧
    ((cairn {}).mason.ver (!(cairn {}).mason.cur) ≠ (cairn {}).mason.cver + 1 ∧ (cairn { ver1 := 1, slots1 := [(0, { st := 3 })] }).publishFault true = some 2) ∧
    (cairn { reps := List.replicate 4 reps0 }).mason.reps.all (fun r => r.live) = true := by decide +kernel

/-- A replication of tensor 1 as weights and gradients, its page not mapped, with a budget of two pages. -/
def replicating (k : Nat) : State :=
  { (mapped1 0) with mason := { cmd := BitVec.ofNat 64 (2 ^ 44 + 2 ^ 24 + k * 4096), mbud := [(0, 2)], slots0 := [(0, slot0)] }, ev := { nums := [5, 6] } }
theorem witness_MasonEvents_replication :
    (let s := replicating 0; s.mason.freeCommand = some 0 ∧ (s.mason.slot false 0 0).st ≠ 0) ∧
    (let s := replicating 1; let m := s.mason
     m.freeCommand = some 0 ∧ (m.slot false 0 1).st = 0 ∧ (m.slot true 0 1).st = 0 ∧ (m.slot m.cur 0 0).st = 1 ∧
     (look 0 m.muse 0).toNat + (s.pagesOf 0 1 + s.pagesOf 0 1) = (look 0 m.mbud 0).toNat ∧ s.pagesOf 0 1 + s.pagesOf 0 1 = s.ev.nums.length ∧
     (s.desc? 0 1).isSome = true ∧ s.somePage 0 1 = false) ∧
    (let s := cairn { reps := [reps0, { reps0 with live := false }, { reps0 with frames := 0 }] }
     s.mason.reps[0]? = some reps0 ∧ reps0.frames ≠ 0 ∧ s.mason.reps[1]? = some { reps0 with live := false } ∧ s.mason.reps[2]? = some { reps0 with frames := 0 } ∧
     s.tensorPoisoned 0 0 = false ∧ s.masonPages 0 [0] = (s, true) ∧
     (State.copyBytes 0 false (min (s.tensorBytes 0 0) (s.tensorBytes 0 0)) (flatAt 0 0) (flatAt 0 0) s).isSome = true ∧ (s.zeroTensor 0 0).isSome = true) ∧
    (let r := { reps0 with srcTid := 1 }; let s : State := { (mapped1 plainPage).markAll [0x10000] with mason := { reps := [r] } }
     s.mason.reps[0]? = some r ∧ s.tensorPoisoned 0 1 = true ∧ s.masonPages 0 [1] = (s, true) ∧ ((mapped1 0).masonPages 0 [1]).2 = false) := by decide +kernel

/-- Slot 0 of expert 0 drains. -/
def drains (f : Mason → Mason) : State := { cairn (f { slots0 := [(0, { slot0 with st := 2 })] }) with launches := [launch0] }
/-- Tensor 1's page holds GCNT cells; the first counts 5. -/
def counted : State := { (mapped1 (0x1E019 + 256 * 6)).storeLE 0x10000 1 5 with launches := [launch0], mason := { slots0 := [(0, { slot0 with st := 2, sent := placedPc })] } }
/-- Slot 0 of expert 0 is force-retired with an item in ring 0; slot 1 is active, with ring 1. -/
def redirecting0 (full : Bool) : State :=
  { (mapped1 plainPage) with
    launches := [{ launch0 with rings := [{ ring0 with order := [0], slots := [(0, .published)] },
                                          { ring0 with area := placedPc + 128, slots := if full then [(0, .published), (1, .published)] else [] }] }],
    mason := { ibusy := true, forced := [(0, slot0)], load0 := true, slots0 := [(1, { ring := 1, st := 1 })] } }
theorem redirecting0_token (b : Bool) (l : Launch) (token : Word) : (redirecting0 b).chooseSlot l false 0 token = some 1 := by cases b <;> rfl
theorem witness_MasonEvents_drains :
    (let s := drains id; let x : CairnSlot := { slot0 with st := 2 }
     s.mason.draining 0 = some x ∧ s.boundLaunch ≠ none ∧ s.mason.ibusy = false ∧ s.mason.settled.find? (fun y => y.1 = 0) = none ∧ s.countAt 0 x.sent ≤ s.countAt 0 x.cons ∧
     s.mason.en = false) ∧ (drains (fun m => { m with en := true })).mason.en = true ∧ (drains (fun m => { m with ibusy := true })).mason.ibusy = true ∧
    (let m := (drains (fun m => { m with settled := [(0, 3)], en := true, passes := 4, mergeDue := [1] })).mason
     m.settled.find? (fun y => y.1 = 0) = some (0, 3) ∧ m.passes ≤ 3 + m.mergeDue.length ∧ 3 + ({ m with mergeDue := [] } : Mason).mergeDue.length < m.passes) ∧
    (counted.mason.draining 0 = some { slot0 with st := 2, sent := placedPc } ∧ counted.countAt 0 0 < counted.countAt 0 placedPc) ∧
    (let s := redirecting0 false; let l := (s.launches.headD launch0); let r := l.rings.getD 0 ring0; let q := l.rings.getD 1 ring0
     s.mason.ibusy = true ∧ s.mason.forced.find? (fun e => decide (e.1 = 8 * s.ev.num + s.ev.num2) && decide (e.2.dver = s.mason.cver)) = some (0, slot0) ∧ slot0.ring ≠ 1 ∧ s.boundLaunch = some l ∧ s.launch? l.id = some l ∧ l.rings[slot0.ring]? = some r ∧
     r.order.head? = some 0 ∧ (s.mason.slot s.mason.cur s.ev.num 1).ring = 1 ∧ l.rings[1]? = some q ∧ q.freeSlot = some 0 ∧
     (State.copyBytes 0 true (min r.size q.size) (r.slotAddr 0) (q.slotAddr 0) s).isSome = true) ∧
    (((redirecting0 true).launches.headD launch0).rings.getD 1 ring0).freeSlot = none := by decide +kernel
/-- Slots 0 and 1 of expert 0 are active, with gradient tensors p and q. -/
def twin (s : State) (p q : Nat) : State := { s with mason := { mergeDue := [1], copyDue := [1], slots0 := [(0, { slot0 with wtid := p, gtid := p }), (1, { slot0 with wtid := q, gtid := q })] } }
theorem witness_MasonEvents_merge :
    (let s := twin run 1 2; let m := s.mason
     m.experts = [0] ∧ m.holding 0 [1, 2] = [0, 1] ∧ m.holding 0 [1] = [0, 1] ∧ (m.holding 0 [1, 2]).map (fun k => (m.slot m.cur 0 k).gtid) = [1, 2] ∧ m.mdone = 0 ∧
     s.dimOf 0 1 = s.dimOf 0 2 ∧ s.masonPages 0 [1, 2] = (s, true) ∧ (s.mergeExpert 0 0 [1, 2]).isSome = true ∧
     (State.copyBytes 0 true (s.tensorBytes 0 1) (flatAt 1 0) (flatAt 2 0) s).isSome = true) ∧
    (let s := twin (mapped1 0) 1 2; s.dimOf 0 1 ≠ s.dimOf 0 2) ∧
    (let s := twin (mapped1 0) 1 1; s.dimOf 0 1 = s.dimOf 0 1 ∧ (s.masonPages 0 [1, 1]).2 = false) ∧
    (let s := mapped1 plainPage; s.gradElem 0 1 0 = some (0, false) ∧ s.gradElem 0 1 1 = some (0, false)) ∧
    (((mapped1 plainPage).markAll [0x10000]).gradElem 0 1 0).any (fun x => x.2) = true ∧ run.mason.mergeDue = [] ∧ run.mason.copyDue = [] := by decide +kernel

def ported (s : State) (n : Nat) (x : Port) : State := { s with fabric := { s.fabric with ports := [(n, x)] } }
theorem witness_QueueEvents_commands :
    (takes run = false ∧ good (queued [7]) 7 = true ∧ 7 ≠ 1) ∧ (takes (queued [8]) = true ∧ commandOk ((queued [8]).cmdWord 0) = false) ∧
    (let s := queued [1, 0x0000100000000000]; good s 1 = true ∧ (s.readBytes 0 (BitVec.ofNat 64 (s.cmdWord 0 1)) 6208).isNone = true) ∧
    (let s := queued [2, 24 + 5 * 2 ^ 52]; good s 2 = true ∧ (s.fabric.port (s.cmdWord 0 1 % 32)).asks = [] ∧ (s.fabric.port (s.cmdWord 0 1 % 32)).circuit = .idle ∧
      s.cmdWord 0 1 / 256 % 2 = 0 ∧ (s.fabric.port 24).far ≠ .up) ∧
    (let s := ported (queued [2, 24 + 5 * 2 ^ 52]) 24 { far := .up, farPeer := 5 }; good s 2 = true ∧ (s.fabric.port 24).circuit = .idle ∧ (s.fabric.port 24).farPeer = s.cmdWord 0 1 / 2 ^ 52) ∧
    (let s := ported (queued [2, 24 + 5 * 2 ^ 52]) 24 { circuit := .up, peer := 5 }
     good s 2 = true ∧ (s.fabric.port 24).asks = [] ∧ (s.fabric.port 24).circuit = .up ∧ (s.fabric.port 24).peer = s.cmdWord 0 1 / 2 ^ 52) ∧
    (let s := ported (queued [2, 24 + 5 * 2 ^ 52]) 24 { circuit := .up, peer := 6 }; good s 2 = true ∧ (s.fabric.port 24).peer ≠ s.cmdWord 0 1 / 2 ^ 52) ∧
    (let s := ported (queued [2, 24 + 256 + 5 * 2 ^ 52]) 24 { circuit := .up, peer := 5, state := .training }
     good s 2 = true ∧ s.cmdWord 0 1 / 256 % 2 = 1 ∧ (s.fabric.port 24).state ≠ .up ∧ (s.fabric.port 31).state = .up) ∧
    (let s := queued [2, 31 + 256 + 5 * 2 ^ 52]; good s 2 = true ∧ s.cmdWord 0 1 / 256 % 2 = 1) ∧
    (let s := queued [3, 31]; good s 3 = true ∧ (s.fabric.port 31).waiting = [] ∧ (s.fabric.port 31).state = .up) ∧
    (let s := ported (queued [3, 0]) 0 { state := .draining }; good s 3 = true ∧ (s.fabric.port 0).waiting = [] ∧ (s.fabric.port 0).state = .draining) ∧
    (let s := ported (queued [3, 0]) 0 { state := .failed }; good s 3 = true ∧ (s.fabric.port 0).state ≠ .up ∧ (s.fabric.port 0).state ≠ .draining) ∧
    good (queued [4, 0]) 4 = true ∧ good (ported (queued [4, 0]) 0 { state := .training }) 4 = true ∧
    (let s := ported (queued [4, 0]) 0 { state := .drained }; good s 4 = true ∧ (s.fabric.port 0).waiting = [] ∧ (s.fabric.port 0).state = .drained) ∧
    (let s := { (queued [5, 0, 1]) with host := { tierUp := true } }; good s 5 = true ∧ s.host.tierUp = true ∧ s.host.waiting = []) ∧ good (queued [5, 0, 0]) 5 = true ∧
    good (queued [6]) 6 = true ∧ ((queued [6]).queue 0).pending = [] ∧ good (queued' [6] (fun q => { q with pending := [(0, 0, false, none)] })) 6 = true ∧
    good (queued' [7, 9] (fun q => { q with pending := [(0, 0, false, none)] })) 7 = true := by decide +kernel

theorem witness_QueueEvents_registers :
    (let s := { (queued' [1] (fun q => { q with waiting := some launch0 })) with launches := [] }; let q := s.queue 0
     q.waiting = some launch0 ∧ q.stopped = false ∧ s.host.checkpoint = none ∧ s.admits launch0 = true ∧ launch0.queue = 0) ∧
    (let l : Launch := { launch0 with stages := [{ stage0 with minc := 2 }] }; (queued [1]).admits l = false) ∧
    (let s := { (queued [7]) with ev := { word := 16 }, mgmt := { ready := true } }; let q := s.queue 0
     s.ev.flag = false ∧ s.ev.num < 16 ∧ 16 ≤ 16 ∧ s.mgmt.ready = true ∧ q.stopped = false ∧ q.log2n ≠ 0 ∧ ((s.ev.word.extractLsb' 0 32 : BitVec 32) - q.head).toNat ≤ 2 ^ q.log2n.toNat) ∧
    (let s := { (queued [7]) with ev := { word := 17 }, mgmt := { ready := true } }; 2 ^ (s.queue 0).log2n.toNat < ((s.ev.word.extractLsb' 0 32 : BitVec 32) - (s.queue 0).head).toNat) ∧
    run.mgmt.down = false ∧ ({ down := true } : Mgmt).down = true ∧
    (let s := queued' [7] (fun q => { q with stopped := true }); (s.queue 0).stopped = true ∧ (s.ev.word.extractLsb' 0 5 : BitVec 5) = 0 ∧ ((4#64).extractLsb' 0 5 : BitVec 5) ≠ 0 ∧
      4 ≤ ((4#64).extractLsb' 0 5 : BitVec 5).toNat ∧ ((17#64).extractLsb' 0 5 : BitVec 5).toNat > 16) ∧
    ((queued [7]).queue 0).head ≠ ((queued [7]).queue 0).tail ∧ (run.queue 0).head = (run.queue 0).tail ∧ run.host.checkpoint = none ∧
    (let c : Checkpoint := { queue := 0, index := 0, tag := 0, irq := false, base := 980606976000, hold := true }
     let s (g : State) : State := { g with host := { checkpoint := some c, tierUp := true } }
     (s run).isQuiet = false ∧ (s State.reset).isQuiet = true ∧ Memory.wf (s State.reset).mem = true ∧ (∀ e ∈ (s State.reset).mem, e.1 < 2 ^ 52) ∧
     (∀ e ∈ (s State.reset).dies, e.2.granules = []) ∧ (s State.reset).host.waiting = [] ∧ c.base ≤ 980606976000) := by decide +kernel

def record0 : Record := { cause := 0x75 }
/-- A log of 64 entries at 0x4000, one record held at die 8. -/
def logging (e : EventLog) : State := { run with log := { e with base := if e.base = 0 then 0x4000 else e.base, held := [(8, [record0])] }, ev := { num := 8 } }
theorem witness_LogRegisterEvents :
    (let s := logging { log2n := 6 }
     (∀ l ∈ s.launches, l.state = .running ∨ l.state = .completed ∨ l.state = .failed) ∧ look [] s.log.held 8 = [record0] ∧ s.log.blocked = false ∧ s.log.entered ≠ some s.mgmt.kcy ∧ s.log.behind 8 record0.made = false ∧ s.logWritable = true ∧
     record0.ends = none ∧ record0.done = none ∧ record0.evsig = none ∧ record0.sequel = .none) ∧
    (logging { log2n := 6, wr := 64 }).log.blocked = true ∧ (logging { log2n := 6, wr := 63 }).log.blocked = false ∧ look [] run.log.held 8 = [] ∧ run.log.dropped = [] ∧
    (logging { log2n := 6, base := 2 * 2 ^ 48 }).logWritable = false ∧ (logging { log2n := 6, entered := some 0 }).log.entered = some (logging {}).mgmt.kcy ∧
    (let s := logging { log2n := 6 }; let e : EventLog := { s.log with held := [(7, [record0]), (8, [record0])] }; look [] e.held 8 = [record0] ∧ e.behind 8 record0.made = true) ∧
    (let s : State := { logging { log2n := 6, base := 2 * 2 ^ 48 } with dies := [(8, { time := 1000000 })] }
     s.log.base.toNat / 2 ^ 48 % 16 = 2 ∧ s.log.triedAt + 1000000 ≤ (s.die 8).time.toNat) ∧
    (let s : State := { run with ev := { reg := .xfcon, word := 1 }, buses := [(4, { lpc := 0 })], dies := [(8, { time := 10000000 })] }
     s.ev.reg = .xfcon ∧ s.ev.flag = false ∧ (s.bus 4).lpc.toNat ≤ 1 ∧ (s.bus 4).steadySince + 10000000 ≤ (s.die 8).time.toNat) ∧
    (let s : State := { run with ev := { flag := true } }; s.ev.flag = true ∧ s.host.linkUp = false) ∧ run.ev.flag = false ∧
    (run.fabric.cur = false ∧ run.fabric.idleBusy = false ∧ ({ run with ev := { reg := .rtdef 1 } } : State).ev.reg = .rtdef 1) ∧
    (let f : Fabric := { packets := [{ kind := .ack, src := 0, dst := 0, bank := true }] }; f.idleBusy = true) ∧
    ((queued [7]).queue 0).head ≠ ((queued [7]).queue 0).tail ∧ (run.queue 15).head = (run.queue 15).tail ∧
    (look 0 run.atst (unitNumber (.vault 0))).toNat % 32 = 0 ∧ (look 0 ({ run with atst := [(776 + 15, 0x101)] } : State).atst (unitNumber (.slice 15))).toNat % 32 ≠ 0 ∧
    ((look (0, 0) run.mgmt.corrected 0).2 = 0) ∧
    (let m : Mgmt := { corrected := [(0, (5, 1))], reported := [(0, 1)] }; (look (0, 0) m.corrected 0).2 ≠ 0 ∧ look 0 m.reported 0 - 1 + 1000000 ≤ 1000000 ∧ 999999 < look 0 m.reported 0 - 1 + 1000000) ∧
    (let s : State := { run with ev := { num := 7, num2 := 1 } }; s.ev.num < 8 ∧ look 0 s.mgmt.hbmCounts 7 < s.ev.num2) ∧
    (let s : State := { run with ev := { num := 12, pairs := List.replicate 13 (0, BitVec.ofNat 64 (2 ^ 40)) } }
     s.ev.num < 13 ∧ s.ev.pairs.length = 13 ∧ s.pairsHold 12 s.ev.pairs = true) ∧
    (let s : State := { run with ev := { num := 12, pairs := List.replicate 13 (9, BitVec.ofNat 64 (2 ^ 40)) } }; s.pairsHold 12 s.ev.pairs = false) := by decide +kernel

theorem witness_LogRegisterEvents_stopped :
    (let s : State := { run with ev := { flag := true, reg := .mbdata 7 }, host := { linkUp := true }, mgmt := { down := true } }
     s.ev.flag = true ∧ s.mgmt.down = true ∧ inMailbox (.lqtail 0) = false ∧ s.host.linkUp = true ∧ s.ev.reg = .mbdata 7) ∧
    (let l : Launch := { launch0 with state := .failing 0x22 }
     let s : State := { run with launches := [l] }; let x : Access := { id := 3, grp := 3, pc := 0 }
     s.launches = [l] ∧ l.state = .failing 0x22 ∧ s.log.blocked = true ∧ s.log.held = [] ∧ s.failureSettled l = true ∧
     (s.onCore 0 (fun c => { c with outC := [x] })).failureSettled l = false) ∧
    (let m : Mgmt := { polled := [(0, 1)], hbmPolled := [(7, 1)] }; look 0 m.polled 0 ≠ 0 ∧ 999999 < look 0 m.polled 0 - 1 + 1000000 ∧ look 0 m.hbmPolled 7 - 1 + 10000000 ≤ 10000000) := by decide +kernel

theorem witness_ManagementEvents_power :
    (let s : State := { run with dies := [(8, { time := 1000000 })] }; (s.mgmt.windows + 1) * 1000000 ≤ (s.die 8).time.toNat ∧ (run.die 8).time.toNat < (run.mgmt.windows + 1) * 1000000) ∧
    (State.reset.mgmt.powered = false ∧ State.reset.dies.any (fun d => d.2.hot = 3) = false ∧ State.reset.cores = [] ∧ State.reset.ev.fuses.failStep = none ∧ (State.reset.ev.fuses.rows.map (·.1)).Nodup) ∧
    (firstPairsHold State.reset.ev.fuses = true ∧ State.reset.ev.fuses.images[State.reset.mgmt.first]? = some ⟨0, true, 0, 0⟩ ∧ State.reset.ev.fuses.key = 0 ∧ State.reset.ev.fuses.rollback ≤ 0) ∧
    firstPairsHold { pairs := List.replicate 13 (9, BitVec.ofNat 64 (2 ^ 40)) } = false ∧
    (let f : Fuses := { absent := [767], rows := [(0, [], [0, 1, 2, 3, 4])] }; f.failStep = none ∧ (f.rows.map (·.1)).Nodup ∧ (0 : Nat) ∉ f.absent ∧ (0 : Nat) ∉ f.skewFailed ∧
      4 < (([0, 1, 2, 3, 4] : List Nat).filter (fun p => decide (p < 68))).eraseDups.length) ∧
    (let f : Fuses := { images := [⟨7, false, 0, 0⟩, ⟨8, true, 0, 0⟩] }; f.images[1 - 0]? = some ⟨8, true, 0, 0⟩ ∧ (∀ j, f.images[0]? = some j → j.signed = false)) ∧
    (let f : Fuses := { images := [⟨7, true, 1, 0⟩, ⟨8, true, 0, 3⟩], rollback := 4 }; (∀ i ∈ f.images, ¬(i.signed = true ∧ i.key = f.key ∧ f.rollback ≤ i.version)) ∧ firstPairsHold f = true) ∧
    (let f : Fuses := { failStep := some 5 }; f.failStep = some 5 ∧ 1 ≤ (5#3).toNat ∧ (5#3).toNat ≤ 5 ∧ firstPairsHold f = true) ∧
    (let s : State := { run with dies := [(12, { hot := 2 })], ev := { num := 12, num2 := 114 } }
     s.ev.num < 13 ∧ (s.die 12).hot = 2 ∧ (s.die 12).hot < 3 ∧ 105 ≤ s.ev.num2 ∧ s.ev.num2 < 115 ∧ (s.die 0).hot ≠ 2) ∧
    (let s : State := { run with dies := [(0, { hot := 1 })], ev := { num2 := 94 } }; s.ev.num2 < 95 ∧ (s.die 0).hot = 1) ∧
    ((run.die 0).hot ≠ 1 ∧ 95 ≤ 104 ∧ 104 < 105 ∧ 105 ≤ 105) ∧ run.host.checkpoint = none := by decide +kernel

def mailed (x : Word) : State := { run with mgmt := { mbdata := [(0, x)] } }
theorem witness_ManagementEvents_mailbox :
    (run.mgmt.mbBusy = false ∧ run.mgmt.fail = false) ∧ (let m : Mgmt := { mbBusy := true, mbOp := 2 }; m.mbBusy = true ∧ m.mbOp ≠ 1 ∧ m.mbOp = 2) ∧
    (let m : Mgmt := { fail := true }; m.fail = true ∧ m.step = 0) ∧ (2 ≤ (look 0 (mailed 2).mgmt.mbdata 0).toNat ∧ (look 0 (mailed 1).mgmt.mbdata 0).toNat < 2) ∧
    (14 < (15#64).toNat ∧ (14#64).toNat ≤ 14) ∧
    (let x := 767#64 + BitVec.ofNat 64 (2 * 2 ^ 16); (run.core (x.toNat % 1024)).present = false ∧ x.toNat / 2 ^ 16 % 4 = 2) ∧
    (let x := BitVec.ofNat 64 (2 * 2 ^ 16 + 3 * 2 ^ 18); (run.core (x.toNat % 1024)).present = true ∧ x.toNat / 2 ^ 16 % 4 = 2) ∧ placedTask.gangWait = false ∧ run.me.task = some placedTask ∧
    (1#64).toNat % 65536 ≠ 0 ∧ (65536#64).toNat % 65536 = 0 ∧ (queued [7]).queuesIdle = false ∧
    (let s : State := { ((mailed 0).storeLE (tierKey 0 imageHeader) 1 1) with host := { tierUp := true } }
     s.queuesIdle = true ∧ s.host.tierUp = true ∧ s.host.checkpoint = none ∧ (s.load (span (tierKey 0 imageHeader) 64)).all (fun b => b = 0) = false) ∧
    ((mailed 0).restore 0).isNone = true ∧
    (run.ev.flag = false ∧ run.ev.fuses.images = [⟨0, true, run.mgmt.fusedKey, run.mgmt.rollback⟩] ∧ run.mgmt.update = [] ∧ run.mgmt.flash = [] ∧ (look 0 run.mgmt.mbdata 0).toNat + 48 ≤ 2 ^ 64 ∧
      ¬(({ fusedKey := 1 } : Mgmt).fusedKey = 0)) := by decide +kernel
/-- The second tier holds the header of an image at 0, and the module knows that image. -/
def headed : State := { ((mailed 0).storeLE (tierKey 0 imageHeader) 1 1) with host := { tierUp := true } }
def imaged : State :=
  { headed with host := { tierUp := true, images := [{ base := 0, header := headed.load (span (tierKey 0 imageHeader) 65536), tag := 0, time := 0, seq := 0, heads := [], launches := [] }] } }
theorem imaged_reads (l : List Nat) : imaged.load l = headed.load l := by
  unfold State.load; exact congrArg (fun f => l.map f) (show imaged.byte = headed.byte from rfl)
theorem headed_starts (n : Nat) : (headed.load (span (tierKey 0 imageHeader) (64 + n))).take 64 = headed.load (span (tierKey 0 imageHeader) 64) := by
  rw [span_split, State.load, List.map_append, List.take_append_of_le_length (by rw [List.length_map, span_length]),
    List.take_of_length_le (by rw [List.length_map, span_length])]; rfl
theorem headed_nonzero : (headed.load (span (tierKey 0 imageHeader) 64)).all (fun b => b = 0) = false := by decide +kernel
theorem restore_known {s : State} {base : Nat} {h : List Byte} {i : Image} (hl : s.load (span (tierKey base imageHeader) 65536) = h)
    (hz : (h.take 64).all (fun b => b = 0) = false) (hi : s.host.images = [i]) (hb : i.base = base) (hh : i.header = h) : ∃ t, s.restore base = some t := by
  unfold State.restore
  simp only [hl, hz, hi, hb, hh, List.find?, decide_true, Bool.and_self]
  exact ⟨_, rfl⟩
theorem witness_ManagementEvents_restored : (∃ t, imaged.restore 0 = some t) ∧ imaged.queuesIdle = true ∧ imaged.host.tierUp = true ∧ imaged.host.checkpoint = none := by
  have hz := headed_starts 65472
  rw [show 64 + 65472 = 65536 from rfl] at hz
  exact ⟨restore_known (imaged_reads _) (by rw [hz]; exact headed_nonzero) rfl rfl rfl, by decide +kernel, rfl, rfl⟩

theorem witness_ManagementEvents_host :
    (let s : State := { run with host := { linkUp := true }, ev := { num := 7, host := .read 8 } }
     s.host.linkUp = true ∧ s.ev.num < 2 ^ s.host.bar2 ∧ s.checkpointHolds = false ∧ s.upsets = [] ∧ 7 + 8 ≤ 2 ^ 48 ∧ ∀ i, i < 8 → s.mapped (7 + i) = true ∧ s.poisoned (7 + i) = false) ∧
    (let c : Checkpoint := { queue := 0, index := 0, tag := 0, irq := false, base := 0, hold := false }
     let s : State := { run with host := { linkUp := true, checkpoint := some c }, cores := [] }; s.checkpointHolds = true ∧ s.ev.num < 2 ^ s.host.bar2 ∧ 2 ^ s.host.bar2 ≤ 2 ^ 36) ∧
    (let s : State := { run with host := { linkUp := true, bar2 := 36 }, ev := { num := 64000000000 - 1, host := .write [1, 2] } }
     s.ev.num < 2 ^ s.host.bar2 ∧ s.mapped (64000000000 - 1) = true ∧ s.mapped (64000000000 - 1 + 1) = false) ∧
    run.host.linkUp = false ∧ run.mgmt.powered = false ∧ run.host.tierUp = false ∧ run.mgmt.down = false ∧
    (let s : State := { run with host := { linkUp := true, tierUp := true }, mgmt := { powered := true } }
     s.mgmt.powered = true ∧ s.host.tierUp = true ∧ s.host.checkpoint = none ∧ (∀ e ∈ s.cores, e.2.inSpace .c 2 = [] ∧ e.2.inSpace .a 2 = [] ∧ e.2.inSpace .c 1 = [] ∧ e.2.inSpace .a 1 = [] ∧
       e.2.tq = [] ∧ e.2.ch = [])) ∧
    (let s : State := { run with dies := [(8, { time := 999999 })], host := { correctedAt := some 0 } }; s.ev.pcie = .correctable ∧ s.host.correctedAt = some 0 ∧ (s.die 8).time.toNat < 0 + 1000000) ∧
    run.host.correctedAt = none ∧
    (let x : Access := { id := 3, grp := 3, pc := 0, addrs := [2 * 2 ^ 48] }
     let s : State := { (with0 (fun c => { c with outC := [x] })) with ev := { pcie := .completion 3 1 } }
     ((s.core 0).inSpace .c 2).find? (fun y => y.id = 3) = some x ∧ x.bytes.find? (fun b => decide (paSpace b = 2)) = some (2 * 2 ^ 48)) ∧
    (let s : State := { run with ev := { pcie := .poisonedTlp 0 .c 3 } }; s.ev.pcie = .poisonedTlp 0 .c 3 ∧ (s.core 0).inSpace .c 2 = []) := by decide +kernel

def pkt0 : Packet := { kind := .request, src := 5, dst := 0, seq := 3 }
/-- A packet in the router, on a chip of a torus of 16 × 16 × 16. -/
def packeted (p : Packet) : State := { run with fabric := { packets := [p], def0 := 0xFFF000 } }
def arrived (p : Packet) (t : Word) : State := { run with fabric := { ingress := [(0, p)] }, dies := [(8, { time := t })] }
theorem witness_FabricEvents_routes :
    (let f : Fabric := { def0 := 0xFFF000, ovr0 := [(1, 32 + 7)] }
     pkt0.kind = .request ∧ ({ pkt0 with dst := 4095 } : Packet).dst < 4096 ∧ pkt0.alt = false ∧ (look 0 (f.ovr false) 1).getLsbD 5 = true ∧ (look 0 (f.ovr false) 8).getLsbD 5 = false ∧
     (f.def_ false).toNat % 4096 / 16 ^ 0 % 16 ≠ 8 / 16 ^ 0 % 16) ∧
    (let p := { pkt0 with dst := 8 }; let s := packeted p
     s.fabric.packets[s.ev.num]? = some p ∧ p.kind ≠ .collective ∧ p.kind ≠ .setup ∧ p.dst ≠ s.chip ∧ s.fabric.usable (s.fabric.route p) = true) ∧
    (let p : Packet := { kind := .setup, src := 5, dst := 8, addr := 24 }; let s := packeted p
     s.fabric.packets[s.ev.num]? = some p ∧ p.dst ≠ s.chip ∧ s.fabric.usable (s.fabric.route p) = true ∧ p.pathB = false ∧
     s.fabric.reserved.find? (fun e => e.out = s.fabric.route p) = none ∧
     (let c : CrossPoint := { out := s.fabric.route p, src := 6, dst := 8, port := 24 }; let t : State := { s with fabric := { s.fabric with reserved := [c] } }
      t.fabric.reserved.find? (fun e => e.out = t.fabric.route p) = some c ∧ c.src ≠ p.src ∧ c.src ≠ p.dst)) ∧
    (let p := { pkt0 with dst := 8 }; let s := ported (packeted p) 0 { state := .failed }; s.fabric.takes p.kind (s.fabric.route p) = false ∧ p.kind ≠ .routeBroken) ∧
    (packeted pkt0).chip = 0 ∧ (packeted { pkt0 with what := some (.load 8 [0]) }).fabric.packets[0]?.any (fun p => p.what.isSome) = true ∧
    (let p : Packet := { kind := .collective, src := 5, dst := 0, route := [0] }; let s := packeted p
     s.fabric.packets[0]? = some p ∧ p.kind = .collective ∧ p.route = [0] ∧ (0 : BitVec 16).toNat / 32 % 4 = 0 ∧ s.fabric.usable 0 = true ∧ s.fabric.adders.find? p.partner = none ∧
     (∀ x ∈ s.fabric.plans, x.tag ≠ p.tag) ∧ (2399#16).toNat / 32 % 4 = 2 ∧ (96#16).toNat / 32 % 4 = 3 ∧ (32#16).toNat / 32 % 4 = 1 ∧
     ({ s with fabric := { s.fabric with adders := [{ p with route := [] }] } } : State).fabric.adders.find? ({ p with route := [] } : Packet).partner = some { p with route := [] }) ∧
    ((packeted pkt0).fabric.packets[(packeted pkt0).ev.num2]? = some pkt0 ∧ (packeted pkt0).ev.num3 < pkt0.flits ∧ pkt0.flits ≤ 1 ∧ (packeted pkt0).fabric.ferrlim.toNat ≠ 0 ∧
      (let s := ported (packeted pkt0) 0 { errors := 64 }; s.fabric.ferrlim.toNat < (if s.portTime 0 < (s.fabric.port 0).errorsSince + 1000000 then (s.fabric.port 0).errors + 1 else 1) ∧
        (s.fabric.port 0).state = .up)) := by decide +kernel

theorem witness_FabricEvents_home :
    (let p := { pkt0 with what := some (.load 8 [0]) }; let s := arrived p 16000
     s.fabric.ingress[s.ev.num]? = some (0, p) ∧ p.what = some (.load 8 [0]) ∧ s.chipHalted = false ∧ s.mgmt.down = false ∧ p.held = false ∧ s.ageOf p.src p.issued ≤ 1000 * s.fabric.flife.toNat ∧ s.checkpointHolds = false ∧
     (∀ a ∈ [0], paSpace a ≠ 6 ∧ s.poisoned a = false) ∧ s.unreachable [0] = none ∧ 1000 * s.fabric.flife.toNat < (arrived p 16001).ageOf p.src p.issued) ∧
    (let p := { pkt0 with what := some (.load 8 [0]), held := true }; let s := (arrived p 100000).onMe (fun c => { c with halted := true })
     s.fabric.ingress[0]? = some (0, p) ∧ s.chipHalted = true ∧ p.held = true ∧ 0 + 100000 ≤ (s.die 8).time.toNat) ∧
    (let c : Checkpoint := { queue := 0, index := 0, tag := 0, irq := false, base := 0, hold := false }
     let s := { (arrived { pkt0 with what := some (.load 8 [0]) } 0) with host := { checkpoint := some c }, cores := [] }; s.checkpointHolds = true ∧ s.chipHalted = false ∧ ({ down := true } : Mgmt).down = true) ∧
    (let p := { pkt0 with what := some (.store 8 [0, 1] [7, 8] []) }; p.what = some (.store 8 [0, 1] [7, 8] []) ∧ ([0, 1].map memKey).Nodup ∧ (arrived p 0).unreachable [0, 1] = none) ∧
    (let p := { pkt0 with what := some (.atomic 0 1 false 1 0 8 (span 0 8) 0 0 true) }; let s := arrived p 0; let w := look [] s.fabric.windows 5
     p.what = some (.atomic 0 1 false 1 0 8 (span 0 8) 0 0 true) ∧ (span 0 8).length = atomicBytes 1 ∧ ((span 0 8).map memKey).Nodup ∧ 0 ≠ 10 ∧ w.find? (fun y => y.seq = p.seq) = none ∧ w.length < 1024 ∧ s.unreachable (span 0 (atomicBytes 1)) = none ∧
     (∀ a ∈ span 0 (atomicBytes 1), s.poisoned a = false)) := by decide +kernel
theorem witness_FabricEvents_control :
    (let y : Kept := { seq := 3, cause := some 0 }; [y].find? (fun y => y.seq = pkt0.seq) = some y ∧ y.cause = some 0 ∧ [({ seq := 3 } : Kept)].find? (fun y => y.seq = pkt0.seq) = some { seq := 3 }) ∧
    (let p := { pkt0 with kind := .arm }; let s := arrived p 0; s.fabric.ingress[0]? = some (0, p) ∧ p.kind.isControl = true ∧ p.seq ∉ look [] s.fabric.control 5) ∧
    (let p := { pkt0 with kind := .drainAck }; p.kind.isControl = true) ∧
    (let p := { pkt0 with kind := .fetch, addr := 0x10000 }; let s := arrived p 0
     s.fabric.ingress[0]? = some (0, p) ∧ p.seq ∉ look [] s.fabric.control 5 ∧ paChip p.addr = s.chip ∧ s.upsets = [] ∧ (s.keystone? (p.addr / 64)).isSome = true) ∧
    (let p := { pkt0 with kind := .teardown, addr := 24 }; let s := arrived p 0; s.fabric.ingress[0]? = some (0, p) ∧ p.kind.isControl = true ∧ p.seq ∉ look [] s.fabric.control 5) ∧
    (pkt0.kind.isControl = false ∧ 3 ∈ look [] [(5, [3])] 5) := by decide +kernel
/-- An exchange of phase 0 begun at chip `c` of a torus of 2 in X, and a packet of it from the other chip. -/
def podArrived (c : BitVec 12) (x : PodExchange) (step : Nat) (t : Word) : State :=
  { run with fabric := { def0 := BitVec.ofNat 24 (0x001000 + c.toNat), ingress := [(0, { kind := .control, src := 1 - c.toNat, dst := c.toNat, seq := 3, step := step })] },
             flow := { phase := 1, pods := [x] }, dies := [(8, { time := t })] }
theorem witness_FabricEvents_pod :
    (let x : PodExchange := { phase := 0, side := 1, began := 0 }; let s := podArrived 1 x 1 1041
     s.opens 0 = false ∧ s.flow.pods = [x] ∧ s.neighbour x.side = 0 ∧ s.flow.podDirty = [] ∧ 24 * s.podTime ≤ 24 * s.flow.phaseEnd 0 + s.flow.podPeriod ∧
     24 * s.flow.phaseEnd 0 + s.flow.podPeriod < 24 * (podArrived 1 x 1 1043).podTime ∧ x.got = 0 ∧ x.replied = false ∧ 3 ∉ look [] s.fabric.control 0) ∧
    (let x : PodExchange := { phase := 0, side := 0, began := 0 }; let s := podArrived 0 x 2 0; s.opens 0 = true ∧ s.neighbour x.side = 1 ∧ x.got = 0) ∧
    (let x : PodExchange := { phase := 0, side := 1, began := 0, replied := true }; let s := podArrived 1 x 3 0; s.opens 0 = false ∧ x.replied = true ∧ s.neighbour x.side = 0) := by
  decide +kernel

def req0 : Request := { id := 0, chip := 5, seq := 3, issued := 0, core := 0, strand := .c, access := 7, addr := 5 * 2 ^ 52, what := .load 8 [0] }
def requested (r : Request) (t : Word) : State := { run with fabric := { requests := [r] }, dies := [(0, { time := t })] }
theorem witness_FabricEvents_requester :
    (let s := requested req0 20000
     s.request? s.ev.num = some req0 ∧ req0.id = s.ev.num ∧ s.fabric.requests = [req0] ∧ req0.answered = none ∧ req0.refused = none ∧ req0.isSend = false ∧ req0.access ≠ 2 ^ 64 ∧ req0.access ≠ walkAccess req0.addr ∧
     req0.timing = true ∧ req0.issued + 1000 * s.fabric.ftout.toNat ≤ s.timeOf req0.core ∧ req0.expiries < s.fabric.fretry.toNat ∧ req0.busy = false) ∧
    (let s := requested req0 19999; s.timeOf 0 < req0.issued + 1000 * s.fabric.ftout.toNat) ∧
    (let r := { req0 with expiries := 3 }; (requested r 0).fabric.fretry.toNat ≤ r.expiries ∧ (requested r 0).request? 0 = some r) ∧
    (let r := { req0 with busy := true }; r.busy = true ∧ r.busyAt + 100000 ≤ (requested r 100000).timeOf r.core ∧ (requested r 99999).timeOf r.core < r.busyAt + 100000) ∧
    (let r := { req0 with refused := some 0x26 }; r.refused ≠ none ∧ (requested r 0).request? 0 = some r) ∧
    (let r := { req0 with answered := some [] }; r.answered ≠ none ∧ (requested r 0).request? 0 = some r) := by decide +kernel

def ported' (n : Nat) (x : Port) (t : Word) : State := { (ported run n x) with dies := [(9 + n / 8, { time := t })], ev := { num := n } }
theorem witness_PortCircuitEvents :
    (run.fabric.port 0).state = .up ∧ (let x : Port := { state := .draining, acked := true }; let s := ported' 31 x 100000
      s.fabric.port 31 = x ∧ x.waiting = [] ∧ s.fabric.outbound.any (fun e => e.1 = 31) = false ∧ x.since + 100000 ≤ s.portTime 31 ∧ (ported' 31 x 99999).portTime 31 < x.since + 100000) ∧
    (let s : State := { ported' 0 { state := .draining, acked := true } 100000 with fabric := { ports := [(0, { state := .draining })], outbound := [(0, pkt0)] } }
     s.fabric.outbound.any (fun e => e.1 = 0) = true ∧ (s.fabric.port 0).state = .draining) ∧
    (let x : Port := { state := .training }; (ported' 0 x 2000000).portTime 0 ≤ x.since + 2000000 ∧ x.since + 2000000 < (ported' 0 x 2000001).portTime 0 ∧ x.waiting = []) ∧
    (let x : Port := { state := .draining, acked := true, credits := 1 }; (ported' 0 x 0).fabric.port 0 = x ∧ x.credits ≠ 0) := by decide +kernel
theorem witness_PortCircuitEvents_setup :
    (let c : CrossPoint := { out := 24, src := 1, dst := 5, port := 0 }
     let s : State := { run with fabric := { reserved := [c] }, ev := { num := 0, num2 := 5, num4 := 24 } }
     s.fabric.reserved.find? (fun e => e.out = 24) = some c ∧ ¬(c.src = 0 ∧ c.dst = 5 ∧ c.port = 0) ∧ ¬(c.src = 5 ∧ c.dst = 0 ∧ c.committed = false ∧ 0 < 5) ∧
     s.fabric.reserved.find? (fun e => e.out = 25) = none ∧ 5 ≠ s.chip ∧ 0 = s.chip) ∧
    (let c : CrossPoint := { out := 24, src := 6, dst := 5, port := 3 }
     let s : State := { run with fabric := { reserved := [c] }, ev := { num := 5, num2 := 6, num4 := 24 } }
     s.fabric.reserved.find? (fun e => e.out = 24) = some c ∧ c.src = 6 ∧ c.dst = 5 ∧ c.committed = false ∧ 5 < 6 ∧ 6 ≠ s.chip ∧ ¬(c.src = 5) ∧
     ({ c with committed := true } : CrossPoint).committed = true) ∧
    (let c : CrossPoint := { out := 24, src := 5, dst := 6, port := 0 }
     let s : State := { run with fabric := { reserved := [c] }, ev := { num := 5, num2 := 6, num4 := 24 } }; s.fabric.reserved.find? (fun e => e.out = 24) = some c ∧ c.src = 5 ∧ c.dst = 6 ∧ c.port = s.ev.num3) ∧
    (let x : Port := { circuit := .setup, peer := 2, tries := 6 }; let s : State := { ported run 24 x with fabric := { def0 := 5, ports := [(24, x)] }, ev := { num := 2, num2 := 5, num4 := 24 } }
     s.chip = 5 ∧ (s.fabric.port 24).far = .idle ∧ s.fabric.reserved.find? (fun e => e.out = 24) = none ∧ (s.fabric.port 24).circuit = .setup ∧ 2 < s.chip ∧ (s.fabric.port 24).peer = 2 ∧ x.tries < 7 ∧
     7 ≤ ({ x with tries := 7 } : Port).tries ∧ x.asks = [] ∧ ({ x with circuit := .wait } : Port).circuit = .wait ∧ ({ x with far := .up } : Port).far ≠ .idle ∧
     ¬(({ x with circuit := .up } : Port).circuit = .setup) ∧ ({ x with circuit := .up } : Port).circuit ≠ .idle) := by decide +kernel
theorem witness_PortCircuitEvents_circuits : (run.fabric.port 24).circuit = .idle ∧
    (let x : Port := { circuit := .setup, tries := 6 }; x.circuit = .setup ∧ x.asks = [] ∧ x.tries < 7 ∧ x.circuitSince + 50000 ≤ (ported' 24 x 50000).portTime 24 ∧
      (ported' 24 x 49999).portTime 24 < x.circuitSince + 50000 ∧ 7 ≤ ({ x with tries := 7 } : Port).tries) ∧
    (let x : Port := { circuit := .wait, tries := 7 }; let due := x.circuitSince + 2000 * 2 ^ (x.tries - 1) + run.chip % 8 * 250
      x.circuit = .wait ∧ x.far = .idle ∧ ({ x with far := .locking } : Port).far ≠ .idle ∧ due ≤ (ported' 24 x 128000).portTime 24 ∧ (ported' 24 x 127999).portTime 24 < due) ∧
    (let x : Port := { circuit := .locking, asker := .xcirc 0 62 1 0 0 }; let s := ported' 24 x 20000
      x.circuit = .locking ∧ x.far ≠ .locking ∧ x.waiting = [] ∧ x.active = none ∧ s.portTime 24 ≤ x.circuitSince + 20000 ∧ x.circuitSince + 20000 ≤ s.portTime 24 ∧ x.asks = [] ∧ x.asker = .xcirc 0 62 1 0 0 ∧ (s.core 0).task = some placedTask ∧
      placedTask.launch = 0 ∧ (s.core 0).flagRank < 2 ∧ 62 ≠ 63 ∧ (ported' 24 x 19999).portTime 24 < x.circuitSince + 20000 ∧ x.circuitSince + 20000 < (ported' 24 x 20001).portTime 24) ∧
    (let x : Port := { far := .locking, farPeer := 5 }; let s := ported' 24 x 20000
      x.circuit ≠ .locking ∧ x.far = .locking ∧ s.portTime 24 ≤ x.farSince + 20000 ∧ x.farSince + 20000 ≤ s.portTime 24 ∧ x.asks = [] ∧ x.waiting = [] ∧ x.active = none) ∧
    (let x : Port := { circuit := .tearing }; x.circuit = .tearing ∧ x.asks = []) := by decide +kernel

theorem witness_PortCircuitEvents_lock_fails :
    (let x : Port := { circuit := .locking, asker := .command 0 0 9 false }; let s := ported' 24 x 20000
      x.circuit = .locking ∧ x.circuitSince + 20000 ≤ s.portTime 24 ∧ x.asks = [] ∧ x.asker = .command 0 0 9 false) := by decide +kernel

theorem witness_EncodeDecode : (Instr.add sr0).wf = true ∧ (∃ c, encode (.add sr0) = some c) ∧ decode (.c 0xC181400000000030#64) ≠ none := ⟨by decide, ⟨_, rfl⟩, by decide⟩

/-- Core 0 about to issue its C word. -/
def issuing (s : State) (k : StrandKind) : State := { s with agenda := [.issue 0 k] }
theorem witness_StepRunsDecoded :
    (let s := State.reset.placeCode (.c 0xC181400000000030#64)
     (match s.agenda with | [.issue 0 .c] => true | _ => false) = true ∧ (s.core 0).issues .c = true ∧
     (match s.fetchAt 0 .c ((s.core 0).strand .c).pc with | .word w => decide (w = 0xC181400000000030) | _ => false) = true) ∧
    (let s := issuing (with0 (fun c => { c with halted := true })) .c; (s.core 0).issues .c = false) ∧
    (let s := issuing run .c; (s.core 0).issues .c = true ∧ (match s.fetchAt 0 .c ((s.core 0).strand .c).pc with | .fault => true | _ => false) = true) ∧
    (let s := issuing (mapped1 0) .c; (match s.fetchAt 0 .c ((s.core 0).strand .c).pc with | .pageIn 1 0 => true | _ => false) = true) ∧
    (decode (.c 0xFFFFFFFFFFFFFFFF#64) = none ∧ decode (.o (BitVec.allOnes 128)) = none) ∧
    (∃ i x rest, ({ run with agenda := [.event .strataCommit {}] } : State).agenda = .event i x :: rest ∧ encode i = none) ∧ encode (.add sr0) ≠ none := by
  refine ⟨by decide +kernel, by decide +kernel, by decide +kernel, by decide +kernel, ⟨by decide +kernel, by decide +kernel⟩, ⟨_, _, _, rfl, rfl⟩, by decide⟩

theorem witness_StepKeepsMemory : State.reset.memOk ∧ run.memOk ∧ Memory.wf (mapped1 plainPage).mem = true := ⟨rfl, rfl, by decide +kernel⟩

theorem witness_PreciseFault :
    (let s : State := { run with launches := [launch0] }
     s.me.task = some placedTask ∧ 0xFF < 256 ∧ s.launch? placedTask.launch = some launch0 ∧ launch0.state = .running ∧ s.rclOf 0 0x22 = 6 ∧ s.rclOf 0 0x2A = 2 ∧ s.rclOf 0 0x2B = 4 ∧ s.rclOf 0 0x56 = 5 ∧
     s.rclOf 0 0x2C = 3 ∧ s.log.held = []) ∧
    (run.me.task = some placedTask ∧ run.rclOf 0 0x2C = 3 ∧ run.gangCores 0 = [0] ∧ run.launches = [] ∧ placedTask.region ≠ .discarding) ∧
    (let l : Launch := { launch0 with state := .failing 0x22 }; let s : State := { run with launches := [l] }
     s.rclOf 0 0x2C = 3 ∧ s.launch? placedTask.launch = some l ∧ l.state ≠ .running) := by decide +kernel

theorem witness_ArithmeticFrames : (∃ t, exec (.add sr0) run = .next t) ∧ (∃ t, exec (.fmas sr0) run = .next t) ∧ (∃ t, exec (.vfma vf0) run = .next t) ∧
    (∃ t, exec (.aadd ⟨1, 2, 3, 0⟩) run = .next t) := ⟨⟨_, rfl⟩, ⟨_, rfl⟩, ⟨_, rfl⟩, ⟨_, rfl⟩⟩

/-! ### One step each, with results that the spec's own examples and tables state -/

/-- The issuing core after an instruction. -/
def afterIt (i : Instr) (s : State) : Core := match exec i s with | .next t => t.me | _ => {}

/-- R177's table: division by zero and the overflowing quotient. -/
theorem test_div_corners :
    (afterIt (.div ⟨3, 1, 2, 0⟩) (with0 (fun c => c.setS 1 7))).getS 3 = 0xFFFFFFFFFFFFFFFF ∧
    (afterIt (.rem ⟨3, 1, 2, 0⟩) (with0 (fun c => c.setS 1 7))).getS 3 = 7 ∧
    (afterIt (.div ⟨3, 1, 2, 0⟩) (with0 (fun c => (c.setS 1 0x8000000000000000).setS 2 0xFFFFFFFFFFFFFFFF))).getS 3 = 0x8000000000000000 := by decide +kernel
/-- R176: BFX cuts at bit 63. -/
theorem test_bfx_top : (afterIt (.bfx ⟨3, 1, 2, 0⟩) (with0 (fun c => (c.setS 1 0xF000000000000000).setS 2 (60 + 256 * 63)))).getS 3 = 0xF := by decide +kernel
/-- Chapter 09's example of a narrowing conversion: one quarter of each active lane. -/
theorem test_vcvt_quarter :
    let f : VR := { vd := 10, va := 8, vb := 0, vc := 14, pg := 1, bs := 0, rm := 0, sat := 1, ty := 0, sub := 0 }
    let v8 : Vec := vecOf (fun i => if i = 0 then 0x43FA0000 else if i = 1 then 0x3E99999A else 0)
    let v10 : Vec := vecOf (fun i => if i < 3 then 0x11111111 else 0)
    let c := afterIt (.vcvt f) (with0 (fun c => ((c.setP 1 3).setV 8 v8).setV 10 v10))
    laneOf (c.getV 10) 0 = 0x117E1111 ∧ laneOf (c.getV 10) 1 = 0x112A1111 ∧ laneOf (c.getV 10) 2 = 0x11111111 ∧ c.fpst = { ovf := true, nx := true } := by decide +kernel
/-- R96's example: the tree gives 2^24 + 2 where a sum from lane 0 up would lose both ones. -/
theorem test_vred_tree :
    let v : Vec := vecOf (fun i => if i = 0 then 0x4B800000 else if i = 2 ∨ i = 3 then 0x3F800000 else 0)
    let c := afterIt (.vred { vd := 5, va := 6, vb := 0, vc := 0, pg := 0, bs := 0, rm := 0, sat := 0, ty := 0, sub := 0 }) (with0 (fun c => c.setV 6 v))
    laneOf (c.getV 5) 0 = 0x4B800001 ∧ c.fpst = {} := by decide +kernel
/-- Chapter 04's table of example encodings. -/
theorem test_example_encodings :
    (convert 0 3 0 true false 0x43E00000).1 = 0x7E ∧ (convert 0 2 0 true false 0xC0200000).1 = 0xC100 ∧ (convert 0 10 0 false false 0xC0200000).1 = 0x35 ∧
    (convert 0 10 0 false false 0x43E00000).1 = 0x1F ∧ (convert 0 4 0 true false 0x3E000000).1 = 0x30 := by decide +kernel
/-- R82's example product, −7,053,950 / 2^21. -/
theorem test_lns_product : (match lnsProduct 0x35 0x12 with
    | .fin n m e => decide (n = true) && decide ((m : Rat) * (2 : Rat) ^ e = 7053950 / 2 ^ 21) | _ => false) = true := by decide +kernel
/-- R91's example: the product below 2^−63 of the largest term is dropped. -/
theorem test_mma_truncation : mmaSum [.fin false 1 0, .fin false 1 (-24), .fin false 1 (-70), .fin false 0 0] = 0x3F800000 := by decide +kernel
/-- R365's example: two BF16 partials saturate, in FP32 they do not. -/
theorem test_router_adder : addWire 1 0x7F00 0x7F00 = (0x7F7F, true) ∧ addWire 0 0x7F000000 0x7F000000 = (0x7F800000, false) ∧
    addWire 1 0x7F7F 0x7B00 = (0x7F7F, true) ∧ addWire 0 0x7F7F0000 0x7B000000 = (0x7F7F8000, false) := by decide +kernel
/-- Chapter 03's worked example: element (700, 150) stands at byte 306,040 of the storage. -/
theorem test_layout :
    let d : Desc := { tbase := 0, etype := 1, rank := 2, tid := 0x123, dim := [1000, 300, 1, 1, 1], tdim := [64, 32, 1, 1, 1] }
    d.tb = 4096 ∧ d.bitPos (150 * 1000 + 700) = 8 * 306040 ∧ d.tileOf (150 * 1000 + 700) = 74 := by decide +kernel
/-- R152: a write of p0 changes nothing that is read. -/
theorem test_p0 : ((({} : Core).setP 0 5).getP 0) = BitVec.allOnes 32 := by decide
/-- The placed word runs as the first instruction: LI s1, −2 (R178), then a word of all ones, which is reserved (R396). -/
theorem test_first_step : (match step (State.reset.withFetchWord 64 0x0A8103FFFFFFF800) with | .next t => decide ((t.core 0).getS 1 = 0xFFFFFFFFFFFFFFFE) && decide ((t.core 0).strandC.pc = placedPc + 8) | _ => false) = true := by
  decide +kernel
theorem test_first_step_reserved : (match step (State.reset.placeCode (.c 0xFFFFFFFFFFFFFFFF)) with | .next t => decide ((t.core 0).strandC.pc = placedPc) && ((look [] t.log.held 0).map (fun r => r.cause) = [0]) | _ => false) = true := by
  decide +kernel
/-- Chapter 20's example: a cap of 2,400 W and windows of 2,550, 2,480 and 2,390 W. -/
theorem test_power_windows :
    let w (n : Nat) (s : State) : State := match exec .powerWindow { s with ev := { num := n } } with | .next t => t | _ => s
    let s0 : State := { mgmt := { pcap := 2400, capNow := 2400, clk := 20, hwStep := 20, fwStep := 20, grade := 20 }, dies := [(8, { time := 3000000 })] }
    (w 2550 s0).mgmt.clk = 19 ∧ (w 2480 (w 2550 s0)).mgmt.clk = 18 ∧ (w 2390 (w 2480 (w 2550 s0))).mgmt.clk = 18 := by decide +kernel
/-- R3: memory is little-endian. -/
theorem test_store_order : leBytes 4 0x12345678 = [0x78, 0x56, 0x34, 0x12] := by decide

end Sys2Proof.Tests
end

section
/-! PROOF. Memory keeps its canonical form (O57). For every operation of the model, in the order of the model's files, one lemma: a
`_mem` lemma where it leaves memory as it was, a `_wf` lemma where it writes memory. An instruction is done with what its `Did` says
(`_didOk`), and ends in a next state (`_nextOk`). -/

namespace Sys2Proof.Machine

/-! ### The goal -/

/-- What an instruction did, where it left a state, left memory in its canonical form. -/
def DidOk : Did → Prop
  | .done t => Memory.wf t.mem = true
  | .jump _ t => Memory.wf t.mem = true
  | .goto t => Memory.wf t.mem = true
  | .wait _ t => Memory.wf t.mem = true
  | .trap _ _ _ => True

/-- The answer is a next state, with memory in its canonical form. -/
def NextOk (r : Result) : Prop := ∃ t, r = .next t ∧ t.memOk

@[simp] theorem didOk_done (t : State) : DidOk (.done t) ↔ Memory.wf t.mem = true := Iff.rfl
@[simp] theorem didOk_jump (a : Word) (t : State) : DidOk (.jump a t) ↔ Memory.wf t.mem = true := Iff.rfl
@[simp] theorem didOk_goto (t : State) : DidOk (.goto t) ↔ Memory.wf t.mem = true := Iff.rfl
@[simp] theorem didOk_wait (x : Hold) (t : State) : DidOk (.wait x t) ↔ Memory.wf t.mem = true := Iff.rfl
@[simp] theorem didOk_trap (cause : Nat) (addr data : Word) : DidOk (.trap cause addr data) := trivial
@[simp] theorem nextOk_next (t : State) : NextOk (.next t) ↔ Memory.wf t.mem = true := by
  simp [NextOk, State.memOk]

/-! ### Choices and folds -/

@[simp] theorem mem_ite (c : Prop) [Decidable c] (a b : State) : (if c then a else b).mem = if c then a.mem else b.mem :=
  apply_ite State.mem c a b
@[simp] theorem wf_ite (c : Prop) [Decidable c] (a b : List Host.Cell) :
    Memory.wf (if c then a else b) = if c then Memory.wf a else Memory.wf b := apply_ite Memory.wf c a b
@[simp] theorem didOk_ite (c : Prop) [Decidable c] (a b : Did) : DidOk (if c then a else b) ↔ if c then DidOk a else DidOk b :=
  iff_of_eq (apply_ite DidOk c a b)

/-- A fold of changes that leave memory alone leaves it alone. -/
@[simp] theorem foldl_mem {β : Type} {f : State → β → State} (hf : ∀ s b, (f s b).mem = s.mem) (l : List β) (s : State) :
    (l.foldl f s).mem = s.mem := by
  induction l generalizing s with
  | nil => rfl
  | cons b l ih => rw [List.foldl_cons, ih, hf]

@[simp] theorem getD_mem {o : Option State} {s : State} (ho : ∀ t, o = some t → t.mem = s.mem) : (o.getD s).mem = s.mem := by
  cases o with
  | none => rfl
  | some t => exact ho t rfl

/-- A fold of changes of cores leaves memory alone. -/
@[simp] theorem foldl_onCore_mem {β : Type} (g : State → β → Nat) (f : State → β → Core → Core) (l : List β) (s : State) :
    (l.foldl (fun s b => s.onCore (g s b) (f s b)) s).mem = s.mem := foldl_mem (f := fun s b => s.onCore (g s b) (f s b)) (fun _ _ => rfl) l s

/-- A fold of changes that keep the form keeps it. -/
theorem foldl_wf {β : Type} {f : State → β → State} (hf : ∀ s b, Memory.wf s.mem = true → Memory.wf (f s b).mem = true) {s : State}
    (h : Memory.wf s.mem = true) (l : List β) : Memory.wf (l.foldl f s).mem = true := memOk_foldl f hf l s h

theorem getD_wf {o : Option State} {s : State} (h : Memory.wf s.mem = true) (ho : ∀ t, o = some t → Memory.wf t.mem = true) :
    Memory.wf (o.getD s).mem = true := by
  cases o with
  | none => exact h
  | some t => exact ho t rfl

theorem didOk_of_ite {c : Prop} [Decidable c] {a b : Did} (ha : DidOk a) (hb : DidOk b) : DidOk (if c then a else b) := by
  split <;> assumption

/-- Where there is a state, its memory has its canonical form. -/
def OptOk (o : Option State) : Prop := ∀ t, o = some t → Memory.wf t.mem = true

@[simp] theorem optOk_none : OptOk none := fun _ ht => nomatch ht
@[simp] theorem optOk_some (t : State) : OptOk (some t) ↔ Memory.wf t.mem = true :=
  ⟨fun h => h t rfl, fun h _ ht => Option.some.inj ht ▸ h⟩

/-- A step taken where there is a state. -/
theorem optOk_bind {o : Option State} {f : State → Option State} (ho : OptOk o)
    (hf : ∀ t, Memory.wf t.mem = true → OptOk (f t)) : OptOk (o.bind f) := by
  cases o with
  | none => exact optOk_none
  | some t => exact hf t (ho t rfl)

theorem foldl_optOk {β : Type} {f : Option State → β → Option State} (hf : ∀ o b, OptOk o → OptOk (f o b)) {o : Option State}
    (ho : OptOk o) (l : List β) : OptOk (l.foldl f o) := List.foldlRecOn l f ho fun o ho b _ => hf o b ho

/-! ### Memory under Machine/Ops -/

@[simp] theorem State.written_wf {s t : State} (h : Memory.wf s.mem = true) (ht : Memory.wf t.mem = true) :
    Memory.wf (s.written t).mem = true := by simp [State.written, h, ht]

theorem State.mem_of_takeFree {s t : State} {v : Nat} (ht : s.takeFree = (v, t)) : t.mem = s.mem := by
  cases ht
  rfl

@[simp] theorem State.setBytes_wf {s : State} (h : Memory.wf s.mem = true) (as : List Nat) (bs : List Byte) :
    Memory.wf (s.setBytes as bs).mem = true := memOk_setBytes as bs s h

@[simp] theorem State.store_wf {s : State} (h : Memory.wf s.mem = true) (as : List Nat) (bs : List Byte) :
    Memory.wf (s.store as bs).mem = true := memOk_store h as bs

@[simp] theorem State.observe_mem (s : State) (g : Nat) (k : StrandKind) (addrs : List Nat) : (s.observe g k addrs).mem = s.mem := by
  simp [State.observe]

@[simp] theorem State.storeLE_wf {s : State} (h : Memory.wf s.mem = true) (pa n x : Nat) :
    Memory.wf (s.storeLE pa n x).mem = true := memOk_storeLE h pa n x

@[simp] theorem State.markPoison_mem (s : State) (pa : Nat) : (s.markPoison pa).mem = s.mem := by simp [State.markPoison]

@[simp] theorem State.markAll_mem (s : State) (l : List Nat) : (s.markAll l).mem = s.mem := by simp [State.markAll]

@[simp] theorem State.enter_mem (s : State) (r : Record) : (s.enter r).mem = s.mem := by simp [State.enter]

@[simp] theorem State.notice_mem (s : State) (src cause : Nat) (addr data : Word) : (s.notice src cause addr data).mem = s.mem := by
  simp [State.notice]

@[simp] theorem State.completeCommand_mem (s : State) (n : Nat) (index tag : BitVec 32) (irq : Bool) :
    (s.completeCommand n index tag irq).mem = s.mem := by
  simp [State.completeCommand]

@[simp] theorem State.dropEngine_mem (s : State) (g q : Nat) : (s.dropEngine g q).mem = s.mem := by simp [State.dropEngine]

@[simp] theorem State.dropCancelled_mem (s : State) (g : Nat) : (s.dropCancelled g).mem = s.mem := by simp [State.dropCancelled]

@[simp] theorem State.withdrawParked_mem (s : State) (g : Nat) : (s.withdrawParked g).mem = s.mem := by simp [State.withdrawParked]

@[simp] theorem State.withdrawStaged_mem (s : State) (g : Nat) : (s.withdrawStaged g).mem = s.mem := by
  unfold State.withdrawStaged
  split <;> simp

@[simp] theorem State.failCore_mem (s : State) (l g : Nat) : (s.failCore l g).mem = s.mem := by
  simp only [State.failCore]
  (repeat' split) <;> simp

@[simp] theorem State.failLaunch_mem (s : State) (l cause : Nat) : (s.failLaunch l cause).mem = s.mem := by
  unfold State.failLaunch
  (repeat' split) <;> simp

@[simp] theorem State.askExchange_mem (s : State) (d : Nat) : (s.askExchange d).mem = s.mem := by simp [State.askExchange]

@[simp] theorem State.beginDiscard_mem (s : State) (g : Nat) : (s.beginDiscard g).mem = s.mem := by simp [State.beginDiscard]

@[simp] theorem State.beginDiscardAll_mem (s : State) (g : Nat) : (s.beginDiscardAll g).mem = s.mem := by simp [State.beginDiscardAll]

@[simp] theorem State.stopFor_mem (s : State) (g : Nat) (k : StrandKind) (rcl : Nat) : (s.stopFor g k rcl).mem = s.mem := by simp [State.stopFor]

@[simp] theorem State.faultAs_mem (s : State) (g : Nat) (k : StrandKind) (precise : Bool) (cause rcl : Nat) (pc addr data : Word) :
    (s.faultAs g k precise cause rcl pc addr data).mem = s.mem := by
  simp only [State.faultAs]
  split <;> simp

@[simp] theorem State.taskFault_mem (s : State) (g : Nat) (k : StrandKind) (precise : Bool) (cause : Nat) (pc addr data : Word) :
    (s.taskFault g k precise cause pc addr data).mem = s.mem := by
  simp [State.taskFault]

@[simp] theorem State.discardFor_mem (s : State) (g launch stage tidx : Nat) (counts : Bool) :
    (s.discardFor g launch stage tidx counts).mem = s.mem := by
  unfold State.discardFor
  split <;> simp

@[simp] theorem State.raise_mem (s : State) (k : StrandKind) (cause : Nat) (addr data : Word) : (s.raise k cause addr data).mem = s.mem := by
  simp [State.raise]

@[simp] theorem State.resume_mem (s : State) (g : Nat) : (s.resume g).mem = s.mem := by simp [State.resume]

@[simp] theorem State.moduleStop_mem (s : State) : (s.moduleStop).mem = s.mem := by simp [State.moduleStop]

@[simp] theorem State.hwAdd_mem (s : State) (g f : Nat) (x : BitVec 48) : (s.hwAdd g f x).mem = s.mem := by simp [State.hwAdd]

@[simp] theorem State.onPort_mem (s : State) (p : Nat) (f : Port → Port) : (s.onPort p f).mem = s.mem := by simp [State.onPort]

@[simp] theorem State.inject_mem (s : State) (p : Packet) : (s.inject p).mem = s.mem := by simp [State.inject]

@[simp] theorem State.haltCore_mem (s : State) (g : Nat) : (s.haltCore g).mem = s.mem := by simp [State.haltCore]

theorem State.request_mem {s t : State} {g : Nat} {k : StrandKind} {access chip addr : Nat} {what : RequestKind} {isSend : Bool}
    {launch : Nat} {pc : Word} (ht : s.request g k access chip addr what isSend launch pc = some t) : t.mem = s.mem := by
  simp only [State.request, Option.ite_none_left_eq_some, Option.some.injEq] at ht
  exact ht.2 ▸ rfl

/-- Where the request is refused the state stands as it was. -/
@[simp] theorem State.request_getD_mem (s : State) (g : Nat) (k : StrandKind) (access chip addr : Nat) (what : RequestKind) (isSend : Bool)
    (launch : Nat) (pc : Word) : ((s.request g k access chip addr what isSend launch pc).getD s).mem = s.mem :=
  getD_mem fun _ ht => State.request_mem ht

@[simp] theorem State.spoilLines_mem (s : State) (a : Nat) : (s.spoilLines a).mem = s.mem := by simp [State.spoilLines]

@[simp] theorem State.spoilAt_mem (s : State) (bytes : List Nat) : (s.spoilAt bytes).mem = s.mem := by
  refine foldl_mem (fun t u => ?_) ..
  split <;> simp

/-! ### Memory under Machine/Translate -/

@[simp] theorem State.askTable_mem (s : State) (g : Nat) (k : StrandKind) (pa n : Nat) : (s.askTable g k pa n).mem = s.mem := by
  simp [State.askTable]

@[simp] theorem State.holdTable_mem (s : State) (pa : Nat) (bytes : List Byte) : (s.holdTable pa bytes).mem = s.mem := by simp [State.holdTable]

@[simp] theorem State.writeTable_wf {s : State} (h : Memory.wf s.mem = true) (pa n x : Nat) : Memory.wf (s.writeTable pa n x).mem = true := by
  simp [State.writeTable, h]

@[simp] theorem State.dropInvalid_mem (s : State) (ctx tensor page : Nat) : (s.dropInvalid ctx tensor page).mem = s.mem := by
  unfold State.dropInvalid
  split <;> simp

@[simp] theorem State.requestPage_mem (s : State) (who : PageAsker) (ctx tensor page : Nat) : (s.requestPage who ctx tensor page).mem = s.mem := by
  simp [State.requestPage]

@[simp] theorem State.writeUnit_wf {s : State} (h : Memory.wf s.mem = true) (u a x : Nat) : Memory.wf (s.writeUnit u a x).mem = true := by
  simp [State.writeUnit, h]

@[simp] theorem State.storeUnits_wf (as : List Nat) : ∀ {s : State} (u x : Nat), Memory.wf s.mem = true →
    Memory.wf (s.storeUnits u as x).mem = true := by
  induction as with
  | nil => intro s u x h; simp [State.storeUnits, h]
  | cons a as ih => intro s u x h; simp [State.storeUnits, h, ih]

/-! ### Memory under Machine/Issue -/

@[simp] theorem State.plumbMismatch_mem (s : State) (k : StrandKind) : (s.plumbMismatch k).mem = s.mem := by simp [State.plumbMismatch]

@[simp] theorem State.settle_wf {s : State} (h : Memory.wf s.mem = true) (k : StrandKind) {d : Did} (hd : DidOk d) :
    Memory.wf (s.settle k d).mem = true := by
  cases d <;> simp_all [State.settle]

/-- Issue answers a next state; it keeps the form where the instruction's own act does. -/
@[simp] theorem nextOk_issue {f : Form} {body : State → Did} {s : State} (h : Memory.wf s.mem = true) (hb : DidOk (body s)) :
    NextOk (issue f body s) := by
  simp only [issue, nextOk_next]
  (repeat' split) <;> simp [h, hb]

@[simp] theorem issueCore_nextOk {s : State} (h : Memory.wf s.mem = true) (f : Form) (body : Core → Core) :
    NextOk (issueCore f body s) := nextOk_issue h (by simp [h])

@[simp] theorem State.sealMine_mem (s : State) : (s.sealMine).mem = s.mem := by simp [State.sealMine]

@[simp] theorem State.waitPage_didOk {s : State} (h : Memory.wf s.mem = true) (k : StrandKind) (tensor page : Nat) :
    DidOk (s.waitPage k tensor page) := by
  simp [State.waitPage, h]

@[simp] theorem State.waitTable_didOk {s : State} (h : Memory.wf s.mem = true) (k : StrandKind) (pa n : Nat) : DidOk (s.waitTable k pa n) := by
  simp [State.waitTable, h]

@[simp] theorem State.addAccess_mem (s : State) (k : StrandKind) (x : Access) : (s.addAccess k x).mem = s.mem := by simp [State.addAccess]

@[simp] theorem State.addAccesses_mem (s : State) (k : StrandKind) (l : List Access) : (s.addAccesses k l).mem = s.mem := by simp [State.addAccesses]

theorem State.nextWord_other_mem {s t : State} {k : StrandKind} (ht : s.nextWord k = .other t) : t.mem = s.mem := by
  unfold State.nextWord at ht
  cases hf : s.fetchAt s.cur k (s.me.strand k).pc with
  | word w =>
    cases hd : decode (codeOf k w) with
    | some i => simp [hf, hd] at ht
    | none => simp only [hf, hd, Next.other.injEq] at ht; simp [← ht]
  | fault => simp only [hf, Next.other.injEq] at ht; simp [← ht]
  | pageIn te p => simp only [hf, Next.other.injEq] at ht; simp [← ht]
  | walk pa n => simp only [hf, Next.other.injEq] at ht; simp [← ht]

/-! ### Memory under Machine/Lattice -/

@[simp] theorem State.testParked_mem (s : State) (d : Nat) : (s.testParked d).mem = s.mem := by
  refine (foldl_mem (fun t p => ?_) ..).trans (State.onDie_mem ..)
  split <;> simp [State.completeParked]

@[simp] theorem State.mergeAtDie_mem (s : State) (d k : Nat) (v : BitVec 512) : (s.mergeAtDie d k v).mem = s.mem := by simp [State.mergeAtDie]

@[simp] theorem State.markStale_mem (s : State) (k : Nat) : (s.markStale k).mem = s.mem := by simp [State.markStale]

@[simp] theorem State.setKeystone_wf {s : State} (h : Memory.wf s.mem = true) (k : Nat) (lat : Nat) (pod : Bool) (v : BitVec 512) :
    Memory.wf (s.setKeystone k lat pod v).mem = true := by
  simp [State.setKeystone, h]

@[simp] theorem State.know_mem (s : State) (k lat : Nat) : (s.know k lat).mem = s.mem := by simp [State.know]

@[simp] theorem State.mergeAtKeystone_wf {s : State} (h : Memory.wf s.mem = true) (k lat : Nat) (pod : Bool) (v : BitVec 512) :
    Memory.wf (s.mergeAtKeystone k lat pod v).mem = true := by
  unfold State.mergeAtKeystone
  split <;> simp [h]

@[simp] theorem State.joinAtDie_mem (s : State) (d lat pa x : Nat) (slot : Nat) : (s.joinAtDie d lat pa x slot).mem = s.mem := by
  simp [State.joinAtDie]

/-! ### Memory under Machine/Fabric -/

@[simp] theorem State.injectControl_mem (s : State) (p : Packet) : (s.injectControl p).mem = s.mem := by simp [State.injectControl]

@[simp] theorem State.askHome_mem (s : State) (k lat : Nat) : (s.askHome k lat).mem = s.mem := by simp [State.askHome]

@[simp] theorem State.onRequest_mem (s : State) (id : Nat) (f : Request → Request) : (s.onRequest id f).mem = s.mem := by simp [State.onRequest]

@[simp] theorem State.reissue_mem (s : State) (r : Request) (alt : Bool) : (s.reissue r alt).mem = s.mem := by simp [State.reissue]

@[simp] theorem State.lateFault_mem (s : State) (g : Nat) (k : StrandKind) (launch cause : Nat) (pc addr data : Word) :
    (s.lateFault g k launch cause pc addr data).mem = s.mem := by
  unfold State.lateFault
  split <;> simp

@[simp] theorem State.onPlan_mem (s : State) (g send : Nat) (f : Plan → Plan) : (s.onPlan g send f).mem = s.mem := by simp [State.onPlan]

@[simp] theorem State.respond_mem (s : State) (chip seq cause : Nat) (bytes : List Byte) (marks : List Nat) :
    (s.respond chip seq cause bytes marks).mem = s.mem := by
  simp [State.respond]

@[simp] theorem State.respondError_mem (s : State) (chip seq cause addr : Nat) : (s.respondError chip seq cause addr).mem = s.mem := by
  simp [State.respondError]

@[simp] theorem State.dropPieces_mem (s : State) (p : Piece → Bool) : (s.dropPieces p).mem = s.mem := by simp [State.dropPieces]

@[simp] theorem State.ackSend_mem (s : State) (g id : Nat) : (s.ackSend g id).mem = s.mem := by simp [State.ackSend]

@[simp] theorem State.donePiece_mem (s : State) (p : Piece) : (s.donePiece p).mem = s.mem := by
  unfold State.donePiece
  (repeat' split) <;> simp

@[simp] theorem State.failPiece_mem (s : State) (p : Piece) (cause : Nat) (addr : Word) (data : Word) :
    (s.failPiece p cause addr data).mem = s.mem := by
  simp only [State.failPiece]
  (repeat' split) <;> simp

@[simp] theorem State.circuitEnds_mem (s : State) (p : Nat) (a : Asker) (ok : Bool) (release : Bool) :
    (s.circuitEnds p a ok release).mem = s.mem := by
  unfold State.circuitEnds
  (repeat' split) <;> simp

@[simp] theorem State.sendSetup_mem (s : State) (p : Nat) : (s.sendSetup p).mem = s.mem := State.injectControl_mem ..

@[simp] theorem State.beginDrain_mem (s : State) (p : Nat) (active : Option PortCommand) : (s.beginDrain p active).mem = s.mem := by
  simp [State.beginDrain]

@[simp] theorem State.pumpCircuit_mem (p n : Nat) : ∀ s : State, (s.pumpCircuit p n).mem = s.mem := by
  induction n with
  | zero => exact fun _ => rfl
  | succ n ih =>
    intro s
    simp only [State.pumpCircuit]
    (repeat' split) <;> simp [ih]

@[simp] theorem State.pumpPortCircuit_mem (s : State) (p : Nat) : (s.pumpPortCircuit p).mem = s.mem := by simp [State.pumpPortCircuit]

@[simp] theorem State.askCircuit_mem (s : State) (p peer : Nat) (release : Bool) (a : Asker) : (s.askCircuit p peer release a).mem = s.mem := by
  simp [State.askCircuit]

@[simp] theorem State.landQua_mem (s : State) (r : Request) : (s.landQua r).mem = s.mem := by simp [State.landQua]

@[simp] theorem State.loseSum_mem (s : State) (q : Qua) (cause : Nat) (addr data : Word) : (s.loseSum q cause addr data).mem = s.mem := by
  unfold State.loseSum
  split <;> simp

@[simp] theorem State.breakPlan_mem (s : State) (g : Nat) : (s.breakPlan g).mem = s.mem := by simp [State.breakPlan]

@[simp] theorem State.endRequest_mem (s : State) (r : Request) (cause : Nat) (addr data : Word) :
    (s.endRequest r cause addr data).mem = s.mem := by
  unfold State.endRequest
  dsimp only
  split
  · rw [State.landQua_mem]; split <;> simp
  · split
    · simp
    · split
      · simp
      · split
        · split <;> simp
        · rw [State.lateFault_mem, mem_ite, mem_ite, State.breakPlan_mem, State.onCore_mem, State.onCore_mem, ite_self, ite_self]
          rfl

@[simp] theorem State.dropRequest_mem (s : State) (r : Request) : (s.dropRequest r).mem = s.mem := by simp [State.dropRequest]

@[simp] theorem State.settleWalk_mem (s : State) (r : Request) : (s.settleWalk r).mem = s.mem := by
  unfold State.settleWalk
  split <;> simp

@[simp] theorem State.settleRequest_mem (s : State) (r : Request) : (s.settleRequest r).mem = s.mem := by
  unfold State.settleRequest
  (repeat' split) <;> simp

@[simp] theorem State.settleRequests_mem (s : State) : (s.settleRequests).mem = s.mem := by simp [State.settleRequests]

@[simp] theorem State.expire_mem (s : State) (r : Request) (broken : Option Nat) : (s.expire r broken).mem = s.mem := by simp [State.expire]

/-! ### Memory under Machine/Atomics -/

@[simp] theorem State.accrueUnit_mem (s : State) (u : AtomicUnit) (ctx : Nat) (x : Flags) : (s.accrueUnit u ctx x).mem = s.mem := by
  simp [State.accrueUnit]

@[simp] theorem State.loseQua_mem (s : State) (q : Qua) (a : Nat) : (s.loseQua q a).mem = s.mem := by simp [State.loseQua]

@[simp] theorem State.decay_mem (s : State) : (s.decay).mem = s.mem := by simp [State.decay]

@[simp] theorem State.flushQua_wf {s : State} (h : Memory.wf s.mem = true) (d : Nat) (q : Qua) : Memory.wf (s.flushQua d q).mem = true := by
  simp only [State.flushQua]
  split
  · simp [h]
  · split
    · split
      next ht => simp [State.request_mem ht, h]
      · exact h
    · split <;> simp [h]
    · simp [h]

@[simp] theorem State.holdQua_wf {s : State} (h : Memory.wf s.mem = true) (d : Nat) (q : Qua) : Memory.wf (s.holdQua d q).mem = true := by
  simp only [State.holdQua]
  split <;> simp [h]

@[simp] theorem State.fenceQua_wf {s : State} (h : Memory.wf s.mem = true) (g : Nat) (k : StrandKind) (scope : Nat) :
    Memory.wf (s.fenceQua g k scope).mem = true := foldl_wf (fun _ _ ht => State.flushQua_wf ht ..) h _

@[simp] theorem atomicIssue_didOk {s : State} (h : Memory.wf s.mem = true) (q : AtomicAsk) : DidOk (atomicIssue q s) := by
  simp only [atomicIssue]
  (repeat' split) <;> simp [h]

/-! ### Memory under Machine/Frames -/

@[simp] theorem State.copyFrame_wf {s : State} (h : Memory.wf s.mem = true) (src dst : Nat) : Memory.wf (s.copyFrame src dst).mem = true := by
  simp [State.copyFrame, h]

@[simp] theorem State.dropStale_mem (s : State) (ctx entry : Nat) : (s.dropStale ctx entry).mem = s.mem := by simp [State.dropStale]

@[simp] theorem State.writeEntry_wf {s : State} (h : Memory.wf s.mem = true) (ctx entry : Nat) (w0 w1 : Word) :
    Memory.wf (s.writeEntry ctx entry w0 w1).mem = true := by
  simp [State.writeEntry, h]

@[simp] theorem State.countFrames_mem (s : State) (frame : Nat) (f : Nat → Nat) : (s.countFrames frame f).mem = s.mem := by simp [State.countFrames]

theorem State.evict_wf {s t : State} (h : Memory.wf s.mem = true) {ctx tensor page : Nat} {back : Option Nat} {frame : Nat}
    (ht : s.evict ctx tensor page back frame = some t) : Memory.wf t.mem = true := by
  unfold State.evict at ht
  split at ht
  · cases ht
  · simp only [Option.ite_none_left_eq_some, Option.some.injEq] at ht
    rw [← ht.2]
    cases back <;> simp [h]

@[simp] theorem State.refill_mem (s : State) (who : PageAsker) : (s.refill who).mem = s.mem := by simp [State.refill]

theorem State.refillFrom_wf {s t : State} (h : Memory.wf s.mem = true) {g ctx tensor page : Nat} {back : Option Nat}
    (ht : s.refillFrom g ctx tensor page back = some t) : Memory.wf t.mem = true := by
  simp only [State.refillFrom, Option.ite_none_right_eq_some, Option.map_eq_some_iff] at ht
  obtain ⟨-, u, hu, rfl⟩ := ht
  simp [State.evict_wf h hu]

theorem State.takeFrame_wf {s t : State} (h : Memory.wf s.mem = true) {who : PageAsker} {frame : Nat} {took : FrameFrom}
    (ht : s.takeFrame who frame took = some t) : Memory.wf t.mem = true := by
  unfold State.takeFrame at ht
  dsimp only at ht
  split at ht
  · exact Option.some.inj ht ▸ h
  · cases took with
    | free => simp only [Option.ite_none_right_eq_some, Option.some.injEq] at ht; simp [← ht.2, h]
    | reserve => simp only [Option.ite_none_left_eq_some, Option.some.injEq] at ht; simp [← ht.2, h]
    | page c te p back => simp only [Option.ite_none_left_eq_some] at ht; exact State.evict_wf h ht.2

theorem State.makeResident_wf {s t : State} (h : Memory.wf s.mem = true) {who : PageAsker} {ctx tensor page : Nat} {w0 w1 : Word}
    {src : Option Nat} {took : FrameFrom} (ht : s.makeResident who ctx tensor page w0 w1 src took = some t) :
    Memory.wf t.mem = true := by
  unfold State.makeResident at ht
  split at ht
  · cases ht
  · simp only [Option.ite_none_left_eq_some] at ht
    obtain ⟨-, ht⟩ := ht
    split at ht
    · cases ht
    next u hu =>
      have hu := State.takeFrame_wf (by simp [h]) hu
      rw [← Option.some.inj ht]
      cases src <;> simp [hu]

@[simp] theorem State.returnFrames_wf {s : State} (h : Memory.wf s.mem = true) (who : PageAsker) : Memory.wf (s.returnFrames who).mem = true := by
  unfold State.returnFrames
  refine foldl_wf (fun t x ht => ?_) h _
  (repeat' split) <;> simp [ht]

@[simp] theorem State.setPin_wf {s : State} (h : Memory.wf s.mem = true) (ctx tensor page : Nat) (pin : Bool) :
    Memory.wf (s.setPin ctx tensor page pin).mem = true := by
  unfold State.setPin
  split <;> simp [h]

@[simp] theorem State.pinFor_wf {s : State} (h : Memory.wf s.mem = true) (l ctx tensor page : Nat) :
    Memory.wf (s.pinFor l ctx tensor page).mem = true := by
  simp [State.pinFor, h]

@[simp] theorem State.endPins_wf {s : State} (h : Memory.wf s.mem = true) (l : Nat) : Memory.wf (s.endPins l).mem = true := by
  unfold State.endPins
  exact foldl_wf (fun t x ht => by simp [ht]) (by simp [h]) _

/-! ### Memory under Machine/Regions -/

@[simp] theorem State.restorePrior_wf {s : State} (h : Memory.wf s.mem = true) {α : Type} (g : Nat) (w : CommandWindow α) :
    Memory.wf (s.restorePrior g w).mem = true := by
  simp [State.restorePrior, h]

@[simp] theorem State.replayCore_wf {s : State} (h : Memory.wf s.mem = true) (g : Nat) : Memory.wf (s.replayCore g).mem = true := by
  simp [State.replayCore, h]

@[simp] theorem State.replayO_wf {s : State} (h : Memory.wf s.mem = true) (g : Nat) : Memory.wf (s.replayO g).mem = true := by simp [State.replayO, h]

@[simp] theorem State.replayWindows_wf {s : State} (h : Memory.wf s.mem = true) (cores : List Nat) (optic : Bool) :
    Memory.wf (s.replayWindows cores optic).mem = true := by
  unfold State.replayWindows
  exact foldl_wf (fun t x ht => by simp [ht]) h _

@[simp] theorem State.gangDiscard_mem (s : State) (g : Nat) : (s.gangDiscard g).mem = s.mem := by simp [State.gangDiscard]

@[simp] theorem State.boundFault_mem (s : State) (g : Nat) (t : Task) : (s.boundFault g t).mem = s.mem := by simp [State.boundFault]

@[simp] theorem State.openRegion_mem (s : State) (g : Nat) (pc : Word) : (s.openRegion g pc).mem = s.mem := by
  simp only [State.openRegion]
  split <;> simp

@[simp] theorem State.deadRegisters_mem (s : State) (g : Nat) : (s.deadRegisters g).mem = s.mem := by simp [State.deadRegisters]

@[simp] theorem State.restartTask_mem (s : State) (g : Nat) (t : Task) : (s.restartTask g t).mem = s.mem := by simp [State.restartTask]

@[simp] theorem State.startTask_mem (s : State) (g : Nat) (t : Task) : (s.startTask g t).mem = s.mem := by simp [State.startTask]

/-! ### Memory under Machine/Scalar -/

@[simp] theorem scalarOp_nextOk {s : State} (h : Memory.wf s.mem = true) (f : SR) (g : Word → Word → Word) : NextOk (scalarOp f g s) := by
  simp [scalarOp, h]

@[simp] theorem scalarImm_nextOk {s : State} (h : Memory.wf s.mem = true) (f : SI) (g : Word → Word → Word) : NextOk (scalarImm f g s) := by
  simp [scalarImm, h]

@[simp] theorem scalarFp_nextOk {s : State} (h : Memory.wf s.mem = true) (f : SR) (g : Nat → Bool → Nat → Nat → Nat → Nat × Flags) :
    NextOk (scalarFp f g s) := by
  simp [scalarFp, h]

/-! ### Memory under Machine/Control -/

@[simp] theorem branchIf_nextOk {s : State} (h : Memory.wf s.mem = true) (f : Form) (target : Core → Word) (taken : Core → Bool) :
    NextOk (branchIf f target taken s) := by
  simp [branchIf, h]

@[simp] theorem loopBody_didOk {s : State} (h : Memory.wf s.mem = true) (k : StrandKind) (n stop : Core → Word) : DidOk (loopBody k n stop s) := by
  simp [loopBody, h]

@[simp] theorem endStrand_didOk {s : State} (h : Memory.wf s.mem = true) (k : StrandKind) : DidOk (endStrand k s) := h

@[simp] theorem execFork_nextOk {s : State} (h : Memory.wf s.mem = true) (f : CT) : NextOk (execFork f s) := by
  unfold execFork
  split <;> simp [h]

@[simp] theorem csrOp_nextOk {s : State} (h : Memory.wf s.mem = true) (f : CT) (op : Nat) : NextOk (csrOp f op s) := by simp [csrOp, h]

@[simp] theorem execSyscall_nextOk {s : State} (h : Memory.wf s.mem = true) (f : CT) : NextOk (execSyscall f s) := by
  refine nextOk_issue h ?_
  dsimp only
  split
  · simp [h]
  · split <;> simp [h]

@[simp] theorem State.pinResident_wf {s : State} (h : Memory.wf s.mem = true) (g ctx : Nat) (a : Word) :
    Memory.wf (s.pinResident g ctx a).mem = true := by
  unfold State.pinResident
  split
  · simp only [mem_ite, wf_ite, h, getD_wf h fun _ ht => State.makeResident_wf h ht, ite_self]
  · exact h

@[simp] theorem execSyscallReply_nextOk {s : State} (h : Memory.wf s.mem = true) : NextOk (execSyscallReply s) := by
  simp only [execSyscallReply]
  split <;> simp [h]

/-! ### Memory under Machine/Groups -/

@[simp] theorem State.passEffects_mem (s : State) (l g : Nat) (e : BitVec 32) (bank : Option Nat) : (s.passEffects l g e bank).mem = s.mem := by
  simp only [State.passEffects]
  (repeat' split) <;> simp

@[simp] theorem State.arrive_mem (s : State) (l g rank : Nat) (bank : Option Nat) : (s.arrive l g rank bank).mem = s.mem := by
  unfold State.arrive
  (repeat' split) <;> simp

/-! ### Memory under Machine/Operands -/

@[simp] theorem State.consumeAt_didOk {s : State} (h : Memory.wf s.mem = true) (k : StrandKind) (addr array : Nat) :
    DidOk (s.consumeAt k addr array) := by
  simp [State.consumeAt, h]

/-! ### Memory under Machine/Sync -/

@[simp] theorem amovIssue_nextOk {s : State} (h : Memory.wf s.mem = true) (f : SY) (cas : Bool) (opcode : Nat) :
    NextOk (amovIssue f cas opcode s) := by
  simp [amovIssue, h]

@[simp] theorem flagChange_didOk {s : State} (h : Memory.wf s.mem = true) (k : StrandKind) (f : Nat) (set : Bool) (v : BitVec 48) (dest : Dest) (slot : Nat) :
    DidOk (flagChange k f set v dest slot s) := by
  simp [flagChange, h]

@[simp] theorem flagWait_didOk {s : State} (h : Memory.wf s.mem = true) (k : StrandKind) (f theta : Nat) (sub : Bool) (dest : Dest) :
    DidOk (flagWait k f theta sub dest s) := by
  simp [flagWait, h]

@[simp] theorem reading_didOk {s : State} (h : Memory.wf s.mem = true) (k : StrandKind) (kind : AccessKind) (dest : Dest) (slot : Nat) :
    DidOk (reading k kind dest slot s) := h

@[simp] theorem tidWait_didOk {s : State} (h : Memory.wf s.mem = true) (n theta : Nat) (dest : Dest) : DidOk (tidWait n theta dest s) := by
  simp [tidWait, h]

theorem ringOp_didOk {f : SY} {opcode : Nat} {user : RingUser} {body : Launch → Task → Ring → State → Did} {s : State}
    (hb : ∀ l t r, DidOk (body l t r s)) : DidOk (ringOp f opcode user body s) := by
  simp only [ringOp]
  (repeat' split) <;> simp [hb]

@[simp] theorem execRclaim_nextOk {s : State} (h : Memory.wf s.mem = true) (f : SY) : NextOk (execRclaim f s) := by
  refine nextOk_issue h (ringOp_didOk fun l t r => ?_)
  split
  · exact didOk_trap ..
  · split <;> simp [h]

@[simp] theorem State.publishSlot_mem (s : State) (l ring slot : Nat) : (s.publishSlot l ring slot).mem = s.mem := by simp [State.publishSlot]

@[simp] theorem execRpub_nextOk {s : State} (h : Memory.wf s.mem = true) (f : SY) : NextOk (execRpub f s) := by
  refine nextOk_issue h (ringOp_didOk fun l t r => ?_)
  split <;> simp [h]

@[simp] theorem execRwfill_nextOk {s : State} (h : Memory.wf s.mem = true) (f : SY) : NextOk (execRwfill f s) :=
  nextOk_issue h (ringOp_didOk fun l t r => by simp [h])

@[simp] theorem execRwfree_nextOk {s : State} (h : Memory.wf s.mem = true) (f : SY) : NextOk (execRwfree f s) :=
  nextOk_issue h (ringOp_didOk fun l t r => by simp [h])

@[simp] theorem execRcons_nextOk {s : State} (h : Memory.wf s.mem = true) (f : SY) : NextOk (execRcons f s) := by
  refine nextOk_issue h (ringOp_didOk fun l t r => ?_)
  split <;> simp [h]

@[simp] theorem execRinfo_nextOk {s : State} (h : Memory.wf s.mem = true) (f : SY) : NextOk (execRinfo f s) :=
  nextOk_issue h (ringOp_didOk fun _ _ _ => reading_didOk h ..)

theorem barrierOp_didOk {f : SY} {opcode : Nat} {body : Nat → Nat → State → Did} {s : State}
    (hb : ∀ l r, DidOk (body l r s)) : DidOk (barrierOp f opcode body s) := by
  simp only [barrierOp]
  (repeat' split) <;> simp [hb]

@[simp] theorem execGarr_nextOk {s : State} (h : Memory.wf s.mem = true) (f : SY) : NextOk (execGarr f s) :=
  nextOk_issue h (barrierOp_didOk fun l r => by simp [h])

@[simp] theorem execGbar_nextOk {s : State} (h : Memory.wf s.mem = true) (f : SY) : NextOk (execGbar f s) := by
  refine nextOk_issue h (barrierOp_didOk fun l r => ?_)
  dsimp only
  split <;> simp [h]

@[simp] theorem execGwait_nextOk {s : State} (h : Memory.wf s.mem = true) (f : SY) : NextOk (execGwait f s) :=
  nextOk_issue h (barrierOp_didOk fun l r => by simp [h])

@[simp] theorem joinIssue_didOk {s : State} (h : Memory.wf s.mem = true) (f : SY) (vector : Bool) (x : Core → Nat → Nat) :
    DidOk (joinIssue f vector x s) := by
  simp only [joinIssue]
  split <;> simp [h]

@[simp] theorem thresholdLoad_didOk {s : State} (h : Memory.wf s.mem = true) (f : SY) (vector : Bool) (theta : Core → Nat → Nat) (dest : Nat → Dest) :
    DidOk (thresholdLoad f vector theta dest s) := by
  simp only [thresholdLoad]
  (repeat' split) <;> simp [h]

@[simp] theorem latticeLoad_didOk {s : State} (h : Memory.wf s.mem = true) (f : SY) (vector : Bool) (dest : Dest) :
    DidOk (latticeLoad f vector dest s) := by
  simp only [latticeLoad]
  split <;> simp [h]

/-! ### Memory under Machine/AccessStrand -/

@[simp] theorem arOp_nextOk {s : State} (h : Memory.wf s.mem = true) (f : AR) (g : Word → Word → Word) : NextOk (arOp f g s) := by simp [arOp, h]

@[simp] theorem reserved_didOk (i : Instr) : DidOk (reserved i) := trivial

@[simp] theorem execDld_nextOk {s : State} (h : Memory.wf s.mem = true) (f : AT) : NextOk (execDld f s) := by
  refine nextOk_issue h ?_
  extract_lets x pa bad
  have hbad : DidOk bad := by simp [bad, h]
  clear_value bad
  refine didOk_of_ite h (didOk_of_ite hbad (didOk_of_ite (State.waitTable_didOk h ..) (didOk_of_ite h ?_)))
  split
  · exact hbad
  · simp [h]

theorem withSlot_didOk {f : AT} {body : Desc → State → Did} {s : State} (h : Memory.wf s.mem = true)
    (hb : ∀ d, DidOk (body d s)) : DidOk (withSlot f body s) := by
  simp [withSlot, h, hb]

@[simp] theorem execDset_nextOk {s : State} (h : Memory.wf s.mem = true) (f : AT) : NextOk (execDset f s) :=
  nextOk_issue h (withSlot_didOk h fun d => by simp [h])

@[simp] theorem execAlds_nextOk {s : State} (h : Memory.wf s.mem = true) (f : AT) : NextOk (execAlds f s) := by
  refine nextOk_issue h ?_
  dsimp only
  split <;> simp [h]

theorem State.storeSeals_didOk {s : State} (h : Memory.wf s.mem = true) {d : Desc} {pages : List Nat} {rows : Bool} {x : Did}
    (hx : s.storeSeals d pages rows = .error x) : DidOk x := by
  unfold State.storeSeals at hx
  split at hx
  · exact Except.error.inj hx ▸ State.waitTable_didOk h ..
  · split at hx
    · exact Except.error.inj hx ▸ State.waitPage_didOk h ..
    · cases hx

@[simp] theorem transferIssue_nextOk {s : State} (h : Memory.wf s.mem = true) (i : Instr) (f : AT) (op : TransferOp) :
    NextOk (transferIssue i f op s) := by
  refine nextOk_issue h (withSlot_didOk h fun d => ?_)
  iterate 6 refine didOk_of_ite trivial ?_
  split
  · trivial
  extract_lets idx reads seals
  have hs : ∀ x, seals = .error x → DidOk x := by
    intro x hx
    simp only [seals] at hx
    split at hx
    · exact State.storeSeals_didOk h hx
    · cases hx
  clear_value idx reads seals
  iterate 2
    split
    · trivial
  split
  next x => exact hs x rfl
  next =>
    split
    · exact h
    · rwa [didOk_done, State.onMe_mem, mem_ite, State.sealMine_mem, ite_self]

@[simp] theorem execCopy_nextOk {s : State} (h : Memory.wf s.mem = true) (f : AT) : NextOk (execCopy f s) := by
  refine nextOk_issue h ?_
  extract_lets c src dst n t ch
  refine didOk_of_ite (reserved_didOk _) ?_
  split
  · exact State.waitTable_didOk h ..
  · split
    · trivial
    · refine didOk_of_ite trivial ?_
      split
      next d pages hp =>
      split
      next r hr => exact State.storeSeals_didOk h hr
      · refine didOk_of_ite h ?_
        rwa [didOk_done, State.onMe_mem, mem_ite, State.sealMine_mem, ite_self]

@[simp] theorem execXrtsw_nextOk {s : State} (h : Memory.wf s.mem = true) (f : AT) : NextOk (execXrtsw f s) := by
  refine nextOk_issue h (didOk_of_ite (reserved_didOk _) ?_)
  split
  · trivial
  · split
    · refine didOk_of_ite trivial (didOk_of_ite h ?_)
      simp [h]
    · trivial

@[simp] theorem amoIssue_nextOk {s : State} (h : Memory.wf s.mem = true) (i : Instr) (f : AT) (cas : Bool) (opcode : Nat) :
    NextOk (amoIssue i f cas opcode s) := by
  unfold amoIssue
  refine nextOk_issue h ?_
  dsimp only
  split
  · exact reserved_didOk i
  · exact atomicIssue_didOk h _

/-! ### Memory under Machine/Mason -/

@[simp] theorem State.joinReplica_wf {s : State} (h : Memory.wf s.mem = true) (lat pa : Nat) (pod : Bool) (slot x : Nat) :
    Memory.wf (s.joinReplica lat pa pod slot x).mem = true := by
  unfold State.joinReplica
  split <;> simp [h]

@[simp] theorem State.obtainHome0_mem (s : State) (d k lat : Nat) : (s.obtainHome0 d k lat).mem = s.mem := by simp [State.obtainHome0]

@[simp] theorem State.joinKeystone_wf {s : State} (h : Memory.wf s.mem = true) (ctx : Nat) (a : Word) (slot x : Nat) :
    Memory.wf (s.joinKeystone ctx a slot x).mem = true := by
  unfold State.joinKeystone
  split <;> simp [h]

@[simp] theorem State.dropPages_wf {s : State} (h : Memory.wf s.mem = true) (ctx n : Nat) : Memory.wf (s.dropPages ctx n).mem = true := by
  unfold State.dropPages
  split
  · exact foldl_wf (fun _ _ ht => by simp [ht]) h _
  · exact h

@[simp] theorem State.mapPages_wf {s : State} (h : Memory.wf s.mem = true) (ctx n stack : Nat) (frames : List Nat) :
    Memory.wf (s.mapPages ctx n stack frames).mem = true := by
  unfold State.mapPages
  split
  · exact foldl_wf (fun _ _ ht => by simp [ht]) h _
  · exact h

@[simp] theorem State.freeTensors_wf {s : State} (h : Memory.wf s.mem = true) (die wtid gtid : Nat) :
    Memory.wf (s.freeTensors die wtid gtid).mem = true := by
  simp [State.freeTensors, h]

theorem State.copyBytes_optOk {ctx : Nat} {marks : Bool} {n : Nat} :
    ∀ {src dst : Word} {s : State}, Memory.wf s.mem = true → OptOk (State.copyBytes ctx marks n src dst s) := by
  induction n with
  | zero => exact fun h => (optOk_some _).mpr h
  | succ n ih =>
    intro src dst s h
    unfold State.copyBytes
    split
    · exact ih (by simp [h])
    · exact optOk_none

theorem State.zeroTensor_optOk {s : State} (h : Memory.wf s.mem = true) (ctx n : Nat) : OptOk (s.zeroTensor ctx n) := by
  unfold State.zeroTensor
  refine foldl_optOk (fun o i ho => ?_) ((optOk_some s).mpr h) _
  -- The address is a variable from here on: the kernel must not run the access check to compare two matches on it.
  obtain ⟨a, ha⟩ : ∃ a, flatAt n i = a := ⟨_, rfl⟩
  rw [ha]
  split
  next t =>
    split
    · exact (optOk_some _).mpr (State.storeUnits_wf _ _ _ (ho t rfl))
    · exact optOk_none
  next => exact optOk_none

@[simp] theorem State.onBoundRing_mem (s : State) (r : Nat) (f : Ring → Ring) : (s.onBoundRing r f).mem = s.mem := by
  unfold State.onBoundRing
  split <;> simp

@[simp] theorem State.publishSlotChange_mem (s : State) (b first : Bool) (i : Nat) (old : CairnSlot) :
    (s.publishSlotChange b first i old).mem = s.mem := by
  simp [State.publishSlotChange]

@[simp] theorem State.joinVersion_wf {s : State} (h : Memory.wf s.mem = true) : Memory.wf (s.joinVersion).mem = true := by
  unfold State.joinVersion
  (repeat' split) <;> simp [h]

@[simp] theorem State.settleVersion_wf {s : State} (h : Memory.wf s.mem = true) : Memory.wf (s.settleVersion).mem = true := by
  simp [State.settleVersion, h]

@[simp] theorem State.publish_mem (s : State) (w : Word) : (s.publish w).mem = s.mem := by
  simp only [State.publish]
  (repeat' split) <;> simp

@[simp] theorem State.writeSlot_mem (s : State) (b : Bool) (e k w : Nat) (v : Word) : (s.writeSlot b e k w v).mem = s.mem := by simp [State.writeSlot]

@[simp] theorem State.writeHeader_mem (s : State) (b : Bool) (v : Word) : (s.writeHeader b v).mem = s.mem := by simp [State.writeHeader]

@[simp] theorem State.failReplication_wf {s : State} (h : Memory.wf s.mem = true) (i : Nat) (r : Replication) (reason : Nat) :
    Memory.wf (s.failReplication i r reason).mem = true := by
  simp [State.failReplication, h]

@[simp] theorem State.takeFrames_wf {s : State} (h : Memory.wf s.mem = true) (i : Nat) (r : Replication) (frames : List Nat) :
    Memory.wf (s.takeFrames i r frames).mem = true := by
  simp [State.takeFrames, h]

@[simp] theorem State.startReplication_wf {s : State} (h : Memory.wf s.mem = true) (frames : List Nat) :
    Memory.wf (s.startReplication frames).mem = true := by
  simp only [State.startReplication]
  split <;> simp [h]

@[simp] theorem State.spoilTensor_mem (s : State) (ctx n : Nat) : (s.spoilTensor ctx n).mem = s.mem := by
  unfold State.spoilTensor
  split <;> simp

@[simp] theorem State.masonPages_mem (s : State) (ctx : Nat) (tensors : List Nat) : (s.masonPages ctx tensors).1.mem = s.mem := by
  unfold State.masonPages
  split <;> simp

theorem State.masonPages_wf {s t : State} {ctx : Nat} {tensors : List Nat} {b : Bool} (h : Memory.wf s.mem = true)
    (ht : s.masonPages ctx tensors = (t, b)) : Memory.wf t.mem = true := by
  simpa [ht, h] using congrArg Memory.wf (s.masonPages_mem ctx tensors)

@[simp] theorem State.finishReplication_wf {s : State} (h : Memory.wf s.mem = true) (i : Nat) (frames : List Nat) :
    Memory.wf (s.finishReplication i frames).mem = true := by
  unfold State.finishReplication
  split
  · exact h
  · dsimp only
    split
    · exact h
    · split
      · simp [h]
      · split
        next hp => exact State.masonPages_wf h hp
        next hp =>
          have hp := State.masonPages_wf h hp
          split
          · simp [hp]
          · split
            · simp [hp]
            next hc =>
              have hc := State.copyBytes_optOk hp _ hc
              split
              · simp [hp]
              next hz => simp [State.zeroTensor_optOk hc _ _ _ hz]

@[simp] theorem State.endBound_wf {s : State} (h : Memory.wf s.mem = true) (l : Launch) : Memory.wf (s.endBound l).mem = true := by
  unfold State.endBound
  split
  · exact foldl_wf (fun _ _ ht => by simp [ht]) h _
  · exact h

@[simp] theorem State.finishDrain_wf {s : State} (h : Memory.wf s.mem = true) (i : Nat) (x : CairnSlot) :
    Memory.wf (s.finishDrain i x).mem = true := by
  simp [State.finishDrain, h]

@[simp] theorem State.drain_wf {s : State} (h : Memory.wf s.mem = true) (e k : Nat) : Memory.wf (s.drain e k).mem = true := by
  simp only [State.drain]
  (repeat' split) <;> simp [h]

@[simp] theorem State.redirect_wf {s : State} (h : Memory.wf s.mem = true) (e k : Nat) : Memory.wf (s.redirect e k).mem = true := by
  unfold State.redirect
  dsimp only
  split
  · iterate 5
      split
      · exact h
    split
    · exact h
    next hc =>
      have hc := State.copyBytes_optOk h _ hc
      refine State.joinKeystone_wf (State.joinKeystone_wf ?_ _ _ _ _) _ _ _ _
      simp only [State.onLaunch_mem]
      split
      · exact State.storeUnits_wf _ _ _ hc
      · exact hc
  · exact h

theorem State.mergeExpert_optOk {s : State} (h : Memory.wf s.mem = true) (ctx e : Nat) (tensors : List Nat) :
    OptOk (s.mergeExpert ctx e tensors) := by
  unfold State.mergeExpert
  split
  · exact (optOk_some s).mpr h
  next prim rest =>
    intro t ht
    obtain ⟨r, hr, rfl⟩ := Option.map_eq_some_iff.mp ht
    suffices hw : Memory.wf r.1.mem = true by split <;> simp [hw]
    refine List.foldlRecOn (motive := fun o : Option (State × Nat) => ∀ r, o = some r → Memory.wf r.1.mem = true) _ _ ?_ ?_ r hr
    · rintro r ⟨⟩
      exact h
    · intro o ho i _ r hr
      obtain ⟨q, hq, hr⟩ := Option.bind_eq_some_iff.mp hr
      obtain ⟨a, ha⟩ : ∃ a, flatAt prim (4 * i) = a := ⟨_, rfl⟩
      rw [ha] at hr
      split at hr
      · exact Option.some.inj hr ▸ State.storeUnits_wf _ _ _ (ho q hq)
      · cases hr

@[simp] theorem State.gradientMerge_wf {s : State} (h : Memory.wf s.mem = true) : Memory.wf s.gradientMerge.mem = true := by
  unfold State.gradientMerge
  dsimp only
  split
  · exact h
  · split
    · simp [h]
    · split
      next hp => exact State.masonPages_wf h hp
      next hp =>
        have hp := State.masonPages_wf h hp
        split
        next t ht =>
          have hc : Memory.wf t.mem = true := foldl_optOk (fun _ (g : Nat × List Nat) ho => optOk_bind ho fun _ hu =>
            State.mergeExpert_optOk hu _ g.1 g.2) ((optOk_some _).mpr hp) _ _ ht
          simp [hc]
        next => exact hp

@[simp] theorem State.weightReturn_wf {s : State} (h : Memory.wf s.mem = true) : Memory.wf s.weightReturn.mem = true := by
  unfold State.weightReturn
  dsimp only
  split
  · exact h
  · split
    next hp => exact State.masonPages_wf h hp
    next hp =>
      have hp := State.masonPages_wf h hp
      split
      next t ht =>
        have hc : Memory.wf t.mem = true := foldl_optOk (fun _ _ ho => optOk_bind ho fun _ hu => State.copyBytes_optOk hu)
          ((optOk_some _).mpr hp) _ _ ht
        simp [hc]
      next => exact hp

/-! ### Memory under Machine/Log -/

@[simp] theorem State.progressFailures_mem (s : State) : (s.progressFailures).mem = s.mem := by
  unfold State.progressFailures
  refine foldl_mem (fun t x => ?_) _ _
  (repeat' split) <;> simp

@[simp] theorem State.endLaunch_wf {s : State} (h : Memory.wf s.mem = true) (l : Nat) (state : LaunchState) :
    Memory.wf (s.endLaunch l state).mem = true := by
  unfold State.endLaunch
  split <;> simp [h]

@[simp] theorem State.strataAdd_mem (s : State) (page item bin n : Nat) : (s.strataAdd page item bin n).mem = s.mem := by simp [State.strataAdd]

@[simp] theorem State.strataCount_mem (s : State) (r : Record) : (s.strataCount r).mem = s.mem := by
  unfold State.strataCount
  split <;> simp

@[simp] theorem State.settleSignals_mem (s : State) (n : Nat) : (s.settleSignals n).mem = s.mem := by
  unfold State.settleSignals
  split <;> simp

@[simp] theorem State.recover_wf {s : State} (h : Memory.wf s.mem = true) (q : Sequel) : Memory.wf (s.recover q).mem = true := by
  cases q <;> simp [State.recover, h]

@[simp] theorem State.recordIn_wf {s : State} (h : Memory.wf s.mem = true) (r : Record) : Memory.wf (s.recordIn r).mem = true := by
  unfold State.recordIn
  extract_lets t u v
  have ht : t.mem = s.mem := by simp only [t]; split <;> rfl
  have hu : Memory.wf u.mem = true := by simp only [u]; split <;> simp [ht, h]
  clear_value u
  refine State.recover_wf ?_ _
  simp only [v]
  split
  · split
    · exact State.endLaunch_wf hu ..
    · split
      · exact State.endLaunch_wf hu ..
      · exact hu
  · exact hu

@[simp] theorem State.writeRecord_wf {s : State} (h : Memory.wf s.mem = true) (r : Record) :
    Memory.wf (s.writeRecord r).mem = true := by
  refine State.recordIn_wf ?_ r
  rw [State.strataCount_mem, mem_ite, State.onLog_mem, State.onLog_mem, ite_self]
  exact State.store_wf h ..

@[simp] theorem State.logFails_mem (s : State) : (s.logFails).mem = s.mem := by simp [State.logFails]

@[simp] theorem State.arbitrate_wf {s : State} (h : Memory.wf s.mem = true) (d : Nat) : Memory.wf (s.arbitrate d).mem = true := by
  unfold State.arbitrate
  (repeat' split) <;> simp [h]

/-! ### Memory under Machine/Queues -/

@[simp] theorem State.writeLqBase_mem (s : State) (n : Nat) (w : Word) : (s.writeLqBase n w).mem = s.mem := by simp [State.writeLqBase]

@[simp] theorem State.writeLqCfg_mem (s : State) (n : Nat) (w : Word) : (s.writeLqCfg n w).mem = s.mem := by simp [State.writeLqCfg]

@[simp] theorem State.writeLqTail_mem (s : State) (n : Nat) (w : Word) : (s.writeLqTail n w).mem = s.mem := by simp [State.writeLqTail]

@[simp] theorem State.accept_mem (s : State) (n : Nat) (signal : Option Word) : (s.accept n signal).mem = s.mem := by simp [State.accept]

@[simp] theorem State.commandError_mem (s : State) (n : Nat) : (s.commandError n).mem = s.mem := by simp [State.commandError]

theorem State.withCommand_mem {s : State} {n kind : Nat} {body : State → State} (hb : (body s).mem = s.mem) :
    (s.withCommand n kind body).mem = s.mem := by
  simp [State.withCommand, hb]

@[simp] theorem State.beginLaunch_mem (s : State) (l : Launch) : (s.beginLaunch l).mem = s.mem := by simp [State.beginLaunch]

@[simp] theorem State.refuseLaunch_mem (s : State) (q : Nat) (b : BadRecord) : (s.refuseLaunch q b).mem = s.mem := by simp [State.refuseLaunch]

@[simp] theorem State.launchCommand_mem (s : State) (q : Nat) : (s.launchCommand q).mem = s.mem := by
  simp only [State.launchCommand]
  (repeat' split) <;> simp

@[simp] theorem execLaunch_nextOk {s : State} (h : Memory.wf s.mem = true) : NextOk (execLaunch s) := by
  rwa [execLaunch, nextOk_next, State.withCommand_mem (State.launchCommand_mem ..)]

@[simp] theorem execLaunchAccept_nextOk {s : State} (h : Memory.wf s.mem = true) : NextOk (execLaunchAccept s) := by
  unfold execLaunchAccept
  split <;> simp [h]

@[simp] theorem execFenceCommand_nextOk {s : State} (h : Memory.wf s.mem = true) : NextOk (execFenceCommand s) := by
  rw [execFenceCommand, nextOk_next, State.withCommand_mem]
  · exact h
  · simp

@[simp] theorem execSignal_nextOk {s : State} (h : Memory.wf s.mem = true) : NextOk (execSignal s) := by
  rw [execSignal, nextOk_next, State.withCommand_mem]
  · exact h
  · simp

@[simp] theorem execLaunchCompletion_nextOk {s : State} (h : Memory.wf s.mem = true) : NextOk (execLaunchCompletion s) := by
  unfold execLaunchCompletion
  split <;> simp [h]

/-! ### Memory under Machine/Registers -/

@[simp] theorem State.writeRoute_mem (s : State) (bank : Bool) (f : Fabric → Fabric) : (s.writeRoute bank f).mem = s.mem := by simp [State.writeRoute]

@[simp] theorem State.writePool_mem (s : State) (g q : Nat) (w : Word) : (s.writePool g q w).mem = s.mem := by simp [State.writePool]

@[simp] theorem State.writeRegister_wf {s : State} (h : Memory.wf s.mem = true) (r : RegName) (w : Word) :
    Memory.wf (s.writeRegister r w).mem = true := by
  unfold State.writeRegister
  split <;> simp [h]

@[simp] theorem State.writeBar_wf {s : State} (h : Memory.wf s.mem = true) (off : Nat) (w : Word) : Memory.wf (s.writeBar off w).mem = true := by
  unfold State.writeBar
  split <;> simp [h]

@[simp] theorem State.anyStore_wf {s : State} (h : Memory.wf s.mem = true) (addrs : List Nat) (bytes : List Byte) :
    Memory.wf (s.anyStore addrs bytes).mem = true := by
  unfold State.anyStore
  split
  · split
    · exact foldl_wf (fun _ _ ht => by simp [ht]) h _
    · exact State.store_wf h ..
  · exact h

@[simp] theorem State.connectFibres_mem (s : State) (w : Word) : (s.connectFibres w).mem = s.mem := by simp [State.connectFibres]

@[simp] theorem execTtinvWrite_nextOk {s : State} (h : Memory.wf s.mem = true) : NextOk (execTtinvWrite s) := by
  simp only [execTtinvWrite]
  split <;> simp [h]

/-! ### Memory under Machine/Completion -/

@[simp] theorem State.endAccess_mem (s : State) (g : Nat) (k : StrandKind) (x : Access) (n v : Nat) : (s.endAccess g k x n v).mem = s.mem := by
  simp [State.endAccess]

@[simp] theorem State.setAccess_mem (s : State) (g : Nat) (k : StrandKind) (x : Access) : (s.setAccess g k x).mem = s.mem := by simp [State.setAccess]

@[simp] theorem State.completeAccess_mem (s : State) (g : Nat) (k : StrandKind) (x : Access) (n v : Nat) :
    (s.completeAccess g k x n v).mem = s.mem := by
  unfold State.completeAccess
  split <;> simp

@[simp] theorem State.faultAccess_mem (s : State) (g : Nat) (k : StrandKind) (x : Access) (cause : Nat) (addr data : Word) :
    (s.faultAccess g k x cause addr data).mem = s.mem := by
  simp [State.faultAccess]

@[simp] theorem State.noteUnreachable_mem (s : State) (g : Nat) (e : Nat × Nat × Nat) : (s.noteUnreachable g e).mem = s.mem := by
  simp [State.noteUnreachable]

@[simp] theorem State.endUnreachable_mem (s : State) (g : Nat) (k : StrandKind) (x : Access) (e : Nat × Nat × Nat) :
    (s.endUnreachable g k x e).mem = s.mem := by
  simp [State.endUnreachable]

@[simp] theorem State.noteSubs_mem (s : State) (g : Nat) (k : StrandKind) (x : Access) (n : Nat) (a : Word) : (s.noteSubs g k x n a).mem = s.mem := by
  unfold State.noteSubs
  split <;> simp

@[simp] theorem State.passSubs_mem (s : State) (g : Nat) (k : StrandKind) (x : Access) : (s.passSubs g k x).mem = s.mem := by simp [State.passSubs]

@[simp] theorem State.deliverLoad_mem (s : State) (g : Nat) (k : StrandKind) (x : Access) (vals : List Nat) (bad : List Nat) (array : Nat) :
    (s.deliverLoad g k x vals bad array).mem = s.mem := by
  unfold State.deliverLoad
  (repeat' split) <;> simp

@[simp] theorem State.remotely_mem (s : State) (g : Nat) (k : StrandKind) (x : Access) (chip : Nat) (what : RequestKind)
    {deliver : State → List Byte → List Nat → State} (hd : ∀ s b l, (deliver s b l).mem = s.mem) :
    (s.remotely g k x chip what deliver).mem = s.mem := by
  unfold State.remotely
  (repeat' split) <;> simp [hd]

@[simp] theorem State.refuseVault_mem (s : State) (g : Nat) (k : StrandKind) (x : Access) : (s.refuseVault g k x).mem = s.mem := by
  simp [State.refuseVault]

@[simp] theorem State.performLoad_mem (s : State) (g : Nat) (k : StrandKind) (x : Access) : (s.performLoad g k x).mem = s.mem := by
  unfold State.performLoad
  split
  · simp
  · split
    · simp
    · split
      · rfl
      · split
        · simp
        · split
          next ht => rw [State.completeAccess_mem, State.mem_of_takeFree ht]
  · split
    · simp
    · dsimp only
      split <;> simp
  · exact State.remotely_mem _ _ _ _ _ _ fun _ _ _ => State.deliverLoad_mem ..
  · split
    · simp
    · split <;> simp

@[simp] theorem State.performStore_wf {s : State} (h : Memory.wf s.mem = true) (g : Nat) (k : StrandKind) (x : Access) (bytes : List Byte) :
    Memory.wf (s.performStore g k x bytes).mem = true := by
  unfold State.performStore
  split
  case h_2 => rwa [State.remotely_mem _ _ _ _ _ _ fun _ _ _ => State.completeAccess_mem ..]
  all_goals (repeat' split) <;> simp [h]

@[simp] theorem State.performJoin_mem (s : State) (g : Nat) (k : StrandKind) (x : Access) (lat : Nat) (v : BitVec 256) (die : Nat) :
    (s.performJoin g k x lat v die).mem = s.mem := by
  simp only [State.performJoin]
  (repeat' split) <;> simp

@[simp] theorem State.performLatticeLoad_mem (s : State) (g : Nat) (k : StrandKind) (x : Access) (lat die : Nat) :
    (s.performLatticeLoad g k x lat die).mem = s.mem := by
  simp only [State.performLatticeLoad]
  (repeat' split) <;> simp

@[simp] theorem State.executeAtomic_wf {s : State} (h : Memory.wf s.mem = true) (g : Nat) (k : StrandKind) (x : Access) :
    Memory.wf (s.executeAtomic g k x).mem = true := by
  unfold State.executeAtomic
  split
  · dsimp only
    split
    case h_3 => rwa [State.remotely_mem _ _ _ _ _ _ fun _ _ _ => State.setAccess_mem ..]
    all_goals (repeat' split) <;> simp [h]
  · exact h

@[simp] theorem State.executeMerged_wf {s : State} (h : Memory.wf s.mem = true) (t : MergeTree) : Memory.wf (s.executeMerged t).mem = true := by
  unfold State.executeMerged
  extract_lets es
  split
  · exact h
  · extract_lets same
    split
    · split
      · exact h
      · extract_lets r u
        have hu : Memory.wf u.mem = true := by simp [u, h]
        refine foldl_wf (fun v e hv => ?_) hu _
        split
        · rwa [State.setAccess_mem]
        · exact hv
    · exact h

@[simp] theorem State.holdAtomic_wf {s : State} (h : Memory.wf s.mem = true) (g : Nat) (k : StrandKind) (x : Access) (ty : Nat) (v : BitVec 128) :
    Memory.wf (s.holdAtomic g k x ty v).mem = true := by
  simp [State.holdAtomic, h]

@[simp] theorem State.performCsr_mem (s : State) (g : Nat) (k : StrandKind) (x : Access) (op a : Nat) (w : Word) :
    (s.performCsr g k x op a w).mem = s.mem := by
  simp [State.performCsr]

@[simp] theorem State.performAccess_wf {s : State} (h : Memory.wf s.mem = true) (g : Nat) (k : StrandKind) (x : Access) :
    Memory.wf (s.performAccess g k x).mem = true := by
  unfold State.performAccess
  (repeat' split) <;> simp [h]

@[simp] theorem execMemoryAccessCompletion_nextOk {s : State} (h : Memory.wf s.mem = true) : NextOk (execMemoryAccessCompletion s) := by
  unfold execMemoryAccessCompletion
  split <;> simp [h]

@[simp] theorem execAtomicExecute_nextOk {s : State} (h : Memory.wf s.mem = true) : NextOk (execAtomicExecute s) := by
  unfold execAtomicExecute
  (repeat' split) <;> simp [h]

@[simp] theorem execQuaPendingFlush_nextOk {s : State} (h : Memory.wf s.mem = true) : NextOk (execQuaPendingFlush s) := by
  unfold execQuaPendingFlush
  split <;> simp [h]

@[simp] theorem execQfencePass_nextOk {s : State} (h : Memory.wf s.mem = true) : NextOk (execQfencePass s) := by
  simp only [execQfencePass]
  split <;> simp [h]

/-! ### Memory under Machine/Exchange -/

@[simp] theorem State.mapJoins_mem (s : State) (f : Access → Option Access) : (s.mapJoins f).mem = s.mem := by simp [State.mapJoins]

@[simp] theorem State.markKeystone_mem (s : State) (k : Nat) (l : List Nat) : (s.markKeystone k l).mem = s.mem := by simp [State.markKeystone]

@[simp] theorem State.carryUp_wf {s : State} (h : Memory.wf s.mem = true) (d : Nat) : Memory.wf (s.carryUp d).mem = true := by
  unfold State.carryUp
  exact foldl_wf (fun t x ht => by simp [ht]) h _

@[simp] theorem State.carryDown_mem (s : State) (d : Nat) : (s.carryDown d).mem = s.mem := by
  unfold State.carryDown
  refine foldl_mem (fun t x => ?_) _ _
  (repeat' split) <;> simp

@[simp] theorem State.exchange_wf {s : State} (h : Memory.wf s.mem = true) (d : Nat) : Memory.wf (s.exchange d).mem = true := by
  simp [State.exchange, h]

@[simp] theorem State.exchangeWhole_wf (d n : Nat) : ∀ {s : State}, Memory.wf s.mem = true → Memory.wf (s.exchangeWhole d n).mem = true := by
  induction n with
  | zero => exact fun h => State.exchange_wf h d
  | succ n ih =>
    intro s h
    unfold State.exchangeWhole
    split
    · exact ih (State.exchange_wf h d)
    · exact State.exchange_wf h d

@[simp] theorem State.fetchSpoiled_mem (s : State) (d k : Nat) : (s.fetchSpoiled d k).mem = s.mem := by simp [State.fetchSpoiled]

@[simp] theorem execGranuleFetch_nextOk {s : State} (h : Memory.wf s.mem = true) : NextOk (execGranuleFetch s) := by
  simp only [execGranuleFetch]
  (repeat' split) <;> simp [h]

@[simp] theorem State.mergeFrom_wf {s : State} (h : Memory.wf s.mem = true) (p : Packet) : Memory.wf (s.mergeFrom p).mem = true := by
  simp [State.mergeFrom, h]

@[simp] theorem State.serveFetch_mem (s : State) (p : Packet) : (s.serveFetch p).mem = s.mem := by simp [State.serveFetch]

@[simp] theorem State.takeGranule_wf {s : State} (h : Memory.wf s.mem = true) (p : Packet) : Memory.wf (s.takeGranule p).mem = true := by
  unfold State.takeGranule
  exact foldl_wf (fun t x ht => by simp [ht]) (by simp [h]) _

@[simp] theorem execHome0Writeback_nextOk {s : State} (h : Memory.wf s.mem = true) : NextOk (execHome0Writeback s) := by
  simp only [execHome0Writeback]
  split <;> simp [h]

@[simp] theorem State.onPod_mem (s : State) (m side : Nat) (f : PodExchange → PodExchange) : (s.onPod m side f).mem = s.mem := by simp [State.onPod]

@[simp] theorem State.dropPod_mem (s : State) (x : PodExchange) : (s.dropPod x).mem = s.mem := by simp [State.dropPod]

@[simp] theorem State.sendPod_mem (s : State) (m side step : Nat) : (s.sendPod m side step).mem = s.mem := by simp [State.sendPod]

@[simp] theorem State.beginPod_mem (s : State) (m side : Nat) : (s.beginPod m side).mem = s.mem := by simp [State.beginPod]

@[simp] theorem execPodExchangePhase_nextOk {s : State} (h : Memory.wf s.mem = true) : NextOk (execPodExchangePhase s) := by
  simp only [execPodExchangePhase]
  (repeat' split) <;> simp [h]

@[simp] theorem State.settlePod_mem (s : State) (m side : Nat) : (s.settlePod m side).mem = s.mem := by
  unfold State.settlePod
  split <;> simp

@[simp] theorem State.mergeEpoch_mem (s : State) (e : Nat) : (s.mergeEpoch e).mem = s.mem := by simp [State.mergeEpoch]

@[simp] theorem State.podPacket_wf {s : State} (h : Memory.wf s.mem = true) (p : Packet) : Memory.wf (s.podPacket p).mem = true := by
  simp only [State.podPacket]
  (repeat' split) <;> simp [h]

@[simp] theorem execPodExchangeLost_nextOk {s : State} (h : Memory.wf s.mem = true) : NextOk (execPodExchangeLost s) := by
  unfold execPodExchangeLost
  split <;> simp [h]

@[simp] theorem execParkedLoadTimeout_nextOk {s : State} (h : Memory.wf s.mem = true) : NextOk (execParkedLoadTimeout s) := by
  simp only [execParkedLoadTimeout]
  (repeat' split) <;> simp [h]

/-! ### Memory under Machine/MatrixStrand -/

@[simp] theorem enterM_didOk {s : State} (h : Memory.wf s.mem = true) (e : MEntry) : DidOk (enterM e s) := by simp [enterM, h]

theorem enterMma_didOk {s : State} (h : Memory.wf s.mem = true) {f : MM} {binary : Bool} {m : Nat → Word} {tsm : Bool} {after : Core → Core}
    {wrap : State → Did} (hw : ∀ t, Memory.wf t.mem = true → DidOk (wrap t)) {pc : Word} :
    DidOk (enterMma f binary m tsm after wrap pc s) := by
  simp only [enterMma]
  split
  · exact h
  · split
    · simp [h]
    · exact hw _ h

@[simp] theorem mmaIssue_nextOk {s : State} (h : Memory.wf s.mem = true) (f : MM) (binary : Bool) : NextOk (mmaIssue f binary s) :=
  nextOk_issue h (enterMma_didOk h fun t ht => (didOk_done t).mpr ht)

@[simp] theorem reservedM_didOk (i : Instr) : DidOk (reservedM i) := by
  unfold reservedM
  split <;> trivial

@[simp] theorem execMgo_nextOk {s : State} (h : Memory.wf s.mem = true) (f : MN) : NextOk (execMgo f s) := by
  refine nextOk_issue h ?_
  extract_lets c pc lv fin
  split
  · exact didOk_trap ..
  · exact State.waitPage_didOk h ..
  · exact State.waitTable_didOk h ..
  · exact reservedM_didOk ..
  · exact reservedM_didOk ..
  · refine didOk_of_ite trivial (didOk_of_ite ?_ (enterMma_didOk h fun t ht => (didOk_goto t).mpr ht))
    rwa [didOk_goto, State.onMe_mem]

@[simp] theorem execMgang_nextOk {s : State} (h : Memory.wf s.mem = true) (f : MG) : NextOk (execMgang f s) := by
  refine nextOk_issue h ?_
  extract_lets member
  clear_value member
  split
  · exact reservedM_didOk ..
  · exact didOk_trap ..
  · exact State.waitPage_didOk h ..
  · exact State.waitTable_didOk h ..
  · refine didOk_of_ite trivial ?_
    split
    · refine didOk_of_ite ?_ trivial
      rwa [didOk_done, State.onMe_mem]
    · exact didOk_trap ..

/-! ### Memory under Machine/MatrixEvents -/

@[simp] theorem State.readOperand_mem (s : State) (g : Nat) (op : Operand) (n : Nat) : (s.readOperand g op n).1.mem = s.mem := by
  unfold State.readOperand
  split
  · dsimp only
    split
    · rfl
    · simp only [mem_ite, State.onCore_mem, ite_self]
  · dsimp only
    split
    · rfl
    · simp only [mem_ite, State.markPoison_mem, ite_self]

@[simp] theorem State.beginM_mem (s : State) (g : Nat) : (s.beginM g).mem = s.mem := by
  simp only [State.beginM]
  split <;> simp

@[simp] theorem State.writeAcc_wf {s : State} (h : Memory.wf s.mem = true) (g a : Nat) (words : List (BitVec 32)) :
    Memory.wf (s.writeAcc g a words).mem = true := by
  simp [State.writeAcc, h]

@[simp] theorem State.matrixError_mem (s : State) (g : Nat) (e : MEntry) (addr array : Nat) (kept : Bool) :
    (s.matrixError g e addr array kept).mem = s.mem := by
  simp [State.matrixError]

@[simp] theorem State.finishMma_wf {s : State} (h : Memory.wf s.mem = true) (g : Nat) (x : Mma) (a b : BitVec 32768) (supplies : Bool) :
    Memory.wf (s.finishMma g x a b supplies).mem = true := by
  unfold State.finishMma
  rw [State.onCore_mem]
  exact State.writeAcc_wf h ..

theorem State.withAcc_wf {s : State} (h : Memory.wf s.mem = true) (g : Nat) (x : Mma) {body : State → State}
    (hb : Memory.wf (body s).mem = true) : Memory.wf (s.withAcc g x body).mem = true := by
  unfold State.withAcc
  split
  · rwa [State.matrixError_mem]
  · exact hb

/-- What goes on with an operand sees memory as it was. -/
theorem State.withOperand_wf {s : State} (h : Memory.wf s.mem = true) (g : Nat) (e : MEntry) (op : Operand) (n : Nat)
    {body : State → State} (hb : ∀ t, t.mem = s.mem → Memory.wf (body t).mem = true) :
    Memory.wf (s.withOperand g e op n body).mem = true := by
  have hr := s.readOperand_mem g op n
  unfold State.withOperand
  split <;> simp_all

theorem State.withOperand_mem {s : State} (g : Nat) (e : MEntry) (op : Operand) (n : Nat) {body : State → State}
    (hb : ∀ t, (body t).mem = t.mem) : (s.withOperand g e op n body).mem = s.mem := by
  have hr := s.readOperand_mem g op n
  unfold State.withOperand
  split <;> simp_all

@[simp] theorem State.performMma_wf {s : State} (h : Memory.wf s.mem = true) (g : Nat) (x : Mma) : Memory.wf (s.performMma g x).mem = true := by
  unfold State.performMma
  extract_lets c
  split
  · exact h
  · refine State.withOperand_wf h _ _ _ _ fun t ht => State.withOperand_wf (ht ▸ h) _ _ _ _ fun u hu => ?_
    refine State.withAcc_wf (by rwa [hu, ht]) _ _ ?_
    split
    next c y hc =>
    have hu : Memory.wf (u.setCore g c).mem = true := by rwa [State.setCore_mem, hu, ht]
    generalize u.setCore g c = u at hu
    extract_lets sc
    split
    · rwa [State.taskFault_mem]
    · exact State.finishMma_wf hu ..

@[simp] theorem State.startGang_mem (s : State) (gs : List (Nat × Mma)) : (s.startGang gs).mem = s.mem := by
  unfold State.startGang
  split
  · rfl
  · refine State.withOperand_mem _ _ _ _ fun t => ?_
    dsimp only
    split
    · rw [State.taskFault_mem, foldl_onCore_mem]
    · exact foldl_mem (f := fun s e => s.setCore _ _) (fun _ _ => rfl) _ _

@[simp] theorem State.gangFlags_mem (s : State) (g n : Nat) : (s.gangFlags g n).mem = s.mem := by simp [State.gangFlags]

@[simp] theorem State.performGanged_wf {s : State} (h : Memory.wf s.mem = true) (g : Nat) (x : Mma) (b : BitVec 32768) :
    Memory.wf (s.performGanged g x b).mem = true := by
  unfold State.performGanged
  refine State.withOperand_wf h _ _ _ _ fun t ht => ?_
  have ht : Memory.wf t.mem = true := by rwa [ht]
  refine State.withAcc_wf ht _ _ ?_
  rw [State.gangFlags_mem]
  exact State.finishMma_wf (by rwa [State.onCore_mem]) ..

theorem State.withBlock_wf {s : State} (h : Memory.wf s.mem = true) (g : Nat) (e : MEntry) (reads : Bool) (a n : Nat) {body : State → State}
    (hb : Memory.wf (body s).mem = true) : Memory.wf (s.withBlock g e reads a n body).mem = true := by
  unfold State.withBlock
  split
  · rwa [State.matrixError_mem]
  · exact hb

@[simp] theorem State.finishM_mem (s : State) (g : Nat) (e : MEntry) (flag : Nat) (f : Core → Core) : (s.finishM g e flag f).mem = s.mem := by
  simp [State.finishM]

@[simp] theorem State.performCommand_wf {s : State} (h : Memory.wf s.mem = true) (g : Nat) (e : MEntry) :
    Memory.wf (s.performCommand g e).mem = true := by
  unfold State.performCommand
  cases e with
  | maccz a n flag pc =>
    refine State.withBlock_wf h _ _ _ _ _ ?_
    rw [State.finishM_mem]
    exact State.writeAcc_wf h ..
  | mtacc t a ty z flag pc =>
    dsimp only
    split
    · exact h
    · refine State.withBlock_wf h _ _ _ _ _ ?_
      rw [State.finishM_mem, mem_ite, wf_ite, State.writeAcc_wf h, h, ite_self]
  | mma x => exact h
  | mtz t flag => simp [h]
  | msetf t => simp [h]
  | mtrel t => simp [h]
  | mfladd f v => simp [h]
  | mscq ga gb n => simp [h]

@[simp] theorem execMatrixEntryPerform_nextOk {s : State} (h : Memory.wf s.mem = true) : NextOk (execMatrixEntryPerform s) := by
  simp only [execMatrixEntryPerform]
  (repeat' split) <;> simp [h]

@[simp] theorem execGangEntryStart_nextOk {s : State} (h : Memory.wf s.mem = true) : NextOk (execGangEntryStart s) := by
  simp only [execGangEntryStart]
  split <;> simp [h]

@[simp] theorem execMCommandPerform_nextOk {s : State} (h : Memory.wf s.mem = true) : NextOk (execMCommandPerform s) := by
  simp only [execMCommandPerform]
  (repeat' split) <;> simp [h]

@[simp] theorem execGangPartnerTimeout_nextOk {s : State} (h : Memory.wf s.mem = true) : NextOk (execGangPartnerTimeout s) := by
  simp only [execGangPartnerTimeout]
  split <;> simp [h]

/-! ### Memory under Machine/OpticStrand -/

@[simp] theorem enterO_didOk {s : State} (h : Memory.wf s.mem = true) (e : OEntry) (after : Core → Core) : DidOk (enterO e after s) := by
  simp [enterO, h]

@[simp] theorem execOwin_nextOk {s : State} (h : Memory.wf s.mem = true) (f : OW) : NextOk (execOwin f s) := by
  refine nextOk_issue h ?_
  extract_lets c k
  split
  · exact didOk_trap ..
  · extract_lets w a
    iterate 4 refine didOk_of_ite trivial ?_
    exact enterO_didOk h ..

@[simp] theorem execOwait_nextOk {s : State} (h : Memory.wf s.mem = true) (f : OS) : NextOk (execOwait f s) := by
  refine nextOk_issue h ?_
  dsimp only
  split <;> simp [h]

/-! ### Memory under Machine/LoadStore -/

@[simp] theorem State.sealIf_mem (s : State) (b : Bool) : (s.sealIf b).mem = s.mem := by simp [State.sealIf]

@[simp] theorem execLds_nextOk {s : State} (h : Memory.wf s.mem = true) (f : MV) : NextOk (execLds f s) := by
  refine nextOk_issue h ?_
  dsimp only
  split <;> simp [h]

@[simp] theorem execSts_nextOk {s : State} (h : Memory.wf s.mem = true) (f : MV) : NextOk (execSts f s) := by
  refine nextOk_issue h ?_
  dsimp only
  split <;> simp [h]

@[simp] theorem execLdv_nextOk {s : State} (h : Memory.wf s.mem = true) (f : MV) : NextOk (execLdv f s) := by
  refine nextOk_issue h ?_
  dsimp only
  split <;> simp [h]

@[simp] theorem execStv_nextOk {s : State} (h : Memory.wf s.mem = true) (f : MV) : NextOk (execStv f s) := by
  refine nextOk_issue h ?_
  dsimp only
  split <;> simp [h]

@[simp] theorem execLdvx_nextOk {s : State} (h : Memory.wf s.mem = true) (f : MV) : NextOk (execLdvx f s) := by
  refine nextOk_issue h ?_
  dsimp only
  split <;> simp [h]

@[simp] theorem execStvx_nextOk {s : State} (h : Memory.wf s.mem = true) (f : MV) : NextOk (execStvx f s) := by
  refine nextOk_issue h ?_
  dsimp only
  split <;> simp [h]

/-! ### Memory under Machine/Transfers -/

@[simp] theorem State.want_mem (s : State) (d a lat : Nat) (home : BitVec 2) : (s.want d a lat home).mem = s.mem := by simp [State.want]

@[simp] theorem State.readReady_mem (s : State) (g q : Nat) (pc : Word) (home : BitVec 2) (l : List Where) :
    (s.readReady g q pc home l).1.mem = s.mem := by
  unfold State.readReady
  refine List.foldlRecOn (motive := fun r : State × Bool => r.1.mem = s.mem) _ _ ?_ fun r hr c _ => ?_
  · refine foldl_mem (fun t w => ?_) ..
    split
    · rw [mem_ite, State.want_mem, ite_self]
    · rfl
  · refine List.foldlRecOn (motive := fun r : State × Bool => r.1.mem = s.mem) _ _ hr fun r hr e _ => ?_
    dsimp only
    split
    · rw [State.request_getD_mem, hr]
    · exact hr

/-- What goes on with elements read sees memory as it was. -/
theorem State.mem_of_readReady {s t : State} {g q : Nat} {pc : Word} {home : BitVec 2} {l : List Where} {ok : Bool}
    (ht : s.readReady g q pc home l = (t, ok)) : t.mem = s.mem := by rw [← s.readReady_mem g q pc home l, ht]

@[simp] theorem State.putElems_wf {s : State} (h : Memory.wf s.mem = true) (eb : Nat) (l : List (Nat × Nat)) :
    Memory.wf (s.putElems eb l).mem = true := by
  unfold State.putElems
  split
  · exact State.anyStore_wf h ..
  · exact foldl_wf (fun _ _ ht => State.writeUnit_wf ht ..) (memOk_store h ..) _

@[simp] theorem State.writeReady_mem (s : State) (g q : Nat) (pc : Word) (eb : Nat) (l : List (Nat × Route × Nat)) (marks : List Where) :
    (s.writeReady g q pc eb l marks).1.mem = s.mem := by
  unfold State.writeReady
  refine List.foldlRecOn (motive := fun r : State × Bool => r.1.mem = s.mem) _ _ rfl fun r hr c _ =>
    List.foldlRecOn (motive := fun r : State × Bool => r.1.mem = s.mem) _ _ hr fun r hr e _ => ?_
  dsimp only
  generalize State.requestOf r.1 g .a _ = o
  cases o with
  | none => dsimp only; rw [State.request_getD_mem, hr]
  | some x => exact hr

theorem State.mem_of_writeReady {s t : State} {g q : Nat} {pc : Word} {eb : Nat} {l : List (Nat × Route × Nat)} {marks : List Where} {ok : Bool}
    (ht : s.writeReady g q pc eb l marks = (t, ok)) : t.mem = s.mem := by rw [← s.writeReady_mem g q pc eb l marks, ht]

@[simp] theorem State.markLocal_mem (s : State) (marks : List Where) : (s.markLocal marks).mem = s.mem := by simp [State.markLocal]

@[simp] theorem State.writeLocal_wf {s : State} (h : Memory.wf s.mem = true) (eb : Nat) (l : List (Nat × Route × Nat)) :
    Memory.wf (s.writeLocal eb l).mem = true := by
  simp [State.writeLocal, h]

@[simp] theorem State.endTransfer_mem (s : State) (g : Nat) (x : Transfer) : (s.endTransfer g x).mem = s.mem := by simp [State.endTransfer]

@[simp] theorem State.advanceTransfer_mem (s : State) (g : Nat) (x : Transfer) (count : Nat) : (s.advanceTransfer g x count).mem = s.mem := by
  simp [State.advanceTransfer]

@[simp] theorem State.faultTransfer_mem (s : State) (g : Nat) (x : Transfer) (cause : Nat) (addr data : Word) :
    (s.faultTransfer g x cause addr data).mem = s.mem := by
  simp [State.faultTransfer]

@[simp] theorem State.waitTransfer_mem (s : State) (g : Nat) : (s.waitTransfer g).mem = s.mem := by
  unfold State.waitTransfer
  split <;> simp

@[simp] theorem State.haltUnit_mem (s : State) (g q : Nat) (pc : Word) (ctx tensor page : Nat) : (s.haltUnit g q pc ctx tensor page).mem = s.mem := by
  simp [State.haltUnit]

/-- What goes on with elements starts from the state as it was. -/
theorem State.withElems_wf {s : State} (h : Memory.wf s.mem = true) (g : Nat) (x : Transfer) (l : List (Nat × Elem)) (scales : Bool)
    {body : State → List Where → State} (hb : ∀ ws, Memory.wf (body s ws).mem = true) :
    Memory.wf (s.withElems g x l scales body).mem = true := by
  unfold State.withElems
  dsimp only
  split
  · rwa [State.haltUnit_mem]
  · rwa [State.askTable_mem]
  · rwa [State.faultTransfer_mem]
  · split
    · rwa [State.faultTransfer_mem, State.noteUnreachable_mem]
    · rwa [State.faultTransfer_mem]
    · exact hb _

theorem State.withElems_mem (s : State) (g : Nat) (x : Transfer) (l : List (Nat × Elem)) (scales : Bool)
    {body : State → List Where → State} (hb : ∀ ws, (body s ws).mem = s.mem) : (s.withElems g x l scales body).mem = s.mem := by
  unfold State.withElems
  dsimp only
  split
  · rw [State.haltUnit_mem]
  · rw [State.askTable_mem]
  · rw [State.faultTransfer_mem]
  · split
    · rw [State.faultTransfer_mem, State.noteUnreachable_mem]
    · rw [State.faultTransfer_mem]
    · exact hb _

@[simp] theorem State.loadStream.push_mem (g : Nat) (x : Transfer) (s : State) (got : List (Nat × Got)) : (State.loadStream.push g x s got).mem = s.mem := by
  simp [State.loadStream.push]

@[simp] theorem State.loadStream_mem (s : State) (g : Nat) (x : Transfer) : (s.loadStream g x).mem = s.mem := by
  unfold State.loadStream
  split
  · rw [State.waitTransfer_mem]
  · refine s.withElems_mem _ _ _ _ fun ws => ?_
    split
    next t ok ht =>
    rw [← State.mem_of_readReady ht]
    split
    · rfl
    · dsimp only
      split
      · rw [State.faultTransfer_mem]
      · split
        · rw [mem_ite, State.faultTransfer_mem, State.loadStream.push_mem, ite_self]
        · rw [State.loadStream.push_mem]

@[simp] theorem State.loadTile_wf {s : State} (h : Memory.wf s.mem = true) (g : Nat) (x : Transfer) : Memory.wf (s.loadTile g x).mem = true := by
  unfold State.loadTile
  extract_lets n eb l
  split
  · rwa [State.waitTransfer_mem]
  · split
    · rwa [State.faultTransfer_mem]
    · refine State.withElems_wf h _ _ _ _ fun ws => ?_
      dsimp only
      have ht : Memory.wf (s.readReady g 16 x.pc x.desc.home ws).1.mem = true := by rwa [State.readReady_mem]
      split
      · exact ht
      · split
        · rwa [State.faultTransfer_mem]
        · rw [State.advanceTransfer_mem]
          split
          · exact ht
          · rw [State.markAll_mem]
            exact State.putElems_wf ht ..

theorem State.storePart_wf {s : State} (h : Memory.wf s.mem = true) (g : Nat) (x : Transfer) (out : List (Nat × Route × Nat))
    (marks : List (Nat × Route)) {after : State → State} (ha : ∀ t, (after t).mem = t.mem) :
    Memory.wf (s.storePart g x out marks after).mem = true := by
  unfold State.storePart
  extract_lets t bad
  have ht : Memory.wf t.mem = true := by
    rw [show t.mem = s.mem from (mem_ite ..).trans (by rw [State.onCore_mem, ite_self])]
    exact h
  split
  next u ok hu =>
  have hu : Memory.wf u.mem = true := by rwa [State.mem_of_writeReady hu]
  split
  · exact hu
  · rw [ha, State.markLocal_mem]
    exact State.writeLocal_wf hu ..

@[simp] theorem State.storeStream_wf {s : State} (h : Memory.wf s.mem = true) (g : Nat) (x : Transfer) : Memory.wf (s.storeStream g x).mem = true := by
  unfold State.storeStream
  split
  · rwa [State.waitTransfer_mem]
  · extract_lets l tile wrong w
    clear_value tile
    split
    · rwa [State.faultTransfer_mem]
    · refine State.withElems_wf h _ _ _ _ fun ws => ?_
      split
      · rwa [State.faultTransfer_mem]
      · exact State.storePart_wf h _ _ _ _ fun t => State.advanceTransfer_mem ..

@[simp] theorem State.storeTile_wf {s : State} (h : Memory.wf s.mem = true) (g : Nat) (x : Transfer) : Memory.wf (s.storeTile g x).mem = true := by
  unfold State.storeTile
  dsimp only
  split
  · rwa [State.waitTransfer_mem]
  · split
    · rwa [State.faultTransfer_mem]
    · refine State.withElems_wf h _ _ _ _ fun ws => State.storePart_wf h _ _ _ _ fun t => ?_
      rw [State.advanceTransfer_mem, mem_ite, State.onCore_mem, ite_self]

@[simp] theorem State.prefetch_mem (s : State) (g : Nat) (x : Transfer) : (s.prefetch g x).mem = s.mem := by simp [State.prefetch]

@[simp] theorem State.loadScales_mem (s : State) (g : Nat) (x : Transfer) : (s.loadScales g x).mem = s.mem := by
  unfold State.loadScales
  refine s.withElems_mem _ _ _ _ fun ws => ?_
  split
  · split
    · rw [State.faultTransfer_mem]
    · dsimp only
      split
      · rw [State.waitTransfer_mem]
      · split
        · rw [State.faultTransfer_mem, State.noteUnreachable_mem]
        · split
          · rw [State.readReady_mem]
          · split
            · rw [State.faultTransfer_mem, State.readReady_mem]
            · rw [State.advanceTransfer_mem, State.onCore_mem, State.readReady_mem]
  · rw [State.advanceTransfer_mem]

@[simp] theorem execTransferEntryPerform_nextOk {s : State} (h : Memory.wf s.mem = true) : NextOk (execTransferEntryPerform s) := by
  simp only [execTransferEntryPerform]
  (repeat' split) <;> simp [h]

@[simp] theorem State.faultCopy_mem (s : State) (g ch : Nat) (x : Copy) (cause : Nat) (addr : Word) (data : Word) :
    (s.faultCopy g ch x cause addr data).mem = s.mem := by
  simp [State.faultCopy]

@[simp] theorem execCopyEntryPerform_nextOk {s : State} (h : Memory.wf s.mem = true) : NextOk (execCopyEntryPerform s) := by
  simp only [execCopyEntryPerform]
  (repeat' split) <;> simp [h]

/-! ### Memory under Machine/Sends -/

@[simp] theorem State.readSource_mem (s : State) (g q ctx : Nat) (pc : Word) (a : Word) (n : Nat) : (s.readSource g q ctx pc a n).1.mem = s.mem := by
  unfold State.readSource
  split
  · rfl
  · exact State.haltUnit_mem ..
  · exact State.askTable_mem ..
  · dsimp only
    split
    · exact State.noteUnreachable_mem ..
    · rfl
    · split
      · exact State.readReady_mem ..
      · exact (State.dropEngine_mem ..).trans (State.readReady_mem ..)

theorem State.mem_of_readSource {s t : State} {g q ctx : Nat} {pc a : Word} {n : Nat} {r : SourceRead}
    (ht : s.readSource g q ctx pc a n = (t, r)) : t.mem = s.mem := by rw [← s.readSource_mem g q ctx pc a n, ht]

@[simp] theorem State.addPieces_mem (s : State) (p : Piece) : (s.addPieces p).mem = s.mem := by simp [State.addPieces]

@[simp] theorem State.fly_mem (s : State) (g : Nat) (x : Send) (owed : Nat) : (s.fly g x owed).mem = s.mem := by simp [State.fly]

@[simp] theorem State.dropSend_mem (s : State) (g : Nat) (x : Send) (cause : Nat) (addr data : Word) :
    (s.dropSend g x cause addr data).mem = s.mem := by
  simp [State.dropSend]

@[simp] theorem State.pumpSend_mem (s : State) (g id fuel : Nat) : (s.pumpSend g id fuel).mem = s.mem := by
  induction fuel generalizing s with
  | zero => rfl
  | succ fuel ih =>
    unfold State.pumpSend
    split
    · rfl
    · dsimp only
      split
      · rfl
      · split
        · rfl
        next t ht => rw [ih, State.onCore_mem, State.request_mem ht]

@[simp] theorem State.startSend_mem (s : State) (g : Nat) (x : Send) (bytes : List Byte) (marks : List Nat) :
    (s.startSend g x bytes marks).mem = s.mem := by
  unfold State.startSend
  dsimp only
  split
  · split
    · rw [State.dropSend_mem]
    · rw [foldl_mem (fun _ _ => State.addPieces_mem ..), State.fly_mem]
  · split
    · split
      · rw [State.dropSend_mem]
      · rw [State.addPieces_mem, State.fly_mem]
    · rw [State.pumpSend_mem, State.onCore_mem, State.fly_mem]

@[simp] theorem State.closePlan_mem (s : State) (p : Plan) (failed : Bool) : (s.closePlan p failed).mem = s.mem := by simp [State.closePlan]

@[simp] theorem State.planStatus_wf {s : State} (h : Memory.wf s.mem = true) (p : Plan) (failed : Bool) :
    Memory.wf (s.planStatus p failed).1.mem = true := by
  unfold State.planStatus
  extract_lets g a v
  split
  · exact h
  · rwa [State.requestPage_mem]
  · rwa [State.askTable_mem]
  · extract_lets dst
    split
    · rwa [State.noteUnreachable_mem]
    · rwa [State.dropEngine_mem]
    · split
      next u out hu =>
      split
      next t ok ht =>
      have ht : Memory.wf t.mem = true := by rwa [State.mem_of_writeReady ht]
      split
      · rw [State.dropEngine_mem]
        exact State.writeLocal_wf ht ..
      · exact ht

@[simp] theorem State.startPlan_mem (s : State) (g : Nat) (x : Send) : (s.startPlan g x).mem = s.mem := by
  unfold State.startPlan
  split
  next t c a d ht => rw [State.dropSend_mem, State.mem_of_readSource ht]
  next t ht => exact State.mem_of_readSource ht
  next t b m ht => rw [State.onFabric_mem, State.onCore_mem, State.mem_of_readSource ht]

@[simp] theorem State.planCircuits_mem (s : State) (p : Plan) (release : Bool) : (s.planCircuits p release).mem = s.mem := by
  simp [State.planCircuits]

@[simp] theorem State.endPlan_mem (s : State) (p : Plan) : (s.endPlan p).mem = s.mem := by simp [State.endPlan]

@[simp] theorem State.failPlan_mem (s : State) (p : Plan) : (s.failPlan p).mem = s.mem := by simp [State.failPlan]

@[simp] theorem State.finishPlan_wf {s : State} (h : Memory.wf s.mem = true) (p : Plan) (failed : Bool) :
    Memory.wf (s.finishPlan p failed).mem = true := by
  have hp := State.planStatus_wf h p failed
  unfold State.finishPlan
  dsimp only
  split
  · rwa [State.lateFault_mem, State.endPlan_mem]
  · split
    next t ht => rwa [ht] at hp
    next t c a d ht => rw [ht] at hp; simpa using hp
    next t ht => rw [ht] at hp; split <;> simpa using hp

theorem State.mem_of_planStep {s t : State} {p : Plan} {j : Nat} {r : SourceRead} (ht : s.planStep p j = (t, r)) : t.mem = s.mem :=
  State.mem_of_readSource ht

@[simp] theorem State.runStep_mem (s : State) (p : Plan) : (s.runStep p).mem = s.mem := by
  unfold State.runStep
  dsimp only
  split
  next t c a d ht => rw [State.lateFault_mem, State.failPlan_mem, State.mem_of_planStep ht]
  next t ht => exact State.mem_of_planStep ht
  next t b m ht =>
    rw [← State.mem_of_planStep ht]
    split
    · rw [State.failPlan_mem]
    · split
      · rw [State.onPlan_mem]
      · split
        next u c a d hu => rw [State.lateFault_mem, State.failPlan_mem, State.mem_of_readSource hu]
        next u hu => exact State.mem_of_readSource hu
        next u l m hu => rw [State.onPlan_mem, foldl_mem (fun _ _ => State.inject_mem ..), State.mem_of_readSource hu]

@[simp] theorem State.planDelivery_wf {s : State} (h : Memory.wf s.mem = true) (p : Plan) (k : Packet) :
    Memory.wf (s.planDelivery p k).1.mem = true := by
  unfold State.planDelivery
  split
  · extract_lets dst
    split
    · split
      next u out heq =>
      split
      next t ok ht =>
      have ht : Memory.wf t.mem = true := by rwa [State.mem_of_writeReady ht]
      split
      · exact ht
      · rw [State.onPlan_mem, State.dropEngine_mem]
        exact State.writeLocal_wf ht ..
    · rwa [State.requestPage_mem]
    · rwa [State.askTable_mem]
    · rwa [State.lateFault_mem, State.failPlan_mem]
  · exact h

@[simp] theorem execSendStart_nextOk {s : State} (h : Memory.wf s.mem = true) : NextOk (execSendStart s) := by
  unfold execSendStart
  rw [nextOk_next]
  split
  · split
    · exact h
    · split
      · rwa [State.startPlan_mem]
      · split
        next t c a d ht => rwa [State.dropSend_mem, State.mem_of_readSource ht]
        next t ht => rwa [State.mem_of_readSource ht]
        next t b m ht => rwa [State.startSend_mem, State.mem_of_readSource ht]
  · exact h

@[simp] theorem State.sendDone_mem (s : State) (g : Nat) (x : Send) : (s.sendDone g x).mem = s.mem := by simp [State.sendDone]

@[simp] theorem execSendLocalCompletion_nextOk {s : State} (h : Memory.wf s.mem = true) : NextOk (execSendLocalCompletion s) := by
  simp only [execSendLocalCompletion]
  split <;> simp [h]

@[simp] theorem execSendAck_nextOk {s : State} (h : Memory.wf s.mem = true) : NextOk (execSendAck s) := by
  simp only [execSendAck]
  split <;> simp [h]

@[simp] theorem State.deliverPiece_wf {s : State} (h : Memory.wf s.mem = true) (p : Piece) (g : Nat) :
    Memory.wf (s.deliverPiece p g).mem = true := by
  unfold State.deliverPiece
  split
  · rwa [State.failPiece_mem]
  · split
    · rwa [State.failPiece_mem]
    · rwa [State.requestPage_mem]
    · rwa [State.askTable_mem]
    · extract_lets dst q bad
      split
      · rwa [State.failPiece_mem, State.noteUnreachable_mem]
      · rwa [State.failPiece_mem, State.dropEngine_mem]
      · split
        next u out hu =>
        split
        next t ok ht =>
        have ht : Memory.wf t.mem = true := by rwa [State.mem_of_writeReady ht]
        split
        · exact ht
        · rw [State.donePiece_mem, mem_ite, State.hwAdd_mem, ite_self, State.dropEngine_mem, State.markLocal_mem]
          exact State.writeLocal_wf ht ..

@[simp] theorem execSendDelivery_nextOk {s : State} (h : Memory.wf s.mem = true) : NextOk (execSendDelivery s) := by
  unfold execSendDelivery
  (repeat' split) <;> simp [h]

@[simp] theorem execCollectivePlanRun_nextOk {s : State} (h : Memory.wf s.mem = true) : NextOk (execCollectivePlanRun s) := by
  unfold execCollectivePlanRun
  (repeat' split) <;> simp [h]

/-! ### Memory under Machine/OpticsEvents -/

@[simp] theorem State.formCodes_mem (s : State) (b : Bcast) (j : Nat) : (s.formCodes b j).1.mem = s.mem := by
  simp only [State.formCodes]
  (repeat' split) <;> simp

theorem State.mem_of_formCodes {s t : State} {b : Bcast} {j : Nat} {x : Codes} (ht : s.formCodes b j = (t, x)) : t.mem = s.mem := by
  rw [← s.formCodes_mem b j, ht]

@[simp] theorem State.substituted_mem (s : State) (b : Bcast) (addr data : Word) : (s.substituted b addr data).mem = s.mem := by
  simp [State.substituted]

@[simp] theorem State.actRecords_mem (s : State) (b : Bcast) (r : ActRead) : (s.actRecords b r).mem = s.mem := by
  simp only [State.actRecords]
  split <;> simp

@[simp] theorem State.sendArm_mem (s : State) (bus : Nat) (n : BitVec 32) : (s.sendArm bus n).mem = s.mem := by
  unfold State.sendArm
  split <;> simp

@[simp] theorem State.windowFault_mem (s : State) (g : Nat) (w : Window) (cause : Nat) : (s.windowFault g w cause).mem = s.mem := by
  simp [State.windowFault]

@[simp] theorem State.missed_mem (s : State) (g : Nat) (w : Window) : (s.missed g w).mem = s.mem := by simp [State.missed]

@[simp] theorem State.launchFrame_mem (s : State) (k : Nat) (f : Frame) (cmd : Option Bcast) : (s.launchFrame k f cmd).mem = s.mem := by
  simp [State.launchFrame]

@[simp] theorem execBcastAccept_nextOk {s : State} (h : Memory.wf s.mem = true) : NextOk (execBcastAccept s) := by
  simp only [execBcastAccept]
  split <;> simp [h]

@[simp] theorem State.failJob_mem (s : State) (b : Bcast) (cause : Nat) (addr data : Word) : (s.failJob b cause addr data).mem = s.mem := by
  simp [State.failJob]

@[simp] theorem execSegmentEmissionCommit_nextOk {s : State} (h : Memory.wf s.mem = true) : NextOk (execSegmentEmissionCommit s) := by
  unfold execSegmentEmissionCommit
  extract_lets k x
  rw [nextOk_next]
  split
  · exact h
  next j rest hj =>
    extract_lets b n
    split
    · exact h
    · split
      · exact h
      · split
        next t ht => rwa [State.mem_of_formCodes ht]
        next t c a d ht => rwa [State.failJob_mem, State.mem_of_formCodes ht]
        next t r ht =>
          dsimp only
          rw [State.actRecords_mem, State.onBus_mem, State.launchFrame_mem, foldl_mem, State.mem_of_formCodes ht]
          · exact h
          · intro u g
            rw [mem_ite, State.onCore_mem, ite_self]

@[simp] theorem execReEmission_nextOk {s : State} (h : Memory.wf s.mem = true) : NextOk (execReEmission s) := by
  unfold execReEmission
  extract_lets k g x
  rw [nextOk_next]
  split
  · exact h
  · dsimp only
    split
    · split
      · rwa [mem_ite, State.windowFault_mem, ite_self, State.onBus_mem]
      · exact h
    · split
      · exact h
      · split
        next t ht => rwa [State.mem_of_formCodes ht]
        next t c a d ht => rwa [State.lateFault_mem, State.onBus_mem, State.mem_of_formCodes ht]
        next t r ht => rwa [State.actRecords_mem, State.launchFrame_mem, State.onBus_mem, State.mem_of_formCodes ht]

@[simp] theorem execSegmentSent_nextOk {s : State} (h : Memory.wf s.mem = true) : NextOk (execSegmentSent s) := by
  simp only [execSegmentSent]
  (repeat' split) <;> simp [h]

@[simp] theorem State.armFrom_mem (s : State) (bus : Nat) (n : BitVec 32) (chip : Nat) : (s.armFrom bus n chip).mem = s.mem := by simp [State.armFrom]

@[simp] theorem execArmFlitResend_nextOk {s : State} (h : Memory.wf s.mem = true) : NextOk (execArmFlitResend s) := by
  unfold execArmFlitResend
  split <;> simp [h]

@[simp] theorem State.windowError_mem (s : State) (g : Nat) (w : Window) (addr array : Nat) (kept : Bool) :
    (s.windowError g w addr array kept).mem = s.mem := by
  simp [State.windowError]

theorem State.mem_of_fetchWeights_ok {s t : State} {g : Nat} {w : Window} {n : Nat} (ht : s.fetchWeights g w n = .ok t) : t.mem = s.mem := by
  unfold State.fetchWeights at ht
  dsimp only at ht
  split at ht
  · cases ht
  · exact (Except.ok.inj ht) ▸ rfl

theorem State.mem_of_fetchWeights_error {s t : State} {g : Nat} {w : Window} {n : Nat} (ht : s.fetchWeights g w n = .error t) : t.mem = s.mem := by
  unfold State.fetchWeights at ht
  dsimp only at ht
  split at ht
  · rw [← Except.error.inj ht, State.windowError_mem]
  · cases ht

@[simp] theorem execWindowHeadReady_nextOk {s : State} (h : Memory.wf s.mem = true) : NextOk (execWindowHeadReady s) := by
  unfold execWindowHeadReady
  extract_lets g c
  rw [nextOk_next]
  split
  · exact h
  · split
    · rwa [State.missed_mem]
    · split
      · exact h
      · split
        · exact h
        · extract_lets u
          have hu : Memory.wf u.mem = true := h
          clear_value u
          split
          next t ht => rwa [State.mem_of_fetchWeights_error ht]
          next t ht =>
            have ht : t.mem = u.mem := State.mem_of_fetchWeights_ok ht
            simp [ht, hu]

@[simp] theorem State.arrive1_mem (s : State) (g k : Nat) (f : Frame) (skw : BitVec 2) (w : Window) : (s.arrive1 g k f skw w).mem = s.mem := by
  simp [State.arrive1]

@[simp] theorem execMarkerFrameArrival_nextOk {s : State} (h : Memory.wf s.mem = true) : NextOk (execMarkerFrameArrival s) := by
  unfold execMarkerFrameArrival
  extract_lets g k
  rw [nextOk_next]
  split
  · split
    · split
      · split
        next t ht => rwa [State.mem_of_fetchWeights_error ht]
        next t ht => rwa [State.mem_of_fetchWeights_ok ht]
      · exact h
    · exact h
  · split
    · exact h
    · dsimp only
      split
      · rwa [State.arrive1_mem]
      · exact h

@[simp] theorem State.afterDevx_mem (s : State) (g : Nat) (w : Window) (devx bounded : Bool) (dev : Nat) :
    (s.afterDevx g w devx bounded dev).mem = s.mem := by
  simp [State.afterDevx]

@[simp] theorem State.limitO_mem (s : State) (g : Nat) (is : List Nat) : (s.limitO g is).mem = s.mem := by simp [State.limitO]

@[simp] theorem State.performWindow_wf {s : State} (h : Memory.wf s.mem = true) (g : Nat) (w : Window) (f : Frame) :
    Memory.wf (s.performWindow g w f).mem = true := by
  unfold State.performWindow
  extract_lets lpc lanes is
  split
  · rwa [State.windowFault_mem]
  · split
    next t ht => rwa [State.mem_of_fetchWeights_error ht, State.limitO_mem]
    next t ht =>
      have ht : Memory.wf t.mem = true := by rwa [State.mem_of_fetchWeights_ok ht, State.limitO_mem]
      extract_lets c bounded y
      split
      · rwa [State.windowError_mem]
      · dsimp only
        rw [State.afterDevx_mem, mem_ite, State.strataAdd_mem, ite_self, State.onCore_mem]
        refine memOk_store ?_ ..
        exact ht

@[simp] theorem execWindowCompletion_nextOk {s : State} (h : Memory.wf s.mem = true) : NextOk (execWindowCompletion s) := by
  simp only [execWindowCompletion]
  (repeat' split) <;> simp [h]

@[simp] theorem State.moveRow_mem (s : State) (g : Nat) (r : State × Bool) (p : Nat) : (s.moveRow g r p).1.mem = r.1.mem := by
  unfold State.moveRow
  dsimp only
  split
  · rfl
  · split
    · rfl
    · exact State.enter_mem ..

@[simp] theorem execCalibrationComplete_nextOk {s : State} (h : Memory.wf s.mem = true) : NextOk (execCalibrationComplete s) := by
  unfold execCalibrationComplete
  dsimp only
  rw [nextOk_next]
  split
  · exact h
  · have hr : Memory.wf (s.ev.nums.foldl (s.moveRow s.ev.core) (s, true)).1.mem = true :=
      List.foldlRecOn (motive := fun r : State × Bool => Memory.wf r.1.mem = true) _ _ h fun r hr p _ => by rwa [State.moveRow_mem]
    split
    · exact hr
    · rwa [State.enter_mem]

@[simp] theorem State.failLaunchOptics_mem (s : State) (g l : Nat) (k : StrandKind) (pc : Word) (bus : Nat) (n : BitVec 32) (num : Word) :
    (s.failLaunchOptics g l k pc bus n num).mem = s.mem := by
  simp [State.failLaunchOptics]

/-! ### Memory under Machine/FabricEvents -/

@[simp] theorem State.takePacket_mem (s : State) (p : Packet) : (s.takePacket p).mem = s.mem := by simp [State.takePacket]

@[simp] theorem State.outTo_mem (s : State) (port : Nat) (p : Packet) : (s.outTo port p).mem = s.mem := by simp [State.outTo]

@[simp] theorem State.countBroken_mem (s : State) (port : Nat) : (s.countBroken port).mem = s.mem := by simp [State.countBroken]

@[simp] theorem State.breakRoute_mem (s : State) (p : Packet) (port : Nat) : (s.breakRoute p port).mem = s.mem := by simp [State.breakRoute]

@[simp] theorem State.answer_mem (s : State) (r : Request) (ok : Bool) (bytes : List Byte) (cause : Nat) (marks : List Nat) :
    (s.answer r ok bytes cause marks).mem = s.mem := by
  simp [State.answer]

@[simp] theorem State.holdRequest_mem (s : State) (r : Request) : (s.holdRequest r).mem = s.mem := by simp [State.holdRequest]

@[simp] theorem State.haltRequest_mem (s : State) (r : Request) : (s.haltRequest r).mem = s.mem := by simp [State.haltRequest]

@[simp] theorem State.losePlan_mem (s : State) (tag : BitVec 32) : (s.losePlan tag).mem = s.mem := by simp [State.losePlan]

@[simp] theorem State.deliverPacket_mem (s : State) (p : Packet) : (s.deliverPacket p).mem = s.mem := by
  unfold State.deliverPacket
  (repeat' split) <;> simp

@[simp] theorem State.onCross_mem (s : State) (src dst port : Nat) (f : CrossPoint → Option CrossPoint) : (s.onCross src dst port f).mem = s.mem := by
  simp [State.onCross]

@[simp] theorem State.passCircuit_mem (s : State) (p : Packet) : (s.passCircuit p).mem = s.mem := by
  unfold State.passCircuit
  split <;> simp

@[simp] theorem State.crossPoint_mem (s : State) (src dst out port : Nat) : (s.crossPoint src dst out port).1.mem = s.mem := by
  unfold State.crossPoint
  (repeat' split) <;> simp

@[simp] theorem State.hop_mem (s : State) (p : Packet) (port : Nat) : (s.hop p port).mem = s.mem := by simp [State.hop]

@[simp] theorem execPacketHop_nextOk {s : State} (h : Memory.wf s.mem = true) : NextOk (execPacketHop s) := by
  unfold execPacketHop
  split <;> simp [h]

@[simp] theorem State.carryOn_mem (s : State) (p : Packet) (port : Nat) : (s.carryOn p port).mem = s.mem := by simp [State.carryOn]

@[simp] theorem execRouteCarryingHop_nextOk {s : State} (h : Memory.wf s.mem = true) : NextOk (execRouteCarryingHop s) := by
  simp only [execRouteCarryingHop]
  (repeat' split) <;> simp [h]

@[simp] theorem State.losePacket_mem (s : State) (p : Packet) : (s.losePacket p).mem = s.mem := by simp [State.losePacket]

@[simp] theorem execFlitUncorrectable_nextOk {s : State} (h : Memory.wf s.mem = true) : NextOk (execFlitUncorrectable s) := by
  unfold execFlitUncorrectable
  split <;> simp [h]

@[simp] theorem State.refuse_mem (s : State) (p : Packet) (e : Nat × Nat × Nat) : (s.refuse p e).mem = s.mem := by simp [State.refuse]

@[simp] theorem State.serve_wf {s : State} (h : Memory.wf s.mem = true) (p : Packet) (k : RequestKind) : Memory.wf (s.serve p k).mem = true := by
  simp only [State.serve]
  (repeat' split) <;> simp [h]

@[simp] theorem State.takeIngress_mem (s : State) (e : Nat × Packet) : (s.takeIngress e).mem = s.mem := by simp [State.takeIngress]

@[simp] theorem execRequestAtHome_nextOk {s : State} (h : Memory.wf s.mem = true) : NextOk (execRequestAtHome s) := by
  simp only [execRequestAtHome]
  (repeat' split) <;> simp [h]

@[simp] theorem execHaltedRequestExpiry_nextOk {s : State} (h : Memory.wf s.mem = true) : NextOk (execHaltedRequestExpiry s) := by
  unfold execHaltedRequestExpiry
  split <;> simp [h]

@[simp] theorem execResponseArrival_nextOk {s : State} (h : Memory.wf s.mem = true) : NextOk (execResponseArrival s) := by
  unfold execResponseArrival
  split <;> simp [h]

@[simp] theorem execRequesterTimerExpiry_nextOk {s : State} (h : Memory.wf s.mem = true) : NextOk (execRequesterTimerExpiry s) := by
  unfold execRequesterTimerExpiry
  split <;> simp [h]

@[simp] theorem execRouteBroken_nextOk {s : State} (h : Memory.wf s.mem = true) : NextOk (execRouteBroken s) := by
  unfold execRouteBroken
  split <;> simp [h]

@[simp] theorem execBusyReply_nextOk {s : State} (h : Memory.wf s.mem = true) : NextOk (execBusyReply s) := by
  unfold execBusyReply
  split <;> simp [h]

@[simp] theorem execBusyReissue_nextOk {s : State} (h : Memory.wf s.mem = true) : NextOk (execBusyReissue s) := by
  unfold execBusyReissue
  split <;> simp [h]

@[simp] theorem execTargetHalted_nextOk {s : State} (h : Memory.wf s.mem = true) : NextOk (execTargetHalted s) := by
  unfold execTargetHalted
  split <;> simp [h]

@[simp] theorem State.portDone_mem (s : State) (c : PortCommand) : (s.portDone c).mem = s.mem := by simp [State.portDone]

@[simp] theorem State.pumpPort_mem (s : State) (port fuel : Nat) : (s.pumpPort port fuel).mem = s.mem := by
  induction fuel generalizing s with
  | zero => rfl
  | succ fuel ih =>
    unfold State.pumpPort
    dsimp only
    split
    · rfl
    · split <;> simp [ih]

@[simp] theorem State.portEnds_mem (s : State) (port : Nat) (st : PortState) : (s.portEnds port st).mem = s.mem := by
  simp only [State.portEnds]
  split <;> simp

@[simp] theorem State.portCommand_mem (s : State) (n : Nat) (drain : Bool) : (s.portCommand n drain).mem = s.mem := by simp [State.portCommand]

@[simp] theorem execDrainPort_nextOk {s : State} (h : Memory.wf s.mem = true) : NextOk (execDrainPort s) := by
  rwa [execDrainPort, nextOk_next, State.withCommand_mem (State.portCommand_mem ..)]

@[simp] theorem execRetrainPort_nextOk {s : State} (h : Memory.wf s.mem = true) : NextOk (execRetrainPort s) := by
  rwa [execRetrainPort, nextOk_next, State.withCommand_mem (State.portCommand_mem ..)]

@[simp] theorem State.portUp_mem (s : State) (port : Nat) : (s.portUp port).mem = s.mem := by
  simp only [State.portUp]
  split <;> simp

@[simp] theorem State.peerDrains_mem (s : State) (port : Nat) : (s.peerDrains port).mem = s.mem := by simp [State.peerDrains]

@[simp] theorem execCircuit_nextOk {s : State} (h : Memory.wf s.mem = true) : NextOk (execCircuit s) := by
  rw [execCircuit, nextOk_next, State.withCommand_mem]
  · exact h
  · simp

@[simp] theorem State.circuitIdle_mem (s : State) (port : Nat) : (s.circuitIdle port).mem = s.mem := by simp [State.circuitIdle]

@[simp] theorem State.setupFails_mem (s : State) (port : Nat) : (s.setupFails port).mem = s.mem := by
  simp only [State.setupFails]
  split <;> simp

@[simp] theorem State.tryFails_mem (s : State) (port : Nat) : (s.tryFails port).mem = s.mem := by simp [State.tryFails]

@[simp] theorem State.circuitAcked_mem (s : State) (port : Nat) : (s.circuitAcked port).mem = s.mem := by simp [State.circuitAcked]

@[simp] theorem State.circuitBusy_mem (s : State) (port : Nat) : (s.circuitBusy port).mem = s.mem := by simp [State.circuitBusy]

@[simp] theorem State.tornDown_mem (s : State) (port : Nat) : (s.tornDown port).mem = s.mem := by simp [State.tornDown]

@[simp] theorem State.lightEnd_mem (s : State) (src out port : Nat) : (s.lightEnd src out port).mem = s.mem := by simp [State.lightEnd]

@[simp] theorem State.setupHop_mem (s : State) (src dst out port : Nat) : (s.setupHop src dst out port).mem = s.mem := by simp [State.setupHop]

@[simp] theorem State.peerTeardown_mem (s : State) (src port : Nat) : (s.peerTeardown src port).mem = s.mem := by simp [State.peerTeardown]

@[simp] theorem State.countSilent_mem (s : State) (src : Nat) (b : Bool) : (s.countSilent src b).mem = s.mem := by simp [State.countSilent]

@[simp] theorem State.deliverControl_wf {s : State} (h : Memory.wf s.mem = true) (p : Packet) : Memory.wf (s.deliverControl p).mem = true := by
  unfold State.deliverControl
  split <;> simp [h]

@[simp] theorem execControlPacketArrival_nextOk {s : State} (h : Memory.wf s.mem = true) : NextOk (execControlPacketArrival s) := by
  unfold execControlPacketArrival
  split <;> simp [h]

/-! ### Memory under Machine/Stall -/

@[simp] theorem execStallLimit_nextOk {s : State} (h : Memory.wf s.mem = true) : NextOk (execStallLimit s) := by
  simp only [execStallLimit]
  split <;> simp [h]

/-! ### Memory under Machine/Environment -/

@[simp] theorem State.releaseTimed_mem (s : State) (d : Nat) : (s.releaseTimed d).mem = s.mem := by simp [State.releaseTimed]

@[simp] theorem State.tick_mem (s : State) (d n : Nat) : (s.tick d n).mem = s.mem := by
  unfold State.tick
  dsimp only
  split
  · exact State.onDie_mem ..
  · exact foldl_mem (f := fun s d => s.onDie d _) (fun _ _ => rfl) _ _

@[simp] theorem State.passNs_mem (s : State) (d n : Nat) : (s.passNs d n).mem = s.mem := by simp [State.passNs]

@[simp] theorem State.passCcy_mem (s : State) (g n : Nat) : (s.passCcy g n).mem = s.mem := by simp [State.passCcy]

@[simp] theorem State.passKcy_wf {s : State} (h : Memory.wf s.mem = true) (n : Nat) : Memory.wf (s.passKcy n).mem = true := by simp [State.passKcy, h]

@[simp] theorem State.countCorrected_mem (s : State) (array a : Nat) : (s.countCorrected array a).mem = s.mem := by simp [State.countCorrected]

@[simp] theorem State.loseGranule_mem (s : State) (d a : Nat) : (s.loseGranule d a).mem = s.mem := by
  unfold State.loseGranule
  split <;> simp

@[simp] theorem State.rebuildLine_wf {s : State} (h : Memory.wf s.mem = true) (a : Nat) : Memory.wf (s.rebuildLine a).mem = true := by
  unfold State.rebuildLine
  refine foldl_wf (fun t x ht => ?_) h _
  (repeat' split) <;> simp [ht]

@[simp] theorem State.reply_mem (s : State) (r : Option (List Byte)) : (s.reply r).mem = s.mem := by simp [State.reply]

@[simp] theorem State.hostBar0_wf {s : State} (h : Memory.wf s.mem = true) (o : Nat) (op : HostOp) : Memory.wf (s.hostBar0 o op).mem = true := by
  unfold State.hostBar0
  (repeat' split) <;> simp [h]

@[simp] theorem State.onMgmt_mem (s : State) (f : Mgmt → Mgmt) : (s.onMgmt f).mem = s.mem := by simp [State.onMgmt]

@[simp] theorem State.setClock_mem (s : State) : (s.setClock).mem = s.mem := by simp [State.setClock]

@[simp] theorem State.setFirmwareStep_mem (s : State) (n : Nat) : (s.setFirmwareStep n).mem = s.mem := by simp [State.setFirmwareStep]

@[simp] theorem State.applyUpset_wf {s : State} (h : Memory.wf s.mem = true) (u : Upset) : Memory.wf (s.applyUpset u).mem = true := by
  unfold State.applyUpset
  (repeat' split) <;> simp [h]

/-! ### Memory under Machine/Paging -/

@[simp] theorem State.endPageIn_mem (s : State) (r : Nat × Nat × Nat) : (s.endPageIn r).mem = s.mem := by simp [State.endPageIn]

@[simp] theorem State.deny_mem (s : State) (g : Nat) (r : Nat × Nat × Nat) (cause : Nat) (data : Word) : (s.deny g r cause data).mem = s.mem := by
  simp [State.deny]

@[simp] theorem execPageInComplete_nextOk {s : State} (h : Memory.wf s.mem = true) : NextOk (execPageInComplete s) := by
  unfold execPageInComplete
  rw [nextOk_next]
  split
  · exact h
  · dsimp only
    split
    · simp [h]
    · simp [h]
    · simp [h]
    · split <;> simp [h]
    · exact getD_wf h fun t ht => State.refillFrom_wf h ht
    · split
      next t ht => rw [State.endPageIn_mem]; exact State.makeResident_wf h ht
      · exact h

@[simp] theorem State.moveReplicas_mem (s : State) (old new : Nat) : (s.moveReplicas old new).mem = s.mem := by
  unfold State.moveReplicas
  exact foldl_mem (fun t x => by simp) _ _

@[simp] theorem execPageMigration_nextOk {s : State} (h : Memory.wf s.mem = true) : NextOk (execPageMigration s) := by
  simp only [execPageMigration]
  split <;> simp [h]

@[simp] theorem State.gatherFrame_wf {s : State} (h : Memory.wf s.mem = true) (frame d : Nat) : Memory.wf (s.gatherFrame frame d).mem = true := by
  unfold State.gatherFrame
  exact foldl_wf (fun t x ht => by simp [ht]) h _

@[simp] theorem State.sendShadows_mem (s : State) (frame : Nat) : (s.sendShadows frame).mem = s.mem := by simp [State.sendShadows]

@[simp] theorem State.dropReplicas_mem (s : State) (frame : Nat) : (s.dropReplicas frame).mem = s.mem := by simp [State.dropReplicas]

@[simp] theorem State.settleJoins_mem (s : State) (frame : Nat) : (s.settleJoins frame).mem = s.mem := by simp [State.settleJoins]

@[simp] theorem State.failParked_mem (s : State) (frame : Nat) : (s.failParked frame).mem = s.mem := by simp [State.failParked]

@[simp] theorem execLatticeTypeChange_nextOk {s : State} (h : Memory.wf s.mem = true) : NextOk (execLatticeTypeChange s) := by
  unfold execLatticeTypeChange
  extract_lets ctx
  rw [nextOk_next]
  split
  · exact h
  · extract_lets entry p lat waiting
    split
    · exact h
    · refine State.writeEntry_wf ?_ ..
      rw [State.settleJoins_mem, State.dropReplicas_mem, State.sendShadows_mem]
      refine foldl_wf (fun _ _ ht => State.gatherFrame_wf ht ..) ?_ _
      rwa [State.failParked_mem]

/-- Cells put one by one keep the form of a memory. -/
theorem wf_foldl_put {β : Type} {f : List Host.Cell → β → List Host.Cell} (hf : ∀ m b, Memory.wf m = true → Memory.wf (f m b) = true)
    {m : List Host.Cell} (hm : Memory.wf m = true) (l : List β) : Memory.wf (l.foldl f m) = true :=
  List.foldlRecOn (motive := fun m => Memory.wf m = true) l f hm fun m hm b _ => hf m b hm

/-! ### Memory under Machine/HostEvents -/

@[simp] theorem State.writeImage_wf {s : State} (h : Memory.wf s.mem = true) (base below : Nat) : Memory.wf (s.writeImage base below).mem = true := by
  unfold State.writeImage
  dsimp only
  rw [State.markAll_mem]
  refine wf_foldl_put (fun m c hm => ?_) (wf_filter _ h) _
  split
  · split
    · exact wf_put _ hm
    · exact hm
  · exact hm

@[simp] theorem State.readImage_wf {s : State} (h : Memory.wf s.mem = true) (base : Nat) : Memory.wf (s.readImage base).mem = true := by
  unfold State.readImage
  dsimp only
  rw [State.markAll_mem]
  refine wf_foldl_put (fun m c hm => ?_) (wf_filter _ h) _
  split
  · exact wf_put _ hm
  · exact hm

@[simp] theorem State.zeroHeader_wf {s : State} (h : Memory.wf s.mem = true) (base : Nat) : Memory.wf (s.zeroHeader base).mem = true :=
  memOk_store h ..

@[simp] theorem State.outsideRead_mem (s : State) (addrs : List Nat) : (s.outsideRead addrs).2.mem = s.mem := by simp [State.outsideRead]

@[simp] theorem State.hostBar2_wf {s : State} (h : Memory.wf s.mem = true) (off : Nat) (op : HostOp) : Memory.wf (s.hostBar2 off op).mem = true := by
  unfold State.hostBar2
  split <;> simp [h]

@[simp] theorem State.quiesce_mem (s : State) : (s.quiesce).mem = s.mem := by simp [State.quiesce]

@[simp] theorem State.endCheckpoint_wf {s : State} (h : Memory.wf s.mem = true) (c : Checkpoint) : Memory.wf (s.endCheckpoint c).mem = true := by
  unfold State.endCheckpoint
  exact foldl_wf (fun t x ht => by simp [ht]) (by simp [h]) _

@[simp] theorem State.interruptCheckpoint_wf {s : State} (h : Memory.wf s.mem = true) (c : Checkpoint) (reached cause : Nat) :
    Memory.wf (s.interruptCheckpoint c reached cause).mem = true := by
  simp [State.interruptCheckpoint, h]

/-! ### Memory under Machine/Queues -/

theorem State.withCommand_wf {s : State} (h : Memory.wf s.mem = true) (n kind : Nat) {body : State → State}
    (hb : Memory.wf (body s).mem = true) : Memory.wf (s.withCommand n kind body).mem = true := by
  simp [State.withCommand, h, hb]

/-! ### Memory under Machine/HostEvents -/

@[simp] theorem execCheckpoint_nextOk {s : State} (h : Memory.wf s.mem = true) : NextOk (execCheckpoint s) := by
  unfold execCheckpoint
  rw [nextOk_next]
  refine State.withCommand_wf h _ _ ?_
  simp [h]

@[simp] theorem State.settleLattice_wf {s : State} (h : Memory.wf s.mem = true) : Memory.wf s.settleLattice.mem = true := by
  unfold State.settleLattice
  refine foldl_wf (fun t d ht => foldl_wf (fun u e hu => ?_) ht _) (foldl_wf (fun t d ht => ?_) h _) _
  · rw [State.onDie_mem, State.markAll_mem]
    exact memOk_store hu ..
  · split
    · exact State.exchangeWhole_wf _ _ ht
    · exact ht

@[simp] theorem State.writeCheckpoint_wf {s : State} (h : Memory.wf s.mem = true) (c : Checkpoint) : Memory.wf (s.writeCheckpoint c).mem = true := by
  unfold State.writeCheckpoint
  extract_lets t header image
  have ht : Memory.wf t.mem = true := State.writeImage_wf (State.zeroHeader_wf (State.settleLattice_wf h) _) ..
  clear_value t header image
  dsimp only
  exact memOk_store ht ..

@[simp] theorem execCheckpointCompletion_nextOk {s : State} (h : Memory.wf s.mem = true) : NextOk (execCheckpointCompletion s) := by
  unfold execCheckpointCompletion
  split <;> simp [h]

theorem State.restore_wf {s t : State} (h : Memory.wf s.mem = true) {base : Nat} (ht : s.restore base = some t) : Memory.wf t.mem = true := by
  unfold State.restore at ht
  dsimp only at ht
  split at ht
  · cases ht
  · split at ht
    · cases ht
    · rw [← Option.some.inj ht, foldl_mem (f := fun s l => s.onQueue _ _) (fun _ _ => rfl),
        foldl_mem (f := fun s n => s.onQueue _ _) (fun _ _ => rfl)]
      exact State.readImage_wf h _

@[simp] theorem State.endSpace_mem (s : State) (space cause : Nat) : (s.endSpace space cause).mem = s.mem := by simp [State.endSpace]

@[simp] theorem State.endTierEntries_mem (s : State) : (s.endTierEntries).mem = s.mem := by simp [State.endTierEntries]

@[simp] theorem State.stopImage_wf {s : State} (h : Memory.wf s.mem = true) (c : Checkpoint) (reached : Nat) : Memory.wf (s.stopImage c reached).mem = true :=
  State.interruptCheckpoint_wf (State.writeImage_wf (State.zeroHeader_wf (State.settleLattice_wf h) _) ..) ..

@[simp] theorem execSecondTierFailure_nextOk {s : State} (h : Memory.wf s.mem = true) : NextOk (execSecondTierFailure s) := by
  simp only [execSecondTierFailure]
  (repeat' split) <;> simp [h]

@[simp] theorem execPcieError_nextOk {s : State} (h : Memory.wf s.mem = true) : NextOk (execPcieError s) := by
  simp only [execPcieError]
  (repeat' split) <;> simp [h]

@[simp] theorem State.losePower_wf {s : State} (h : Memory.wf s.mem = true) : Memory.wf s.losePower.mem = true := by
  unfold State.losePower
  refine wf_filter _ ?_
  split
  · split
    · exact State.zeroHeader_wf h _
    · exact h
  · exact h

/-! ### Memory under Machine/Management -/

@[simp] theorem State.commitPairs_mem (s : State) (d : Nat) (l : List (Word × Word)) : (s.commitPairs d l).mem = s.mem := by simp [State.commitPairs]

@[simp] theorem State.readFuses_mem (s : State) (f : Fuses) : (s.readFuses f).mem = s.mem := by simp [State.readFuses]

theorem State.bootRom_mem {s t : State} {f : Fuses} (ht : s.bootRom f = some t) : t.mem = s.mem := by
  unfold State.bootRom at ht
  obtain ⟨e, -, he⟩ := Option.map_eq_some_iff.mp ht
  rw [← he, State.onMgmt_mem, State.onMgmt_mem]

@[simp] theorem State.trainSkew_mem (s : State) (f : Fuses) : (s.trainSkew f).mem = s.mem := by simp [State.trainSkew]

@[simp] theorem State.firstCommit_mem (s : State) (f : Fuses) : (s.firstCommit f).mem = s.mem := by simp [State.firstCommit]

@[simp] theorem State.bringUp_mem (s : State) (f : Fuses) : (s.bringUp f).mem = s.mem := by
  have hb : ((s.bootRom f).getD s).mem = s.mem := getD_mem fun t ht => State.bootRom_mem ht
  simp [State.bringUp, hb]

@[simp] theorem State.forceClock_mem (s : State) (d : Nat) : (s.forceClock d).mem = s.mem := by simp [State.forceClock]

@[simp] theorem State.warn_mem (s : State) (d : Nat) : (s.warn d).mem = s.mem := by simp [State.warn]

@[simp] theorem State.mbReply_mem (s : State) (l : List Word) : (s.mbReply l).mem = s.mem := by simp [State.mbReply]

theorem State.mailbox_wf {s : State} (h : Memory.wf s.mem = true) (op : Nat) {body : State → Nat × State}
    (hb : Memory.wf (body s).2.mem = true) : Memory.wf (s.mailbox op body).mem = true := by
  unfold State.mailbox
  dsimp only
  split
  · rwa [State.onMgmt_mem]
  · rw [State.onMgmt_mem]
    split
    · exact h
    · exact hb

@[simp] theorem execFirmwareVersion_nextOk {s : State} (h : Memory.wf s.mem = true) : NextOk (execFirmwareVersion s) := by
  rw [execFirmwareVersion, nextOk_next]
  exact State.mailbox_wf h _ (by rwa [State.mbReply_mem])

@[simp] theorem execPresentMask_nextOk {s : State} (h : Memory.wf s.mem = true) : NextOk (execPresentMask s) := by
  rw [execPresentMask, nextOk_next]
  refine State.mailbox_wf h _ ?_
  dsimp only
  split
  · exact h
  · rwa [State.mbReply_mem]

@[simp] theorem execReadStrataPage_nextOk {s : State} (h : Memory.wf s.mem = true) : NextOk (execReadStrataPage s) := by
  rw [execReadStrataPage, nextOk_next]
  refine State.mailbox_wf h _ ?_
  dsimp only
  split
  · exact h
  · rwa [State.mbReply_mem]

theorem State.debug_wf {s : State} (h : Memory.wf s.mem = true) (op : Nat) {body : State → Nat → State}
    (hb : ∀ g, (body s g).mem = s.mem) : Memory.wf (s.debug op body).mem = true := by
  unfold State.debug
  dsimp only
  split
  · exact h
  · refine State.mailbox_wf h _ ?_
    split
    · exact h
    · rwa [hb]

@[simp] theorem execDebugHalt_nextOk {s : State} (h : Memory.wf s.mem = true) : NextOk (execDebugHalt s) := by
  rw [execDebugHalt, nextOk_next]
  exact State.debug_wf h _ fun g => State.haltCore_mem ..

@[simp] theorem execDebugResume_nextOk {s : State} (h : Memory.wf s.mem = true) : NextOk (execDebugResume s) := by
  rw [execDebugResume, nextOk_next]
  refine State.debug_wf h _ fun g => ?_
  rw [mem_ite, State.gangDiscard_mem, State.resume_mem, ite_self]

@[simp] theorem execDebugSetDbg_nextOk {s : State} (h : Memory.wf s.mem = true) : NextOk (execDebugSetDbg s) := by
  rw [execDebugSetDbg, nextOk_next]
  exact State.debug_wf h _ fun g => State.onCore_mem ..

@[simp] theorem execRestoreCheckpoint_nextOk {s : State} (h : Memory.wf s.mem = true) : NextOk (execRestoreCheckpoint s) := by
  rw [execRestoreCheckpoint, nextOk_next]
  refine State.mailbox_wf h _ ?_
  dsimp only
  split
  · exact h
  · split
    · exact h
    · split
      next t ht => exact State.restore_wf h ht
      · exact h

@[simp] theorem execFirmwareUpdateBlock_nextOk {s : State} (h : Memory.wf s.mem = true) : NextOk (execFirmwareUpdateBlock s) := by
  rw [execFirmwareUpdateBlock, nextOk_next]
  refine State.mailbox_wf h _ ?_
  dsimp only
  split
  · rwa [State.onMgmt_mem, State.onMgmt_mem]
  · rwa [State.onMgmt_mem]

/-! ### Memory under Machine/MasonEvents -/

@[simp] theorem State.dispatchFault_mem (s : State) (g : Nat) (x : Item) (cause : Nat) (addr : Word) (data : Word) :
    (s.dispatchFault g x cause addr data).mem = s.mem := by
  simp [State.dispatchFault]

@[simp] theorem State.writeItem_wf {s : State} (h : Memory.wf s.mem = true) (g : Nat) (l : Launch) (x : Item) (c : BitVec 32 × Nat)
    (y : CairnSlot) (r : Ring) (i : Nat) (row : List Byte) (marks : List Nat) :
    Memory.wf (s.writeItem g l x c y r i row marks).mem = true := by
  unfold State.writeItem
  extract_lets dst bytes
  split
  · rwa [State.dispatchFault_mem]
  · rwa [State.requestPage_mem]
  · rwa [State.askTable_mem]
  · extract_lets us
    split
    · rwa [State.dispatchFault_mem, State.noteUnreachable_mem]
    · rwa [State.dispatchFault_mem]
    · split
      next u out hu =>
      split
      next t ok ht =>
      have ht : Memory.wf t.mem = true := by rwa [State.mem_of_writeReady ht]
      split
      · exact ht
      · dsimp only
        rw [State.onCore_mem]
        refine State.holdQua_wf (State.joinKeystone_wf ?_ ..) ..
        rw [State.onLaunch_mem, State.dropEngine_mem, State.markLocal_mem]
        exact State.writeLocal_wf ht ..

@[simp] theorem execDispatchPerform_nextOk {s : State} (h : Memory.wf s.mem = true) : NextOk (execDispatchPerform s) := by
  unfold execDispatchPerform
  extract_lets g
  rw [nextOk_next]
  split
  · exact h
  · split
    · dsimp only
      split
      · rwa [State.dispatchFault_mem]
      · split
        · rwa [State.dispatchFault_mem]
        · split
          · exact h
          · split
            · exact h
            · split
              next t cause a d ht => rwa [State.dispatchFault_mem, State.mem_of_readSource ht]
              next t ht => rwa [State.mem_of_readSource ht]
              next t row marks ht => exact State.writeItem_wf (by rwa [State.mem_of_readSource ht]) ..
    · rwa [State.dispatchFault_mem]

/-! ### Memory under Machine/Tasks -/

@[simp] theorem State.noteWaits_mem (s : State) (l : Launch) (st : Stage) (g : Nat) : (s.noteWaits l st g).mem = s.mem := by
  unfold State.noteWaits
  (repeat' split) <;> simp

@[simp] theorem State.beginTask_mem (s : State) (g : Nat) (t : Task) : (s.beginTask g t).mem = s.mem := by simp [State.beginTask]

@[simp] theorem State.recordLost_mem (s : State) (l : Launch) (i : Nat) (a : Word) : (s.recordLost l i a).mem = s.mem := by simp [State.recordLost]

theorem State.withPicked_mem (s : State) (l : Launch) (i g : Nat) (p : Pick) {body : State → Task → State}
    (hb : ∀ t x, (body t x).mem = t.mem) : (s.withPicked l i g p body).mem = s.mem := by
  unfold State.withPicked
  split
  · rfl
  · split
    · rw [hb, State.onLaunch_mem]
    · split
      · rw [State.recordLost_mem]
      · rw [hb, State.onLaunch_mem]

@[simp] theorem State.startOn_mem (s : State) (l : Launch) (i : Nat) (st : Stage) (g : Nat) : (s.startOn l i st g).mem = s.mem := by
  unfold State.startOn
  extract_lets c
  split
  · split
    · refine s.withPicked_mem _ _ _ _ fun t x => ?_
      rw [State.onCore_mem, mem_ite, State.onLaunch_mem, ite_self]
    · rfl
  · split
    · rfl
    · simp
  · extract_lets fresh
    split
    · rfl
    · exact s.withPicked_mem _ _ _ _ fun t x => State.beginTask_mem ..
  · rfl

@[simp] theorem State.startGangOn_mem (s : State) (l : Launch) (i : Nat) (st : Stage) (g : Nat) : (s.startGangOn l i st g).mem = s.mem := by
  unfold State.startGangOn
  extract_lets q
  split
  · rfl
  · split
    · split
      · rfl
      · exact foldl_mem (fun t x => t.withPicked_mem _ _ _ _ fun _ _ => State.beginTask_mem ..) _ _
    · split
      · rfl
      · refine foldl_mem (fun t k => ?_) _ _
        split
        · split
          · exact t.withPicked_mem _ _ _ _ fun _ _ => State.beginTask_mem ..
          · rfl
        · rfl
    · rfl

@[simp] theorem execTaskStart_nextOk {s : State} (h : Memory.wf s.mem = true) : NextOk (execTaskStart s) := by
  simp only [execTaskStart]
  split <;> simp [h]

@[simp] theorem State.ungrant_mem (s : State) (l i g : Nat) : (s.ungrant l i g).mem = s.mem := by simp [State.ungrant]

@[simp] theorem State.grant_mem (s : State) (l i g : Nat) : (s.grant l i g).mem = s.mem := by simp [State.grant]

@[simp] theorem State.leaveStage_mem (s : State) (t : Task) (g : Nat) (keep : Stage → Bool) : (s.leaveStage t g keep).mem = s.mem := by
  simp only [State.leaveStage]
  (repeat' split) <;> simp

@[simp] theorem State.keepJoins_mem (s : State) (g : Nat) (l : Nat) : (s.keepJoins g l).mem = s.mem := by simp [State.keepJoins]

@[simp] theorem State.endTask_mem (s : State) (g : Nat) (t : Task) : (s.endTask g t).mem = s.mem := by
  simp only [State.endTask]
  (repeat' split) <;> simp

@[simp] theorem State.flushMine_wf {s : State} (h : Memory.wf s.mem = true) (g : Nat) : Memory.wf (s.flushMine g).mem = true := by
  unfold State.flushMine
  exact foldl_wf (fun t x ht => by simp [ht]) h _

@[simp] theorem execTaskEnd_nextOk {s : State} (h : Memory.wf s.mem = true) : NextOk (execTaskEnd s) := by
  simp only [execTaskEnd]
  split <;> simp [h]

@[simp] theorem State.preemptTask_mem (s : State) (g : Nat) (t : Task) : (s.preemptTask g t).mem = s.mem := by
  unfold State.preemptTask
  (repeat' split) <;> simp

@[simp] theorem execPreemptionRequest_nextOk {s : State} (h : Memory.wf s.mem = true) : NextOk (execPreemptionRequest s) := by
  simp only [execPreemptionRequest]
  (repeat' split) <;> simp [h]

@[simp] theorem execRegionBoundOverrun_nextOk {s : State} (h : Memory.wf s.mem = true) : NextOk (execRegionBoundOverrun s) := by
  simp only [execRegionBoundOverrun]
  split <;> simp [h]

/-- A state that comes with a written restart record has memory in its canonical form. -/
def RecordedOk : Recorded → Prop
  | .failed _ _ => True
  | .wait t => Memory.wf t.mem = true
  | .done t => Memory.wf t.mem = true

theorem State.writeRestart_ok {s : State} (h : Memory.wf s.mem = true) (g : Nat) (l : Launch) (i : Nat) : RecordedOk (s.writeRestart g l i) := by
  unfold State.writeRestart
  extract_lets a
  split
  · trivial
  · rwa [RecordedOk, State.requestPage_mem]
  · rwa [RecordedOk, State.askTable_mem]
  · extract_lets dst
    split
    · trivial
    · trivial
    · split
      next u out hu =>
      split
      next t ok ht =>
      have ht : Memory.wf t.mem = true := by rwa [State.mem_of_writeReady ht]
      split
      · dsimp only [RecordedOk]
        rw [State.dropEngine_mem]
        exact State.writeLocal_wf ht u out
      · exact ht

@[simp] theorem State.requeueTask_wf {s : State} (h : Memory.wf s.mem = true) (g : Nat) : Memory.wf (s.requeueTask g).mem = true := by
  unfold State.requeueTask
  split
  · exact h
  next t hg =>
    split
    · exact h
    next l hl =>
      dsimp only
      have hr := State.writeRestart_ok (s := s.onLaunch l.id (fun l => l.unclaim t)) h g l (lowestUnused (s.recordsUsed l))
      split
      · rwa [State.taskFault_mem, State.onLaunch_mem]
      next u hu => rwa [hu] at hr
      next u hu =>
        rw [hu] at hr
        rwa [State.leaveStage_mem, State.onCore_mem, State.onLaunch_mem, State.keepJoins_mem]

@[simp] theorem execDiscardComplete_nextOk {s : State} (h : Memory.wf s.mem = true) : NextOk (execDiscardComplete s) := by
  unfold execDiscardComplete
  extract_lets g
  rw [nextOk_next]
  split
  · extract_lets gs
    split
    · exact foldl_wf (fun _ _ ht => State.requeueTask_wf ht _) h _
    · exact h
  · exact h

/-! ### Memory under Machine/Scheduler -/

@[simp] theorem State.grantUpTo_mem (s : State) (e : Line) (n : Nat) (free : List Nat) : (s.grantUpTo e n free).1.mem = s.mem := by
  simp [State.grantUpTo]

@[simp] theorem State.assignAll_mem (s : State) (ls : List Line) (order : List Nat) : (s.assignAll ls order).1.mem = s.mem := by
  unfold State.assignAll
  refine List.foldlRecOn (motive := fun r : (State × List (Nat × Nat)) × Nat => r.1.1.mem = s.mem) _ _ rfl fun r hr k _ =>
    List.foldlRecOn (motive := fun r : State × List (Nat × Nat) => r.1.mem = s.mem) _ _ hr fun r hr e _ => ?_
  split
  · exact (State.grantUpTo_mem ..).trans hr
  · exact hr

@[simp] theorem State.askOne_mem (s : State) (ls : List Line) (e : Line) : (s.askOne ls e).mem = s.mem := by
  unfold State.askOne
  split <;> simp

@[simp] theorem State.askFor_mem (s : State) (ls : List Line) (e : Line) (lack : Nat) : (s.askFor ls e lack).mem = s.mem := by simp [State.askFor]

@[simp] theorem State.shed_mem (s : State) (e : Line) : (s.shed e).mem = s.mem := by simp [State.shed]

@[simp] theorem State.schedule_mem (s : State) : (s.schedule).mem = s.mem := by simp [State.schedule]

/-! ### Memory under Machine/Vector -/

@[simp] theorem vInt_nextOk {s : State} (h : Memory.wf s.mem = true) (f : VR) (srcs : List Ref) (g : Nat → Nat → Nat → Nat → Int) :
    NextOk (vInt f srcs g s) := by
  simp [vInt, h]

@[simp] theorem vImm_nextOk {s : State} (h : Memory.wf s.mem = true) (f : VI) (srcs : List Ref) (g : Nat → Nat → Int → Int) :
    NextOk (vImm f srcs g s) := by
  simp [vImm, h]

@[simp] theorem vFp_nextOk {s : State} (h : Memory.wf s.mem = true) (f : VR) (srcs : List Ref) (g : Nat → Bool → Nat → Nat → Nat → Nat × Flags) :
    NextOk (vFp f srcs g s) := by
  simp [vFp, h]

@[simp] theorem vSfu_nextOk {s : State} (h : Memory.wf s.mem = true) (n : Nat) (f : VR) : NextOk (vSfu n f s) := by simp [vSfu, h]

@[simp] theorem vCompare_nextOk {s : State} (h : Memory.wf s.mem = true) (f : VR) (g : Core → Nat → Nat → Bool × Flags) :
    NextOk (vCompare f g s) := by
  simp [vCompare, h]

@[simp] theorem predOp_nextOk {s : State} (h : Memory.wf s.mem = true) (f : VR) (g : BitVec 32 → BitVec 32 → BitVec 32) : NextOk (predOp f g s) := by
  simp [predOp, h]

@[simp] theorem laneMove_nextOk {s : State} (h : Memory.wf s.mem = true) (f : VR) (srcs : List Ref) (g : Core → Nat → Nat) :
    NextOk (laneMove f srcs g s) := by
  simp [laneMove, h]

@[simp] theorem execVmovStream_nextOk {s : State} (h : Memory.wf s.mem = true) (f : VR) : NextOk (execVmovStream f s) := by
  refine nextOk_issue h ?_
  dsimp only
  split <;> simp [h]

@[simp] theorem execVidx_nextOk {s : State} (h : Memory.wf s.mem = true) (f : VR) : NextOk (execVidx f s) := by simp [execVidx, h]

@[simp] theorem execTrd_nextOk {s : State} (h : Memory.wf s.mem = true) (f : VR) : NextOk (execTrd f s) := by
  refine nextOk_issue h ?_
  extract_lets n t r m
  refine didOk_of_ite h ?_
  split <;> simp [h]

@[simp] theorem execAccrd_nextOk {s : State} (h : Memory.wf s.mem = true) (f : VR) : NextOk (execAccrd f s) := by
  refine nextOk_issue h ?_
  extract_lets a m act
  refine didOk_of_ite trivial ?_
  split <;> simp [h]

/-! ### Every instruction, event and step -/

theorem exec_nextOk {s : State} (h : Memory.wf s.mem = true) (i : Instr) : NextOk (exec i s) := by
  cases i with simp only [exec]
  | add f | sub f | mul f | mulh f | mulhu f | div f | divu f | rem f | remu f | and f | or f | xor f | shl f | shr f | sar f | min f
  | max f | minu f | maxu f | seq f | sne f | slt f | sltu f | clz f | popc f | bfx f | sext f | zext f => exact scalarOp_nextOk h f _
  | addi f | muli f | andi f | ori f | xori f | shli f | shri f | sari f | slti f | sltui f | li f | lih f => exact scalarImm_nextOk h ..
  | fadds f | fsubs f | fmuls f | fmas f | fmins f | fmaxs f | fcmps f | fcvtis f => exact scalarFp_nextOk h ..
  | br f | brz f | brp f | jmp f | abr f | ajmp f | mbr f | obr f => exact branchIf_nextOk h ..
  | csrrd f | csrwr f | csrset f | csrclr f => exact csrOp_nextOk h ..
  | amov f | casv f => exact amovIssue_nextOk h ..
  | aadd f | asub f | amul f | aand f | aor f | axor f | ashl f | ashr f | amin f | amax f => exact arOp_nextOk h ..
  | tld f | tst f | tgath f | tscat f | tpref f | scld f => exact transferIssue_nextOk h ..
  | amo f | acas f => exact amoIssue_nextOk h ..
  | mma f | bmma f => exact mmaIssue_nextOk h ..
  | vadd f | vsub f | vmul f | vmulh f | vmad f | vmin f | vmax f | vand f | vor f | vxor f | vshl f | vshr f | vsar f | vabs f | vclz f
  | vpopc f => exact vInt_nextOk h ..
  | vaddi f | vli f => exact vImm_nextOk h ..
  | vfadd f | vfsub f | vfmul f | vfma f | vfmin f | vfmax f | vfneg f => exact vFp_nextOk h ..
  | vexp2 f | vlog2 f | vrcp f | vrsqrt f | vtanh f | vsigm f => exact vSfu_nextOk h ..
  | vcmp f | vfcmp f => exact vCompare_nextOk h ..
  | pand f | por f | pxor f | pnot f => exact predOp_nextOk h ..
  | vsel f | vmov f | vperm f | vbcl f | vslide f | vpack f | vunpk f => exact laneMove_nextOk h ..
  | bfi f | fcvtsi f | nop f | aaddi f | ali f | alih f | anop f | mli f | madd f | mnest f | oli f | oadd f | ofladd f | oref f | ostat f
  | pmovs f | smovp f | vmvs f | vmvl f => exact issueCore_nextOk h ..
  | jal f | jr f | loop f | join f | region f | endC f | trap f | bkpt f | fladd f | flset f | flwait f | flrd f | wait f | tidwait f
  | ljoin f | ljoinv f | lldt f | lldtV f | lld f | lldV f | fence f | qfence f | evsig f | aloop f | aend f | aldsStatus f | xsend f
  | xcoll f | xcirc f | dispatch f | bcast f | await f | aflwait f | afladd f | atidwait f | mloop f | mend f | mtz f | maccz f | mtacc f
  | msetf f | mtrel f | mfladd f | mflwait f | mscq f | oloop f | oend f | oflwait f | ocfg f | ocal f | vcvt f | vred f | vscan f | twr f
  | tsetf f | trel f | accwr f | accz f => exact nextOk_issue h (by simp [h])
  | strandUnblock | eventRecordEntry | elcfgWrite | elbaseWrite | elrdWrite | eventLogRetry | lqtailWrite | lqcfgWrite | registerWrite
  | msnapWrite | cairnPublish | mrepgoWrite | dieExchangeSlot | immediateExchange | copyTimeRelease | remoteArmFlit | calibrationRun
  | skewDriftMeasured | laserPowerChange | laserPowerLostExpiry | drainPacketArrival | portDrained | drainTimeout | trainingPass
  | trainingTimeout | circuitAck | circuitBusy | teardownAck | setupReplyTimeout | circuitBackoffEnd | circuitFecLock | circuitLockTimeout
  | circuitSetupHop | hostBar2Access | pcieLinkDown | pcieLinkUp | powerLoss | atomicStatusPoll | correctedErrorReport | hbmErrorCountPoll
  | l2CheckModeSwitch | strataCommit | timeConversionCommit | powerGood | powerWindow | dieTemperatureThreshold | dieBelow100C
  | counterDecay | cairnIbusyClear | replicationCompleted | replicaDrained | itemRedirection | gradientMerge | weightReturnCopy
  | schedulerPeriod => exact (nextOk_next _).mpr (by simp [h])
  | _ => simp [h]

theorem runAgent_nextOk {s : State} (h : Memory.wf s.mem = true) (a : Agent) : NextOk (runAgent a s) := by
  unfold runAgent
  cases a with
  | issue g k =>
    dsimp only
    split
    · split
      · exact exec_nextOk (by exact h) _
      next t ht => rwa [nextOk_next, State.nextWord_other_mem ht]
    · simpa using h
  | event i x =>
    dsimp only
    split
    · simpa using h
    · exact exec_nextOk (by exact h) _
  | ns d n => simpa using h
  | ccy g n => simpa using h
  | kcy n => simpa using State.passKcy_wf h n
  | upset u => simpa using State.applyUpset_wf h u

theorem step_nextOk {s : State} (h : Memory.wf s.mem = true) : NextOk (step s) := by
  unfold step
  split <;> exact runAgent_nextOk (by exact h) _

/-- Settles O57: every operation of the model keeps memory as it is or writes it by `put` or `filter`, and every arm of `exec` ends in
`issue` or in a next state. -/
theorem stepKeepsMemory : Obligations.StepKeepsMemory :=
  ⟨fun i _ h => exec_nextOk h i, fun _ h => step_nextOk h⟩

end Sys2Proof.Machine
end

section
/-! PROOF. The state at reset (O58). -/

namespace Sys2Proof.Machine

theorem State.reset_core (g : Nat) : State.reset.core g = {} := rfl

theorem State.reset_die (d : Nat) : State.reset.die d = {} := rfl

/-- A core at reset (R25): no task, no strand started, every register zero. -/
theorem core_at_reset : let c : Core := {}
    c.task = none ∧ c.halted = false ∧ (∀ k, (c.strand k).status = .unstarted ∧ c.issues k = false) ∧ c.dbgBe = false ∧ c.dbgHz = false ∧
    ∀ n, c.getS n = 0 ∧ c.getV n = 0 ∧ c.getF n = 0 :=
  ⟨rfl, rfl, fun k => by cases k <;> exact ⟨rfl, rfl⟩, rfl, rfl, fun n => ⟨by simp [Core.getS, look], rfl, rfl⟩⟩

theorem State.readRegister_fxstat_reset (d : Nat) : State.reset.readRegister (.fxstat d) = 0 := by
  simp only [State.readRegister, State.reset_die]
  rfl

/-- Settles O58: the maps of the reset state are empty, so each read of one gives its default, and each register reads what its fields
start with. -/
theorem resetState : Obligations.ResetState := by
  unfold Obligations.ResetState
  intro s reads
  refine ⟨rfl, rfl, fun _ => rfl, rfl, fun g => ?_, fun d => ⟨rfl, rfl, rfl, State.readRegister_fxstat_reset d⟩,
    fun n => ⟨rfl, rfl, rfl, rfl⟩, ?_⟩
  · rw [State.reset_core]
    exact core_at_reset
  · refine ⟨?_, ?_, ?_, ?_, ?_, ?_, ?_, ?_, ?_, ?_, ?_, ?_, ?_, ?_, ?_, ?_, ?_, ?_, ?_, ?_, ?_, ?_⟩ <;> decide

end Sys2Proof.Machine
end

section
/-! PROOF. Bring-up, power and temperature, the mailbox, the host and the second tier (O51). -/

namespace Sys2Proof.Machine

/-! ### Maps and folds over them -/

theorem span_eq_range' (a n : Nat) : span a n = List.range' a n := by
  induction n generalizing a with
  | zero => rfl
  | succ n ih => rw [span, ih, List.range'_succ]

@[simp] theorem mem_span {a n k : Nat} : k ∈ span a n ↔ a ≤ k ∧ k < a + n := by
  simp [span_eq_range', List.mem_range'_1]

theorem nodup_span (a n : Nat) : (span a n).Nodup := by
  rw [span_eq_range']
  exact List.nodup_range'

/-- A change of every value leaves a key's value changed by it, where it leaves the default alone. -/
theorem look_map {α : Type} {d : α} {f : Nat → α → α} {k : Nat} (hf : f k d = d) (m : Sparse α) :
    look d (m.map (fun e => (e.1, f e.1 e.2))) k = f k (look d m k) := by
  induction m with
  | nil => exact hf.symm
  | cons e m ih =>
    obtain ⟨j, v⟩ := e
    by_cases h : k = j
    · simp [look, h]
    · simp [look, h, ih]

/-- Keeping the keys of a set keeps their values. -/
theorem look_filter {α : Type} {d : α} (p : Nat → Bool) (m : Sparse α) (k : Nat) :
    look d (m.filter (fun e => p e.1)) k = if p k then look d m k else d := by
  induction m with
  | nil => simp [look]
  | cons e m ih =>
    obtain ⟨j, v⟩ := e
    rw [List.filter_cons]
    by_cases hk : k = j
    · subst hk
      cases hp : p k <;> simp [look, hp, ih]
    · split <;> simp [look, hk, ih]

section Keyed
variable {σ β α : Type} {get : σ → Nat → α} {step : σ → β → σ} {key : β → Nat} {u : β → α → α}

/-- Steps that each change one key leave every other key alone. -/
theorem get_foldl_other (hstep : ∀ s e k, get (step s e) k = if k = key e then u e (get s k) else get s k) {k : Nat} {l : List β}
    (hk : k ∉ l.map key) (s : σ) : get (l.foldl step s) k = get s k := by
  induction l generalizing s with
  | nil => rfl
  | cons e l ih =>
    rw [List.map_cons, List.mem_cons, not_or] at hk
    rw [List.foldl_cons, ih hk.2, hstep, if_neg hk.1]

/-- Steps that each change a key of its own change a key once. -/
theorem get_foldl_mem (hstep : ∀ s e k, get (step s e) k = if k = key e then u e (get s k) else get s k) {e : β} {l : List β}
    (hn : (l.map key).Nodup) (he : e ∈ l) (s : σ) : get (l.foldl step s) (key e) = u e (get s (key e)) := by
  induction l generalizing s with
  | nil => nomatch he
  | cons x l ih =>
    rw [List.map_cons, List.nodup_cons] at hn
    rw [List.foldl_cons]
    rcases List.mem_cons.mp he with rfl | hl
    · rw [get_foldl_other hstep hn.1, hstep, if_pos rfl]
    · have hx : key e ≠ key x := fun h => hn.1 (h ▸ List.mem_map_of_mem hl)
      rw [ih hn.2 hl, hstep, if_neg hx]

end Keyed

/-! ### Cores and dies -/

theorem die_onDie (s : State) (d e : Nat) (f : Die → Die) : (s.onDie d f).die e = if e = d then f (s.die d) else s.die e := look_put

theorem die_mapDies {f : Nat → Die → Die} {d : Nat} (hf : f d {} = {}) (s : State) : (s.mapDies f).die d = f d (s.die d) :=
  look_map hf s.dies

theorem core_mapCores {f : Nat → Core → Core} {g : Nat} (hf : f g {} = {}) (s : State) : (s.mapCores f).core g = f g (s.core g) :=
  look_map hf s.cores

/-! ### Bring-up -/

theorem SameOutside.trans {s t u : State} (h : SameOutside s t) (h' : SameOutside t u) : SameOutside s u :=
  Eq.trans h' (congrArg (fun x : State => { x with cores := u.cores }) h)

/-- A fold of changes of the cores leaves everything outside them alone. -/
theorem sameOutside_foldl {β : Type} {step : State → β → State} (hstep : ∀ s b, SameOutside s (step s b)) (l : List β) (s : State) :
    SameOutside s (l.foldl step s) := by
  induction l generalizing s with
  | nil => rfl
  | cons b l ih => exact (hstep s b).trans (ih _)

/-- What step 1 of bring-up makes of a core that its fuses do not name absent. -/
def Core.fused (c : Core) : Core := { c with present := true }

/-- What step 1 makes of a core whose rows the fuses name. -/
def Core.rowed (c : Core) (e : Nat × List (Nat × Nat) × List Nat) : Core :=
  { c with present := decide ((e.2.2.filter (fun p => decide (p < 68))).eraseDups.length ≤ 4),
           rowMap := (e.2.1.filter (fun x => decide (x.1 < 64) && decide (x.2 < 68))).foldl (fun m x => place x.1 x.2 m) [],
           badRows := e.2.2 }

/-- Step 1 of bring-up, core by core and row by row. -/
theorem readFuses_eq (s : State) (f : Fuses) : s.readFuses f =
    (f.rows.foldl (fun s e => if 768 ≤ e.1 ∨ f.absent.contains e.1 then s else s.onCore e.1 (fun c => c.rowed e))
      ((span 0 768).foldl (fun s g => if f.absent.contains g then s else s.onCore g Core.fused) s)).onMgmt
        (fun m => { m with fuse := true, grade := f.grade, clk := f.grade, hwStep := f.grade.toNat, fwStep := f.grade.toNat }) := rfl

/-- Step 1 of bring-up changes the cores, and of the rest what the fuses give. -/
theorem readFuses_outside (s : State) (f : Fuses) : ∃ cs, s.readFuses f =
    { s with cores := cs, mgmt := { s.mgmt with fuse := true, grade := f.grade, clk := f.grade, hwStep := f.grade.toNat, fwStep := f.grade.toNat } } := by
  have h1 := sameOutside_foldl (step := fun s g => if f.absent.contains g then s else s.onCore g Core.fused)
    (fun s g => by split <;> rfl) (span 0 768) s
  have h2 := sameOutside_foldl (step := fun s e => if 768 ≤ e.1 ∨ f.absent.contains e.1 then s else s.onCore e.1 (fun c => c.rowed e))
    (fun s e => by split <;> rfl) f.rows ((span 0 768).foldl (fun s g => if f.absent.contains g then s else s.onCore g Core.fused) s)
  rw [readFuses_eq, h2, h1]
  exact ⟨_, rfl⟩

theorem core_fused_step (f : Fuses) (s : State) (g k : Nat) :
    (if f.absent.contains g then s else s.onCore g Core.fused).core k =
      if k = g then (if f.absent.contains g then s.core k else (s.core k).fused) else s.core k := by
  by_cases hk : k = g
  · subst hk
    split <;> simp
  · split <;> simp [hk]

theorem core_rowed_step (f : Fuses) (s : State) (e : Nat × List (Nat × Nat) × List Nat) (k : Nat) :
    (if 768 ≤ e.1 ∨ f.absent.contains e.1 then s else s.onCore e.1 (fun c => c.rowed e)).core k =
      if k = e.1 then (if 768 ≤ e.1 ∨ f.absent.contains e.1 then s.core k else (s.core k).rowed e) else s.core k := by
  by_cases hk : k = e.1
  · subst hk
    split <;> simp
  · split <;> simp [hk]

theorem core_fused {f : Fuses} {g : Nat} (hg : g < 768) (s : State) :
    ((span 0 768).foldl (fun s g => if f.absent.contains g then s else s.onCore g Core.fused) s).core g =
      if f.absent.contains g then s.core g else (s.core g).fused :=
  get_foldl_mem (get := State.core) (key := id) (u := fun g c => if f.absent.contains g then c else c.fused) (core_fused_step f)
    (by simpa using nodup_span 0 768) (by simpa using hg) s

/-- A core that the fuses name absent stays as it was. -/
theorem core_readFuses_absent {f : Fuses} {g : Nat} (hg : g < 768) (ha : g ∈ f.absent) (s : State) : (s.readFuses f).core g = s.core g := by
  have hr (l : List (Nat × List (Nat × Nat) × List Nat)) (t : State) :
      (l.foldl (fun s e => if 768 ≤ e.1 ∨ f.absent.contains e.1 then s else s.onCore e.1 (fun c => c.rowed e)) t).core g = t.core g := by
    refine List.foldlRecOn (motive := fun u : State => u.core g = t.core g) l _ rfl fun u hu e _ => ?_
    rw [core_rowed_step, ← hu]
    split
    next he => rw [if_pos (Or.inr (by simpa [← he] using ha))]
    · rfl
  rw [readFuses_eq]
  exact (hr _ _).trans (by rw [core_fused hg, if_pos (by simpa using ha)])

/-- A core whose rows the fuses name once. -/
theorem core_readFuses_row {f : Fuses} (hn : (f.rows.map (·.1)).Nodup) {e : Nat × List (Nat × Nat) × List Nat} (he : e ∈ f.rows) (hg : e.1 < 768)
    (ha : e.1 ∉ f.absent) (s : State) : (s.readFuses f).core e.1 = (s.core e.1).fused.rowed e := by
  rw [readFuses_eq]
  refine (get_foldl_mem (get := State.core) (key := (·.1)) (u := fun e c => if 768 ≤ e.1 ∨ f.absent.contains e.1 then c else c.rowed e)
    (core_rowed_step f) hn he _).trans ?_
  have hx : ¬(768 ≤ e.1 ∨ f.absent.contains e.1 = true) := by simp [ha, hg]
  rw [if_neg hx, core_fused hg, if_neg (by simpa using ha)]

/-- A core that the fuses say nothing of. -/
theorem core_readFuses_plain {f : Fuses} {g : Nat} (hg : g < 768) (ha : g ∉ f.absent) (hr : g ∉ f.rows.map (·.1)) (s : State) :
    (s.readFuses f).core g = (s.core g).fused := by
  rw [readFuses_eq]
  refine (get_foldl_other (get := State.core) (key := (·.1)) (u := fun e c => if 768 ≤ e.1 ∨ f.absent.contains e.1 then c else c.rowed e)
    (core_rowed_step f) hr _).trans ?_
  rw [core_fused hg, if_neg (by simpa using ha)]

theorem core_trainSkew (s : State) (f : Fuses) (g : Nat) : (s.trainSkew f).core g = if f.skewFailed.contains g then { s.core g with present := false }
    else if (s.core g).present then { s.core g with skw := 0, trimmedAt := (s.die (dieOf g)).time.toNat } else s.core g := by
  refine core_mapCores (f := fun g c => if f.skewFailed.contains g then { c with present := false } else if c.present then
    { c with skw := 0, trimmedAt := (s.die (dieOf g)).time.toNat } else c) ?_ _
  split <;> rfl

theorem present_trainSkew (s : State) (f : Fuses) (g : Nat) :
    ((s.trainSkew f).core g).present = true ↔ g ∉ f.skewFailed ∧ (s.core g).present = true := by
  rw [core_trainSkew]
  by_cases hf : g ∈ f.skewFailed
  · simp [hf]
  · by_cases hp : (s.core g).present <;> simp [hf, hp]

theorem badRows_trainSkew (s : State) (f : Fuses) (g : Nat) : ((s.trainSkew f).core g).badRows = (s.core g).badRows := by
  rw [core_trainSkew]
  split
  · rfl
  · split <;> rfl

/-- Which cores steps 1 to 4 make present, from a state without any (R2, R123, R375). -/
theorem present_readFuses {f : Fuses} (hn : (f.rows.map (·.1)).Nodup) {s : State} (hs : s.cores = []) {g : Nat} (hg : g < 768) :
    ((s.readFuses f).core g).present = true ↔ g ∉ f.absent ∧ ∀ e ∈ f.rows, e.1 = g → (e.2.2.filter (fun p => decide (p < 68))).eraseDups.length ≤ 4 := by
  by_cases ha : g ∈ f.absent
  · rw [core_readFuses_absent hg ha, State.core, hs]
    simp [ha, look]
  · by_cases hr : g ∈ f.rows.map (·.1)
    · obtain ⟨e, he, rfl⟩ := List.mem_map.mp hr
      have huniq : ∀ x ∈ f.rows, x.1 = e.1 → x = e := fun x hx hxe => List.inj_on_of_nodup_map hn hx he hxe
      rw [core_readFuses_row hn he hg ha]
      simp only [Core.rowed, decide_eq_true_eq]
      exact ⟨fun h => ⟨ha, fun x hx hxe => huniq x hx hxe ▸ h⟩, fun h => h.2 e he rfl⟩
    · rw [core_readFuses_plain hg ha hr]
      exact ⟨fun _ => ⟨ha, fun e he hge => absurd (List.mem_map.mpr ⟨e, he, hge⟩) hr⟩, fun _ => rfl⟩

theorem die_commitPairs (s : State) (d : Nat) (l : List (Word × Word)) (e : Nat) :
    (s.commitPairs d l).die e = if e = d then (s.die e).commitPairs d l else s.die e := by
  refine (die_onDie s d e (fun x => x.commitPairs d l)).trans ?_
  split
  next h => rw [h]
  · rfl

theorem die_foldl_commitPairs (p : Nat → List (Word × Word)) {l : List Nat} (hn : l.Nodup) {d : Nat} (hd : d ∈ l) (s : State) :
    (l.foldl (fun s d => s.commitPairs d (p d)) s).die d = (s.die d).commitPairs d (p d) :=
  get_foldl_mem (get := State.die) (key := id) (u := fun d x => x.commitPairs d (p d)) (fun s d e => die_commitPairs s d (p d) e)
    (by rwa [List.map_id]) hd s

theorem die_onMgmt (s : State) (f : Mgmt → Mgmt) (d : Nat) : (s.onMgmt f).die d = s.die d := rfl

theorem die_firstCommit (s : State) (f : Fuses) {d : Nat} (hd : d < 13) :
    (s.firstCommit f).die d = (s.die d).commitPairs d ((f.pairs.drop (13 * d)).take 13) := by
  unfold State.firstCommit
  rw [die_onMgmt]
  exact die_foldl_commitPairs (fun d => (f.pairs.drop (13 * d)).take 13) (nodup_span 0 13) (mem_span.mpr ⟨d.zero_le, by omega⟩) _

/-- Step 5 of bring-up changes the dies, and of the rest what it resets. -/
theorem firstCommit_outside (s : State) (f : Fuses) : ∃ ds cs, s.firstCommit f =
    { s with dies := ds, mason := {}, fabric := s.fabric.resetRoutes, flow := {}, mgmt := { s.mgmt with commits := cs, ready := true } } := by
  have h : ∀ (l : List Nat) (t : State), ∃ ds cs, l.foldl (fun s d => s.commitPairs d ((f.pairs.drop (13 * d)).take 13)) t =
      { t with dies := ds, mgmt := { t.mgmt with commits := cs } } := by
    intro l
    induction l with
    | nil => exact fun t => ⟨_, _, rfl⟩
    | cons d l ih =>
      intro t
      obtain ⟨ds, cs, h⟩ := ih (t.commitPairs d ((f.pairs.drop (13 * d)).take 13))
      exact ⟨ds, cs, h⟩
  obtain ⟨ds, cs, h⟩ := h (span 0 13) { s with mason := {}, fabric := s.fabric.resetRoutes, flow := {} }
  exact ⟨ds, cs, congrArg (fun t : State => t.onMgmt (fun m => { m with ready := true })) h⟩

/-- The state after the boot ROM has taken copy `k` with image `i` (R376). -/
def State.booted (s : State) (f : Fuses) (k : Nat) (i : FwImage) : State :=
  { s with mgmt := { s.mgmt with fusedKey := f.key, rollback := f.rollback, copy := k, release := i.release } }

/-- The state after steps 1 to 3 of bring-up. -/
def State.linked (s : State) (f : Fuses) : State :=
  let t := (({ s with host := { s.host with linkUp := true } } : State).readFuses f).mapDies (fun _ d => { d with time := 0 })
  { t with host := { t.host with tierUp := f.tier, linkUp := f.link }, mgmt := { t.mgmt with badStacks := f.badStacks } }

/-- Steps 1 to 5, none of which fails, after the boot ROM has taken an image. -/
theorem bringUp_passes {s b : State} {f : Fuses} (hb : s.bootRom f = some b) (hf : f.failStep = none) :
    s.bringUp f = (((b.linked f).trainSkew f).firstCommit f).onMgmt (fun m => { m with powered := true, step := 5, fail := false }) := by
  unfold State.bringUp
  rw [hb, hf]
  rfl

/-- What the boot ROM makes of a copy: the image where it accepts that (R376). -/
def bootImage (f : Fuses) (k : Nat) : Option (Nat × FwImage) :=
  (f.images[k]?).bind (fun i => if ({ fusedKey := f.key, rollback := f.rollback } : Mgmt).accepts i then some (k, i) else none)

theorem bootImage_accepted {f : Fuses} {k : Nat} {i : FwImage} (hi : f.images[k]? = some i)
    (ha : i.signed = true ∧ i.key = f.key ∧ f.rollback ≤ i.version) : bootImage f k = some (k, i) := by
  simp [bootImage, Mgmt.accepts, hi, ha]

theorem bootImage_rejected {f : Fuses} {k : Nat}
    (hr : ∀ j, f.images[k]? = some j → ¬(j.signed = true ∧ j.key = f.key ∧ f.rollback ≤ j.version)) : bootImage f k = none := by
  unfold bootImage
  cases hj : f.images[k]? with
  | none => rfl
  | some j => exact if_neg (by simpa [Mgmt.accepts, and_assoc] using hr j hj)

theorem bootRom_eq (s : State) (f : Fuses) : s.bootRom f =
    ((bootImage f s.mgmt.first).orElse (fun _ => bootImage f (1 - s.mgmt.first))).map (fun e => s.booted f e.1 e.2) := rfl

/-- The boot ROM takes the copy that it tries first where it accepts that. -/
theorem bootRom_first {s : State} {f : Fuses} {i : FwImage} (hi : f.images[s.mgmt.first]? = some i)
    (ha : i.signed = true ∧ i.key = f.key ∧ f.rollback ≤ i.version) : s.bootRom f = some (s.booted f s.mgmt.first i) := by
  rw [bootRom_eq, bootImage_accepted hi ha]
  rfl

/-- It takes the other copy where it accepts only that. -/
theorem bootRom_second {s : State} {f : Fuses} {i : FwImage}
    (hr : ∀ j, f.images[s.mgmt.first]? = some j → ¬(j.signed = true ∧ j.key = f.key ∧ f.rollback ≤ j.version))
    (hi : f.images[1 - s.mgmt.first]? = some i) (ha : i.signed = true ∧ i.key = f.key ∧ f.rollback ≤ i.version) :
    s.bootRom f = some (s.booted f (1 - s.mgmt.first) i) := by
  rw [bootRom_eq, bootImage_rejected hr, bootImage_accepted hi ha]
  rfl

/-- It takes none where it accepts none. -/
theorem bootRom_none {s : State} {f : Fuses} (hr : ∀ i ∈ f.images, ¬(i.signed = true ∧ i.key = f.key ∧ f.rollback ≤ i.version)) :
    s.bootRom f = none := by
  rw [bootRom_eq, bootImage_rejected fun j hj => hr j (List.mem_of_getElem? hj), bootImage_rejected fun j hj => hr j (List.mem_of_getElem? hj)]
  rfl

theorem powerGood_runs {s : State} (hp : s.mgmt.powered = false) (ht : s.dies.any (fun d => d.2.hot = 3) = false)
    (hh : firstPairsHold s.ev.fuses = true) : exec .powerGood s = .next (s.bringUp s.ev.fuses) := by
  simp only [exec, execPowerGood, State.tripped]
  simp [hp, hh, ht]

theorem powerGood_idle {s : State} (h : s.mgmt.powered = true ∨ s.dies.any (fun d => d.2.hot = 3) = true ∨ firstPairsHold s.ev.fuses = false) :
    exec .powerGood s = .next s := by
  simp only [exec, execPowerGood, State.tripped]
  rcases h with h | h | h <;> simp [h]

/-- Steps 1 to 3 outside the cores and dies. -/
theorem linked_outside (s : State) (f : Fuses) : ∃ cs ds, s.linked f =
    { s with
      cores := cs, dies := ds, host := { s.host with linkUp := f.link, tierUp := f.tier },
      mgmt := { s.mgmt with fuse := true, grade := f.grade, clk := f.grade, hwStep := f.grade.toNat, fwStep := f.grade.toNat,
                            badStacks := f.badStacks } } := by
  obtain ⟨cs, h⟩ := readFuses_outside { s with host := { s.host with linkUp := true } } f
  rw [State.linked, h]
  exact ⟨_, _, rfl⟩

/-- What bring-up leaves of the state outside the cores and dies when every step passes (R375). -/
theorem bringUp_outside {s b : State} {f : Fuses} (hb : s.bootRom f = some b) (hf : f.failStep = none) : ∃ cs ds cm, s.bringUp f =
    { b with
      cores := cs, dies := ds, mason := {}, flow := {}, fabric := b.fabric.resetRoutes,
      host := { b.host with linkUp := f.link, tierUp := f.tier },
      mgmt := { b.mgmt with fuse := true, grade := f.grade, clk := f.grade, hwStep := f.grade.toNat, fwStep := f.grade.toNat,
                            badStacks := f.badStacks, lasersOff := false, commits := cm, ready := true, powered := true, step := 5,
                            fail := false } } := by
  obtain ⟨cs, ds, hl⟩ := linked_outside b f
  obtain ⟨ds', cm, hc⟩ := firstCommit_outside ((b.linked f).trainSkew f) f
  rw [bringUp_passes hb hf, hc, hl]
  exact ⟨_, _, _, rfl⟩

theorem cores_firstCommit (s : State) (f : Fuses) : (s.firstCommit f).cores = s.cores := by
  obtain ⟨ds, cm, h⟩ := firstCommit_outside s f
  rw [h]

theorem core_firstCommit (s : State) (f : Fuses) (g : Nat) : (s.firstCommit f).core g = s.core g := by
  rw [State.core, cores_firstCommit, State.core]

theorem core_onMgmt (s : State) (f : Mgmt → Mgmt) (g : Nat) : (s.onMgmt f).core g = s.core g := rfl

/-- The cores after a bring-up that passes. -/
theorem core_bringUp {s b : State} {f : Fuses} (hb : s.bootRom f = some b) (hf : f.failStep = none) (g : Nat) :
    (s.bringUp f).core g = ((b.linked f).trainSkew f).core g := by
  rw [bringUp_passes hb hf, core_onMgmt, core_firstCommit]

theorem present_bringUp {s b : State} {f : Fuses} (hb : s.bootRom f = some b) (hf : f.failStep = none) (hn : (f.rows.map (·.1)).Nodup)
    (hs : b.cores = []) {g : Nat} (hg : g < 768) : ((s.bringUp f).core g).present = true ↔ g ∉ f.absent ∧ g ∉ f.skewFailed ∧
      ∀ e ∈ f.rows, e.1 = g → (e.2.2.filter (fun p => decide (p < 68))).eraseDups.length ≤ 4 := by
  have hr := present_readFuses hn (s := { b with host := { b.host with linkUp := true } }) hs hg
  rw [core_bringUp hb hf, present_trainSkew, and_left_comm]
  exact and_congr_right fun _ => hr

theorem badRows_bringUp {s b : State} {f : Fuses} (hb : s.bootRom f = some b) (hf : f.failStep = none) (hn : (f.rows.map (·.1)).Nodup)
    {e : Nat × List (Nat × Nat) × List Nat} (he : e ∈ f.rows) (hg : e.1 < 768) (ha : e.1 ∉ f.absent) :
    ((s.bringUp f).core e.1).badRows = e.2.2 := by
  have hr := core_readFuses_row hn he hg ha { b with host := { b.host with linkUp := true } }
  rw [core_bringUp hb hf, badRows_trainSkew]
  exact congrArg Core.badRows hr

/-- Every die's TIME starts at 0, and its conversion pairs are committed once. -/
theorem die_bringUp {s b : State} {f : Fuses} (hb : s.bootRom f = some b) (hf : f.failStep = none) {d : Nat} (hd : d < 13) :
    ((s.bringUp f).die d).tgen = (b.die d).tgen + 1 ∧ ((s.bringUp f).die d).time = 0 := by
  obtain ⟨cs, hr⟩ := readFuses_outside { b with host := { b.host with linkUp := true } } f
  have hl : ((b.linked f).trainSkew f).die d = { b.die d with time := 0 } := by
    refine (die_mapDies (f := fun _ d => { d with time := 0 }) rfl _).trans ?_
    rw [hr]
    rfl
  rw [bringUp_passes hb hf, die_onMgmt, die_firstCommit _ f hd, hl]
  exact ⟨rfl, rfl⟩

theorem mgmt_ite (c : Prop) [Decidable c] (s t : State) : (if c then s else t).mgmt = if c then s.mgmt else t.mgmt := apply_ite State.mgmt c s t

theorem mgmt_readFuses (s : State) (f : Fuses) : (s.readFuses f).mgmt =
    { s.mgmt with fuse := true, grade := f.grade, clk := f.grade, hwStep := f.grade.toNat, fwStep := f.grade.toNat } := by
  obtain ⟨cs, h⟩ := readFuses_outside s f
  rw [h]

theorem mgmt_trainSkew (s : State) (f : Fuses) : (s.trainSkew f).mgmt = { s.mgmt with lasersOff := false } := rfl

/-- A step from 1 to 5 that fails ends bring-up before the module is ready. -/
theorem bringUp_fails {s b : State} {f : Fuses} {k : BitVec 3} (hb : s.bootRom f = some b) (hf : f.failStep = some k) (h1 : 1 ≤ k.toNat)
    (h5 : k.toNat ≤ 5) : (s.bringUp f).mgmt.fail = true ∧ (s.bringUp f).mgmt.step = k ∧ (s.bringUp f).mgmt.ready = b.mgmt.ready := by
  have hk : (some k.toNat).filter (fun k => decide (1 ≤ k) && decide (k ≤ 5)) = some k.toNat := by simp [h1, h5]
  unfold State.bringUp
  rw [hb, hf]
  simp only [Option.isNone_some, Bool.false_eq_true, if_false, Option.map_some, hk]
  refine ⟨rfl, by simp [State.onMgmt], ?_⟩
  rw [if_neg (show ¬decide (5 < k.toNat) = true by simpa using h5)]
  simp only [State.onMgmt, mgmt_ite, mgmt_readFuses, mgmt_trainSkew, State.mapDies_mgmt, apply_ite Mgmt.ready, Option.getD_some, ite_self]

/-- No step of bring-up changes which image runs. -/
theorem image_firstCommit (s : State) (f : Fuses) :
    (s.firstCommit f).mgmt.copy = s.mgmt.copy ∧ (s.firstCommit f).mgmt.release = s.mgmt.release := by
  obtain ⟨ds, cm, h⟩ := firstCommit_outside s f
  rw [h]
  exact ⟨rfl, rfl⟩

theorem image_bringUp {s b : State} {f : Fuses} (hb : s.bootRom f = some b) :
    (s.bringUp f).mgmt.copy = b.mgmt.copy ∧ (s.bringUp f).mgmt.release = b.mgmt.release := by
  unfold State.bringUp
  rw [hb]
  constructor
  · simp only [State.onMgmt, mgmt_ite, mgmt_readFuses, mgmt_trainSkew, State.mapDies_mgmt, apply_ite Mgmt.copy, image_firstCommit, Option.getD_some, ite_self]
  · simp only [State.onMgmt, mgmt_ite, mgmt_readFuses, mgmt_trainSkew, State.mapDies_mgmt, apply_ite Mgmt.release, image_firstCommit, Option.getD_some, ite_self]

/-- Where the boot ROM takes no image, no step runs. -/
theorem bringUp_unbooted {s : State} {f : Fuses} (hb : s.bootRom f = none) : (s.bringUp f).mgmt.fail = true ∧ (s.bringUp f).mgmt.step = 0 ∧
    (s.bringUp f).mgmt.ready = s.mgmt.ready ∧ (s.bringUp f).cores = s.cores := by
  unfold State.bringUp
  rw [hb]
  exact ⟨rfl, rfl, rfl, rfl⟩

/-! ### Records and the log -/

/-- A record that is entered changes the log alone. -/
theorem enter_eq (s : State) (r : Record) : s.enter r = { s with log := (s.enter r).log } := by
  unfold State.enter
  dsimp only
  split
  · rfl
  · split <;> rfl

theorem notice_eq (s : State) (src cause : Nat) (addr data : Word) :
    s.notice src cause addr data = { s with log := (s.notice src cause addr data).log } := enter_eq ..

@[simp] theorem notice_mgmt (s : State) (src cause : Nat) (addr data : Word) : (s.notice src cause addr data).mgmt = s.mgmt := by rw [notice_eq]
@[simp] theorem notice_cores (s : State) (src cause : Nat) (addr data : Word) : (s.notice src cause addr data).cores = s.cores := by rw [notice_eq]
@[simp] theorem notice_dies (s : State) (src cause : Nat) (addr data : Word) : (s.notice src cause addr data).dies = s.dies := by rw [notice_eq]
@[simp] theorem notice_host (s : State) (src cause : Nat) (addr data : Word) : (s.notice src cause addr data).host = s.host := by rw [notice_eq]
@[simp] theorem notice_poison (s : State) (src cause : Nat) (addr data : Word) : (s.notice src cause addr data).poison = s.poison := by rw [notice_eq]

theorem notice_die (s : State) (src cause : Nat) (addr data : Word) (d : Nat) : (s.notice src cause addr data).die d = s.die d := by
  unfold State.die
  rw [notice_dies]

/-- The log after a record depends on the log, the count of kcy and TIME of the record's source. -/
theorem enter_log_congr {s t : State} (hl : t.log = s.log) (hk : t.mgmt.kcy = s.mgmt.kcy) (r : Record) : (t.enter r).log = (s.enter r).log := by
  unfold State.enter
  rw [hl, hk]
  dsimp only
  split
  · rfl
  · split <;> rfl

theorem notice_log_congr {s t : State} (hl : t.log = s.log) (hk : t.mgmt.kcy = s.mgmt.kcy) {src : Nat} (ht : (t.die src).time = (s.die src).time)
    (cause : Nat) (addr data : Word) : (t.notice src cause addr data).log = (s.notice src cause addr data).log := by
  unfold State.notice State.deviceRecord
  rw [ht]
  exact enter_log_congr hl hk _

/-- Memory as it was, with its marks. -/
theorem sameMemory_of {s t : State} (hm : t.mem = s.mem) (hp : t.poison = s.poison) : SameMemory s t :=
  ⟨fun a => by unfold State.byte; rw [hm], hp⟩

/-! ### The power window (R377) -/

theorem powerWindow_early {s : State} (h : (s.die 8).time.toNat < (s.mgmt.windows + 1) * 1000000) : exec .powerWindow s = .next s := by
  exact congrArg Host.Outcome.next (if_pos (c := s.keystoneTime < _) h)

/-- The state after a window that has ended, before the record of a step down. -/
def State.windowed (s : State) : State := ({ s with mgmt := s.mgmt.window s.ev.num } : State).setClock

theorem powerWindow_due {s : State} (h : (s.mgmt.windows + 1) * 1000000 ≤ (s.die 8).time.toNat) : exec .powerWindow s =
    .next (if (s.mgmt.window s.ev.num).hwStep < s.mgmt.hwStep then s.windowed.notice 8 0x77 0 0 else s.windowed) := by
  exact congrArg Host.Outcome.next (if_neg (c := s.keystoneTime < _) (Nat.not_lt.mpr h))

/-- What a window does to MGMT (R377). -/
theorem window_eq (m : Mgmt) (p : Nat) : m.window p =
    { m with
      pwr := BitVec.ofNat 12 p, capNow := m.capEnd.getD m.pcap, capEnd := none, windows := m.windows + 1, windowKcy := some m.kcy,
      hwStep := if min 3000 m.capNow.toNat < p then (if 10 < m.hwStep then m.hwStep - 1 else m.hwStep)
        else if 100 * p < 95 * min 3000 m.capNow.toNat ∧ 9 ≤ m.calm ∧ m.hwStep < m.grade.toNat then m.hwStep + 1 else m.hwStep,
      calm := if min 3000 m.capNow.toNat < p then 0
        else if 100 * p < 95 * min 3000 m.capNow.toNat then (if 9 ≤ m.calm then 0 else m.calm + 1) else 0 } := by
  unfold Mgmt.window
  dsimp only
  split
  · rfl
  · split
    · split
      · by_cases hg : m.hwStep < m.grade.toNat <;> simp [*]
      · simp [*]
    · simp [*]

/-! ### Temperature and power loss (R378, R449) -/

theorem dieTemperature_eq (s : State) : exec .dieTemperatureThreshold s =
    .next (if 13 ≤ s.ev.num ∨ (s.die s.ev.num).hot = 3 then s
      else if 115 ≤ s.ev.num2 then (s.losePower.onDie s.ev.num (fun x => { x with hot := 3 })).onMgmt (fun m => { m with lasersOff := true })
      else if 105 ≤ s.ev.num2 then
        (if (s.die s.ev.num).hot = 2 then s else (if (s.die s.ev.num).hot = 0 then s.warn s.ev.num else s).forceClock s.ev.num)
      else if 95 ≤ s.ev.num2 then (if (s.die s.ev.num).hot = 0 then s.warn s.ev.num else s)
      else if (s.die s.ev.num).hot = 1 then s.onDie s.ev.num (fun x => { x with hot := 0 })
      else s) := rfl

theorem dieBelow100C_eq (s : State) : exec .dieBelow100C s =
    .next (if (s.die s.ev.num).hot = 2 then (s.onDie s.ev.num (fun x => { x with hot := 1 })).setClock else s) := rfl

/-- A die's step of temperature leaves every TIME. -/
theorem time_onDie_hot (s : State) (d e n : Nat) : ((s.onDie d (fun x => { x with hot := n })).die e).time = (s.die e).time := by
  rw [die_onDie]
  split
  next h => rw [h]
  · rfl

/-- A die's temperature forces the clock, as the state after it tells. -/
theorem forceClock_spec (s : State) (d : Nat) : let t := s.forceClock d
    (t.die d).hot = 2 ∧ t.mgmt.clk = BitVec.ofNat 8 (if t.dies.any (fun e => e.2.hot = 2) then min 10 (min s.mgmt.hwStep s.mgmt.fwStep)
      else min s.mgmt.hwStep s.mgmt.fwStep) ∧ t.cores = s.cores ∧ SameMemory s t ∧ t.log = (s.notice d 0x76 0 0).log := by
  have hd : ((s.onDie d (fun x => { x with hot := 2 })).die d) = { s.die d with hot := 2 } := by rw [die_onDie, if_pos rfl]
  have hn : s.forceClock d = ((s.onDie d (fun x => { x with hot := 2 })).setClock).notice d 0x76 0 0 := rfl
  refine ⟨?_, ?_, ?_, ?_, ?_⟩
  · rw [hn, notice_die]
    exact congrArg Die.hot hd
  · rw [hn, notice_mgmt, notice_dies]
    rfl
  · rw [hn, notice_cores]
    rfl
  · rw [hn]
    exact sameMemory_of (by simp [State.setClock, State.onMgmt]) (by simp [State.setClock, State.onMgmt])
  · rw [hn]
    refine notice_log_congr ?_ ?_ ?_ ..
    · rfl
    · rfl
    · exact time_onDie_hot ..

/-- A warning before it leaves what a forced clock reads. -/
theorem warn_spec (s : State) (d : Nat) : let t := s.warn d
    t.mgmt = s.mgmt ∧ t.cores = s.cores ∧ SameMemory s t ∧ t.log = (s.notice d 0x75 0 0).log ∧ (t.die d).time = (s.die d).time := by
  have hn : s.warn d = (s.onDie d (fun x => { x with hot := 1 })).notice d 0x75 0 0 := rfl
  refine ⟨?_, ?_, ?_, ?_, ?_⟩
  · rw [hn, notice_mgmt]
    rfl
  · rw [hn, notice_cores]
    rfl
  · rw [hn]
    exact sameMemory_of (by simp) (by simp)
  · rw [hn]
    refine notice_log_congr ?_ ?_ ?_ ..
    · rfl
    · rfl
    · exact time_onDie_hot ..
  · rw [hn, notice_die, time_onDie_hot]

/-- A byte after a loss of power: what stands in the second tier and in the host's memory is left. -/
theorem byte_losePower {s : State} (h : s.host.checkpoint = none) (a : Nat) :
    s.losePower.byte a = if paSpace a = 1 ∨ paSpace a = 2 then s.byte a else 0 := by
  have hk : paSpace (memKey a) = paSpace a := by unfold paSpace memKey; omega
  have hm : s.losePower.mem = s.mem.filter (fun c => decide (paSpace c.1 = 1) || decide (paSpace c.1 = 2)) := by
    unfold State.losePower
    rw [h]
  rw [State.byte, hm, look_filter (fun k => decide (paSpace k = 1) || decide (paSpace k = 2)), hk]
  simp [State.byte]

theorem powerLoss_eq (s : State) : exec .powerLoss s = .next s.losePower := rfl

theorem losePower_mgmt {s : State} (h : s.host.checkpoint = none) : s.losePower.mgmt.strata = s.mgmt.committed ∧
    s.losePower.mgmt.flash = s.mgmt.flash ∧ s.losePower.mgmt.first = s.mgmt.first := by
  unfold State.losePower
  rw [h]
  exact ⟨rfl, rfl, rfl⟩

/-- A die that trips: the module has no power, and keeps that the die is hot. -/
theorem trip_spec (s : State) (d : Nat) : let t := (s.losePower.onDie d (fun x => { x with hot := 3 })).onMgmt (fun m => { m with lasersOff := true })
    (t.die d).hot = 3 ∧ t.mgmt.lasersOff = true ∧ t.cores = [] ∧ t.queues = [] := by
  refine ⟨?_, rfl, rfl, rfl⟩
  rw [die_onMgmt, die_onDie, if_pos rfl]

/-! ### What the rules of power and temperature come to -/

/-- The event's window, where it has ended (R377). -/
theorem powerWindow_spec {s : State} (h : (s.mgmt.windows + 1) * 1000000 ≤ (s.die 8).time.toNat) : ∃ t, exec .powerWindow s = .next t ∧
    t.mgmt = s.windowed.mgmt ∧ t.log = (if (s.mgmt.window s.ev.num).hwStep < s.mgmt.hwStep then s.notice 8 0x77 0 0 else s).log ∧ t.cores = s.cores ∧
    SameMemory s t := by
  refine ⟨_, powerWindow_due h, ?_⟩
  split
  · refine ⟨notice_mgmt .., ?_, (notice_cores ..).trans rfl, sameMemory_of (by rw [State.notice_mem]; rfl) (by rw [notice_poison]; rfl)⟩
    refine notice_log_congr ?_ ?_ ?_ ..
    · rfl
    · show (s.mgmt.window s.ev.num).kcy = s.mgmt.kcy
      rw [window_eq]
    · rfl
  · exact ⟨rfl, rfl, rfl, sameMemory_of rfl rfl⟩

section
variable {s : State} (hd : s.ev.num < 13)
include hd

/-- Below 95 °C, a die that was not forced. -/
theorem dieTemperature_cool (hh : (s.die s.ev.num).hot < 3) (hc : s.ev.num2 < 95) : exec .dieTemperatureThreshold s =
    .next (if (s.die s.ev.num).hot = 1 then s.onDie s.ev.num (fun x => { x with hot := 0 }) else s) := by
  rw [dieTemperature_eq, if_neg (by omega), if_neg (by omega), if_neg (by omega), if_neg (by omega)]

theorem dieTemperature_warm (hh : (s.die s.ev.num).hot < 3) (hc : 95 ≤ s.ev.num2) (hc' : s.ev.num2 < 105) : exec .dieTemperatureThreshold s =
    .next (if (s.die s.ev.num).hot = 0 then s.warn s.ev.num else s) := by
  rw [dieTemperature_eq, if_neg (by omega), if_neg (by omega), if_neg (by omega), if_pos hc]

theorem dieTemperature_hot (hh : (s.die s.ev.num).hot < 3) (hc : 105 ≤ s.ev.num2) (hc' : s.ev.num2 < 115) : exec .dieTemperatureThreshold s =
    .next (if (s.die s.ev.num).hot = 2 then s else (if (s.die s.ev.num).hot = 0 then s.warn s.ev.num else s).forceClock s.ev.num) := by
  rw [dieTemperature_eq, if_neg (by omega), if_neg (by omega), if_pos hc]

theorem dieTemperature_trips (hh : (s.die s.ev.num).hot < 3) (hc : 115 ≤ s.ev.num2) : exec .dieTemperatureThreshold s =
    .next ((s.losePower.onDie s.ev.num (fun x => { x with hot := 3 })).onMgmt (fun m => { m with lasersOff := true })) := by
  rw [dieTemperature_eq, if_neg (by omega), if_pos hc]

end

/-- The clock that the rules set (R378). -/
def State.Clocked (s t : State) : Prop := t.mgmt.clk = BitVec.ofNat 8 (if t.dies.any (fun e => e.2.hot = 2)
  then min 10 (min s.mgmt.hwStep s.mgmt.fwStep) else min s.mgmt.hwStep s.mgmt.fwStep)

theorem warned_forced (s : State) (d : Nat) : let t := (if (s.die d).hot = 0 then s.warn d else s).forceClock d
    (t.die d).hot = 2 ∧ s.Clocked t ∧ t.cores = s.cores ∧ SameMemory s t ∧
      t.log = (let z := if (s.die d).hot = 0 then s.notice d 0x75 0 0 else s; z.notice d 0x76 0 0).log := by
  split
  · obtain ⟨mgmt, cores, memory, log, time⟩ := warn_spec s d
    obtain ⟨hot, clk, cores', memory', log'⟩ := forceClock_spec (s.warn d) d
    refine ⟨hot, ?_, cores'.trans cores, ⟨fun a => (memory'.1 a).trans (memory.1 a), memory'.2.trans memory.2⟩, log'.trans ?_⟩
    · rw [mgmt] at clk
      exact clk
    · refine notice_log_congr log ?_ ?_ ..
      · rw [mgmt, notice_mgmt]
      · rw [time, notice_die]
  · exact forceClock_spec s d

theorem dieBelow100C_spec {s : State} (h : (s.die s.ev.num).hot = 2) : ∃ t, exec .dieBelow100C s = .next t ∧ (t.die s.ev.num).hot = 1 ∧ s.Clocked t ∧
    t.log = s.log ∧ t.cores = s.cores ∧ SameMemory s t := by
  refine ⟨_, (dieBelow100C_eq s).trans (congrArg Host.Outcome.next (if_pos h)), ?_, rfl, rfl, rfl, sameMemory_of rfl rfl⟩
  exact congrArg Die.hot ((die_onDie s s.ev.num s.ev.num (fun x => { x with hot := 1 })).trans (if_pos rfl))

/-! ### The mailbox (R376, R379) -/

/-- The state after a mailbox command that answered a return code and a state. -/
def State.answered (s : State) (r : Nat × State) : State :=
  r.2.onMgmt (fun x => { x with mbTag := if s.mgmt.mbBusy then s.mgmt.mbTag else BitVec.ofNat 16 s.ev.num, mbBusy := false, mbRc := BitVec.ofNat 8 r.1 })

/-- Another command is in progress. -/
theorem mailbox_busy {s : State} {op : Nat} (hb : s.mgmt.mbBusy = true) (ho : s.mgmt.mbOp ≠ op) (body : State → Nat × State) :
    s.mailbox op body = { s with mgmt := { s.mgmt with mbOvr := true } } := by
  simp [State.mailbox, State.onMgmt, hb, ho]

/-- The boot ROM accepted no image. -/
theorem mailbox_unbooted {s : State} {op : Nat} (hb : s.mgmt.mbBusy = false ∨ s.mgmt.mbOp = op) (hf : s.mgmt.fail = true) (h0 : s.mgmt.step = 0)
    (h1 : op ≠ 1) (h6 : op ≠ 6) (body : State → Nat × State) : s.mailbox op body = s.answered (3, s) := by
  rcases hb with hb | hb <;> simp [State.mailbox, State.answered, hb, hf, h0, h1, h6]

theorem mailbox_runs {s : State} (hb : s.mgmt.mbBusy = false) (hf : s.mgmt.fail = false ∨ s.mgmt.step ≠ 0) (op : Nat) (body : State → Nat × State) :
    s.mailbox op body = s.answered (body s) := by
  have unfailed : (s.mgmt.fail && decide (s.mgmt.step = 0)) = false := by
    rcases hf with hf | hf
    · rw [hf, Bool.false_and]
    · rw [decide_eq_false hf, Bool.and_false]
  simp only [State.mailbox, State.answered, hb, unfailed, Bool.false_and, Bool.false_eq_true, if_false]

/-- Reply word `i` stands in MBDATA. -/
theorem look_mbReply (s : State) (F : Nat → Word) {i : Nat} (hi : i < 8) : look 0 (s.mbReply ((span 0 8).map F)).mgmt.mbdata i = F i := by
  have h := get_foldl_mem (get := look (0 : Word)) (step := fun d e => put 0 d e.1 e.2) (key := fun e : Nat × Word => e.1) (u := fun e _ => e.2)
    (fun _ _ _ => look_put) (e := (i, F i)) (l := (span 0 8).map (fun i => (i, F i))) (by rw [List.map_map]; simpa [Function.comp_def] using nodup_span 0 8)
    (List.mem_map.mpr ⟨i, mem_span.mpr ⟨i.zero_le, by omega⟩, rfl⟩) s.mgmt.mbdata
  rw [List.map_prod_left_eq_zip] at h
  exact h

/-! Numbers that a fold sums of powers of two -/

theorem foldl_two_pow_lt (p : Nat → Bool) (n : Nat) : (List.range n).foldl (fun a i => if p i then a + 2 ^ i else a) 0 < 2 ^ n := by
  induction n with
  | zero => simp
  | succ n ih =>
    rw [List.range_succ, List.foldl_concat, Nat.pow_succ]
    split <;> omega

theorem testBit_foldl_two_pow (p : Nat → Bool) {n j : Nat} (hj : j < n) :
    ((List.range n).foldl (fun a i => if p i then a + 2 ^ i else a) 0).testBit j = p j := by
  induction n with
  | zero => omega
  | succ n ih =>
    have hlt := foldl_two_pow_lt p n
    rw [List.range_succ, List.foldl_concat]
    rcases Nat.lt_succ_iff_lt_or_eq.mp hj with h | rfl
    · split
      · rw [Nat.add_comm, Nat.testBit_two_pow_add_gt h, ih h]
      · exact ih h
    · split
      next hp => rw [Nat.add_comm, Nat.testBit_two_pow_add_eq, Nat.testBit_lt_two_pow hlt, hp]; rfl
      next hp => rw [Nat.testBit_lt_two_pow hlt]; simpa using hp

theorem presentWord_bit (s : State) (w : Nat) {j : Nat} (hj : j < 64) : (s.presentWord w).getLsbD j = (s.core (64 * w + j)).present := by
  unfold State.presentWord
  rw [BitVec.getLsbD_ofNat, span_eq_range', ← List.range_eq_range', testBit_foldl_two_pow (fun i => (s.core (64 * w + i)).present) hj]
  simp [hj]

theorem leBytes_eq (n x : Nat) : leBytes n x = (List.range n).map (fun j => BitVec.ofNat 8 (x / 2 ^ (8 * j))) := by
  induction n generalizing x with
  | zero => rfl
  | succ n ih =>
    rw [leBytes, ih, List.range_succ_eq_map, List.map_cons, List.map_map]
    congr 2
    · simp
    · funext j
      rw [Function.comp_apply, Nat.div_div_eq_div_mul, show 256 = 2 ^ 8 from rfl, ← Nat.pow_add, Nat.mul_succ, Nat.add_comm]

/-! Writing numbered values into a sparse map -/

/-- Values put at consecutive places stand there. -/
theorem look_foldl_put {α : Type} [DecidableEq α] {d : α} (x : Nat) (G : Nat → α) {n i : Nat} (hi : i < n) (m : Sparse α) :
    look d ((span 0 n).foldl (fun f k => put d f (x + k) (G k)) m) (x + i) = G i := by
  have places : ((span 0 n).map (x + ·)).Nodup := (nodup_span 0 n).map (fun _ _ h => Nat.add_left_cancel h)
  exact get_foldl_mem (get := look d) (step := fun f k => put d f (x + k) (G k)) (key := (x + ·)) (u := fun k _ => G k)
    (fun _ _ _ => look_put) places (mem_span.mpr ⟨i.zero_le, by omega⟩) m

/-- The keys of a map rise. -/
def Sparse.Rising {α : Type} (m : Sparse α) : Prop := m.Pairwise (fun a b => a.1 < b.1)

theorem mem_place {α : Type} {n : Nat} {x : α} {m : Sparse α} {e : Nat × α} (h : e ∈ place n x m) : e.1 = n ∨ e ∈ m := by
  induction m with
  | nil => simp_all [place]
  | cons a m ih =>
    obtain ⟨k, v⟩ := a
    rw [place] at h
    split at h
    · rcases List.mem_cons.mp h with rfl | h
      · exact .inl rfl
      · exact .inr h
    · split at h <;> rcases List.mem_cons.mp h with rfl | h
      · exact .inl rfl
      · exact .inr (List.mem_cons_of_mem _ h)
      · exact .inr List.mem_cons_self
      · exact (ih h).imp_right (List.mem_cons_of_mem _)

theorem Sparse.Rising.place {α : Type} {m : Sparse α} (hm : m.Rising) (n : Nat) (x : α) : (place n x m).Rising := by
  induction m with
  | nil => exact List.pairwise_singleton ..
  | cons a m ih =>
    obtain ⟨k, v⟩ := a
    obtain ⟨above, hm⟩ := List.pairwise_cons.mp hm
    rw [Machine.place]
    split
    next hk =>
      refine List.pairwise_cons.mpr ⟨fun e he => ?_, List.pairwise_cons.mpr ⟨above, hm⟩⟩
      rcases List.mem_cons.mp he with rfl | he
      · exact hk
      · exact hk.trans (above e he)
    next hk =>
      split
      next hn => exact List.pairwise_cons.mpr ⟨hn ▸ above, hm⟩
      next hn =>
        refine List.pairwise_cons.mpr ⟨fun e he => ?_, ih hm⟩
        rcases mem_place he with h | h
        · show k < e.1
          omega
        · exact above e h

theorem Sparse.Rising.put {α : Type} [DecidableEq α] {m : Sparse α} (hm : m.Rising) (d : α) (n : Nat) (x : α) : (put d m n x).Rising := by
  rw [Machine.put]
  split
  · exact hm.filter _
  · exact hm.place n x

theorem Sparse.Rising.foldl_put {α β : Type} [DecidableEq α] {m : Sparse α} (hm : m.Rising) (d : α) (k : β → Nat) (x : β → α) (l : List β) :
    (l.foldl (fun f e => Machine.put d f (k e) (x e)) m).Rising := by
  induction l generalizing m with
  | nil => exact hm
  | cons e l ih => exact ih (hm.put d _ _)

theorem look_of_notMem {α : Type} {d : α} {m : Sparse α} {k : Nat} (h : k ∉ m.map (·.1)) : look d m k = d := by
  induction m with
  | nil => rfl
  | cons e m ih =>
    rw [List.map_cons, List.mem_cons, not_or] at h
    rw [look, if_neg h.1, ih h.2]

theorem look_of_mem {α : Type} {d : α} {m : Sparse α} (hm : m.Rising) {e : Nat × α} (he : e ∈ m) : look d m e.1 = e.2 := by
  induction m with
  | nil => nomatch he
  | cons a m ih =>
    obtain ⟨above, hm⟩ := List.pairwise_cons.mp hm
    rcases List.mem_cons.mp he with rfl | he
    · exact if_pos rfl
    · rw [look, if_neg (above e he).ne', ih hm he]

/-- A map written over a part of another that was clear stands there. -/
theorem look_foldl_put_all {α : Type} [DecidableEq α] {d : α} {m f : Sparse α} (hm : m.Rising) {c i : Nat} (hf : look d f (c + i) = d) :
    look d (m.foldl (fun f e => put d f (c + e.1) e.2) f) (c + i) = look d m i := by
  have hstep : ∀ (f : Sparse α) (e : Nat × α) (k : Nat), look d (put d f (c + e.1) e.2) k = if k = c + e.1 then e.2 else look d f k := fun _ _ _ => look_put
  by_cases hi : i ∈ m.map (·.1)
  · obtain ⟨e, he, rfl⟩ := List.mem_map.mp hi
    have keys : (m.map (fun e => c + e.1)).Nodup :=
      List.pairwise_map.mpr (List.Pairwise.imp (fun h he => h.ne (Nat.add_left_cancel he)) hm)
    rw [look_of_mem hm he]
    exact get_foldl_mem (get := look d) (key := fun e : Nat × α => c + e.1) (u := fun e _ => e.2) hstep keys he f
  · have other : c + i ∉ m.map (fun e => c + e.1) := fun h => by
      obtain ⟨e, he, hei⟩ := List.mem_map.mp h
      exact hi (List.mem_map.mpr ⟨e, he, by omega⟩)
    rw [look_of_notMem hi]
    exact (get_foldl_other (get := look d) (key := fun e : Nat × α => c + e.1) (u := fun e _ => e.2) hstep other f).trans hf

/-! ### The mailbox commands (R379) -/

/-- An event answers a mailbox command with return code `rc` and leaves a state of `f`. -/
def State.Answers (s : State) (e : Instr) (rc : Nat) (f : State → Prop) : Prop :=
  ∃ t, exec e s = .next t ∧ t.mgmt.mbBusy = false ∧ t.mgmt.mbRc = BitVec.ofNat 8 rc ∧
    t.mgmt.mbTag = (if s.mgmt.mbBusy then s.mgmt.mbTag else BitVec.ofNat 16 s.ev.num) ∧ f t

/-- An event refuses a mailbox command with return code `rc`. -/
def State.Refuses (s : State) (e : Instr) (rc : Nat) : Prop :=
  s.Answers e rc (fun t => t.cores = s.cores ∧ SameMemory s t ∧ t.queues = s.queues)

/-- The mailbox is free and the boot ROM accepted an image. -/
def State.Served (s : State) : Prop := s.mgmt.mbBusy = false ∧ (s.mgmt.fail = false ∨ s.mgmt.step ≠ 0)

theorem answers_of_answered {s : State} {e : Instr} {rc : Nat} {u : State} {f : State → Prop} (he : exec e s = .next (s.answered (rc, u)))
    (hf : f (s.answered (rc, u))) : s.Answers e rc f := ⟨_, he, rfl, rfl, rfl, hf⟩

theorem refuses_of_answered {s : State} {e : Instr} {rc : Nat} (he : exec e s = .next (s.answered (rc, s))) : s.Refuses e rc :=
  answers_of_answered he ⟨rfl, ⟨fun _ => rfl, rfl⟩, rfl⟩

theorem served_answered {s : State} (h : s.Served) {e : Instr} {op : Nat} {body : State → Nat × State} (he : exec e s = .next (s.mailbox op body))
    {r : Nat × State} (hr : body s = r) : exec e s = .next (s.answered r) := by
  rw [he, mailbox_runs h.1 h.2, hr]

theorem mbdata_answered (s : State) (rc : Nat) (u : State) : (s.answered (rc, u)).mgmt.mbdata = u.mgmt.mbdata := rfl

/-- The commands whose event always comes to the mailbox. -/
theorem exec_mailbox {e : Instr} {k : Nat} (h : (e, k) ∈ ([(.firmwareVersion, 1), (.presentMask, 2), (.readStrataPage, 3), (.restoreCheckpoint, 5),
    (.firmwareUpdateBlock, 6)] : List (Instr × Nat))) (s : State) : ∃ body, exec e s = .next (s.mailbox k body) := by
  simp only [List.mem_cons, Prod.mk.injEq, List.not_mem_nil, or_false] at h
  rcases h with ⟨rfl, rfl⟩ | ⟨rfl, rfl⟩ | ⟨rfl, rfl⟩ | ⟨rfl, rfl⟩ | ⟨rfl, rfl⟩ <;> exact ⟨_, rfl⟩

theorem firmwareVersion_answers {s : State} (h : s.Served) :
    s.Answers .firmwareVersion 0 (fun t => look 0 t.mgmt.mbdata 0 = Config.firmwareVersion s.mgmt.release ∧ t.cores = s.cores) :=
  have he : exec .firmwareVersion s = .next (s.answered (0, s.mbReply [Config.firmwareVersion s.mgmt.release])) := served_answered h rfl rfl
  answers_of_answered he ⟨look_put.trans (if_pos rfl), rfl⟩

theorem presentMask_refuses {s : State} (h : s.Served) (hw : 2 ≤ s.mbWord 0) : s.Refuses .presentMask 2 :=
  refuses_of_answered (served_answered h rfl (if_pos hw))

theorem presentMask_answers {s : State} (h : s.Served) (hw : s.mbWord 0 < 2) :
    s.Answers .presentMask 0 (fun t => ∀ i j, i < 8 → j < 64 → (look 0 t.mgmt.mbdata i).getLsbD j = (s.core (512 * s.mbWord 0 + 64 * i + j)).present) := by
  refine answers_of_answered (served_answered h rfl (if_neg (Nat.not_le_of_lt hw))) (fun i j hi hj => ?_)
  rw [mbdata_answered, look_mbReply s _ hi, presentWord_bit s _ hj]
  congr 2
  omega

theorem readStrataPage_refuses {s : State} (h : s.Served) (hp : 14 < s.mbWord 0) : s.Refuses .readStrataPage 2 :=
  refuses_of_answered (served_answered h rfl (if_pos hp))

theorem readStrataPage_answers {s : State} (h : s.Served) (hp : s.mbWord 0 ≤ 14) :
    s.Answers .readStrataPage 0 (fun t => t.cores = s.cores ∧ ∀ i, i < 8 → look 0 t.mgmt.mbdata i =
      Config.strataReply (s.mbWord 0) i (s.strataPage (s.mbWord 0))) := by
  have he := served_answered h (e := .readStrataPage) rfl (if_neg (Nat.not_lt_of_le hp))
  exact answers_of_answered he ⟨rfl, fun _ hi => look_mbReply s (fun i => Config.strataReply (s.mbWord 0) i (s.strataPage (s.mbWord 0))) hi⟩

/-! Debug -/

theorem debug_eq {s : State} (h : s.Served) {op : Nat} (ho : s.debugOp = op) (h3 : op ≠ 3) (body : State → Nat → State) :
    s.debug op body = s.answered (if (s.core s.debugCore).present then (0, body s s.debugCore) else (2, s)) := by
  subst ho
  have hne : ¬(s.debugOp ≠ s.debugOp ∧ s.debugOp ≠ 3) := fun hh => hh.1 rfl
  rw [State.debug, if_neg hne, mailbox_runs h.1 h.2]
  cases (s.core s.debugCore).present <;> simp [h3]

theorem debug_refuses {s : State} (h : s.Served) {e : Instr} {op : Nat} {body : State → Nat → State} (he : exec e s = .next (s.debug op body))
    (hp : (s.core s.debugCore).present = false) (ho : s.debugOp = op) (h3 : op ≠ 3) : s.Refuses e 2 := by
  refine refuses_of_answered ?_
  rw [he, debug_eq h ho h3, hp]
  rfl

/-- A Debug command changes its core alone. -/
theorem debug_answers {s : State} (h : s.Served) {e : Instr} {op : Nat} {body : State → Nat → State} (he : exec e s = .next (s.debug op body))
    (hp : (s.core s.debugCore).present = true) (ho : s.debugOp = op) (h3 : op ≠ 3) {f : Core → Core}
    (hf : (body s s.debugCore).cores = (s.onCore s.debugCore f).cores) :
    s.Answers e 0 (fun t => t.core s.debugCore = f (s.core s.debugCore) ∧ SameOthers s.debugCore s t) := by
  have cores (k : Nat) : (s.answered (0, body s s.debugCore)).core k = (s.onCore s.debugCore f).core k :=
    congrArg (fun c : Sparse Core => look ({} : Core) c k) hf
  refine answers_of_answered (by rw [he, debug_eq h ho h3, hp, if_pos rfl]) ⟨?_, fun k hk => ?_⟩
  · rw [cores, core_onCore, if_pos rfl]
  · rw [cores, core_onCore, if_neg hk]

theorem debugResume_cores {s : State} {g : Nat} (hw : ∀ tk, (s.core g).task = some tk → tk.gangWait = false) :
    (let t := s.resume g; if ((t.core g).task.map (fun k => k.gangWait)).getD false then t.gangDiscard g else t).cores =
      (s.onCore g (fun c => { c with halted := false })).cores := by
  have going : (((s.resume g).core g).task.map (fun k => k.gangWait)).getD false = false := by
    rw [State.resume, core_onCore, if_pos rfl]
    cases ht : (s.core g).task with
    | none => rfl
    | some tk => exact hw tk ht
  simp only [going, Bool.false_eq_true, if_false]
  rfl

theorem debugHalt_answers {s : State} (h : s.Served) (hp : (s.core s.debugCore).present = true) (ho : s.debugOp = 0) :
    s.Answers .debugHalt 0 (fun t => t.core s.debugCore = { s.core s.debugCore with halted := true } ∧ SameOthers s.debugCore s t) :=
  debug_answers h rfl hp ho (by decide) (f := fun c => { c with halted := true }) rfl

theorem debugResume_answers {s : State} (h : s.Served) (hp : (s.core s.debugCore).present = true) (ho : s.debugOp = 1)
    (hw : ∀ tk, (s.core s.debugCore).task = some tk → tk.gangWait = false) :
    s.Answers .debugResume 0 (fun t => t.core s.debugCore = { s.core s.debugCore with halted := false } ∧ SameOthers s.debugCore s t) :=
  debug_answers h rfl hp ho (by decide) (f := fun c => { c with halted := false }) (debugResume_cores hw)

theorem debugSetDbg_answers {s : State} (h : s.Served) (hp : (s.core s.debugCore).present = true) (ho : s.debugOp = 2) :
    s.Answers .debugSetDbg 0 (fun t => t.core s.debugCore = { s.core s.debugCore with dbgBe := decide (s.debugValue / 2 = 1), dbgHz := decide (s.debugValue % 2 = 1) } ∧
      SameOthers s.debugCore s t) :=
  debug_answers h rfl hp ho (by decide) (f := fun c => { c with dbgBe := decide (s.debugValue / 2 = 1), dbgHz := decide (s.debugValue % 2 = 1) }) rfl

/-! RESTORE_CHECKPOINT -/

theorem restoreCheckpoint_operand {s : State} (h : s.Served) (ha : s.mbWord 0 % 65536 ≠ 0) : s.Refuses .restoreCheckpoint 2 :=
  refuses_of_answered (served_answered h rfl (if_pos (Or.inl ha)))

/-- The answer for an operand in its range. -/
def State.restored (s : State) : Nat × State :=
  if !s.queuesIdle || s.host.checkpoint.isSome || !s.host.tierUp then (3, s)
  else match s.restore (s.mbWord 0) with
    | some t => (0, t)
    | none => (3, s)

theorem restoreCheckpoint_eq {s : State} (h : s.Served) (ha : s.mbWord 0 % 65536 = 0) (hl : s.mbWord 0 ≤ 980606976000) :
    exec .restoreCheckpoint s = .next (s.answered s.restored) := by
  have good : ¬(s.mbWord 0 % 65536 ≠ 0 ∨ 980606976000 < s.mbWord 0) := by omega
  exact served_answered h rfl ((if_neg good).trans rfl)

theorem restoreCheckpoint_refuses {s : State} (h : s.Served) (ha : s.mbWord 0 % 65536 = 0) (hl : s.mbWord 0 ≤ 980606976000)
    (hr : s.restored = (3, s)) : s.Refuses .restoreCheckpoint 3 :=
  refuses_of_answered (hr ▸ restoreCheckpoint_eq h ha hl)

theorem restored_busy {s : State} (hq : s.queuesIdle = false ∨ s.host.tierUp = false) : s.restored = (3, s) := by
  refine if_pos ?_
  rcases hq with hq | hq <;> simp [hq]

theorem restored_none {s : State} (hr : s.restore (s.mbWord 0) = none) : s.restored = (3, s) := by
  rw [State.restored, hr, ite_self]

theorem restored_some {s t : State} (hq : s.queuesIdle = true) (hu : s.host.tierUp = true) (hc : s.host.checkpoint = none)
    (hr : s.restore (s.mbWord 0) = some t) : s.restored = (0, t) := by
  simp [State.restored, hq, hu, hc, hr]

/-! FIRMWARE_UPDATE_BLOCK -/

/-- Byte `n` of an update block. -/
def State.blockByte (s : State) (n : Nat) : Byte := BitVec.ofNat 8 (s.mbWord (n / 8 + 2) / 2 ^ (8 * (n % 8)))

/-- The update with the block. -/
def State.blockUpdate (s : State) : Sparse Byte :=
  (span 0 48).foldl (fun f n => put 0 f (s.mbWord 0 + n) (s.blockByte n)) s.mgmt.update

def State.updated (s : State) : State := s.onMgmt (fun m => { m with update := s.blockUpdate })

theorem blockBytes (F : Nat → Nat) :
    (span 2 6).flatMap (fun i => leBytes 8 (F i)) = (span 0 48).map (fun n => BitVec.ofNat 8 (F (n / 8 + 2) / 2 ^ (8 * (n % 8)))) := by
  simp only [leBytes_eq]
  rfl

theorem blockUpdate_eq (s : State) : ((span (s.mbWord 0) 48).zip ((span 2 6).flatMap (fun i => leBytes 8 (s.mbWord i)))).foldl
    (fun f e => put 0 f e.1 (BitVec.ofNat 8 e.2.toNat)) s.mgmt.update = s.blockUpdate := by
  have places : span (s.mbWord 0) 48 = (span 0 48).map (s.mbWord 0 + ·) := by
    simp [span_eq_range', List.range'_eq_map_range]
  rw [blockBytes, places, List.zip_map', List.foldl_map]
  simp only [BitVec.ofNat_toNat, BitVec.setWidth_eq]
  rfl

theorem updated_eq (s : State) :
    s.onMgmt (fun m => { m with
      update := ((span (s.mbWord 0) 48).zip ((span 2 6).flatMap (fun i => leBytes 8 (s.mbWord i)))).foldl
        (fun f e => put 0 f e.1 (BitVec.ofNat 8 e.2.toNat)) m.update }) = s.updated := by
  simp only [State.onMgmt, State.updated, blockUpdate_eq]

theorem look_blockUpdate (s : State) {i j : Nat} (hi : i < 6) (hj : j < 8) :
    look 0 s.blockUpdate (s.mbWord 0 + 8 * i + j) = BitVec.ofNat 8 (s.mbWord (i + 2) / 2 ^ (8 * j)) := by
  rw [State.blockUpdate, Nat.add_assoc, look_foldl_put _ _ (by omega), State.blockByte, show (8 * i + j) / 8 = i by omega, show (8 * i + j) % 8 = j by omega]

theorem accepts_iff {m : Mgmt} {i : FwImage} : m.accepts i = true ↔ i.signed = true ∧ i.key = m.fusedKey ∧ m.rollback ≤ i.version := by
  simp [Mgmt.accepts, and_assoc]

theorem updateBlock_kept {s : State} (h : s.Served) (hf : s.ev.flag = false) :
    exec .firmwareUpdateBlock s = .next (s.answered (0, s.updated)) := by
  refine served_answered h rfl ?_
  simp only [updated_eq]
  show (match s.ev.flag, s.ev.fuses.images with
    | true, i :: _ => _
    | _, _ => (0, s.updated)) = _
  rw [hf]

theorem updateBlock_last {s : State} (h : s.Served) (hf : s.ev.flag = true) {i : FwImage} {rest : List FwImage} (hi : s.ev.fuses.images = i :: rest) :
    exec .firmwareUpdateBlock s = .next (s.answered (if s.mgmt.accepts i then 0 else 3, s.updated.onMgmt (fun m => m.install i))) := by
  refine served_answered h rfl ?_
  simp only [updated_eq]
  show (match s.ev.flag, s.ev.fuses.images with
    | true, i :: _ => (if s.mgmt.accepts i then 0 else 3, s.updated.onMgmt (fun m => m.install i))
    | _, _ => (0, s.updated)) = _
  rw [hf, hi]

/-- An accepted image stands in the copy that is not running. -/
theorem look_install {m : Mgmt} {i : FwImage} (ha : m.accepts i = true) (hr : m.update.Rising) {n : Nat} (hn : n < 2 ^ 64) :
    look 0 (m.install i).flash ((1 - m.copy) * 2 ^ 64 + n) = look 0 m.update n := by
  have clear : look 0 (m.flash.filter (fun e => decide (e.1 / 2 ^ 64 ≠ 1 - m.copy))) ((1 - m.copy) * 2 ^ 64 + n) = 0 := by
    rw [look_filter (fun k => decide (k / 2 ^ 64 ≠ 1 - m.copy)), if_neg]
    simp only [ne_eq, decide_not, Bool.not_eq_true', decide_eq_false_iff_not, not_not]
    omega
  rw [Mgmt.install, if_pos ha]
  exact look_foldl_put_all hr clear

theorem updateBlock_refused {s : State} (h : s.Served) (hf : s.ev.flag = true) {i : FwImage} {rest : List FwImage} (hi : s.ev.fuses.images = i :: rest)
    (hn : s.mgmt.accepts i = false) :
    s.Answers .firmwareUpdateBlock 3 (fun t => (t.mgmt.flash = s.mgmt.flash ∧ t.mgmt.first = s.mgmt.first ∧ t.cores = s.cores) ∧ t.mgmt.update = []) := by
  have he := updateBlock_last h hf hi
  have refused : s.updated.mgmt.install i = { s.updated.mgmt with update := [] } := if_neg (ne_true_of_eq_false hn)
  rw [State.onMgmt, refused, hn] at he
  exact answers_of_answered he ⟨⟨rfl, rfl, rfl⟩, rfl⟩

theorem updateBlock_installed {s : State} (h : s.Served) (hf : s.ev.flag = true) {i : FwImage} {rest : List FwImage} (hi : s.ev.fuses.images = i :: rest)
    (ha : s.mgmt.accepts i = true) (hr : s.mgmt.update.Rising) (hx : s.mbWord 0 + 48 ≤ 2 ^ 64) :
    s.Answers .firmwareUpdateBlock 0 (fun t => t.cores = s.cores ∧ t.mgmt.first = 1 - s.mgmt.copy ∧ t.mgmt.copy = s.mgmt.copy ∧
      ∀ i j, i < 6 → j < 8 → look 0 t.mgmt.flash ((1 - s.mgmt.copy) * 2 ^ 64 + s.mbWord 0 + 8 * i + j) =
        BitVec.ofNat 8 (s.mbWord (i + 2) / 2 ^ (8 * j))) := by
  have he := updateBlock_last h hf hi
  rw [ha] at he
  have accepted : s.updated.mgmt.accepts i = true := ha
  have rising : s.updated.mgmt.update.Rising := hr.foldl_put 0 _ _ _
  have first : (s.updated.mgmt.install i).first = 1 - s.mgmt.copy := by rw [Mgmt.install, if_pos accepted]; rfl
  have copy : (s.updated.mgmt.install i).copy = s.mgmt.copy := by rw [Mgmt.install, if_pos accepted]; rfl
  refine answers_of_answered he ⟨rfl, first, copy, fun a b ha hb => ?_⟩
  have inFlash := look_install accepted rising (n := s.mbWord 0 + 8 * a + b) (by omega)
  rw [Nat.add_assoc, Nat.add_assoc, ← Nat.add_assoc (s.mbWord 0), ← look_blockUpdate s ha hb]
  exact inFlash

/-! ### Host accesses through BAR2 (R350) -/

/-- An event answers the host with `r` and leaves memory alone. -/
def State.replied (s : State) (e : Instr) (r : Option (List Byte)) : Prop :=
  ∃ t, exec e s = .next t ∧ t.host = { s.host with replies := s.host.replies ++ [r] } ∧ SameMemory s t

theorem replied_none {s : State} {e : Instr} (he : exec e s = .next (s.reply none)) : s.replied e none := ⟨_, he, rfl, fun _ => rfl, rfl⟩

/-- The address of the event's access. -/
def State.bar2Start (s : State) : Nat := s.host.hwin.toNat * 65536 + s.ev.num

/-- Nothing is lost where no upset of metadata is pending. -/
theorem spoilAt_noMetadata {s : State} (h : ∀ a, Upset.metadata a ∉ s.upsets) (bytes : List Nat) : s.spoilAt bytes = s := by
  have skip : ∀ (l : List Upset), (∀ a, Upset.metadata a ∉ l) → l.foldl (fun s u => match u with
      | .metadata m => if bytes.any (fun a => decide (memKey a / 4096 * 4096 = m)) then s.spoilLines (s.chip * 2 ^ 52 + m) else s
      | _ => s) s = s := by
    intro l
    induction l with
    | nil => exact fun _ => rfl
    | cons u l ih =>
      intro hl
      have rest := ih (fun a ha => hl a (List.mem_cons_of_mem _ ha))
      cases u with
      | metadata m => exact absurd List.mem_cons_self (hl m)
      | _ => exact rest
  exact skip s.upsets h

theorem hostBar2_unheard {s : State} (h : s.host.linkUp = false ∨ s.mgmt.down = true ∨ 2 ^ s.host.bar2 ≤ s.ev.num) :
    exec .hostBar2Access s = .next s := by
  refine congrArg Host.Outcome.next (if_pos (c := (s.deaf || decide (2 ^ s.host.bar2 ≤ s.ev.num)) = true) ?_)
  rcases h with h | h | h <;> simp [State.deaf, h]

section
variable {s : State} (hl : s.host.linkUp = true) (hd : s.mgmt.down = false) (hb : s.ev.num < 2 ^ s.host.bar2)
include hl hd hb

theorem hostBar2_heard : ¬(s.deaf || decide (2 ^ s.host.bar2 ≤ s.ev.num)) = true := by
  simp [State.deaf, hl, hd, Nat.not_le.mpr hb]

theorem hostBar2_held (hc : s.checkpointHolds = true) : exec .hostBar2Access s =
    .next { s with host := { s.host with waiting := s.host.waiting ++ [(2, s.ev.num, s.ev.host)] } } :=
  congrArg Host.Outcome.next ((if_neg (hostBar2_heard hl hd hb)).trans (if_pos hc))

theorem hostBar2_performed (hc : s.checkpointHolds = false) : exec .hostBar2Access s = .next (s.hostBar2 s.ev.num s.ev.host) :=
  congrArg Host.Outcome.next ((if_neg (hostBar2_heard hl hd hb)).trans (if_neg (ne_true_of_eq_false hc)))

end

/-- A read of `n` bytes from `o` on. -/
def State.outerRead (s : State) (o n : Nat) : State :=
  if (span o n).all s.mapped && decide (o + n ≤ 2 ^ 48) then (s.outsideRead (span o n)).2.reply (some (s.outsideRead (span o n)).1) else s.reply none

/-- A write from `o` on. -/
def State.outerWrite (s : State) (o : Nat) (b : List Byte) : State :=
  if (span o b.length).all s.mapped && decide (o + b.length ≤ 2 ^ 48) then s.store (span o b.length) b else s.reply none

theorem hostBar2_read {s : State} (hu : ∀ a, Upset.metadata a ∉ s.upsets) (n : Nat) : s.hostBar2 s.ev.num (.read n) = s.outerRead s.bar2Start n := by
  show (s.spoilAt (span s.bar2Start n)).outerRead s.bar2Start n = _
  rw [spoilAt_noMetadata hu]

theorem hostBar2_write {s : State} (hu : ∀ a, Upset.metadata a ∉ s.upsets) (b : List Byte) :
    s.hostBar2 s.ev.num (.write b) = s.outerWrite s.bar2Start b := by
  show (s.spoilAt (span s.bar2Start b.length)).outerWrite s.bar2Start b = _
  rw [spoilAt_noMetadata hu]

theorem span_mapped {s : State} {o n : Nat} : (span o n).all s.mapped = true ↔ ∀ i, i < n → s.mapped (o + i) = true := by
  simp only [List.all_eq_true, mem_span]
  refine ⟨fun h i hi => h _ (by omega), fun h k hk => ?_⟩
  have := h (k - o) (by omega)
  rwa [Nat.add_sub_cancel' hk.1] at this

theorem unmapped_range {s : State} {o n i : Nat} (hi : i < n) (hm : s.mapped (o + i) = false) :
    ¬((span o n).all s.mapped && decide (o + n ≤ 2 ^ 48)) = true := by
  rw [Bool.and_eq_true, span_mapped]
  exact fun h => Bool.false_ne_true (hm.symm.trans (h.1 i hi))

theorem mapped_range {s : State} {o n : Nat} (ho : o + n ≤ 2 ^ 48) (hm : ∀ i, i < n → s.mapped (o + i) = true) :
    ((span o n).all s.mapped && decide (o + n ≤ 2 ^ 48)) = true := by
  rw [Bool.and_eq_true, span_mapped]
  exact ⟨hm, decide_eq_true ho⟩

theorem span_eq_map (a n : Nat) : span a n = (List.range n).map (a + ·) := by
  rw [span_eq_range', List.range'_eq_map_range]

/-- Bytes that hold no poison are read as they stand. -/
theorem outsideRead_clean {s : State} {o n : Nat} (h : ∀ i, i < n → s.poisoned (o + i) = false) :
    (s.outsideRead (span o n)).1 = (List.range n).map (fun i => s.byte (o + i)) := by
  simp only [State.outsideRead, span_eq_map, List.length_map, List.length_range, List.zip_map', List.map_map]
  refine List.map_congr_left (fun i hi => ?_)
  exact if_neg (ne_true_of_eq_false (h i (List.mem_range.mp hi)))

theorem outerRead_unmapped {s : State} {o n i : Nat} (hi : i < n) (hm : s.mapped (o + i) = false) : s.outerRead o n = s.reply none :=
  if_neg (unmapped_range hi hm)

theorem outerRead_clean {s : State} {o n : Nat} (ho : o + n ≤ 2 ^ 48) (hm : ∀ i, i < n → s.mapped (o + i) = true ∧ s.poisoned (o + i) = false) :
    s.outerRead o n = (s.outsideRead (span o n)).2.reply (some ((List.range n).map (fun i => s.byte (o + i)))) := by
  rw [State.outerRead, if_pos (mapped_range ho fun i hi => (hm i hi).1), outsideRead_clean fun i hi => (hm i hi).2]

theorem outerWrite_unmapped {s : State} {o i : Nat} {b : List Byte} (hi : i < b.length) (hm : s.mapped (o + i) = false) : s.outerWrite o b = s.reply none :=
  if_neg (unmapped_range hi hm)

theorem outerWrite_mapped {s : State} {o : Nat} {b : List Byte} (ho : o + b.length ≤ 2 ^ 48) (hm : ∀ i, i < b.length → s.mapped (o + i) = true) :
    s.outerWrite o b = s.store (span o b.length) b := if_pos (mapped_range ho hm)

theorem memKey_low {a : Nat} (h : a < 2 ^ 48) : memKey a = a := Nat.mod_eq_of_lt (by omega)

theorem byte_store_span {s : State} {o : Nat} {b : List Byte} (ho : o + b.length ≤ 2 ^ 48) {i : Nat} (hi : i < b.length) :
    (s.store (span o b.length) b).byte (o + i) = b.getD i 0 := by
  have keys : (span o b.length).map memKey = span o b.length := by
    refine (List.map_congr_left (fun a ha => ?_)).trans (List.map_id _)
    exact memKey_low (by rw [mem_span] at ha; omega)
  have loaded := load_setBytes (span o b.length) b s (by simp [span_eq_range']) (by rw [keys]; exact nodup_span o b.length)
  rw [State.load, span_eq_map, List.map_map] at loaded
  have at_i := congrArg (fun l : List Byte => l.getD i 0) loaded
  simp only [List.getD_eq_getElem?_getD, List.getElem?_map, List.getElem?_range hi, Option.map_some, Option.getD_some] at at_i
  rw [List.getD_eq_getElem?_getD, ← at_i, ← span_eq_map]
  rfl

theorem byte_store_outside {s : State} {o : Nat} {b : List Byte} (ho : o + b.length ≤ 2 ^ 48) {a : Nat} (ha : ∀ i, i < b.length → memKey a ≠ o + i) :
    (s.store (span o b.length) b).byte a = s.byte a := by
  refine byte_store_other s _ b a (fun k hk => ?_)
  rw [mem_span] at hk
  rw [memKey_low (a := k) (by omega)]
  have := ha (k - o) (by omega)
  rwa [Nat.add_sub_cancel' hk.1] at this

theorem setBytes_cores (as : List Nat) : ∀ (bs : List Byte) (s : State), (s.setBytes as bs).cores = s.cores := by
  induction as with
  | nil => intro bs s; cases bs <;> rfl
  | cons a as ih =>
    intro bs s
    cases bs with
    | nil => rfl
    | cons b bs => exact ih bs _

/-! ### The host link and the second tier (R447, R448) -/

theorem endSpace_none {s : State} {space : Nat} (h : ∀ e ∈ s.cores, e.2.inSpace .c space = [] ∧ e.2.inSpace .a space = []) (cause : Nat) :
    s.endSpace space cause = s := by
  have found : s.cores.flatMap (fun c => ([StrandKind.c, .a]).flatMap (fun k => (c.2.inSpace k space).map (fun x => (c.1, k, x)))) = [] := by
    rw [List.flatMap_eq_nil_iff]
    intro e he
    obtain ⟨hc, ha⟩ := h e he
    simp [hc, ha]
  rw [State.endSpace, found]
  rfl

theorem pcieLinkDown_idle {s : State} (hl : s.host.linkUp = true) (h : ∀ e ∈ s.cores, e.2.inSpace .c 2 = [] ∧ e.2.inSpace .a 2 = []) :
    exec .pcieLinkDown s = .next { s with host := { s.host with linkUp := false } } := by
  refine congrArg Host.Outcome.next ((if_neg (c := (!s.host.linkUp) = true) (by simp [hl])).trans ?_)
  exact endSpace_none (s := { s with host := { s.host with linkUp := false } }) h 0x60

/-- What a listed number stands for is listed with it. -/
theorem look_mem {α : Type} {d : α} {m : Sparse α} {e : Nat × α} (he : e ∈ m) : (e.1, look d m e.1) ∈ m := by
  induction m with
  | nil => nomatch he
  | cons x m ih =>
    obtain ⟨k, v⟩ := x
    by_cases hk : e.1 = k
    · rw [look, if_pos hk, hk]
      exact List.mem_cons_self
    · rw [look, if_neg hk]
      refine List.mem_cons_of_mem _ (ih ((List.mem_cons.mp he).resolve_left (fun h => hk ?_)))
      rw [h]

theorem endTierEntries_none {s : State} (h : ∀ e ∈ s.cores, e.2.tq = [] ∧ ∀ ch, (e.2.channel ch).queue = []) : s.endTierEntries = s := by
  have transfers : s.cores.filterMap (fun c => (s.tierTransfer c.1).map (fun x => (c.1, x))) = [] := by
    refine List.filterMap_eq_nil_iff.mpr (fun e he => ?_)
    have idle : (s.core e.1).tq = [] := (h _ (look_mem he)).1
    simp [State.tierTransfer, idle]
  have copies : s.cores.flatMap (fun c => (span 0 8).filterMap (fun ch => (s.tierCopy c.1 ch).map (fun x => (c.1, ch, x)))) = [] := by
    refine List.flatMap_eq_nil_iff.mpr (fun e he => List.filterMap_eq_nil_iff.mpr (fun ch _ => ?_))
    have idle : ((s.core e.1).channel ch).queue = [] := (h _ (look_mem he)).2 ch
    simp [State.tierCopy, idle]
  rw [State.endTierEntries, transfers, copies]
  rfl

theorem secondTierFailure_idle {s : State} (hu : s.host.tierUp = true) (hc : s.host.checkpoint = none)
    (h : ∀ e ∈ s.cores, e.2.inSpace .c 1 = [] ∧ e.2.inSpace .a 1 = [] ∧ e.2.tq = [] ∧ ∀ ch, (e.2.channel ch).queue = []) :
    exec .secondTierFailure s = .next (({ s with host := { s.host with tierUp := false } } : State).notice 8 0x6B 0 0) := by
  have entries : s.endTierEntries = s := endTierEntries_none (fun e he => (h e he).2.2)
  have accesses : (({ s with host := { s.host with tierUp := false } } : State).notice 8 0x6B 0 0).endSpace 1 0x6B = _ :=
    endSpace_none (by rw [notice_cores]; exact fun e he => ⟨(h e he).1, (h e he).2.1⟩) 0x6B
  show execSecondTierFailure s = _
  rw [execSecondTierFailure, if_neg (by simp [hu])]
  dsimp only
  rw [entries, accesses, notice_host]
  simp only [hc]

/-! PCIE_ERROR -/

/-- One more correctable error. -/
def State.corrected (s : State) : State := { s with host := { s.host with correctables := s.host.correctables + 1 } }

theorem pcieError_correctable {s : State} (h : s.ev.pcie = .correctable) : exec .pcieError s = .next (if s.msSince s.host.correctedAt then
    { s.corrected.notice 8 0x6A 0 (BitVec.ofNat 64 (s.host.correctables + 1)) with
      host := { s.corrected.host with correctables := 0, correctedAt := some s.keystoneTime } } else s.corrected) := by
  show execPcieError s = _
  rw [execPcieError, h]
  rfl

theorem hostAccess_none {s : State} {g : Nat} {k : StrandKind} (h : (s.core g).inSpace k 2 = []) (id : Nat) : s.hostAccess g k id = none := by
  rw [State.hostAccess, h]
  rfl

theorem pcieError_poisonedTlp {s : State} {g : Nat} {k : StrandKind} {id : Nat} (he : s.ev.pcie = .poisonedTlp g k id) (h : (s.core g).inSpace k 2 = []) :
    exec .pcieError s = .next s := by
  show execPcieError s = _
  rw [execPcieError, he]
  simp only [hostAccess_none h]

theorem pcieError_completion {s : State} {id : Nat} {st : Word} {x : Access} {a : Nat} (he : s.ev.pcie = .completion id st)
    (hx : ((s.core s.ev.core).inSpace s.ev.strand 2).find? (fun y => y.id = id) = some x)
    (ha : x.bytes.find? (fun b => decide (paSpace b = 2)) = some a) :
    exec .pcieError s = .next ((s.notice (s.ev.core / 96) 0x6A 0 st).faultAccess s.ev.core s.ev.strand x 0x60 (BitVec.ofNat 64 a) 0) := by
  have found : s.hostAccess s.ev.core s.ev.strand id = some x := hx
  show execPcieError s = _
  rw [execPcieError, he]
  simp only [found, ha]
  rfl

/-- A correctable error is counted, or the count is recorded once in a ms; memory and cores stay. -/
theorem pcieError_correctable_spec {s : State} (h : s.ev.pcie = .correctable) : ∃ t, exec .pcieError s = .next t ∧ t.cores = s.cores ∧ SameMemory s t ∧
    (∀ p, s.host.correctedAt = some p → (s.die 8).time.toNat < p + 1000000 → t.host.correctables = s.host.correctables + 1 ∧ t.log = s.log) ∧
    (s.host.correctedAt = none → t.host.correctables = 0 ∧ t.log = (s.notice 8 0x6A 0 (BitVec.ofNat 64 (s.host.correctables + 1))).log) := by
  refine ⟨_, pcieError_correctable h, ?_⟩
  by_cases due : s.msSince s.host.correctedAt = true
  · rw [if_pos due]
    refine ⟨notice_cores .., sameMemory_of (s.corrected.notice_mem ..) (notice_poison ..), fun p hp ht => ?_, fun _ => ⟨rfl, ?_⟩⟩
    · rw [hp] at due
      exact absurd (of_decide_eq_true due) (Nat.not_le.mpr ht)
    · refine notice_log_congr (s := s) (t := s.corrected) ?_ ?_ ?_ .. <;> rfl
  · rw [if_neg due]
    refine ⟨rfl, sameMemory_of rfl rfl, fun _ _ _ => ⟨rfl, rfl⟩, fun hn => ?_⟩
    rw [hn] at due
    exact absurd rfl due

/-- Settles O51, paragraph by paragraph: bring-up, the power window, temperature and power loss, the mailbox, the host and the second tier. -/
theorem managementEvents : Obligations.ManagementEvents := by
  unfold Obligations.ManagementEvents
  refine ⟨?_, ?_, ?_, ?_, ?_⟩
  · intro s f tripped accepted
    refine ⟨powerGood_idle, fun i hp ht hh hs hf hi ha hn => ?_, fun hp ht hh => ⟨fun hr => ?_, fun i hr hi ha => ?_, fun i k hi ha hf h1 h5 => ?_⟩⟩
    · have hb := bootRom_first (s := s) hi ha
      have passed := bringUp_outside hb hf
      have present : ∀ g, g < 768 → _ := fun g hg => present_bringUp hb hf hn (b := s.booted f s.mgmt.first i) hs hg
      have badRows : ∀ e ∈ f.rows, e.1 < 768 → e.1 ∉ f.absent → _ := fun e he hg hx => badRows_bringUp hb hf hn he hg hx
      have dies : ∀ d, d < 13 → _ := fun d hd => die_bringUp hb hf hd
      refine ⟨_, powerGood_runs hp ht hh, ?_⟩
      obtain ⟨cs, ds, cm, passed⟩ := passed
      rw [passed] at present badRows dies ⊢
      exact ⟨rfl, rfl, rfl, rfl, rfl, rfl, rfl, rfl, rfl, rfl, rfl, rfl, rfl, rfl, rfl, rfl, rfl, rfl, rfl, rfl, present, badRows, dies, sameMemory_of rfl rfl⟩
    · exact ⟨_, powerGood_runs hp ht hh, bringUp_unbooted (bootRom_none hr)⟩
    · exact ⟨_, powerGood_runs hp ht hh, image_bringUp (bootRom_second hr hi ha)⟩
    · exact ⟨_, powerGood_runs hp ht hh, bringUp_fails (b := s.booted f s.mgmt.first i) (bootRom_first hi ha) hf h1 h5⟩
  · intro s m p limit step forced used due
    refine ⟨powerWindow_early, fun h => ?_⟩
    obtain ⟨t, ht, mgmt, log, cores, memory⟩ := powerWindow_spec h
    have clk : s.windowed.mgmt = { m.window p with clk := BitVec.ofNat 8 (if forced then min 10 (min (m.window p).hwStep (m.window p).fwStep)
      else min (m.window p).hwStep (m.window p).fwStep) } := rfl
    rw [window_eq] at clk log
    rw [clk] at mgmt
    refine ⟨t, ht, ?_⟩
    rw [mgmt]
    exact ⟨rfl, rfl, rfl, rfl, rfl, rfl, rfl, rfl, log, cores, memory⟩
  · intro s d c hot used clock
    refine ⟨fun h => (dieTemperature_eq s).trans (congrArg Host.Outcome.next (if_pos h)), fun hd hh => ⟨fun hc h1 => ?_, fun hc h1 => ?_,
      dieTemperature_warm hd hh, fun hc hc' h2 => ?_, fun hc hc' h2 => ?_, fun hc => ?_⟩, fun h2 => ?_, dieBelow100C_spec, fun hc => ?_⟩
    · rw [dieTemperature_cool hd hh hc, if_neg h1]
    · rw [dieTemperature_cool hd hh hc, if_pos h1]
    · rw [dieTemperature_hot hd hh hc hc', if_pos h2]
    · exact ⟨_, (dieTemperature_hot hd hh hc hc').trans (congrArg Host.Outcome.next (if_neg h2)), warned_forced s d⟩
    · obtain ⟨hot, lasers, cores, queues⟩ := trip_spec s d
      exact ⟨_, dieTemperature_trips hd hh hc, hot, lasers, cores, queues, fun hn a => byte_losePower hn a⟩
    · exact (dieBelow100C_eq s).trans (congrArg Host.Outcome.next (if_neg h2))
    · obtain ⟨strata, flash, first⟩ := losePower_mgmt hc
      exact ⟨_, powerLoss_eq s, rfl, rfl, rfl, rfl, strata, flash, first, rfl, byte_losePower hc⟩
  · intro s m x g op v answers refuses
    refine ⟨fun e k he => ?_, fun hb hf => ?_⟩
    · obtain ⟨body, hx⟩ := exec_mailbox he s
      refine ⟨fun hb ho => by rw [hx, mailbox_busy hb ho], fun hb hf h0 h1 h6 => refuses_of_answered ?_⟩
      rw [hx, mailbox_unbooted hb hf h0 h1 h6]
    · have h : s.Served := ⟨hb, hf⟩
      refine ⟨firmwareVersion_answers h, presentMask_refuses h, presentMask_answers h, readStrataPage_refuses h, readStrataPage_answers h,
        fun hp ho => debug_refuses h rfl hp ho (by decide), fun hp ho => debug_refuses h rfl hp ho (by decide),
        fun hp ho => debug_refuses h rfl hp ho (by decide), debugHalt_answers h,
        debugResume_answers h, debugSetDbg_answers h,
        restoreCheckpoint_operand h, fun ha hl hq => restoreCheckpoint_refuses h ha hl (restored_busy hq), fun t ha hl hq hu hc hr => ?_,
        fun hr ha hl => restoreCheckpoint_refuses h ha hl (restored_none hr), fun hk => ?_, fun i rest hk hi => ⟨fun hn => ?_, fun hs hkey hv hu _ hx => ?_⟩⟩
      · exact answers_of_answered (restored_some hq hu hc hr ▸ restoreCheckpoint_eq h ha hl) ⟨rfl, rfl, rfl⟩
      · refine answers_of_answered (updateBlock_kept h hk) ⟨⟨rfl, rfl, rfl⟩, fun i j hi hj => ?_⟩
        rw [Nat.zero_add]
        exact look_blockUpdate s hi hj
      · exact updateBlock_refused h hk hi (by rwa [← Bool.not_eq_true, accepts_iff])
      · exact updateBlock_installed h hk hi (accepts_iff.mpr ⟨hs, hkey, hv⟩) hu hx
  · intro s o replies
    refine ⟨hostBar2_unheard, hostBar2_held, fun hl hd hb hc hu => ?_, fun hp => ?_, fun hp => ?_, fun hl => ?_, pcieLinkDown_idle, fun ht => ?_,
      secondTierFailure_idle, pcieError_correctable_spec, fun id st x a => pcieError_completion, fun g k id => pcieError_poisonedTlp⟩
    · have performed := hostBar2_performed hl hd hb hc
      refine ⟨fun he => ?_, fun n i he hi hm => ?_, fun n he ho hm => ?_, fun b i he hi hm => ?_, fun b he ho hm => ?_⟩ <;> rw [he] at performed
      · exact replied_none performed
      · rw [hostBar2_read hu, outerRead_unmapped (o := s.bar2Start) hi hm] at performed
        exact replied_none performed
      · rw [hostBar2_read hu, outerRead_clean (o := s.bar2Start) ho hm] at performed
        exact ⟨_, performed, rfl, fun _ => rfl, rfl⟩
      · rw [hostBar2_write hu, outerWrite_unmapped (o := s.bar2Start) hi hm] at performed
        exact replied_none performed
      · rw [hostBar2_write hu, outerWrite_mapped (o := s.bar2Start) ho hm] at performed
        exact ⟨_, performed, setBytes_cores .., fun i hi => byte_store_span ho hi, fun a ha => byte_store_outside ho ha⟩
    · exact congrArg Host.Outcome.next (if_pos hp)
    · exact congrArg Host.Outcome.next (if_neg (ne_true_of_eq_false hp))
    · exact congrArg Host.Outcome.next (if_pos (c := (!s.host.linkUp) = true) (by simp [hl]))
    · exact congrArg Host.Outcome.next (if_pos (c := (!s.host.tierUp) = true) (by simp [ht]))

end Sys2Proof.Machine
end

section
/-! PROOF. A step of a strand runs the decoded word (O56). -/

namespace Sys2Proof.Machine

/-! ### Strands and page requests -/

@[simp] theorem Core.strand_onStrand (c : Core) (k : StrandKind) (f : Strand → Strand) : (c.onStrand k f).strand k = f (c.strand k) := by
  cases k <;> rfl

@[simp] theorem dropInvalid_pageReqs (s : State) (ctx tensor page : Nat) : (s.dropInvalid ctx tensor page).pageReqs = s.pageReqs := by
  unfold State.dropInvalid
  split
  · rfl
  · dsimp only
    split <;> rfl

/-- A page request changes the requests and the cached table bytes alone. -/
theorem requestPage_eq (s : State) (who : PageAsker) (ctx tensor page : Nat) :
    ∃ rs w, s.requestPage who ctx tensor page = { s with pageReqs := rs, walked := w } := by
  unfold State.requestPage State.dropInvalid
  split
  · exact ⟨_, _, rfl⟩
  · split
    · exact ⟨_, _, rfl⟩
    · dsimp only
      split <;> exact ⟨_, _, rfl⟩

/-- A page that is asked for stands among the requests, whoever asked first. -/
theorem mem_requestPage (s : State) (who : PageAsker) (ctx tensor page : Nat) :
    ∃ asker, (⟨ctx, tensor, page, asker⟩ : PageReq) ∈ (s.requestPage who ctx tensor page).pageReqs := by
  unfold State.requestPage
  split
  next h =>
    obtain ⟨⟨c, t, p, asker⟩, hr, he⟩ := List.any_eq_true.mp h
    simp only [Bool.and_eq_true, decide_eq_true_eq] at he
    obtain ⟨⟨rfl, rfl⟩, rfl⟩ := he
    exact ⟨asker, hr⟩
  · exact ⟨who, by rw [dropInvalid_pageReqs]; exact List.mem_append_right _ (List.mem_singleton.mpr rfl)⟩

/-- A strand that waits for a page is blocked at its word, and the page is asked for (R72). -/
theorem requestPage_blocks (s : State) (who : PageAsker) (ctx tensor page : Nat) (k : StrandKind) (hold : Hold) :
    let u := (s.requestPage who ctx tensor page).onMe (fun c => c.onStrand k (Strand.block hold))
    ((u.core s.cur).strand k).status = .blocked ∧ ((u.core s.cur).strand k).pc = ((s.core s.cur).strand k).pc ∧
      (∃ asker, (⟨ctx, tensor, page, asker⟩ : PageReq) ∈ u.pageReqs) ∧ SameMemory s u ∧ SameOthers s.cur s u := by
  have asked := mem_requestPage s who ctx tensor page
  obtain ⟨rs, w, hr⟩ := requestPage_eq s who ctx tensor page
  rw [hr] at asked ⊢
  have mine := me_onMe ({ s with pageReqs := rs, walked := w } : State) (fun c => c.onStrand k (Strand.block hold))
  have strand := (congrArg (fun c : Core => c.strand k) mine).trans (Core.strand_onStrand _ _ _)
  exact ⟨congrArg Strand.status strand, (congrArg Strand.pc strand :), asked, sameMemory_of rfl rfl,
    fun h hh => (core_onCore ..).trans (if_neg hh)⟩

/-! ### The word that a strand fetches -/

section
variable {s : State} {k : StrandKind}

theorem nextWord_run {w : Nat} {i : Instr} (hf : s.fetchAt s.cur k (s.me.strand k).pc = .word w) (hd : decode (codeOf k w) = some i) :
    s.nextWord k = .run i := by
  simp only [State.nextWord, hf, hd]

theorem nextWord_fault (hf : s.fetchAt s.cur k (s.me.strand k).pc = .fault) :
    s.nextWord k = .other (s.raise k 0x06 (s.me.strand k).pc (s.me.ldep k)) := by
  simp only [State.nextWord, hf]

theorem nextWord_pageIn {tensor page : Nat} (hf : s.fetchAt s.cur k (s.me.strand k).pc = .pageIn tensor page) :
    s.nextWord k = .other ((s.requestPage (s.asker k) s.myCtx tensor page).onMe
      (fun c => c.onStrand k (Strand.block (.pageIn s.myCtx tensor page)))) := by
  simp only [State.nextWord, hf]

/-- A reserved 64-bit word traps with itself. -/
theorem nextWord_reserved {w : Nat} (hf : s.fetchAt s.cur k (s.me.strand k).pc = .word w) (hd : decode (codeOf k w) = none)
    (hk : k = .c ∨ k = .a) : s.nextWord k = .other (s.raise k 0x00 (BitVec.ofNat 64 w) 0) := by
  rcases hk with rfl | rfl <;> simp only [State.nextWord, hf, hd]

/-- A reserved 128-bit word traps with both its halves. -/
theorem nextWord_reserved_wide {w : Nat} (hf : s.fetchAt s.cur k (s.me.strand k).pc = .word w) (hd : decode (codeOf k w) = none)
    (hk : k = .m ∨ k = .o) : s.nextWord k = .other (s.raise k 0x00 (BitVec.ofNat 64 w) (BitVec.ofNat 64 (w / 2 ^ 64))) := by
  rcases hk with rfl | rfl <;> simp only [State.nextWord, hf, hd]

end

/-! ### The turn of an agent -/

/-- The state in which strands of a core take their turn. -/
def State.turn (s : State) (g : Nat) (rest : List Agent) : State := { s with agenda := rest, cur := g }

section
variable {s : State} {g : Nat} {k : StrandKind} {rest : List Agent} (ha : s.agenda = .issue g k :: rest)
include ha

theorem step_stands (hi : (s.core g).issues k = false) : step s = .next (s.turn g rest) := by
  simp only [step, ha]
  exact if_neg (ne_true_of_eq_false hi)

theorem step_runs (hi : (s.core g).issues k = true) {i : Instr} (hw : (s.turn g rest).nextWord k = .run i) : step s = exec i (s.turn g rest) := by
  simp only [step, ha]
  refine (if_pos hi).trans ?_
  rw [State.turn] at hw
  simp only [hw, State.turn]

theorem step_other (hi : (s.core g).issues k = true) {u : State} (hw : (s.turn g rest).nextWord k = .other u) : step s = .next u := by
  simp only [step, ha]
  refine (if_pos hi).trans ?_
  rw [State.turn] at hw
  simp only [hw]

end

/-- Settles O56: the head of the agenda moves, and its strand does what its fetched word says. -/
theorem stepRunsDecoded : Obligations.StepRunsDecoded := by
  unfold Obligations.StepRunsDecoded
  refine ⟨fun s g k rest ha => ⟨step_stands ha, fun hi => ?_⟩, fun s i x rest ha => ?_⟩
  · exact ⟨fun w i hf hd => step_runs ha hi (nextWord_run hf hd), fun hf => step_other ha hi (nextWord_fault hf),
      fun w hf hd hk => step_other ha hi (nextWord_reserved hf hd hk), fun w hf hd hk => step_other ha hi (nextWord_reserved_wide hf hd hk),
      fun te p hf => ⟨_, step_other ha hi (nextWord_pageIn hf), requestPage_blocks (s.turn g rest) _ _ te p k _⟩⟩
  · simp only [step, ha, runAgent]
    exact ⟨fun he => if_neg (by simp [he]), fun he => if_pos (Option.isSome_iff_ne_none.mpr he)⟩

end Sys2Proof.Machine
end

section
/-! PROOF. Accesses complete; QFENCE, SYSCALL and unblocking (O38). -/

namespace Sys2Proof.Machine

/-! ### Registers of a core -/

theorem Core.getS_setS (c : Core) (r q : Nat) (w : Word) : (c.setS r w).getS q = if q = r ∧ r ≠ 0 then w else c.getS q := by
  unfold Core.setS Core.getS
  by_cases hr : r = 0
  · simp [hr]
  · by_cases hq : q = r <;> simp [hr, hq]

theorem Core.getA_setA (c : Core) (r q : Nat) (w : Word) : (c.setA r w).getA q = if q = r ∧ r ≠ 0 then w else c.getA q := by
  unfold Core.setA Core.getA
  by_cases hr : r = 0
  · simp [hr]
  · by_cases hq : q = r <;> simp [hr, hq]

theorem Core.getV_setV_same (c : Core) (r : Nat) (v : Vec) : (c.setV r v).getV r = v := by
  simp [Core.setV, Core.getV]

theorem Core.setS_if (c : Core) (r : Nat) (w : Word) (p : Bool) : ∃ m, (if p then c.setS r w else c) = { c with s := m } := by
  unfold Core.setS
  split
  · split <;> exact ⟨_, rfl⟩
  · exact ⟨_, rfl⟩

theorem Core.setA_if (c : Core) (r : Nat) (w : Word) (p : Bool) : ∃ m, (if p then c.setA r w else c) = { c with a := m } := by
  unfold Core.setA
  split
  · split <;> exact ⟨_, rfl⟩
  · exact ⟨_, rfl⟩

/-! ### What a delivered value leaves alone -/

section
variable (c new : Core) (d : Dest) (n v : Nat) (x : Access) (keep : List Nat) (k : StrandKind)

@[simp] theorem Core.out_deliverTo : (c.deliverTo d n v).out k = c.out k := by
  cases d <;> cases k <;> simp [Core.deliverTo, Core.out]

@[simp] theorem Core.sb_deliverTo : (c.deliverTo d n v).sb k = c.sb k := by
  cases d <;> cases k <;> simp [Core.deliverTo, Core.sb]

@[simp] theorem Core.f_deliverTo : (c.deliverTo d n v).f = c.f := by
  cases d <;> simp [Core.deliverTo]

/-- What `keepLater` puts back stands in the destination's registers alone. -/
theorem Core.keepLater_eq : ∃ m b u, c.keepLater new x keep = { new with s := m, a := b, v := u } := by
  unfold Core.keepLater
  cases x.dest with
  | none => exact ⟨_, _, _, rfl⟩
  | slot d => exact ⟨_, _, _, rfl⟩
  | s r =>
    obtain ⟨m, h⟩ := new.setS_if r (c.getS r) (keep.contains 0 && decide ((c.getS r).toNat ≠ x.was.toNat / 2 ^ (64 * 0) % 2 ^ 64))
    exact ⟨m, new.a, new.v, h⟩
  | sPair r =>
    obtain ⟨m, h⟩ := new.setS_if r (c.getS r) (keep.contains 0 && decide ((c.getS r).toNat ≠ x.was.toNat / 2 ^ (64 * 0) % 2 ^ 64))
    dsimp only
    rw [h]
    obtain ⟨m', h'⟩ := Core.setS_if { new with s := m } (r + 1) (c.getS (r + 1))
      (keep.contains 1 && decide ((c.getS (r + 1)).toNat ≠ x.was.toNat / 2 ^ (64 * 1) % 2 ^ 64))
    exact ⟨m', new.a, new.v, h'⟩
  | a r =>
    obtain ⟨m, h⟩ := new.setA_if r (c.getA r) (keep.contains 0 && decide ((c.getA r).toNat ≠ x.was.toNat / 2 ^ (64 * 0) % 2 ^ 64))
    exact ⟨new.s, m, new.v, h⟩
  | lanes v l =>
    dsimp only
    split <;> exact ⟨_, _, _, rfl⟩

/-- Where the event names no element as written later, the delivered value stands (R404). -/
@[simp] theorem Core.keepLater_nil : c.keepLater new x [] = new := by
  unfold Core.keepLater
  cases x.dest <;> simp

end

/-! ### An access leaves its list (R131) -/

section
variable (c : Core) (k : StrandKind) (x : Access)

theorem Core.retire_eq : c.retire k x = (c.setOut k ((c.out k).filter (fun y => decide (y.id ≠ x.id)))).setSb k ((c.retire k x).sb k) := by
  unfold Core.retire Core.clearSlot
  dsimp only
  split <;> cases k <;> rfl

@[simp] theorem Core.out_retire : (c.retire k x).out k = (c.out k).filter (fun y => decide (y.id ≠ x.id)) := by
  rw [Core.retire_eq]
  cases k <;> rfl

@[simp] theorem Core.files_retire : (c.retire k x).files = c.files := by
  rw [Core.retire_eq]
  cases k <;> rfl

/-- The slot clears with the last access of its instruction. -/
theorem Core.sb_retire (hd : x.slotDone = false) (hl : ∀ y ∈ c.out k, y.grp = x.grp → y.id = x.id) :
    (c.retire k x).sb k = c.sb k &&& ~~~ slotBit x.slot := by
  have last : ((c.out k).filter (fun y => decide (y.id ≠ x.id))).any (fun y => decide (y.grp = x.grp) && !y.slotDone) = false := by
    rw [List.any_eq_false]
    intro y hy
    obtain ⟨hm, hn⟩ := List.mem_filter.mp hy
    have hg : y.grp ≠ x.grp := fun hg => of_decide_eq_true hn (hl y hm hg)
    simp [hg]
  unfold Core.retire
  dsimp only
  rw [hd, last]
  cases k with
  | c => rfl
  | a => rfl
  | m => exact BitVec.zero_and.symm
  | o => exact BitVec.zero_and.symm

end

/-! ### The end of an access (R131, R404) -/

/-- The core as an access's value arrives: delivered but for what was written later, with its flags accrued. -/
def Core.received (c : Core) (k : StrandKind) (x : Access) (n v : Nat) (keep : List Nat) : Core :=
  if k = .c ∧ x.dest ≠ .none then { c.keepLater (c.deliverTo x.dest n v) x keep with
    fpst := (c.keepLater (c.deliverTo x.dest n v) x keep).fpst.accrue x.flags }
  else c.keepLater (c.deliverTo x.dest n v) x keep

theorem Core.received_eq (c : Core) (k : StrandKind) (x : Access) (n v : Nat) (keep : List Nat) :
    ∃ m b u f, c.received k x n v keep = { c.deliverTo x.dest n v with s := m, a := b, v := u, fpst := f } := by
  obtain ⟨m, b, u, h⟩ := c.keepLater_eq (c.deliverTo x.dest n v) x keep
  unfold Core.received
  rw [h]
  split <;> exact ⟨_, _, _, _, rfl⟩

@[simp] theorem Core.out_received (c : Core) (k j : StrandKind) (x : Access) (n v : Nat) (keep : List Nat) :
    (c.received k x n v keep).out j = c.out j := by
  obtain ⟨m, b, u, f, h⟩ := c.received_eq k x n v keep
  rw [h, ← c.out_deliverTo x.dest n v j]
  cases j <;> rfl

@[simp] theorem Core.sb_received (c : Core) (k j : StrandKind) (x : Access) (n v : Nat) (keep : List Nat) :
    (c.received k x n v keep).sb j = c.sb j := by
  obtain ⟨m, b, u, f, h⟩ := c.received_eq k x n v keep
  rw [h, ← c.sb_deliverTo x.dest n v j]
  cases j <;> rfl

theorem Fpst.accrue_zero (f : Fpst) : f.accrue 0 = f := by
  simp [Fpst.accrue]

/-- An access without flags that no later write meets delivers its value. -/
theorem Core.received_plain (c : Core) (k : StrandKind) {x : Access} (n v : Nat) (hx : x.flags = 0) : c.received k x n v [] = c.deliverTo x.dest n v := by
  unfold Core.received
  rw [hx, Fpst.accrue_zero, Core.keepLater_nil]
  exact ite_self _

section
variable {s : State} {g : Nat} {k : StrandKind} {x : Access}

theorem endAccess_eq (hspc : x.spc = false) (hflag : x.flag = 63) (n v : Nat) :
    s.endAccess g k x n v = s.onCore g (fun c => (c.received k x n v s.ev.nums).retire k x) := by
  simp only [State.endAccess, hspc, hflag, Core.hwAdd, Bool.false_eq_true, if_false, if_true, Core.received]

/-- An access that ends leaves its strand's list, and its slot clears with the last of its instruction. -/
theorem endAccess_gone (hspc : x.spc = false) (hflag : x.flag = 63) (n v : Nat) :
    let t := s.endAccess g k x n v
    (t.core g).out k = ((s.core g).out k).filter (fun y => decide (y.id ≠ x.id)) ∧ SameOthers g s t ∧
      (x.slotDone = false → (∀ y ∈ (s.core g).out k, y.grp = x.grp → y.id = x.id) → (t.core g).sb k = (s.core g).sb k &&& ~~~ slotBit x.slot) := by
  dsimp only
  rw [endAccess_eq hspc hflag, core_onCore, if_pos rfl, Core.out_retire, Core.out_received]
  refine ⟨rfl, fun h hh => (core_onCore ..).trans (if_neg hh), fun hd hl => ?_⟩
  rw [Core.sb_retire _ _ _ hd (by rwa [Core.out_received]), Core.sb_received]

theorem endAccess_files (hspc : x.spc = false) (hflag : x.flag = 63) (n v : Nat) :
    ((s.endAccess g k x n v).core g).files = ((s.core g).received k x n v s.ev.nums).files := by
  rw [endAccess_eq hspc hflag, core_onCore, if_pos rfl, Core.files_retire]

end

/-- A value that the event does not part completes its access (R132). -/
theorem completeAccess_whole {s : State} {x : Access} {n v : Nat} (h : x.dest.split n v s.ev.num2 = none) (g : Nat) (k : StrandKind) :
    s.completeAccess g k x n v = s.endAccess g k x n v := by
  simp only [State.completeAccess, h]

theorem Dest.split_zero (d : Dest) (n v : Nat) : d.split n v 0 = Option.none := by
  cases d <;> simp [Dest.split]

/-- A destination of one element is never parted. -/
theorem Dest.split_single {d : Dest} (hp : ∀ r, d ≠ .sPair r) (hl : ∀ r l, d ≠ .lanes r l) (n v mask : Nat) : d.split n v mask = Option.none := by
  cases d with
  | sPair r => exact absurd rfl (hp r)
  | lanes r l => exact absurd rfl (hl r l)
  | _ => rfl

theorem completion_performs {s : State} {x : Access} (ha : s.access? (s.ev.core, s.ev.strand, s.ev.num) = some x)
    (hm : s.mayPerform s.ev.core s.ev.strand x = true) :
    exec .memoryAccessCompletion s = .next (s.performAccess s.ev.core s.ev.strand x) := by
  refine congrArg Host.Outcome.next ?_
  rw [ha]
  exact if_pos (by simp [hm])

/-- An access without a destination leaves its core as it was. -/
theorem Core.received_none (c : Core) (k : StrandKind) {x : Access} (hd : x.dest = .none) (n v : Nat) (keep : List Nat) :
    c.received k x n v keep = c := by
  simp [Core.received, Core.keepLater, Core.deliverTo, hd]

/-- What an s-register reads after an access to `s[r]` has ended: its value, unless a later write of the register stays (R404). -/
theorem Core.getS_received (c : Core) (k : StrandKind) {x : Access} {r : Nat} (hd : x.dest = .s r) (n v : Nat) (keep : List Nat) (q : Nat) :
    (c.received k x n v keep).getS q =
      if q = r ∧ r ≠ 0 ∧ ¬(0 ∈ keep ∧ (c.getS r).toNat ≠ x.was.toNat % 2 ^ 64) then BitVec.ofNat 64 v else c.getS q := by
  have kept : (c.received k x n v keep).getS q = (c.keepLater (c.deliverTo x.dest n v) x keep).getS q := by
    unfold Core.received
    split <;> rfl
  rw [kept]
  simp only [Core.keepLater, hd, Core.deliverTo, Nat.mul_zero, pow_zero, Nat.div_one, Bool.and_eq_true, List.contains_iff_mem, decide_eq_true_eq]
  by_cases hl : 0 ∈ keep ∧ (c.getS r).toNat ≠ x.was.toNat % 2 ^ 64
  · have stays : ¬(q = r ∧ r ≠ 0 ∧ ¬(0 ∈ keep ∧ (c.getS r).toNat ≠ x.was.toNat % 2 ^ 64)) := fun h => h.2.2 hl
    rw [if_pos hl, Core.getS_setS, Core.getS_setS, if_neg stays]
    by_cases hq : q = r ∧ r ≠ 0
    · rw [if_pos hq, hq.1]
    · rw [if_neg hq, if_neg hq]
  · rw [if_neg hl, Core.getS_setS]
    simp only [hl, not_false_eq_true, and_true]

theorem Core.getA_received_nil (c : Core) (k : StrandKind) (x : Access) (n v q : Nat) :
    (c.received k x n v []).getA q = (c.deliverTo x.dest n v).getA q := by
  unfold Core.received
  rw [Core.keepLater_nil]
  split <;> rfl

theorem Core.getV_received_nil (c : Core) (k : StrandKind) (x : Access) (n v q : Nat) :
    (c.received k x n v []).getV q = (c.deliverTo x.dest n v).getV q := by
  unfold Core.received
  rw [Core.keepLater_nil]
  split <;> rfl

/-! ### Numbers and bytes (R3) -/

theorem leNat_lt (l : List Byte) : leNat l < 256 ^ l.length := by
  induction l with
  | nil => simp [leNat]
  | cons b l ih =>
    have hb := b.isLt
    rw [leNat, List.length_cons, pow_succ]
    omega

theorem leNat_drop (n : Nat) (l : List Byte) : leNat (l.drop n) = leNat l / 256 ^ n := by
  induction n generalizing l with
  | zero => simp
  | succ n ih =>
    cases l with
    | nil => simp [leNat]
    | cons b l =>
      have hb := b.isLt
      rw [List.drop_succ_cons, ih, leNat, pow_succ', ← Nat.div_div_eq_div_mul]
      congr 1
      omega

theorem leNat_take (n : Nat) (l : List Byte) : leNat (l.take n) = leNat l % 256 ^ n := by
  induction n generalizing l with
  | zero => simp [leNat, Nat.mod_one]
  | succ n ih =>
    cases l with
    | nil => simp [leNat]
    | cons b l =>
      have hb := b.isLt
      rw [List.take_succ_cons, leNat, leNat, ih, pow_succ', Nat.mod_mul, show (b.toNat + 256 * leNat l) % 256 = b.toNat by omega,
        show (b.toNat + 256 * leNat l) / 256 = leNat l by omega]

theorem leBytes_leNat (l : List Byte) : leBytes l.length (leNat l) = l := by
  induction l with
  | nil => rfl
  | cons b l ih =>
    have hb := b.isLt
    rw [List.length_cons, leBytes, leNat, show (b.toNat + 256 * leNat l) / 256 = leNat l by omega, ih]
    congr 1
    apply BitVec.eq_of_toNat_eq
    rw [BitVec.toNat_ofNat]
    omega

/-- Byte units join to the little-endian number of their bytes. -/
theorem joinUnits_readUnit (s : State) (l : List Nat) : joinUnits 8 (l.map (s.readUnit 8)) = leNat (s.load l) := by
  induction l with
  | nil => rfl
  | cons a l ih => exact congrArg₂ (· + 256 * ·) rfl ih

/-! ### Lanes of a register (R222) -/

/-- A register's number with the low bits of `x` in lane `i`. -/
def withLane (p i x : Nat) : Nat := p - p / 2 ^ (32 * i) % 2 ^ 32 * 2 ^ (32 * i) + x % 2 ^ 32 * 2 ^ (32 * i)

theorem withLane_eq (p i x : Nat) :
    withLane p i x = p % 2 ^ (32 * i) + 2 ^ (32 * i) * (x % 2 ^ 32 + 2 ^ 32 * (p / 2 ^ (32 * i) / 2 ^ 32)) := by
  have h1 := Nat.mod_add_div p (2 ^ (32 * i))
  have h2 := Nat.mod_add_div (p / 2 ^ (32 * i)) (2 ^ 32)
  unfold withLane
  generalize 2 ^ (32 * i) = b at *
  generalize p / b = q at *
  rw [← h2, Nat.mul_add] at h1
  rw [Nat.mul_add, Nat.mul_comm (q % 2 ^ 32), Nat.mul_comm (x % 2 ^ 32)]
  omega

/-- Below lane `i` a number reads as its part below. -/
theorem lane_below {i j : Nat} (h : j < i) (p m : Nat) :
    (p % 2 ^ (32 * i) + 2 ^ (32 * i) * m) / 2 ^ (32 * j) % 2 ^ 32 = p % 2 ^ (32 * i) / 2 ^ (32 * j) % 2 ^ 32 := by
  obtain ⟨r, rfl⟩ := Nat.exists_eq_add_of_lt h
  rw [show 32 * (j + r + 1) = 32 * j + (32 + 32 * r) by omega, pow_add, Nat.mul_assoc, Nat.add_mul_div_left _ _ (by positivity), pow_add, Nat.mul_assoc,
    Nat.add_mul_mod_self_left]

theorem lane_withLane (p i x j : Nat) : withLane p i x / 2 ^ (32 * j) % 2 ^ 32 = if j = i then x % 2 ^ 32 else p / 2 ^ (32 * j) % 2 ^ 32 := by
  have above : withLane p i x / 2 ^ (32 * i) = x % 2 ^ 32 + 2 ^ 32 * (p / 2 ^ (32 * i) / 2 ^ 32) := by
    rw [withLane_eq, Nat.add_mul_div_left _ _ (by positivity), Nat.div_eq_of_lt (Nat.mod_lt _ (by positivity)), Nat.zero_add]
  rcases Nat.lt_trichotomy j i with h | rfl | h
  · rw [if_neg (Nat.ne_of_lt h), withLane_eq, lane_below h, ← lane_below h p (p / 2 ^ (32 * i)), Nat.mod_add_div]
  · rw [if_pos rfl, above, Nat.add_mul_mod_self_left, Nat.mod_mod]
  · obtain ⟨r, rfl⟩ := Nat.exists_eq_add_of_lt h
    rw [if_neg (Nat.ne_of_gt h), show 32 * (i + r + 1) = 32 * i + (32 + 32 * r) by omega, pow_add, pow_add, ← Nat.div_div_eq_div_mul,
      ← Nat.div_div_eq_div_mul, above, Nat.add_mul_div_left _ _ (by positivity), Nat.div_eq_of_lt (Nat.mod_lt _ (by positivity)), Nat.zero_add,
      Nat.div_div_eq_div_mul, Nat.div_div_eq_div_mul, ← Nat.mul_assoc]

/-- Lanes written in turn from the words of a number: each holds its word, every other lane what it held. -/
theorem lane_foldl_withLane (l : List Nat) : ∀ p x : Nat, l.Nodup →
    let q := (l.foldl (fun (r : Nat × Nat) i => (withLane r.1 i r.2, r.2 / 2 ^ 32)) (p, x)).1
    (∀ j, j < l.length → q / 2 ^ (32 * l.getD j 0) % 2 ^ 32 = x / 2 ^ (32 * j) % 2 ^ 32) ∧
    (∀ i, i ∉ l → q / 2 ^ (32 * i) % 2 ^ 32 = p / 2 ^ (32 * i) % 2 ^ 32) := by
  induction l with
  | nil => exact fun p x _ => ⟨fun j hj => absurd hj (Nat.not_lt_zero j), fun i _ => rfl⟩
  | cons a l ih =>
    intro p x hn
    obtain ⟨ha, hn⟩ := List.nodup_cons.mp hn
    obtain ⟨hl, ho⟩ := ih (withLane p a x) (x / 2 ^ 32) hn
    refine ⟨fun j hj => ?_, fun i hi => ?_⟩
    · cases j with
      | zero => exact (ho a ha).trans (by rw [lane_withLane, if_pos rfl, Nat.mul_zero, pow_zero, Nat.div_one])
      | succ j =>
        refine (hl j (by simpa using hj)).trans ?_
        rw [Nat.div_div_eq_div_mul, ← pow_add, Nat.mul_succ, Nat.add_comm]
    · obtain ⟨hia, hil⟩ := not_or.mp (List.mem_cons.not.mp hi)
      exact (ho i hil).trans (by rw [lane_withLane, if_neg hia])

theorem elemOf_ofNat {i : Nat} (hi : i < 32) (m : Nat) : elemOf 32 (BitVec.ofNat 1024 m) i 0 = m / 2 ^ (32 * i) % 2 ^ 32 := by
  unfold elemOf
  rw [BitVec.toNat_ofNat, Nat.mul_zero, Nat.add_zero, ← lane_below hi m (m / 2 ^ (32 * 32)), Nat.mod_add_div]

theorem elemOf_lane (v : Vec) (i : Nat) : elemOf 32 v i 0 = v.toNat / 2 ^ (32 * i) % 2 ^ 32 := by
  rw [elemOf, Nat.mul_zero, Nat.add_zero]

/-- Lanes that take four bytes each. -/
theorem getV_deliverTo_lanes (c : Core) (v x : Nat) {l : List Nat} (hl : l ≠ []) :
    (c.deliverTo (.lanes v l) (4 * l.length) x).getV v =
      BitVec.ofNat 1024 (l.foldl (fun (r : Nat × Nat) i => (withLane r.1 i r.2, r.2 / 2 ^ 32)) ((c.getV v).toNat, x)).1 := by
  simp only [Core.deliverTo, Nat.mul_div_cancel _ (List.length_pos_of_ne_nil hl), Core.getV_setV_same]
  rfl

/-- The word of four bytes that stands in a number at place `j`. -/
theorem leNat_load_word (s : State) (l : List Nat) (j : Nat) :
    leNat (s.load ((l.drop (4 * j)).take 4)) = leNat (s.load l) / 2 ^ (32 * j) % 2 ^ 32 := by
  rw [State.load, List.map_take, List.map_drop, leNat_take, leNat_drop, show (256 : Nat) = 2 ^ 8 from rfl, ← pow_mul, ← pow_mul, ← Nat.mul_assoc]
  rfl

/-! ### Loads and stores (R126, R222) -/

@[simp] theorem State.observe_ev (s : State) (g : Nat) (k : StrandKind) (l : List Nat) : (s.observe g k l).ev = s.ev := rfl
@[simp] theorem State.observe_cores (s : State) (g : Nat) (k : StrandKind) (l : List Nat) : (s.observe g k l).cores = s.cores := rfl
@[simp] theorem State.observe_poison (s : State) (g : Nat) (k : StrandKind) (l : List Nat) : (s.observe g k l).poison = s.poison := rfl

theorem setBytes_ev (as : List Nat) : ∀ (bs : List Byte) (s : State), (s.setBytes as bs).ev = s.ev := by
  induction as with
  | nil => intro bs s; cases bs <;> rfl
  | cons a as ih =>
    intro bs s
    cases bs with
    | nil => rfl
    | cons b bs => exact ih bs (s.setByte a b)

theorem store_ev (s : State) (as : List Nat) (bs : List Byte) : (s.store as bs).ev = s.ev := setBytes_ev as bs s
theorem store_cores (s : State) (as : List Nat) (bs : List Byte) : (s.store as bs).cores = s.cores := setBytes_cores as bs s

section
variable {s : State} {g : Nat} {k : StrandKind} {x : Access} (hroute : x.route = .plain) (hunit : x.unit = 8) (hopen : s.vaultClosed g x = false)
  (hreach : s.unreachable x.addrs = none) (hmask : s.ev.num2 = 0)
include hroute hunit hopen hreach hmask

/-- A load of clean bytes ends with their little-endian number. -/
theorem performLoad_clean (hsubs : x.subs = 0) (hclean : ∀ a ∈ x.addrs, s.poisoned a = false) :
    s.performLoad g k x = (s.observe g k x.addrs).endAccess g k x x.addrs.length (leNat (s.load x.addrs)) := by
  have bytes : x.bytes = x.addrs := by simp [Access.bytes, unitBytes, hunit]
  have size : x.size = x.addrs.length := by rw [Access.size, hunit, Nat.mul_div_cancel _ (by decide)]
  have clean : (span 0 x.addrs.length).filter (fun i => s.poisoned (x.addrs.getD i 0)) = [] := by
    rw [List.filter_eq_nil_iff]
    intro i hi
    have hi : i < x.addrs.length := by simpa using hi
    rw [List.getD_eq_getElem _ _ hi, hclean _ (List.getElem_mem hi)]
    decide
  have whole := completeAccess_whole (s := s.observe g k x.addrs) (x := x) (n := x.addrs.length) (v := leNat (s.load x.addrs))
    (by rw [State.observe_ev, hmask, Dest.split_zero]) g k
  simp only [State.performLoad, hroute, hopen, bytes, hreach, hunit, clean, State.deliverLoad, State.passSubs, hsubs, size, joinUnits_readUnit,
    Bool.false_eq_true, if_false, if_true, whole]

/-- A store writes its bytes and ends. -/
theorem performStore_plain {bs : List Byte} (hlen : bs.length = x.addrs.length) :
    s.performStore g k x bs = ((s.store x.addrs bs).observe g k x.addrs).endAccess g k x 0 0 := by
  have bytes : x.bytes = x.addrs := by simp [Access.bytes, unitBytes, hunit]
  have stored : s.storeUnits 8 x.addrs (leNat bs) = s.store x.addrs bs := by
    rw [State.storeUnits.eq_def, if_pos rfl, ← hlen, leBytes_leNat]
  have whole := completeAccess_whole (s := (s.store x.addrs bs).observe g k x.addrs) (x := x) (n := 0) (v := 0)
    (by rw [State.observe_ev, store_ev, hmask, Dest.split_zero]) g k
  simp only [State.performStore, hroute, hopen, bytes, hreach, hunit, stored, Bool.false_eq_true, if_false, whole]

end

/-! What a load and a store have done. -/

section
variable {s : State} {g : Nat} {k : StrandKind} {x : Access} (hspc : x.spc = false) (hflag : x.flag = 63)
include hspc hflag

theorem endAccess_sameMemory (n v : Nat) : SameMemory s (s.endAccess g k x n v) := by
  rw [endAccess_eq hspc hflag]
  exact sameMemory_of rfl rfl

theorem endAccess_getS {r : Nat} (hd : x.dest = .s r) (n v q : Nat) : ((s.endAccess g k x n v).core g).getS q =
    if q = r ∧ r ≠ 0 ∧ ¬(0 ∈ s.ev.nums ∧ ((s.core g).getS r).toNat ≠ x.was.toNat % 2 ^ 64) then BitVec.ofNat 64 v else (s.core g).getS q :=
  (congrFun (congrArg Files.s (endAccess_files hspc hflag n v)) q).trans (Core.getS_received _ _ hd ..)

theorem endAccess_getA {r : Nat} (hd : x.dest = .a r) (hn : s.ev.nums = []) (n v q : Nat) : ((s.endAccess g k x n v).core g).getA q =
    if q = r ∧ r ≠ 0 then BitVec.ofNat 64 v else (s.core g).getA q := by
  refine (congrFun (congrArg Files.a (endAccess_files hspc hflag n v)) q).trans ?_
  rw [hn]
  exact (Core.getA_received_nil ..).trans (by rw [hd, Core.deliverTo, Core.getA_setA])

theorem endAccess_lanes {r : Nat} {l : List Nat} (hd : x.dest = .lanes r l) (hn : s.ev.nums = []) (hl : l ≠ []) (hl' : l.Nodup) (hl32 : ∀ i ∈ l, i < 32)
    (v : Nat) : let w := ((s.endAccess g k x (4 * l.length) v).core g).getV r
    (∀ j, j < l.length → elemOf 32 w (l.getD j 0) 0 = v / 2 ^ (32 * j) % 2 ^ 32) ∧
      (∀ i, i < 32 → i ∉ l → elemOf 32 w i 0 = elemOf 32 ((s.core g).getV r) i 0) := by
  have got : ((s.endAccess g k x (4 * l.length) v).core g).getV r = _ :=
    (congrFun (congrArg Files.v (endAccess_files hspc hflag (4 * l.length) v)) r).trans
      ((congrArg (fun m => ((s.core g).received k x (4 * l.length) v m).getV r) hn).trans
        ((Core.getV_received_nil ..).trans ((congrArg (fun d => ((s.core g).deliverTo d (4 * l.length) v).getV r) hd).trans
          (getV_deliverTo_lanes _ _ _ hl))))
  obtain ⟨mine, others⟩ := lane_foldl_withLane l ((s.core g).getV r).toNat v hl'
  dsimp only
  rw [got]
  refine ⟨fun j hj => ?_, fun i hi hil => ?_⟩
  · rw [elemOf_ofNat (hl32 _ (List.getD_eq_getElem l 0 hj ▸ List.getElem_mem hj)), mine j hj]
  · rw [elemOf_ofNat hi, others i hil, elemOf_lane]

/-- A store that ends has its bytes at its addresses and no other byte changed (R126). -/
theorem endStore_bytes {bs : List Byte} (hlen : bs.length = x.addrs.length) (hkeys : (x.addrs.map memKey).Nodup) :
    let t := ((s.store x.addrs bs).observe g k x.addrs).endAccess g k x 0 0
    t.load x.addrs = bs ∧ ∀ a, (∀ b ∈ x.addrs, memKey a ≠ memKey b) → t.byte a = s.byte a := by
  dsimp only
  rw [endAccess_eq hspc hflag]
  exact ⟨load_setBytes x.addrs bs s hlen.symm hkeys, fun a ha => byte_store_other s x.addrs bs a ha⟩

end

/-! ### Readings and flag changes (R143, R232, R233) -/

/-- An access without flags that no later write meets ends with its value delivered. -/
theorem completeAccess_plain {s : State} {x : Access} (hspc : x.spc = false) (hflag : x.flag = 63) (hflags : x.flags = 0) (hn : s.ev.nums = [])
    (hp : ∀ r, x.dest ≠ .sPair r) (hl : ∀ r l, x.dest ≠ .lanes r l) (g : Nat) (k : StrandKind) (n v : Nat) :
    s.completeAccess g k x n v = s.onCore g (fun c => (c.deliverTo x.dest n v).retire k x) := by
  rw [completeAccess_whole (Dest.split_single hp hl ..), endAccess_eq hspc hflag, hn]
  simp only [Core.received_plain _ _ _ _ hflags]

theorem performAccess_flag {s : State} {x : Access} {n : Nat} {set : Bool} {v : BitVec 48} (hp : x.phase = .issued) (hk : x.kind = .flag n set v)
    (hn : s.ev.nums = []) (g : Nat) (k : StrandKind) : s.performAccess g k x = s.onCore g (fun c =>
      let y := c.flagTurn (2 + strandNum k)
      (((y.deliverTo x.dest 8 (y.getF n).toNat).setF n (if set then v else y.getF n + v)).fireTriggers).retire k x) := by
  have getF (c : Core) (d : Dest) (a b m : Nat) : (c.deliverTo d a b).getF m = c.getF m := by
    rw [Core.getF, Core.f_deliverTo, ← Core.getF]
  simp only [State.performAccess, hp, hk, hn, Core.keepLater_nil, Core.changeFlag, getF]

/-! ### QFENCE (R143) -/

section
variable (c : Core)

theorem Core.moveFired_eq : ∃ ts q, c.moveFired = { c with triggers := ts, sq := q } := by
  refine List.foldlRecOn (motive := fun d : Core => ∃ ts q, d = { c with triggers := ts, sq := q }) _ _ ⟨_, _, rfl⟩ ?_
  rintro _ ⟨ts, q, rfl⟩ t _
  dsimp only
  split <;> exact ⟨_, _, rfl⟩

theorem Core.popSend_eq : ∃ ts q, c.popSend = { c with triggers := ts, sq := q } := by
  obtain ⟨ts, q, h⟩ := Core.moveFired_eq { c with sq := c.sq.tail }
  exact ⟨ts, q, h⟩

theorem Core.closeMwin_eq : ∃ m, c.closeMwin = { c with mwin := {}, t := m } := by
  refine List.foldlRecOn (motive := fun d : Core => ∃ m, d = { c with mwin := {}, t := m }) _ _ ⟨_, rfl⟩ ?_
  rintro _ ⟨m, rfl⟩ t _
  exact ⟨_, rfl⟩

theorem Core.closeMwin_of_nil (h : c.mwin.releases = []) : c.closeMwin = { c with mwin := {} } := by
  rw [Core.closeMwin, h]
  rfl

/-- What a queue's passing leaves alone. -/
structure Core.Passed (d : Core) : Prop where
  fences : d.fences = c.fences
  sbC : d.sbC = c.sbC
  files : d.files = c.files
  releases : d.mwin.releases = []

theorem Core.passed_passFence (h : c.mwin.releases = []) (q : Nat) : c.Passed (c.passFence q) := by
  unfold Core.passFence
  split
  · exact ⟨rfl, rfl, rfl, h⟩
  split
  · exact ⟨rfl, rfl, rfl, h⟩
  split
  · obtain ⟨ts, l, hp⟩ := c.popSend_eq
    rw [hp]
    exact ⟨rfl, rfl, rfl, h⟩
  split
  · exact ⟨rfl, rfl, rfl, h⟩
  split
  · rw [Core.closeMwin_of_nil { c with mq := c.mq.tail } h]
    exact ⟨rfl, rfl, rfl, rfl⟩
  · exact ⟨rfl, rfl, rfl, h⟩

theorem Core.Passed.trans {c d e : Core} (h : c.Passed d) (h' : d.Passed e) : c.Passed e :=
  ⟨h'.fences.trans h.fences, h'.sbC.trans h.sbC, h'.files.trans h.files, h'.releases⟩

theorem Core.passed_foldl (h : c.mwin.releases = []) (l : List Nat) : c.Passed (l.foldl Core.passFence c) :=
  List.foldlRecOn (motive := fun d : Core => c.Passed d) l _ ⟨rfl, rfl, rfl, h⟩ fun d hd q _ => hd.trans (d.passed_passFence hd.releases q)

theorem Core.tq_passFence (q : Nat) : (c.passFence q).tq = if q = 0 then c.tq.tail else c.tq := by
  unfold Core.passFence
  split
  · rfl
  split
  · rfl
  split
  · obtain ⟨ts, l, hp⟩ := c.popSend_eq
    rw [hp]
  split
  · rfl
  split
  · obtain ⟨m, hm⟩ := Core.closeMwin_eq { c with mq := c.mq.tail }
    rw [hm]
  · rfl

theorem Core.mq_passFence (q : Nat) : (c.passFence q).mq = if q = 11 then c.mq.tail else c.mq := by
  unfold Core.passFence
  by_cases hq : q = 11
  · subst hq
    obtain ⟨m, hm⟩ := Core.closeMwin_eq { c with mq := c.mq.tail }
    simpa using congrArg Core.mq hm
  · obtain ⟨ts, l, hp⟩ := c.popSend_eq
    rw [if_neg hq, if_neg hq, hp]
    split
    · rfl
    split
    · rfl
    split
    · rfl
    split <;> rfl

end

/-- Of steps whose one kind changes a part, a list that holds that kind once changes the part once. -/
theorem get_foldl_once {σ β α : Type} [DecidableEq β] {get : σ → α} {step : σ → β → σ} {u : α → α} {b : β}
    (hstep : ∀ s e, get (step s e) = if e = b then u (get s) else get s) {l : List β} (hn : l.Nodup) (s : σ) :
    get (l.foldl step s) = if b ∈ l then u (get s) else get s := by
  induction l generalizing s with
  | nil => rfl
  | cons e l ih =>
    obtain ⟨he, hn⟩ := List.nodup_cons.mp hn
    rw [List.foldl_cons, ih hn, hstep]
    by_cases h : e = b
    · subst h
      simp [he]
    · simp [h, Ne.symm h]

/-- A QFENCE passes its queues (R143). -/
theorem qfencePass_eq {s : State} {x : QFence} (hx : (s.core s.ev.core).fences.find? (fun y => y.id = s.ev.num) = some x)
    (hr : x.queues.all (s.fenceReached s.ev.core x.id) = true) : exec .qfencePass s = .next (s.onCore s.ev.core (fun c =>
      (x.queues.foldl Core.passFence { c with fences := c.fences.filter (fun y => decide (y.id ≠ x.id)) }).clearSlot .c x.slot)) := by
  refine congrArg Host.Outcome.next ?_
  rw [hx]
  exact if_pos hr

theorem qfencePass_spec {s : State} {x : QFence} (hx : (s.core s.ev.core).fences.find? (fun y => y.id = s.ev.num) = some x) (hn : x.queues.Nodup)
    (hr : x.queues.all (s.fenceReached s.ev.core x.id) = true) (hw : (s.core s.ev.core).mwin.releases = []) : let g := s.ev.core
    ∃ t, exec .qfencePass s = .next t ∧ (t.core g).fences = (s.core g).fences.filter (fun y => decide (y.id ≠ x.id)) ∧
      (t.core g).sbC = (s.core g).sbC &&& ~~~ slotBit x.slot ∧ (t.core g).tq = (if 0 ∈ x.queues then (s.core g).tq.tail else (s.core g).tq) ∧
      (t.core g).mq = (if 11 ∈ x.queues then (s.core g).mq.tail else (s.core g).mq) ∧ (t.core g).files = (s.core g).files ∧
      SameOthers g s t ∧ SameOutside s t := by
  let c : Core := { s.core s.ev.core with fences := (s.core s.ev.core).fences.filter (fun y => decide (y.id ≠ x.id)) }
  have passed : c.Passed (x.queues.foldl Core.passFence c) := c.passed_foldl hw x.queues
  have tq := get_foldl_once (get := Core.tq) Core.tq_passFence hn c
  have mq := get_foldl_once (get := Core.mq) Core.mq_passFence hn c
  refine ⟨_, qfencePass_eq hx hr, ?_⟩
  rw [core_onCore, if_pos rfl]
  exact ⟨passed.fences, congrArg (· &&& ~~~ slotBit x.slot) passed.sbC, tq, mq, passed.files, fun h hh => (core_onCore ..).trans (if_neg hh), rfl⟩

/-! ### SYSCALL replies and unblocking (R25, R198) -/

theorem syscallReply_eq {s : State} {sd : Nat} {code : BitVec 16} {arg : Word} {t : Task} (hh : (s.core s.ev.core).strandC.hold = .requested sd code arg)
    (ht : (s.core s.ev.core).task = some t) (hc : code ≠ 3) : exec .syscallReply s = .next (s.onCore s.ev.core (fun c =>
      (c.setS sd (s.syscallReplyWord s.ev.core t.ctx code arg s.ev.word)).onStrand .c (Strand.advance .c))) := by
  refine congrArg Host.Outcome.next ?_
  simp only [hh, ht, hc, if_false, false_and]

/-- The replies that the spec fixes (R198). -/
theorem syscallReplyWord_fixed (s : State) (g ctx : Nat) {code : BitVec 16} (arg word : Word) (hc : code ≠ 3) :
    s.syscallReplyWord g ctx code arg word = if code = 1 then Config.firmwareVersion s.mgmt.release
      else if code = 2 then BitVec.ofNat 64 (s.spareFrames (g / 96)) else BitVec.allOnes 64 := by
  by_cases h1 : code = 1
  · rw [h1]
    rfl
  by_cases h2 : code = 2
  · rw [h2]
    rfl
  rw [if_neg h1, if_neg h2]
  unfold State.syscallReplyWord
  split
  next h => exact absurd (BitVec.eq_of_toNat_eq h) h1
  next h => exact absurd (BitVec.eq_of_toNat_eq h) h2
  next h => exact absurd (BitVec.eq_of_toNat_eq h) hc
  · rfl

theorem strandUnblock_eq {s : State} (h : ((s.core s.ev.core).strand s.ev.strand).status = .blocked) : exec .strandUnblock s =
    .next (s.onCore s.ev.core (fun c => c.onStrand s.ev.strand (fun x => { x with status := .running }))) := by
  refine congrArg (fun c => Host.Outcome.next (s.setCore s.ev.core c)) ?_
  exact congrArg (Core.setStrand _ _) (if_pos h)

/-! ### The completions that the statement names -/

section
variable {s : State} {x : Access} (ha : s.access? (s.ev.core, s.ev.strand, s.ev.num) = some x) (hp : x.phase = .issued)
  (hm : s.mayPerform s.ev.core s.ev.strand x = true)
include ha hp hm

theorem load_completes (hk : x.kind = .load) :
    exec .memoryAccessCompletion s = .next (s.performLoad s.ev.core s.ev.strand x) := by
  rw [completion_performs ha hm]
  simp only [State.performAccess, hk, hp]

theorem store_completes {bs : List Byte} (hk : x.kind = .store bs) :
    exec .memoryAccessCompletion s = .next (s.performStore s.ev.core s.ev.strand x bs) := by
  rw [completion_performs ha hm]
  simp only [State.performAccess, hk, hp]

/-- What a reading finds at its access: a flag, a stream's status, a ring's word; a DLD's access finds nothing. -/
def State.Finds (s : State) (g : Nat) (x : Access) (v : Nat) : Prop :=
  (∃ n, x.kind = .flagRead n ∧ v = ((s.core g).getF n).toNat) ∨ (∃ n, x.kind = .streamStatus n ∧ v = ((s.core g).statusA n).toNat) ∨
    (∃ n l r, x.kind = .ringInfo n ∧ s.launch? (s.launchOn g) = some l ∧ l.rings[n]? = some r ∧ v = r.info.toNat) ∨
    (∃ n d, x.kind = .descriptor n ∧ x.dest = .slot d ∧ v = 0)

theorem reading_completes {v : Nat} (hflag : x.flag = 63) (hspc : x.spc = false) (hflags : x.flags = 0) (hn : s.ev.nums = [])
    (hpair : ∀ r, x.dest ≠ .sPair r) (hlanes : ∀ r l, x.dest ≠ .lanes r l) (hv : s.Finds s.ev.core x v) : exec .memoryAccessCompletion s =
      .next (s.onCore s.ev.core (fun c => (c.deliverTo x.dest 8 v).retire s.ev.strand x)) := by
  have plain := completeAccess_plain hspc hflag hflags hn hpair hlanes s.ev.core s.ev.strand
  rw [completion_performs ha hm, ← plain]
  rcases hv with ⟨n, hk, rfl⟩ | ⟨n, hk, rfl⟩ | ⟨n, l, r, hk, hl, hr, rfl⟩ | ⟨n, d, hk, hd, rfl⟩
  · simp only [State.performAccess, hk, hp]
  · simp only [State.performAccess, hk, hp]
  · simp only [State.performAccess, hk, hp, hl, Option.bind_some, hr]
  · simp only [State.performAccess, hk, hp]
    rw [plain, plain, hd]
    rfl

end

/-- Settles O38: each access is performed as its kind says, and ends by leaving its list. -/
theorem accessCompletion : Obligations.AccessCompletion := by
  unfold Obligations.AccessCompletion
  refine ⟨fun s x => ?_, fun s x v ha hp hm hflag hspc hflags hn hpair hlanes hv =>
      reading_completes ha hp hm hflag hspc hflags hn hpair hlanes hv, fun s x n set v ha hp hm hk hn => ?_,
    fun s x hx hn hr hw => qfencePass_spec hx hn hr hw, fun s sd code arg t hh ht hc => ?_, fun s h => strandUnblock_eq h⟩
  · intro g k n later gone ha hp hm hroute hunit hflag hspc hsubs hopen hreach hmask
    refine ⟨fun hk hclean => ?_, fun bs hk hd hlen hkeys => ?_⟩
    · have done := load_completes ha hp hm hk
      rw [performLoad_clean hroute hunit hopen hreach hmask hsubs hclean] at done
      refine ⟨_, done, endAccess_gone (s := s.observe g k x.addrs) hspc hflag _ _, endAccess_sameMemory (s := s.observe g k x.addrs) hspc hflag _ _,
        fun r hd q => endAccess_getS (s := s.observe g k x.addrs) hspc hflag hd _ _ q,
        fun r hd hn q => endAccess_getA (s := s.observe g k x.addrs) hspc hflag hd hn _ _ q, fun v l hd hn hl' hl32 hlen hl => ?_⟩
      obtain ⟨mine, others⟩ := endAccess_lanes (s := s.observe g k x.addrs) (g := g) (k := k) hspc hflag hd hn hl hl' hl32 n
      rw [hlen]
      exact ⟨fun j hj => (mine j hj).trans (leNat_load_word s x.addrs j).symm, others⟩
    · have done := store_completes ha hp hm hk
      rw [performStore_plain hroute hunit hopen hreach hmask hlen] at done
      obtain ⟨load, other⟩ := endStore_bytes (s := s) (g := g) (k := k) hspc hflag hlen hkeys
      have cores (h : Nat) : ((s.store x.addrs bs).observe g k x.addrs).core h = s.core h :=
        congrArg (fun c : Sparse Core => look ({} : Core) c h) (store_cores s x.addrs bs)
      have ended := endAccess_gone (s := (s.store x.addrs bs).observe g k x.addrs) (g := g) (k := k) hspc hflag 0 0
      have files := endAccess_files (s := (s.store x.addrs bs).observe g k x.addrs) (g := g) (k := k) hspc hflag 0 0
      rw [Core.received_none _ _ hd, cores] at files
      simp only [SameOthers, cores] at ended
      exact ⟨_, done, ended, load, other, congrArg Files.s files, congrArg Files.v files⟩
  · rw [completion_performs ha hm, performAccess_flag hp hk hn]
    cases s.ev.strand <;> rfl
  · rw [syscallReply_eq hh ht hc, syscallReplyWord_fixed _ _ _ _ _ hc]

end Sys2Proof.Machine
end

section
/-! PROOF. Tasks start, end and leave their cores; launches complete; the scheduler's targets (O46). -/

namespace Sys2Proof.Machine

/-! ### Starting a task (R30, R314) -/

/-- A stage whose next task is a fresh index without a slot has no ring. -/
theorem sring_of_pick {s : State} {l : Launch} {i g j : Nat} {st : Stage} (hst : l.stages[i]? = some st)
    (hp : s.pick l i g = some (.fresh j none)) : st.sring = none := by
  simp only [State.pick, hst] at hp
  cases hr : st.requeued.find? (fun r => s.placeableAgain l st g r.task) with
  | some r => simp [hr] at hp
  | none =>
    cases hs : st.sring with
    | none => rfl
    | some k =>
      simp only [hr, hs] at hp
      split at hp
      · split at hp
        · nomatch hp
        · simp at hp
      · nomatch hp

theorem noteWaits_none {st : Stage} (h : st.sring = none) (s : State) (l : Launch) (g : Nat) : s.noteWaits l st g = s := by
  simp only [State.noteWaits, h]

/-- An idle core starts its stage's next index. -/
theorem taskStart_fresh {s : State} {l : Launch} {i j : Nat} {st : Stage} {b : List Byte} (hs : s.stageOf s.ev.core = some (l, i, st))
    (hgang : st.gang = false) (htask : (s.core s.ev.core).task = none) (hstaged : (s.core s.ev.core).staged = none)
    (hp : s.pick l i s.ev.core = some (.fresh j none)) (hst : l.stages[i]? = some st) (hway : s.givesWay l i st s.ev.core = false)
    (hidle : s.idleCore s.ev.core = true) (hlive : st.live < st.maxc) (htarget : st.cores.length ≤ st.target)
    (hb : s.readBytes l.ctx st.record 256 = some b) : exec .taskStart s =
      .next ((s.onLaunch l.id (fun l => l.take i (.fresh j none))).beginTask s.ev.core (l.taskOf i st b j none s.ev.core)) := by
  have may : st.mayStart = true := by simp [Stage.mayStart, hlive, htarget]
  refine congrArg Host.Outcome.next ?_
  simp only [hs, hway, hgang, noteWaits_none (sring_of_pick hst hp), State.startOn, htask, hstaged, hp, hidle, may, State.withPicked, hst, hb,
    Bool.false_eq_true, if_false, Bool.not_true, Bool.and_false, Bool.or_false]

/-- The state of R30 on a core. -/
theorem startTask_spec (s : State) (g : Nat) (t : Task) : let c := (s.startTask g t).core g
    c.task = some { t with region := .opened, boundCount := 0, ending := false, stopped := false, gangWait := false, entry := { start := true } } ∧
    c.strandC = startStrand t 0 ∧ c.strandA = startStrand t 1 ∧ c.s = put 0 (put 0 (paramRegs t.params) 17 (BitVec.ofNat 64 t.tidx)) 18 t.slot ∧
    c.a = paramRegs t.params ∧ c.v = [] ∧ c.f = [] ∧ c.sbC = 0 ∧ c.ccnt = 0 := by
  dsimp only
  rw [State.startTask, core_setCore, if_pos rfl]
  exact ⟨rfl, rfl, rfl, rfl, rfl, rfl, rfl, rfl, rfl⟩

theorem beginTask_fresh {t : Task} (h : t.fresh = true) (s : State) (g : Nat) : s.beginTask g t =
    (s.startTask g { t with fresh := false }).onLaunch t.launch (fun l => l.onStage t.stage (fun st => { st with live := st.live + 1 })) := by
  rw [State.beginTask, if_pos h]

theorem startTask_others (s : State) (g : Nat) (t : Task) : SameOthers g s (s.startTask g t) := fun _ hh => (core_setCore ..).trans (if_neg hh)

/-- The registers of the sixteen parameters. -/
theorem paramRegs_eq (F : Nat → Word) : paramRegs ((span 0 16).map F) = (span 0 16).foldl (fun m k => put 0 m (1 + k) (F k)) [] := rfl

theorem look_paramRegs (F : Nat → Word) (n : Nat) : look 0 (paramRegs ((span 0 16).map F)) n = if 1 ≤ n ∧ n ≤ 16 then F (n - 1) else 0 := by
  rw [paramRegs_eq]
  split
  next h =>
    have placed := look_foldl_put (d := (0 : Word)) 1 F (n := 16) (i := n - 1) (by omega) []
    rwa [show 1 + (n - 1) = n by omega] at placed
  next h =>
    refine get_foldl_other (get := look (0 : Word)) (step := fun m k => put 0 m (1 + k) (F k)) (key := (1 + ·)) (u := fun k _ => F k)
      (fun _ _ _ => look_put) (fun hm => h ?_) []
    obtain ⟨k, hk, rfl⟩ := List.mem_map.mp hm
    have := mem_span.mp hk
    omega

/-- The registers, flags and slots of a task that starts with sixteen parameters and no ring slot (R30). -/
theorem startTask_registers (s : State) (g : Nat) {t : Task} {F : Nat → Word} (hp : t.params = (span 0 16).map F) (hslot : t.slot = 0) :
    let c := (s.startTask g t).core g
    (∀ n, 1 ≤ n → n ≤ 16 → c.getS n = F (n - 1) ∧ c.getA n = c.getS n) ∧ c.getS 17 = BitVec.ofNat 64 t.tidx ∧ c.getS 18 = 0 ∧
      (∀ n, 18 < n → c.getS n = 0) ∧ (∀ n, c.getV n = 0) ∧ (∀ n, c.getF n = 0) ∧ c.sbC = 0 ∧ c.ccnt = 0 := by
  obtain ⟨-, -, -, regs, aregs, vregs, flags, slots, ccnt⟩ := startTask_spec s g t
  dsimp only
  generalize (s.startTask g t).core g = c at *
  have getS {n : Nat} (h0 : n ≠ 0) : c.getS n =
      if n = 18 then 0 else if n = 17 then BitVec.ofNat 64 t.tidx else if 1 ≤ n ∧ n ≤ 16 then F (n - 1) else 0 := by
    rw [Core.getS, if_neg h0, regs, look_put, look_put, hp, hslot, look_paramRegs]
  have getA {n : Nat} (h0 : n ≠ 0) : c.getA n = if 1 ≤ n ∧ n ≤ 16 then F (n - 1) else 0 := by
    rw [Core.getA, if_neg h0, aregs, hp, look_paramRegs]
  refine ⟨fun n h1 h16 => ?_, getS (by decide), getS (by decide), fun n hn => ?_, fun n => by rw [Core.getV, vregs, look_nil],
    fun n => by rw [Core.getF, flags, look_nil], slots, ccnt⟩
  · rw [getS (by omega), getA (by omega), if_neg (by omega), if_neg (by omega), if_pos ⟨h1, h16⟩]
    exact ⟨rfl, rfl⟩
  · rw [getS (by omega), if_neg (by omega), if_neg (by omega), if_neg (by omega)]

theorem fieldAt_lt (b : List Byte) (off n : Nat) : fieldAt b off n < 256 ^ n :=
  (leNat_lt _).trans_le (Nat.pow_le_pow_right (by decide) (List.length_take_le ..))

/-- A strand starts at its entry where START names it (R29). -/
theorem startStrand_taskOf (l : Launch) (i : Nat) (st : Stage) (b : List Byte) (j g k : Nat) (hk : k < 4) :
    startStrand { l.taskOf i st b j none g with fresh := false } k = if (fieldAt b 0x18 4).testBit k then
      { status := .running, pc := BitVec.ofNat 64 (fieldAt b 0 8 + fieldAt b (8 + 4 * k) 4) } else {} := by
  have entry : ((l.taskOf i st b j none g).entries.getD k 0).setWidth 64 = BitVec.ofNat 64 (fieldAt b (8 + 4 * k) 4) := by
    have hlt := fieldAt_lt b (8 + 4 * k) 4
    have hget : (l.taskOf i st b j none g).entries.getD k 0 = BitVec.ofNat 32 (fieldAt b (8 + 4 * k) 4) := by
      interval_cases k <;> rfl
    apply BitVec.eq_of_toNat_eq
    rw [hget, BitVec.toNat_setWidth, BitVec.toNat_ofNat, BitVec.toNat_ofNat, Nat.mod_eq_of_lt (a := fieldAt b _ _) (by omega)]
  have start : (l.taskOf i st b j none g).start.getLsbD k = (fieldAt b 0x18 4).testBit k := by
    rw [Launch.taskOf, BitVec.getLsbD_ofNat]
    simp [hk]
  rw [startStrand, start, entry, BitVec.ofNat_add]
  rfl

/-- The state of R30 on a core that starts the next index of its stage. -/
theorem taskStart_spec {s : State} {l : Launch} {i j : Nat} {st : Stage} {b : List Byte} (hs : s.stageOf s.ev.core = some (l, i, st))
    (hgang : st.gang = false) (htask : (s.core s.ev.core).task = none) (hstaged : (s.core s.ev.core).staged = none)
    (hp : s.pick l i s.ev.core = some (.fresh j none)) (hst : l.stages[i]? = some st) (hway : s.givesWay l i st s.ev.core = false)
    (hidle : s.idleCore s.ev.core = true) (hlive : st.live < st.maxc) (htarget : st.cores.length ≤ st.target)
    (hb : s.readBytes l.ctx st.record 256 = some b) : let g := s.ev.core
    let f := fieldAt b
    ∃ t tk, exec .taskStart s = .next t ∧ (t.core g).task = some tk ∧ tk.launch = l.id ∧ tk.stage = i ∧ tk.tidx = j ∧ tk.ctx = l.ctx ∧
      tk.region = .opened ∧
      (t.core g).strandC = (if (f 0x18 4).testBit 0 then { status := .running, pc := BitVec.ofNat 64 (f 0 8 + f 8 4) } else {}) ∧
      (t.core g).strandA = (if (f 0x18 4).testBit 1 then { status := .running, pc := BitVec.ofNat 64 (f 0 8 + f 0x0C 4) } else {}) ∧
      (∀ n, 1 ≤ n → n ≤ 16 → (t.core g).getS n = BitVec.ofNat 64 (f (0x20 + 8 * (n - 1)) 8) ∧ (t.core g).getA n = (t.core g).getS n) ∧
      (t.core g).getS 17 = BitVec.ofNat 64 j ∧ (t.core g).getS 18 = 0 ∧ (∀ n, 18 < n → (t.core g).getS n = 0) ∧ (∀ n, (t.core g).getV n = 0) ∧
      (∀ n, (t.core g).getF n = 0) ∧ (t.core g).sbC = 0 ∧ (t.core g).ccnt = 0 ∧ SameOthers g s t ∧ SameMemory s t := by
  have starts := taskStart_fresh hs hgang htask hstaged hp hst hway hidle hlive htarget hb
  rw [beginTask_fresh (show (l.taskOf i st b j none s.ev.core).fresh = true from rfl)] at starts
  let u := s.onLaunch l.id (fun l => l.take i (.fresh j none))
  let tk : Task := { l.taskOf i st b j none s.ev.core with fresh := false }
  obtain ⟨t, runs, core, memory⟩ : ∃ t, exec .taskStart s = .next t ∧ (∀ h, t.core h = (u.startTask s.ev.core tk).core h) ∧ SameMemory s t :=
    ⟨_, starts, fun _ => rfl, sameMemory_of rfl rfl⟩
  obtain ⟨task, strandC, strandA, -⟩ := startTask_spec u s.ev.core tk
  obtain ⟨params, s17, s18, high, vregs, flags, slots, ccnt⟩ := startTask_registers u s.ev.core (t := tk)
    (F := fun k => BitVec.ofNat 64 (fieldAt b (0x20 + 8 * k) 8)) rfl rfl
  rw [startStrand_taskOf _ _ _ _ _ _ _ (by decide)] at strandC strandA
  rw [← core] at task strandC strandA params s17 s18 high vregs flags slots ccnt
  exact ⟨t, _, runs, task, rfl, rfl, rfl, rfl, rfl, strandC, strandA, params, s17, s18, high, vregs, flags, slots, ccnt,
    fun h hh => (core h).trans (startTask_others u s.ev.core tk h hh), memory⟩

/-! ### Leaving a core (R27, R313) -/

/-- Everything but the launches and the requests for pre-emption is as before. -/
structure SameMachine (s t : State) : Prop where
  eq : t = { s with launches := t.launches, preempts := t.preempts }

theorem SameMachine.refl (s : State) : SameMachine s s := ⟨rfl⟩

theorem SameMachine.trans {s t u : State} (h : SameMachine s t) (h' : SameMachine t u) : SameMachine s u :=
  ⟨h'.eq.trans (congrArg (fun x : State => { x with launches := u.launches, preempts := u.preempts }) h.eq)⟩

theorem SameMachine.cores {s t : State} (h : SameMachine s t) : t.cores = s.cores := (congrArg State.cores h.eq :)
theorem SameMachine.core {s t : State} (h : SameMachine s t) (g : Nat) : t.core g = s.core g := congrArg (fun c : Sparse Core => look ({} : Core) c g) h.cores
theorem SameMachine.mem {s t : State} (h : SameMachine s t) : t.mem = s.mem := (congrArg State.mem h.eq :)
theorem SameMachine.poison {s t : State} (h : SameMachine s t) : t.poison = s.poison := (congrArg State.poison h.eq :)

theorem SameMachine.sameMemory {s t : State} (h : SameMachine s t) : SameMemory s t := sameMemory_of h.mem h.poison

theorem SameMachine.onCore {s t : State} (h : SameMachine s t) (g : Nat) (f : Core → Core) : SameMachine (s.onCore g f) (t.onCore g f) :=
  ⟨(congrArg (fun x : State => x.onCore g f) h.eq :)⟩

theorem sameMachine_onLaunch (s : State) (l : Nat) (f : Launch → Launch) : SameMachine s (s.onLaunch l f) := ⟨rfl⟩
theorem sameMachine_preempts (s : State) (ps : List Preempt) : SameMachine s { s with preempts := ps } := ⟨rfl⟩
theorem sameMachine_ungrant (s : State) (l i g : Nat) : SameMachine s (s.ungrant l i g) := ⟨rfl⟩
theorem sameMachine_grant (s : State) (l i g : Nat) : SameMachine s (s.grant l i g) := ⟨rfl⟩

/-- A task that leaves a stage leaves everything but launches alone, and of its core changes only the stage that the core was
promised to. -/
theorem sameMachine_leaveStage (s : State) (t : Task) (g : Nat) (keep : Stage → Bool) :
    SameMachine (s.onCore g (fun c => { c with promised := none })) (s.leaveStage t g keep) := by
  unfold State.leaveStage
  dsimp only
  split
  · exact .refl _
  · split
    · split
      · exact (sameMachine_ungrant ..).trans (sameMachine_grant ..)
      · exact sameMachine_ungrant ..
    · split
      · split
        · exact .refl _
        · exact sameMachine_ungrant ..
      · exact .refl _

/-- A core that its task has left. -/
def Core.vacated (c : Core) : Core := { c.release with promised := none }

theorem Core.vacated_task (c : Core) : c.vacated.task = none := rfl
theorem Core.vacated_strandC (c : Core) : c.vacated.strandC = {} := rfl
theorem Core.vacated_outC (c : Core) : c.vacated.outC = [] := rfl

/-- What a task's leaving does outside its launch: its core is vacated. -/
theorem core_vacated (s : State) (g h : Nat) :
    ((s.onCore g Core.release).onCore g (fun c => { c with promised := none })).core h = if h = g then (s.core g).vacated else s.core h := by
  rw [core_onCore, core_onCore, core_onCore, if_pos rfl]
  split
  · rfl
  · rfl

/-! ### Task end (R27, R44, R406) -/

/-- The machine after a task without a waiting gang has ended: its core is vacated. -/
theorem sameMachine_endTask (s : State) (g : Nat) {t : Task} (hw : t.gangWait = false) :
    SameMachine ((s.onCore g Core.release).onCore g (fun c => { c with promised := none })) (s.endTask g t) := by
  simp only [State.endTask, hw, Bool.and_false, Bool.false_eq_true, if_false]
  have left : SameMachine (s.onCore g Core.release) ((s.keepJoins g t.launch).onCore g Core.release) := (sameMachine_onLaunch ..).onCore g _
  exact (((left.trans (sameMachine_onLaunch ..)).trans (sameMachine_preempts ..)).onCore g _).trans (sameMachine_leaveStage ..)

section
variable {s : State} {tk : Task} (ht : (s.core s.ev.core).task = some tk)
include ht

theorem taskEnd_waits (h : tk.ending = false ∨ s.entriesDone s.ev.core = false ∨ (s.core s.ev.core).gangOwed ≠ []) : exec .taskEnd s = .next s := by
  refine congrArg Host.Outcome.next ?_
  rw [ht]
  refine if_pos ?_
  rcases h with h | h | h
  · simp [h]
  · simp [h]
  · simp [h]

section
variable (hending : tk.ending = true) (hgoing : tk.stopped = false) (hdone : s.entriesDone s.ev.core = true) (howed : (s.core s.ev.core).gangOwed = [])
  (hperf : (s.core s.ev.core).doneAtDie = true)
include hending hgoing hdone howed hperf

theorem taskEnd_overrun (ho : tk.overrun = true) : exec .taskEnd s =
    .next (s.taskFault s.ev.core .c false 0x15 (s.core s.ev.core).strandC.pc (s.core s.ev.core).strandC.pc (BitVec.ofNat 64 tk.bound)) := by
  refine congrArg Host.Outcome.next ?_
  rw [ht]
  refine (if_neg (by simp [hending, hgoing, hdone, howed, hperf])).trans ?_
  exact if_pos ho

theorem taskEnd_ends (ho : tk.overrun = false) (hscales : (s.core s.ev.core).scales = []) (hqua : (s.die (s.ev.core / 96)).qua = []) :
    exec .taskEnd s = .next (s.endTask s.ev.core tk) := by
  have flush : s.flushMine s.ev.core = s := by
    rw [State.flushMine, dieOf, hqua]
    rfl
  have held (k : StrandKind) : s.quaHeld s.ev.core k = false := by
    rw [State.quaHeld, dieOf, hqua]
    rfl
  refine congrArg Host.Outcome.next ?_
  simp only [ht, hending, hgoing, hdone, howed, hperf, ho, hscales, flush, held, Bool.not_true, Bool.or_false, Bool.false_eq_true, if_false,
    List.isEmpty_nil, Option.map_some, Option.getD_some]

end
end

/-! ### Pre-emption (R43, R44) -/

/-- A task of no gang stands alone. -/
theorem gangCores_alone {s : State} {g : Nat} {tk : Task} (ht : (s.core g).task = some tk) (hg : s.isGang tk = false) : s.gangCores g = [g] := by
  simp only [State.gangCores, ht, hg, Bool.false_eq_true, if_false]

theorem dropCancelled_eq (s : State) (g : Nat) : ∃ u f, s.dropCancelled g = { s with upsets := u, fabric := f } := by
  refine List.foldlRecOn (motive := fun t : State => ∃ u f, t = { s with upsets := u, fabric := f }) _ _ ⟨_, _, rfl⟩ ?_
  rintro _ ⟨u, f, rfl⟩ q _
  exact ⟨_, _, rfl⟩

theorem withdrawParked_frame (s : State) (g : Nat) : (s.withdrawParked g).cores = s.cores ∧ (s.withdrawParked g).preempts = s.preempts ∧
    SameMemory s (s.withdrawParked g) := ⟨rfl, rfl, sameMemory_of rfl rfl⟩

theorem dropCancelled_frame (s : State) (g : Nat) : (s.dropCancelled g).cores = s.cores ∧ (s.dropCancelled g).preempts = s.preempts ∧
    SameMemory s (s.dropCancelled g) := by
  obtain ⟨w, x, h⟩ := dropCancelled_eq s g
  rw [h]
  exact ⟨rfl, rfl, sameMemory_of rfl rfl⟩

theorem askExchange_frame (s : State) (d : Nat) : (s.askExchange d).cores = s.cores ∧ (s.askExchange d).preempts = s.preempts ∧
    SameMemory s (s.askExchange d) := ⟨rfl, rfl, sameMemory_of rfl rfl⟩

/-- A discard that begins: the task stops in Discarding, and requests and memory stand. -/
theorem beginDiscard_spec (s : State) (g : Nat) : let t := s.beginDiscard g
    (t.core g).task = (s.core g).task.map (fun t => { t with region := .discarding, stopped := true, awaitExchange := true }) ∧
      t.preempts = s.preempts ∧ SameMemory s t := by
  let u := s.onCore g fun c => (c.onTask fun t => { t with region := .discarding, stopped := true, awaitExchange := true }).cancelEntries
  have core : u.core g = _ := (core_onCore ..).trans (if_pos rfl)
  obtain ⟨parkedCores, parkedPreempts, parkedMem⟩ := withdrawParked_frame u g
  obtain ⟨droppedCores, droppedPreempts, droppedMem⟩ := dropCancelled_frame (u.withdrawParked g) g
  obtain ⟨askedCores, askedPreempts, askedMem⟩ := askExchange_frame ((u.withdrawParked g).dropCancelled g) (dieOf g)
  have cores : (s.beginDiscard g).core g = u.core g := congrArg (fun cores => look ({} : Core) cores g) ((askedCores.trans droppedCores).trans parkedCores)
  have entered : SameMemory s u := sameMemory_of rfl rfl
  refine ⟨(congrArg Core.task (cores.trans core)).trans rfl, (askedPreempts.trans droppedPreempts).trans parkedPreempts, ?_⟩
  exact ⟨fun x => ((askedMem.1 x).trans (droppedMem.1 x)).trans ((parkedMem.1 x).trans (entered.1 x)),
    (askedMem.2.trans droppedMem.2).trans (parkedMem.2.trans entered.2)⟩

section
variable {s : State}

theorem preemptionRequest_halted (h : (s.core s.ev.core).halted = true) : exec .preemptionRequest s = .next s := by
  refine congrArg Host.Outcome.next ?_
  split
  · rfl
  · exact if_pos (by simp [h])

/-- The state in which a request has reached its task. -/
def State.requested (s : State) (p : Preempt) : State :=
  ({ s with preempts := s.preempts.erase p } : State).onCore s.ev.core (fun c => { c with promised := p.dest })

section
variable {tk : Task} {p : Preempt} (ht : (s.core s.ev.core).task = some tk) (hp : s.preempts.find? (fun p => p.core = s.ev.core) = some p)
  (hh : (s.core s.ev.core).halted = false) (hl : p.launch = tk.launch) (hs : p.stage = tk.stage) (hi : p.tidx = tk.tidx)
  (hstaged : (s.core s.ev.core).staged = none) (hgoing : tk.stopped = false) (hg : s.isGang tk = false)
include ht hp hh hl hs hi hstaged hgoing hg

theorem preemptionRequest_reaches : exec .preemptionRequest s = .next ((s.requested p).preemptTask s.ev.core tk) := by
  have withdrawn : ({ s with preempts := s.preempts.erase p } : State).withdrawStaged s.ev.core = { s with preempts := s.preempts.erase p } := by
    rw [State.withdrawStaged, show (({ s with preempts := s.preempts.erase p } : State).core s.ev.core).staged = none from hstaged]
  have alone : ((s.gangCores s.ev.core).any fun x => (s.core x).halted) = false := by
    simp [gangCores_alone ht hg, hh]
  refine congrArg Host.Outcome.next ?_
  rw [hp]
  dsimp only
  rw [hh, alone, show (({ s with preempts := s.preempts.erase p } : State).core s.ev.core).task = some tk from ht, withdrawn]
  simp only [hl, hs, hi, hgoing, Bool.or_false, Bool.false_eq_true, if_false, ne_eq, not_true_eq_false]
  rfl

theorem preemption_discards (ho : tk.region = .opened) : ∃ t u, exec .preemptionRequest s = .next t ∧ (t.core s.ev.core).task = some u ∧
    u.region = .discarding ∧ u.stopped = true ∧ t.preempts = s.preempts.erase p ∧ SameMemory s t := by
  have reaches := preemptionRequest_reaches ht hp hh hl hs hi hstaged hgoing hg
  have discards : (s.requested p).preemptTask s.ev.core tk = (s.requested p).beginDiscard s.ev.core := by
    simp only [State.preemptTask, show (s.requested p).isGang tk = false from hg, ho, Bool.false_eq_true, if_false]
  have task : ((s.requested p).core s.ev.core).task = some tk := (congrArg Core.task ((core_onCore ..).trans (if_pos rfl))).trans ht
  obtain ⟨mine, preempts, memory⟩ := beginDiscard_spec (s.requested p) s.ev.core
  rw [task] at mine
  exact ⟨_, _, reaches.trans (congrArg Host.Outcome.next discards), mine, rfl, rfl, preempts, memory⟩

theorem preemption_pends (ho : tk.region = .sealed) : ∃ t, exec .preemptionRequest s = .next t ∧
    (t.core s.ev.core).task = some { tk with region := .sealedPending, boundCount := 0 } ∧ (t.core s.ev.core).promised = p.dest ∧
    t.preempts = s.preempts.erase p ∧ SameOthers s.ev.core s t := by
  have reaches := preemptionRequest_reaches ht hp hh hl hs hi hstaged hgoing hg
  have pends : (s.requested p).preemptTask s.ev.core tk =
      (s.requested p).onCore s.ev.core (fun c => c.onTask (fun t => { t with region := .sealedPending, boundCount := 0 })) := by
    simp only [State.preemptTask, show (s.requested p).isGang tk = false from hg, ho, Bool.false_eq_true, if_false]
  have core := core_onCore (s.requested p) s.ev.core s.ev.core (fun c => c.onTask (fun t => { t with region := .sealedPending, boundCount := 0 }))
  have asked : (s.requested p).core s.ev.core = { s.core s.ev.core with promised := p.dest } := (core_onCore ..).trans (if_pos rfl)
  rw [if_pos rfl, asked] at core
  rw [pends] at reaches
  refine ⟨_, reaches, ?_, ?_, rfl, fun h hh => ?_⟩
  · rw [core]
    exact congrArg (Option.map _) ht
  · rw [core]
    rfl
  · exact ((core_onCore ..).trans (if_neg hh)).trans ((core_onCore ..).trans (if_neg hh))

end
end

/-! ### The region bound (R44, R409) -/

section
variable {s : State} {tk : Task} (ht : (s.core s.ev.core).task = some tk) (hr : tk.region = .sealedPending) (hgoing : tk.stopped = false)
include ht hr hgoing

theorem regionBound_overrun (hb : tk.bound ≤ tk.boundCount) : exec .regionBoundOverrun s =
    .next (s.taskFault s.ev.core .c false 0x15 (s.core s.ev.core).strandC.pc (s.core s.ev.core).strandC.pc (BitVec.ofNat 64 tk.bound)) := by
  refine congrArg Host.Outcome.next ?_
  rw [ht]
  exact if_pos (by simp [Task.overrun, hr, hgoing, hb])

theorem regionBound_within (hb : tk.boundCount < tk.bound) : exec .regionBoundOverrun s = .next s := by
  refine congrArg Host.Outcome.next ?_
  rw [ht]
  exact if_neg (by simp [Task.overrun, hr, hgoing, hb])

end

/-! ### A discarded task (R45) -/

section
variable {s z : State} {tk : Task} {l : Launch} (ht : (s.core s.ev.core).task = some tk) (hl : s.launch? tk.launch = some l)
include ht hl

/-- Of a task of no gang, only its own core's part is to complete. -/
theorem discardComplete_alone (hrun : l.state = .running) (hr : tk.region = .discarding) (hg : s.isGang tk = false)
    (hd : s.discarded s.ev.core = true) : exec .discardComplete s = .next (s.requeueTask s.ev.core) := by
  refine congrArg Host.Outcome.next ?_
  simp only [ht, hl, hrun, hr, gangCores_alone ht hg, List.all_cons, hd, List.all_nil, decide_true, Bool.and_self, if_true, List.foldl_cons, List.foldl_nil]

/-- Once its restart record is written, the task is re-queued and its core vacated. -/
theorem sameMachine_requeueTask
    (hw : (s.onLaunch l.id (fun l => l.unclaim tk)).writeRestart s.ev.core l (lowestUnused (s.recordsUsed l)) = .done z) :
    SameMachine ((z.onCore s.ev.core Core.release).onCore s.ev.core (fun c => { c with promised := none })) (s.requeueTask s.ev.core) := by
  simp only [State.requeueTask, ht, hl, hw]
  have left (f : Launch → Launch) : SameMachine (z.onCore s.ev.core Core.release)
      (((z.keepJoins s.ev.core l.id).onLaunch l.id f).onCore s.ev.core Core.release) :=
    ((sameMachine_onLaunch ..).trans (sameMachine_onLaunch ..)).onCore _ _
  exact ((left _).onCore _ _).trans (sameMachine_leaveStage ..)

end

/-! ### The end of a launch (R320) -/

section
variable {s : State} {l : Launch} (hl : s.launch? s.ev.num = some l)
include hl

theorem launchCompletion_waits {st : Stage} (hst : st ∈ l.stages) (hc : st.completed = false) : exec .launchCompletion s = .next s := by
  have unfinished : l.stages.all (fun st => st.completed) = false := List.all_eq_false.mpr ⟨st, hst, by simp [hc]⟩
  refine congrArg Host.Outcome.next ?_
  simp only [hl, unfinished, Bool.and_false, Bool.false_and, Bool.false_eq_true, if_false]

/-- The record of a launch that has completed. -/
def State.completedRecord (s : State) (l : Launch) : Record :=
  { s.deviceRecord 8 0x80 0 0 with tag := l.tag, ctx := l.ctx, irq := l.irq, ends := some l.id, done := some (l.queue, l.head) }

theorem launchCompletion_completes (hrun : l.state = .running) (hst : ∀ st ∈ l.stages, st.completed = true) (hsends : s.sendsOwed l.id = false)
    (hleft : l.left = []) (hheld : s.log.held = []) : exec .launchCompletion s = .next (s.enter (s.completedRecord l)) := by
  have finished : l.stages.all (fun st => st.completed) = true := List.all_eq_true.mpr hst
  refine congrArg Host.Outcome.next ?_
  simp only [hl, hrun, finished, hsends, hleft, hheld, List.all_nil, List.any_nil, decide_true, Bool.not_false, Bool.and_self, if_true]
  rfl

end

/-- A record that meets no held one is held as it is, whatever the log takes. -/
theorem held_enter {s : State} (hheld : s.log.held = []) (r : Record) (hc : countCause r.cause.toNat = false) :
    look [] (s.enter r).log.held r.src = [{ r with made := s.mgmt.kcy }] := by
  simp only [State.enter, hheld, hc, look_nil, List.filter_nil, List.length_nil, List.any_nil, Bool.and_false, Bool.false_eq_true, if_false,
    List.nil_append]
  rw [if_neg (by simp)]
  simp

/-! ### Stages by launch and number -/

theorem getElem?_modifyNth {α : Type} (f : α → α) (n : Nat) (l : List α) (i : Nat) :
    (modifyNth f n l)[i]? = if i = n then l[i]?.map f else l[i]? := by
  induction l generalizing n i with
  | nil => cases n <;> simp [modifyNth]
  | cons x l ih =>
    cases n with
    | zero => cases i <;> simp [modifyNth]
    | succ n => cases i <;> simp [modifyNth, ih]

theorem id_of_launch? {s : State} {k : Nat} {x : Launch} (h : s.launch? k = some x) : x.id = k :=
  of_decide_eq_true (List.find?_some (p := fun x : Launch => decide (x.id = k)) h)

theorem launch?_onLaunch {f : Launch → Launch} (hf : ∀ x, (f x).id = x.id) (s : State) (l k : Nat) :
    (s.onLaunch l f).launch? k = if k = l then (s.launch? k).map f else s.launch? k := by
  have same (x : Launch) : (if x.id = l then f x else x).id = x.id := by
    split
    · exact hf x
    · rfl
  have found : (s.onLaunch l f).launch? k = (s.launch? k).map (fun x => if x.id = l then f x else x) := by
    rw [State.launch?, State.onLaunch, List.find?_map]
    simp only [Function.comp_def, same, State.launch?]
  rw [found]
  cases hx : s.launch? k with
  | none => simp
  | some x =>
    have hk := id_of_launch? hx
    rw [hk.symm]
    split <;> simp_all

/-- The target of a stage of a launch. -/
def State.targetAt (s : State) (l i : Nat) : Option Nat := (s.launch? l).bind (fun x => x.stages[i]?.map (fun st => st.target))

theorem targetAt_onStage (s : State) (l i : Nat) {f : Stage → Stage} {u : Nat → Nat} (hf : ∀ st, (f st).target = u st.target) (k j : Nat) :
    (s.onLaunch l (fun x => x.onStage i f)).targetAt k j = if k = l ∧ j = i then (s.targetAt k j).map u else s.targetAt k j := by
  rw [State.targetAt, launch?_onLaunch (f := fun x => x.onStage i f) (fun _ => rfl), State.targetAt]
  by_cases hk : k = l
  · cases s.launch? k with
    | none => simp
    | some x =>
      by_cases hj : j = i
      · simp [hk, hj, Launch.onStage, getElem?_modifyNth, Function.comp_def, hf]
      · simp [hk, hj, Launch.onStage, getElem?_modifyNth]
  · simp [hk]

/-! ### Lines of the scheduler (R311, R312) -/

theorem getElem?_of_mem_zip_span {α : Type} {l : List α} {e : Nat × α} (h : e ∈ (span 0 l.length).zip l) : l[e.1]? = some e.2 := by
  obtain ⟨k, hk, rfl⟩ := List.mem_iff_getElem.mp h
  simp [span_eq_range']

theorem launch?_of_mem {s : State} (hn : (s.launches.map (fun l => l.id)).Nodup) {l : Launch} (hl : l ∈ s.launches) : s.launch? l.id = some l := by
  cases hx : s.launch? l.id with
  | none => exact absurd (decide_eq_true rfl) (List.find?_eq_none.mp hx l hl)
  | some x => rw [List.inj_on_of_nodup_map hn (List.mem_of_find?_eq_some hx) hl (id_of_launch? hx)]

/-- A line stands for a stage of a launch, with the target of R311. -/
theorem line_spec {s : State} (hn : (s.launches.map (fun l => l.id)).Nodup) {e : Line} (he : e ∈ s.lines) :
    s.launch? e.launch.id = some e.launch ∧ e.launch.stages[e.idx]? = some e.stage ∧ e.target = e.launch.targetOf e.stage := by
  obtain ⟨l, hl, he⟩ := List.mem_flatMap.mp he
  split at he
  · obtain ⟨p, hp, rfl⟩ := List.mem_map.mp he
    exact ⟨launch?_of_mem hn hl, getElem?_of_mem_zip_span (List.mem_of_mem_filter hp), rfl⟩
  · nomatch he

theorem targetOf_eq (l : Launch) (st : Stage) : l.targetOf st = max (min (min st.maxc (st.cores.length + l.readyTasks st))
    (if l.outputFull st then st.cores.length else st.maxc)) st.minc := by
  unfold Launch.targetOf
  cases l.outputFull st
  · simp only [Bool.false_eq_true, if_false]
    omega
  · rfl

/-! ### What the scheduler leaves alone -/

/-- No more than launches and requests change, and every stage keeps its target. -/
structure KeepsTargets (s t : State) : Prop where
  machine : SameMachine s t
  target : ∀ l i, t.targetAt l i = s.targetAt l i

theorem KeepsTargets.refl (s : State) : KeepsTargets s s := ⟨.refl s, fun _ _ => rfl⟩

theorem KeepsTargets.trans {s t u : State} (h : KeepsTargets s t) (h' : KeepsTargets t u) : KeepsTargets s u :=
  ⟨h.machine.trans h'.machine, fun l i => (h'.target l i).trans (h.target l i)⟩

theorem keepsTargets_onStage (s : State) (l i : Nat) {f : Stage → Stage} (hf : ∀ st, (f st).target = st.target) :
    KeepsTargets s (s.onLaunch l (fun x => x.onStage i f)) :=
  ⟨sameMachine_onLaunch .., fun k j => (targetAt_onStage (u := id) s l i hf k j).trans (by simp)⟩

theorem keepsTargets_foldl {β : Type} {step : State → β → State} (h : ∀ s b, KeepsTargets s (step s b)) (l : List β) (s : State) :
    KeepsTargets s (l.foldl step s) :=
  List.foldlRecOn (motive := fun t : State => KeepsTargets s t) l _ (.refl s) fun _ ht b _ => ht.trans (h _ b)

theorem keepsTargets_ungrant (s : State) (l i g : Nat) : KeepsTargets s (s.ungrant l i g) := keepsTargets_onStage s l i fun _ => rfl
theorem keepsTargets_grant (s : State) (l i g : Nat) : KeepsTargets s (s.grant l i g) := keepsTargets_onStage s l i fun _ => rfl

theorem keepsTargets_ite {s t u : State} {c : Prop} [Decidable c] (ht : KeepsTargets s t) (hu : KeepsTargets s u) :
    KeepsTargets s (if c then t else u) := by
  split <;> assumption

theorem keepsTargets_shed (s : State) (e : Line) : KeepsTargets s (s.shed e) :=
  keepsTargets_foldl (fun s _ => keepsTargets_ite (keepsTargets_ite (keepsTargets_foldl (fun _ _ => keepsTargets_ungrant ..) _ _) (.refl s))
    (keepsTargets_ite (keepsTargets_ungrant ..) (.refl s))) _ _

theorem keepsTargets_grantUpTo (s : State) (e : Line) (n : Nat) (free : List Nat) : KeepsTargets s (s.grantUpTo e n free).1 :=
  keepsTargets_foldl (fun _ _ => keepsTargets_grant ..) _ _

theorem keepsTargets_assignAll (s : State) (ls : List Line) (order : List Nat) : KeepsTargets s (s.assignAll ls order).1 := by
  refine List.foldlRecOn (motive := fun r : (State × List (Nat × Nat)) × Nat => KeepsTargets s r.1.1) _ _ (.refl s) fun r hr k _ => ?_
  refine List.foldlRecOn (motive := fun q : State × List (Nat × Nat) => KeepsTargets s q.1) _ _ hr fun q hq e _ => ?_
  dsimp only
  split
  · exact hq.trans (keepsTargets_grantUpTo ..)
  · exact hq

theorem keepsTargets_askFor (s : State) (ls : List Line) (e : Line) (lack : Nat) : KeepsTargets s (s.askFor ls e lack) := by
  refine keepsTargets_foldl (fun s _ => ?_) _ _
  unfold State.askOne
  split
  · exact ⟨sameMachine_preempts .., fun _ _ => rfl⟩
  · exact .refl s

/-! ### The period (R311 to R313) -/

/-- A line's stage gets its target, and the idle cores beyond it go. -/
def State.retarget (s : State) (e : Line) : State :=
  (s.onLaunch e.launch.id (fun l => l.onStage e.idx (fun st => { st with target := e.target }))).shed e

theorem sameMachine_retarget (s : State) (e : Line) : SameMachine s (s.retarget e) :=
  (sameMachine_onLaunch ..).trans (keepsTargets_shed ..).machine

theorem targetAt_retarget (s : State) (e : Line) (k j : Nat) : (s.retarget e).targetAt k j =
    if k = e.launch.id ∧ j = e.idx then (s.targetAt k j).map (fun _ => e.target) else s.targetAt k j :=
  ((keepsTargets_shed ..).target k j).trans (targetAt_onStage (u := fun _ => e.target) s _ _ (fun _ => rfl) k j)

/-- After every line has given its stage a target, a stage has that of its line: lines of one stage agree. -/
theorem targetAt_foldl_retarget {e : Line} : ∀ (ls : List Line) (s : State), (s.targetAt e.launch.id e.idx).isSome →
    (∀ f ∈ ls, e.launch.id = f.launch.id ∧ e.idx = f.idx → f.target = e.target) → e ∈ ls ∨ s.targetAt e.launch.id e.idx = some e.target →
    (ls.foldl State.retarget s).targetAt e.launch.id e.idx = some e.target
  | [], s, _, _, h => h.resolve_left (List.not_mem_nil)
  | f :: ls, s, hs, hf, h => by
    have step := targetAt_retarget s f e.launch.id e.idx
    obtain ⟨n, hn⟩ := Option.isSome_iff_exists.mp hs
    refine targetAt_foldl_retarget ls (s.retarget f) ?_ (fun f' hf' => hf f' (List.mem_cons_of_mem _ hf')) ?_
    · rw [step, hn]
      split <;> rfl
    · by_cases hk : e.launch.id = f.launch.id ∧ e.idx = f.idx
      · right
        rw [step, if_pos hk, hn, Option.map_some, hf f (List.mem_cons_self ..) hk]
      · rw [step, if_neg hk]
        refine h.imp_left fun hm => (List.mem_cons.mp hm).resolve_left fun he => hk ?_
        rw [he]
        exact ⟨rfl, rfl⟩

theorem targetAt_line {s : State} (hn : (s.launches.map (fun l => l.id)).Nodup) {e : Line} (he : e ∈ s.lines) :
    (s.lines.foldl State.retarget s).targetAt e.launch.id e.idx = some e.target := by
  obtain ⟨hl, hst, ht⟩ := line_spec hn he
  refine targetAt_foldl_retarget s.lines s ?_ (fun f hf hk => ?_) (Or.inl he)
  · rw [State.targetAt, hl, Option.bind_some, hst]
    rfl
  · obtain ⟨hl', hst', ht'⟩ := line_spec hn hf
    rw [hk.1, hl', Option.some.injEq] at hl
    rw [← hl, hk.2, hst', Option.some.injEq] at hst
    rw [ht, ht', hl, hst]

/-- After the targets, a period changes no more than launches and requests, with its own count, and keeps the targets. -/
theorem schedule_eq (s : State) : ∃ t r m, s.schedule = { t with rot := r, mgmt := m } ∧ KeepsTargets (s.lines.foldl State.retarget s) t := by
  refine ⟨_, _, _, rfl, ?_⟩
  refine ((keepsTargets_assignAll _ _ _).trans (keepsTargets_foldl (fun s e => keepsTargets_ite ?_ (.refl s)) _ _)).trans
    (keepsTargets_foldl (fun _ _ => keepsTargets_foldl (fun _ _ => keepsTargets_askFor ..) _ _) _ _)
  exact keepsTargets_onStage _ _ _ fun _ => rfl

theorem schedulerPeriod_spec {s : State} (hd : s.periodDue = true) (hn : (s.launches.map (fun l => l.id)).Nodup) : ∃ t,
    exec .schedulerPeriod s = .next t ∧ t.cores = s.cores ∧ SameMemory s t ∧
      ∀ e ∈ s.lines, ∃ l st, t.launch? e.launch.id = some l ∧ l.stages[e.idx]? = some st ∧ st.target = e.launch.targetOf e.stage := by
  obtain ⟨t, r, m, hs, keeps⟩ := schedule_eq s
  have machine : SameMachine s t := SameMachine.trans
    (List.foldlRecOn (motive := fun t : State => SameMachine s t) _ _ (.refl s) fun _ ht e _ => ht.trans (sameMachine_retarget _ e)) keeps.machine
  have runs : exec .schedulerPeriod s = .next s.schedule := congrArg Host.Outcome.next (if_pos hd)
  refine ⟨_, runs.trans (congrArg Host.Outcome.next hs), machine.cores, sameMemory_of machine.mem machine.poison, fun e he => ?_⟩
  have target := (keeps.target e.launch.id e.idx).trans (targetAt_line hn he)
  obtain ⟨l, hl, hst⟩ := Option.bind_eq_some_iff.mp target
  obtain ⟨st, hst, ht⟩ := Option.map_eq_some_iff.mp hst
  exact ⟨l, st, hl, hst, ht.trans (line_spec hn he).2.2⟩

/-! ### The statement -/

theorem taskEnd_frees {s : State} {tk : Task} (h : exec .taskEnd s = .next (s.endTask s.ev.core tk)) (hw : tk.gangWait = false) : let g := s.ev.core
    ∃ t, exec .taskEnd s = .next t ∧ (t.core g).task = none ∧ (t.core g).strandC = {} ∧ (t.core g).outC = [] ∧ SameOthers g s t ∧ SameMemory s t := by
  have machine := sameMachine_endTask s s.ev.core hw
  have core (k : Nat) := (machine.core k).trans (core_vacated s s.ev.core k)
  have mine := (core s.ev.core).trans (if_pos rfl)
  refine ⟨_, h, ?_, ?_, ?_, fun k hk => (core k).trans (if_neg hk), sameMemory_of machine.mem machine.poison⟩
  · rw [mine, Core.vacated_task]
  · rw [mine, Core.vacated_strandC]
  · rw [mine, Core.vacated_outC]

theorem discardComplete_frees {s z : State} {tk : Task} {l : Launch} (ht : (s.core s.ev.core).task = some tk) (hl : s.launch? tk.launch = some l)
    (hrun : l.state = .running) (hr : tk.region = .discarding) (hg : s.isGang tk = false) (hd : s.discarded s.ev.core = true)
    (hw : (s.onLaunch l.id (fun l => l.unclaim tk)).writeRestart s.ev.core l (lowestUnused (s.recordsUsed l)) = .done z) : let g := s.ev.core
    ∃ t, exec .discardComplete s = .next t ∧ (t.core g).task = none ∧ (t.core g).strandC = {} ∧ t.mem = z.mem ∧ ∀ h, h ≠ g → t.core h = z.core h := by
  have machine := sameMachine_requeueTask ht hl hw
  have core (k : Nat) := (machine.core k).trans (core_vacated z s.ev.core k)
  have mine := (core s.ev.core).trans (if_pos rfl)
  refine ⟨_, discardComplete_alone ht hl hrun hr hg hd, ?_, ?_, machine.mem, fun k hk => (core k).trans (if_neg hk)⟩
  · rw [mine, Core.vacated_task]
  · rw [mine, Core.vacated_strandC]

theorem launchCompletion_records {s : State} {l : Launch} (h : exec .launchCompletion s = .next (s.enter (s.completedRecord l))) (hheld : s.log.held = []) :
    ∃ t r, exec .launchCompletion s = .next t ∧ look [] t.log.held r.src = [r] ∧ r.cause = 0x80 ∧ r.tag = l.tag ∧ r.ctx = l.ctx ∧
      r.done = some (l.queue, l.head) ∧ t.cores = s.cores ∧ SameMemory s t := by
  refine ⟨_, { s.completedRecord l with made := s.mgmt.kcy }, h, held_enter hheld _ (by rfl), rfl, rfl, rfl, rfl, ?_, ?_⟩
  · rw [enter_eq]
  · rw [enter_eq]
    exact sameMemory_of rfl rfl

/-- Settles O46: a task event changes its core, its launch and the log as its rule says, and a scheduler's period only launches and requests. -/
theorem taskEvents : Obligations.TaskEvents := by
  unfold Obligations.TaskEvents
  refine ⟨fun s l i j st b hs hgang htask hstaged hp hst hway hidle hlive htarget hb =>
      taskStart_spec hs hgang htask hstaged hp hst hway hidle hlive htarget hb, fun s tk ht => ⟨taskEnd_waits ht, taskEnd_overrun ht, ?_,
      preemptionRequest_halted, fun p hp hh hl hs hi hstaged hgoing hg => ⟨preemption_discards ht hp hh hl hs hi hstaged hgoing hg,
        preemption_pends ht hp hh hl hs hi hstaged hgoing hg⟩, fun hr hgoing => ⟨regionBound_overrun ht hr hgoing, regionBound_within ht hr hgoing⟩,
      fun l z hl hrun hr hg hd hw => discardComplete_frees ht hl hrun hr hg hd hw⟩, fun s l hl => ⟨fun hrun hst hsends hleft hheld =>
      launchCompletion_records (launchCompletion_completes hl hrun hst hsends hleft hheld) hheld, fun st hst hc => launchCompletion_waits hl hst hc⟩,
    fun s => ⟨fun hd => congrArg Host.Outcome.next (if_neg (by simp [hd])), fun hd hn => ?_⟩⟩
  · intro hending hgoing hdone howed hperf ho hscales hqua hw
    exact taskEnd_frees (taskEnd_ends ht hending hgoing hdone howed hperf ho hscales hqua) hw
  · obtain ⟨t, runs, cores, memory, targets⟩ := schedulerPeriod_spec hd hn
    refine ⟨t, runs, cores, memory, fun e he => ?_⟩
    obtain ⟨l, st, hl, hst, ht⟩ := targets e he
    exact ⟨l, st, hl, hst, ht.trans (targetOf_eq ..)⟩

end Sys2Proof.Machine
end

section
/-! PROOF. What a vault space address names, and the order of its faults (O18). -/

namespace Sys2Proof.Machine

section
variable {s : State} {g ctx : Nat} {a : Word}

/-- The form of a vault space address comes before its protection (R52); a reserved field of either width is a bad form. -/
theorem vaultFault_eq : s.vaultFault g ctx a =
    if a.toNat / 2 ^ 29 ≠ 0 ∨ 96 ≤ a.toNat / 2 ^ 22 % 128 ∨ (s.core (vaultCore g a)).present = false then some 0x20
    else if vaultCore g a ≠ g ∧ (s.core (vaultCore g a)).serves ctx = false then some 0x21 else none := by
  have reserved : a.toNat / 2 ^ 32 ≠ 0 ∨ a.toNat / 2 ^ 29 % 8 ≠ 0 ∨ 96 ≤ a.toNat / 2 ^ 22 % 128 ↔
      a.toNat / 2 ^ 29 ≠ 0 ∨ 96 ≤ a.toNat / 2 ^ 22 % 128 := by omega
  simp only [State.vaultFault, reserved, Bool.not_eq_true', Bool.and_eq_true, decide_eq_true_eq, ← or_assoc]
  by_cases form : a.toNat / 2 ^ 29 ≠ 0 ∨ 96 ≤ a.toNat / 2 ^ 22 % 128
  · rw [if_pos form, if_pos (Or.inl form)]
  · simp only [form, if_false, false_or]

theorem check_vault (hv : tensorOf a = 0) (av af : Nat) (offs : List Nat) (need : Need) (lead : Option Nat) :
    s.check g ctx a av af offs need lead = s.checkVault g ctx a av offs := if_pos hv

theorem checkVault_of_fault {c : Nat} (h : s.vaultFault g ctx a = some c) (align : Nat) (offs : List Nat) :
    s.checkVault g ctx a align offs = .fault c a := by rw [State.checkVault, h]

theorem checkVault_misplaced (h : s.vaultFault g ctx a = none) {align : Nat} {offs : List Nat}
    (hm : a.toNat % align ≠ 0 ∨ ∃ x ∈ offs, 2 ^ 22 ≤ vaultOfs a + x) : s.checkVault g ctx a align offs = .fault 0x22 a := by
  simp only [State.checkVault, h, List.any_eq_true, decide_eq_true_eq]
  rcases hm with misaligned | overrun
  · rw [if_pos misaligned]
  · rw [if_pos overrun, ite_self]

theorem checkVault_placed (h : s.vaultFault g ctx a = none) {align : Nat} {offs : List Nat}
    (hm : ¬(a.toNat % align ≠ 0 ∨ ∃ x ∈ offs, 2 ^ 22 ≤ vaultOfs a + x)) :
    s.checkVault g ctx a align offs = .ok { addrs := offs.map (fun x => vaultAt (vaultCore g a) (vaultOfs a + x)) } := by
  rw [not_or] at hm
  obtain ⟨aligned, inside⟩ := hm
  simp only [State.checkVault, h, List.any_eq_true, decide_eq_true_eq]
  rw [if_neg aligned, if_neg inside]

end

/-- Settles O18: a vault space address faults by its form, then its protection, then its place, and else names its core's bytes in order. -/
theorem vaultAddressing : Obligations.VaultAddressing := by
  unfold Obligations.VaultAddressing
  intro s g ctx align a offs hv _
  dsimp only
  rw [check_vault hv]
  refine ⟨fun form => ?_, fun form barred => ?_, fun form barred misplaced => ?_, fun form barred placed => ?_⟩
  · exact checkVault_of_fault (vaultFault_eq.trans (if_pos form)) align offs
  · exact checkVault_of_fault (vaultFault_eq.trans ((if_neg form).trans (if_pos barred))) align offs
  · exact checkVault_misplaced (vaultFault_eq.trans ((if_neg form).trans (if_neg barred))) misplaced
  · exact ⟨_, checkVault_placed (vaultFault_eq.trans ((if_neg form).trans (if_neg barred))) placed, rfl, rfl, rfl⟩

end Sys2Proof.Machine
end

section
/-! PROOF. Consecutive bytes of memory, page entries and page frames: what reads back after a write, and what else a write leaves (O45). -/

namespace Sys2Proof.Machine

/-! ### Keys of consecutive bytes (R55) -/

theorem memKey_add {a i : Nat} (h : memKey a + i < 2 ^ 52) : memKey (a + i) = memKey a + i := by
  simp only [memKey] at *
  omega

theorem paChip_add {a i : Nat} (h : memKey a + i < 2 ^ 52) : paChip (a + i) = paChip a := by
  simp only [memKey, paChip] at *
  omega

theorem frame_fits (w : Nat) : memKey (w / 65536 * 65536) + 65536 ≤ 2 ^ 52 := by
  simp only [memKey]
  omega

theorem span_memKey {a n : Nat} (h : memKey a + n ≤ 2 ^ 52) : (span a n).map memKey = span (memKey a) n := by
  simp only [span_eq_map, List.map_map]
  refine List.map_congr_left fun i hi => ?_
  have := List.mem_range.mp hi
  exact memKey_add (by omega)

/-! ### Bytes and numbers in memory (R3, R126) -/

theorem leNat_leBytes (n x : Nat) : leNat (leBytes n x) = x % 256 ^ n := by
  induction n generalizing x with
  | zero => simp [leBytes, leNat, Nat.mod_one]
  | succ n ih =>
    have split := Nat.mod_mul (x := x) (a := 256) (b := 256 ^ n)
    rw [leBytes, leNat, ih, BitVec.toNat_ofNat, pow_succ' 256 n, split]

theorem length_load_span (s : State) (a n : Nat) : (s.load (span a n)).length = n := by
  rw [State.load, span_eq_map, List.length_map, List.length_map, List.length_range]

theorem byte_congr {s t : State} (h : t.mem = s.mem) (a : Nat) : t.byte a = s.byte a := by rw [State.byte, h, State.byte]

theorem loadLE_congr {s t : State} {a n : Nat} (h : ∀ i, i < n → t.byte (a + i) = s.byte (a + i)) : t.loadLE a n = s.loadLE a n := by
  simp only [State.loadLE, State.load, span_eq_map, List.map_map]
  exact congrArg leNat (List.map_congr_left fun i hi => h i (List.mem_range.mp hi))

theorem loadLE_lt (s : State) (a n : Nat) : s.loadLE a n < 256 ^ n := by
  have := leNat_lt (s.load (span a n))
  rwa [length_load_span] at this

/-- Equal numbers have equal bytes. -/
theorem byte_of_loadLE {s t : State} {a n i : Nat} (h : t.loadLE a n = s.loadLE a n) (hi : i < n) : t.byte (a + i) = s.byte (a + i) := by
  have bytes (u : State) : u.load (span a n) = leBytes n (u.loadLE a n) := by
    have whole := leBytes_leNat (u.load (span a n))
    rw [length_load_span] at whole
    exact whole.symm
  have same : t.load (span a n) = s.load (span a n) := by rw [bytes, bytes, h]
  exact List.map_inj_left.mp same _ (mem_span.mpr ⟨by omega, by omega⟩)

section
variable {s : State} {a n : Nat} (hk : memKey a + n ≤ 2 ^ 52)
include hk

theorem load_store_span {bs : List Byte} (hb : bs.length = n) : (s.store (span a n) bs).load (span a n) = bs :=
  load_setBytes (span a n) bs s (by rw [span_eq_range', List.length_range', hb]) (by rw [span_memKey hk]; exact nodup_span ..)

theorem byte_store_at {bs : List Byte} (hb : bs.length = n) {i : Nat} (hi : i < n) : (s.store (span a n) bs).byte (a + i) = bs.getD i 0 := by
  have loaded := congrArg (fun l : List Byte => l.getD i 0) (load_store_span (s := s) hk hb)
  simp only [State.load, span_eq_map, List.map_map, List.getD_eq_getElem?_getD, List.getElem?_map, List.getElem?_range hi, Option.map_some,
    Option.getD_some] at loaded
  rw [List.getD_eq_getElem?_getD, ← loaded, ← span_eq_map]
  rfl

theorem byte_store_beyond (bs : List Byte) {x : Nat} (hx : ∀ i, i < n → memKey x ≠ memKey a + i) : (s.store (span a n) bs).byte x = s.byte x := by
  refine byte_store_other s _ bs x fun k hk' => ?_
  have key : memKey k ∈ span (memKey a) n := span_memKey hk ▸ List.mem_map_of_mem hk'
  rw [mem_span] at key
  have := hx (memKey k - memKey a) (by omega)
  omega

theorem loadLE_storeLE (x : Nat) : (s.storeLE a n x).loadLE a n = x % 256 ^ n := by
  have size : (leBytes n x).length = n := by rw [leBytes_eq, List.length_map, List.length_range]
  rw [State.loadLE, State.storeLE, load_store_span hk size, leNat_leBytes]

end

/-! ### Changes of memory alone -/

/-- The step from `s` to `t` changes only memory, its marks and the record of what stores replaced. -/
def OnlyMemory (s t : State) : Prop := t = { s with mem := t.mem, poison := t.poison, past := t.past }

theorem OnlyMemory.refl (s : State) : OnlyMemory s s := rfl
theorem OnlyMemory.trans {s t u : State} (h : OnlyMemory s t) (h' : OnlyMemory t u) : OnlyMemory s u :=
  Eq.trans h' (congrArg (fun x : State => { x with mem := u.mem, poison := u.poison, past := u.past }) h)
theorem OnlyMemory.cores {s t : State} (h : OnlyMemory s t) : t.cores = s.cores := (congrArg State.cores h :)
theorem OnlyMemory.fabric {s t : State} (h : OnlyMemory s t) : t.fabric = s.fabric := (congrArg State.fabric h :)

theorem onlyMemory_setBytes (as : List Nat) : ∀ (bs : List Byte) (s : State), OnlyMemory s (s.setBytes as bs) := by
  induction as with
  | nil => intro bs s; cases bs <;> rfl
  | cons a as ih =>
    intro bs s
    cases bs with
    | nil => rfl
    | cons b bs => exact OnlyMemory.trans (t := s.setByte a b) rfl (ih bs _)

theorem onlyMemory_store (s : State) (as : List Nat) (bs : List Byte) : OnlyMemory s (s.store as bs) :=
  (onlyMemory_setBytes as bs s).trans rfl

theorem onlyMemory_markPoison (s : State) (a : Nat) : OnlyMemory s (s.markPoison a) := by
  simp only [State.markPoison]
  split <;> rfl

theorem onlyMemory_markAll (s : State) (l : List Nat) : OnlyMemory s (s.markAll l) :=
  List.foldlRecOn l _ (OnlyMemory.refl s) fun _ h a _ => h.trans (onlyMemory_markPoison _ a)

theorem chip_congr {s t : State} (h : t.fabric = s.fabric) : t.chip = s.chip := by rw [State.chip, h, State.chip]

/-! ### Page entries and frames (R63, R69, R412) -/

theorem tableLE_here {s : State} {a n : Nat} (h : paChip a = s.chip) : s.tableLE a n = s.loadLE a n := if_pos h

section
variable {s : State} {e : Nat} (hchip : paChip e = s.chip) (hkey : memKey e + 16 ≤ 2 ^ 52) (ctx : Nat) (w0 w1 : Word)
include hchip hkey

theorem writeEntry_here : s.writeEntry ctx e w0 w1 = ((s.dropStale ctx e).storeLE e 8 w0.toNat).storeLE (e + 8) 8 w1.toNat := by
  have first : (s.dropStale ctx e).writeTable e 8 w0.toNat = (s.dropStale ctx e).storeLE e 8 w0.toNat := if_pos hchip
  have chip : ((s.dropStale ctx e).storeLE e 8 w0.toNat).chip = s.chip := chip_congr (onlyMemory_store (s.dropStale ctx e) _ _).fabric
  have second : paChip (e + 8) = ((s.dropStale ctx e).storeLE e 8 w0.toNat).chip := by rw [chip, paChip_add (by omega), hchip]
  rw [State.writeEntry, first, State.writeTable, if_pos second]

theorem onlyMemory_writeEntry : OnlyMemory (s.dropStale ctx e) (s.writeEntry ctx e w0 w1) := by
  rw [writeEntry_here hchip hkey]
  exact (onlyMemory_store ..).trans (onlyMemory_store ..)

theorem writeEntry_second : (s.writeEntry ctx e w0 w1).loadLE (e + 8) 8 = w1.toNat := by
  have key : memKey (e + 8) = memKey e + 8 := memKey_add (by omega)
  rw [writeEntry_here hchip hkey, loadLE_storeLE (by omega)]
  exact Nat.mod_eq_of_lt w1.isLt

theorem writeEntry_first : (s.writeEntry ctx e w0 w1).loadLE e 8 = w0.toNat := by
  have key : memKey (e + 8) = memKey e + 8 := memKey_add (by omega)
  have kept : (s.writeEntry ctx e w0 w1).loadLE e 8 = ((s.dropStale ctx e).storeLE e 8 w0.toNat).loadLE e 8 := by
    rw [writeEntry_here hchip hkey]
    refine loadLE_congr fun i hi => byte_store_beyond (by omega) _ fun j hj => ?_
    rw [memKey_add (by omega)]
    omega
  rw [kept, loadLE_storeLE (by omega)]
  exact Nat.mod_eq_of_lt w0.isLt

theorem byte_writeEntry {a : Nat} (ha : ∀ i, i < 16 → memKey a ≠ memKey e + i) : (s.writeEntry ctx e w0 w1).byte a = s.byte a := by
  have key : memKey (e + 8) = memKey e + 8 := memKey_add (by omega)
  rw [writeEntry_here hchip hkey]
  refine (byte_store_beyond (by omega) _ fun i hi => ?_).trans (byte_store_beyond (by omega) _ fun i hi => ha i (by omega))
  rw [key, Nat.add_assoc]
  exact ha (8 + i) (by omega)

/-- An entry whose second word stays changes only the bytes of its first. -/
theorem byte_writeEntry_first (hw : w1.toNat = s.loadLE (e + 8) 8) {a : Nat} (ha : ∀ i, i < 8 → memKey a ≠ memKey e + i) :
    (s.writeEntry ctx e w0 w1).byte a = s.byte a := by
  by_cases inside : ∃ i, i < 8 ∧ memKey a = memKey e + (8 + i)
  · obtain ⟨i, hi, hai⟩ := inside
    have same := byte_of_loadLE ((writeEntry_second hchip hkey ctx w0 w1).trans hw) hi
    have key : memKey a = memKey (e + 8 + i) := by rw [Nat.add_assoc, memKey_add (by omega), hai]
    simpa only [State.byte, key] using same
  · refine byte_writeEntry hchip hkey ctx w0 w1 fun i hi h => ?_
    by_cases low : i < 8
    · exact ha i low h
    · exact inside ⟨i - 8, by omega, by rw [h]; omega⟩

end

theorem onlyMemory_copyFrame (s : State) (src dst : Nat) : OnlyMemory s (s.copyFrame src dst) :=
  (onlyMemory_store ..).trans (onlyMemory_markAll ..)

theorem byte_copyFrame (s : State) (src : Nat) {dst i : Nat} (hd : memKey dst + 65536 ≤ 2 ^ 52) (hi : i < 65536) :
    (s.copyFrame src dst).byte (dst + i) = s.byte (src + i) := by
  refine (byte_congr (State.markAll_mem ..) _).trans ((byte_store_at (n := pageBytes) hd (length_load_span ..) hi).trans ?_)
  rw [State.load, span_eq_map, List.map_map, List.getD_eq_getElem?_getD, List.getElem?_map, List.getElem?_range (show i < pageBytes from hi)]
  rfl

theorem byte_copyFrame_beyond (s : State) (src : Nat) {dst a : Nat} (hd : memKey dst + 65536 ≤ 2 ^ 52) (ha : ∀ i, i < 65536 → memKey a ≠ memKey dst + i) :
    (s.copyFrame src dst).byte a = s.byte a :=
  (byte_congr (State.markAll_mem ..) _).trans (byte_store_beyond (n := pageBytes) hd _ ha)

theorem countFrames_fabric (s : State) (frame : Nat) (f : Nat → Nat) : (s.countFrames frame f).fabric = s.fabric := by
  simp only [State.countFrames]
  split <;> rfl

end Sys2Proof.Machine
end

section
/-! PROOF. The pager's events and firmware's changes of live page entries; stall and parked-load limits (O45). -/

namespace Sys2Proof.Machine

/-! ### Page-ins (R72, R73, R421, R422) -/

theorem endPageIn_spec (s : State) (r : Nat × Nat × Nat) : (∀ p ∈ (s.endPageIn r).pageReqs, (p.ctx, p.tensor, p.page) ≠ r) ∧
    ∀ h, ((s.endPageIn r).core h).unitHalt = if (s.core h).unitHalt = some r then none else (s.core h).unitHalt := by
  refine ⟨fun p hp => of_decide_eq_true (List.mem_filter.mp hp).2, fun h => ?_⟩
  rw [State.endPageIn, core_mapCores (if_neg nofun)]
  show Core.unitHalt (if (s.core h).unitHalt = some r then { s.core h with unitHalt := none } else s.core h) = _
  split <;> rfl

theorem unitHalt_onCore {f : Core → Core} (hf : ∀ c, (f c).unitHalt = c.unitHalt) (s : State) (g h : Nat) :
    ((s.onCore g f).core h).unitHalt = (s.core h).unitHalt := by
  rw [core_onCore]
  split
  next hh => rw [hf, hh]
  next => rfl

/-- A refill of a reserve changes a core's count of frames at most. -/
theorem refill_eq (s : State) (who : PageAsker) : ∃ n, s.refill who = s.onCore who.core (fun c => { c with reserve := n }) ∨ s.refill who = s := by
  simp only [State.refill]
  split
  · exact ⟨_, .inl rfl⟩
  · exact ⟨0, .inr rfl⟩

theorem refill_fabric (s : State) (who : PageAsker) : (s.refill who).fabric = s.fabric := by
  obtain ⟨n, h | h⟩ := refill_eq s who <;> rw [h]
  rfl

theorem refill_unitHalt (s : State) (who : PageAsker) (h : Nat) : ((s.refill who).core h).unitHalt = (s.core h).unitHalt := by
  obtain ⟨n, hr | hr⟩ := refill_eq s who <;> rw [hr]
  exact unitHalt_onCore (f := fun c => { c with reserve := n }) (fun _ => rfl) ..

/-- A frame outside this module's HBM, or a free one, is taken by a change of the counts at most (R73). -/
theorem takeFrame_given {z : State} {frame : Nat} {took : FrameFrom} (who : PageAsker)
    (h : z.ownFrame frame = false ∨ (took = .free ∧ 0 < z.spareFrames (homeDie frame))) :
    ∃ v, z.takeFrame who frame took = some v ∧ v.fabric = z.fabric ∧ v.cores = z.cores ∧ v.mem = z.mem := by
  unfold State.takeFrame
  by_cases own : z.ownFrame frame = true
  · obtain ⟨rfl, spare⟩ := h.resolve_left (by rw [own]; decide)
    simp only [own, Bool.not_true, Bool.false_eq_true, if_false, spare, decide_true, if_true, State.countFrames]
    exact ⟨_, rfl, rfl, rfl, rfl⟩
  · simp only [own, Bool.not_false, if_true]
    exact ⟨_, rfl, rfl, rfl, rfl⟩

/-- A store of zeros over a frame changes its bytes alone. -/
theorem zeroed_frame (s : State) {frame : Nat} (fits : memKey frame + 65536 ≤ 2 ^ 52) : ∃ z,
    s.store (span frame pageBytes) (List.replicate pageBytes 0) = z ∧ OnlyMemory s z ∧ (∀ i, i < 65536 → z.byte (frame + i) = 0) ∧
    ∀ a, (∀ i, i < 65536 → memKey a ≠ memKey frame + i) → z.byte a = s.byte a := by
  refine ⟨_, rfl, onlyMemory_store .., fun i hi => ?_, fun a ha => byte_store_beyond (n := pageBytes) fits _ ha⟩
  rw [byte_store_at (n := pageBytes) fits List.length_replicate hi, List.getD_eq_getElem?_getD, List.getElem?_replicate]
  split <;> rfl

/-- A fresh page that the pager can give is zeroed at its frame before its entry is written (R63, R421). -/
theorem makeResident_fresh {s : State} {who : PageAsker} {ctx tn pg frame : Nat} {w0 w1 : Word} {took : FrameFrom} {d : Desc}
    (hw : w0.toNat / 2 ^ 16 * 2 ^ 16 = frame) (hd : s.desc? ctx tn = some d) (hv : w0.getLsbD 0 = true) (hchip : paChip frame = s.chip)
    (hspace : paSpace frame ≠ 6) (howed : (s.refill who).refillOwed who = false) (hnew : (s.refill who).isValid d pg = false)
    (hframe : (s.refill who).ownFrame frame = false ∨ (took = .free ∧ 0 < (s.refill who).spareFrames (homeDie frame))) :
    ∃ (u : State) (f : Core → Core),
      s.makeResident who ctx tn pg w0 w1 none took = some ((u.writeEntry ctx (d.entryAddr pg) w0 w1).onCore who.core f) ∧
      (∀ c, (f c).unitHalt = c.unitHalt) ∧ u.fabric = s.fabric ∧ (∀ h, (u.core h).unitHalt = (s.core h).unitHalt) ∧
      (∀ i, i < 65536 → u.byte (frame + i) = 0) ∧ (∀ a, (∀ i, i < 65536 → memKey a ≠ memKey frame + i) → u.byte a = s.byte a) := by
  obtain ⟨v, taken, fabric, cores, mem⟩ := takeFrame_given who hframe
  obtain ⟨z, zeroed, only, zeros, others⟩ := zeroed_frame v (hw ▸ frame_fits w0.toNat : memKey frame + 65536 ≤ 2 ^ 52)
  have odd : ¬w0.toNat % 2 = 0 := by
    simp only [BitVec.getLsbD, Nat.testBit_zero, decide_eq_true_eq] at hv
    omega
  have here : (decide (paChip frame ≠ v.chip) || decide (paSpace frame = 6)) = false := by
    rw [chip_congr (fabric.trans (refill_fabric s who)), hchip, decide_eq_false hspace, decide_eq_false (not_not.mpr rfl), Bool.or_false]
  have halt (h : Nat) : (z.core h).unitHalt = (s.core h).unitHalt := by
    rw [State.core, only.cores, cores]
    exact refill_unitHalt s who h
  refine ⟨{ z with residents := z.residents.filter (fun r => decide ((r.ctx, r.tensor, r.page) ≠ (ctx, tn, pg))) ++ [⟨ctx, tn, pg, who.launch⟩] },
    fun c => { c with footprint := c.livePages ++ [((who.queue, who.pc), ctx, tn, pg)] }, ?_, fun _ => rfl, only.fabric.trans (fabric.trans (refill_fabric s who)), halt,
    zeros, fun a ha => (others a ha).trans (byte_congr (mem.trans (State.refill_mem s who)) a)⟩
  simp only [State.makeResident, hd, hw, odd, howed, hnew, taken, here, zeroed, decide_false, Bool.or_false, Bool.false_eq_true, if_false]

section
variable {s : State} {ctx tn pg : Nat} {q : PageReq}
  (hwait : (s.core s.ev.core).waitsPage s.ev.strand = some (ctx, tn, pg))
  (hreq : s.pageReqs.find? (fun q => decide ((q.ctx, q.tensor, q.page) = (ctx, tn, pg))) = some q)
include hwait hreq

/-- The event serves the request for the page that its strand waits on. -/
theorem servedPage_eq : s.servedPage = some q ∧ (q.ctx, q.tensor, q.page) = (ctx, tn, pg) := by
  rw [State.servedPage, hwait]
  have names := List.find?_some hreq
  exact ⟨hreq, of_decide_eq_true names⟩

theorem pageIn_notMapped (h : s.ev.page = .notMapped) : exec .pageInComplete s = .next (s.deny q.who.core (ctx, tn, pg) 0x24 0) := by
  obtain ⟨served, names⟩ := servedPage_eq hwait hreq
  show execPageInComplete s = _
  simp only [execPageInComplete, served, h, names]

theorem pageIn_noFrame {need got : Nat} (h : s.ev.page = .noFrame need got) (hreserve : q.who.queue = 255 ∨ (s.core q.who.core).reserve = 0)
    (hspare : s.spareFrames (dieOf q.who.core) = 0) (hgive : s.residents.any (s.canGive (dieOf q.who.core)) = false)
    (hgot : got = ((s.core q.who.core).footprintOf q.who).length) (hneed : got < need) :
    exec .pageInComplete s = .next ((s.returnFrames q.who).deny q.who.core (ctx, tn, pg) 0x29 (BitVec.ofNat 64 (need % 256 + got % 256 * 256))) := by
  obtain ⟨served, names⟩ := servedPage_eq hwait hreq
  have none_reserved : (decide (q.who.queue ≠ 255) && decide (0 < (s.core q.who.core).reserve)) = false := by
    rw [Bool.and_eq_false_iff, decide_eq_false_iff_not, decide_eq_false_iff_not, not_not, Nat.pos_iff_ne_zero, not_not]
    exact hreserve
  have lacking : ¬need ≤ got := by omega
  show execPageInComplete s = _
  simp only [execPageInComplete, served, h, names, none_reserved, hspare, hgive, ← hgot, lacking, Nat.lt_irrefl, ne_eq, not_true_eq_false, decide_false,
    Bool.or_false, Bool.false_eq_true, if_false]

/-- A fresh page stands at its frame, with its entry, and what waited for it goes on (R72, R421). -/
theorem pageIn_fresh {d : Desc} {w0 w1 : Word} {took : FrameFrom} {frame : Nat} (h : s.ev.page = .resident w0 w1 none took)
    (hw : w0.toNat / 2 ^ 16 * 2 ^ 16 = frame) (hd : s.desc? ctx tn = some d) (hv : w0.getLsbD 0 = true) (hchip : paChip frame = s.chip)
    (hspace : paSpace frame ≠ 6) (hentry : paChip (d.entryAddr pg) = s.chip) (howed : (s.refill q.who).refillOwed q.who = false)
    (hnew : (s.refill q.who).isValid d pg = false)
    (hframe : (s.refill q.who).ownFrame frame = false ∨ (took = .free ∧ 0 < (s.refill q.who).spareFrames (homeDie frame)))
    (hkey : memKey (d.entryAddr pg) + 16 ≤ 2 ^ 52)
    (hapart : memKey (d.entryAddr pg) + 16 ≤ memKey frame ∨ memKey frame + 65536 ≤ memKey (d.entryAddr pg)) : ∃ t, let entry := d.entryAddr pg
    exec .pageInComplete s = .next t ∧ t.loadLE entry 8 = w0.toNat ∧ t.loadLE (entry + 8) 8 = w1.toNat ∧ (∀ i, i < 65536 → t.byte (frame + i) = 0) ∧
    (∀ a, (∀ i, i < 16 → memKey a ≠ memKey entry + i) → (∀ i, i < 65536 → memKey a ≠ memKey frame + i) → t.byte a = s.byte a) ∧
    (∀ p ∈ t.pageReqs, (p.ctx, p.tensor, p.page) ≠ (ctx, tn, pg)) ∧
    ∀ h, (t.core h).unitHalt = if (s.core h).unitHalt = some (ctx, tn, pg) then none else (s.core h).unitHalt := by
  obtain ⟨served, names⟩ := servedPage_eq hwait hreq
  obtain ⟨rfl, rfl, rfl⟩ : q.ctx = ctx ∧ q.tensor = tn ∧ q.page = pg := by simpa only [Prod.mk.injEq] using names
  obtain ⟨u, f, made, hf, fabric, halt, zeros, others⟩ := makeResident_fresh (w1 := w1) hw hd hv hchip hspace howed hnew hframe
  have here : paChip (d.entryAddr q.page) = u.chip := hentry.trans (chip_congr fabric).symm
  have fits : memKey frame + 65536 ≤ 2 ^ 52 := hw ▸ frame_fits w0.toNat
  have bytes (a : Nat) : ((((u.writeEntry q.ctx (d.entryAddr q.page) w0 w1).onCore q.who.core f).endPageIn (q.ctx, q.tensor, q.page)).byte a) =
      (u.writeEntry q.ctx (d.entryAddr q.page) w0 w1).byte a := byte_congr (State.endPageIn_mem ..) a
  obtain ⟨unasked, resumed⟩ := endPageIn_spec ((u.writeEntry q.ctx (d.entryAddr q.page) w0 w1).onCore q.who.core f) (q.ctx, q.tensor, q.page)
  refine ⟨_, ?_, (loadLE_congr fun i _ => bytes _).trans (writeEntry_first here hkey q.ctx w0 w1),
    (loadLE_congr fun i _ => bytes _).trans (writeEntry_second here hkey q.ctx w0 w1), fun i hi => ?_, fun a ha ha' => ?_, unasked, fun k => ?_⟩
  · show execPageInComplete s = _
    simp only [execPageInComplete, served, h, made]
  · rw [bytes, byte_writeEntry here hkey _ _ _ fun j hj => ?_]
    · exact zeros i hi
    · rw [memKey_add (by omega)]
      omega
  · rw [bytes, byte_writeEntry here hkey _ _ _ ha]
    exact others a ha'
  · have kept : (((u.writeEntry q.ctx (d.entryAddr q.page) w0 w1).onCore q.who.core f).core k).unitHalt = (s.core k).unitHalt := by
      rw [unitHalt_onCore hf, State.core, (onlyMemory_writeEntry here hkey q.ctx w0 w1).cores]
      exact halt k
    rw [resumed, kept]

end

/-! ### Migration (R71, R412) -/

/-- A change that every step of a fold leaves a component as it was leaves it after the fold. -/
theorem keeps_foldl {α β : Type} (get : State → α) {f : State → β → State} (hf : ∀ s b, get (f s b) = get s) (l : List β) (s : State) :
    get (l.foldl f s) = get s :=
  List.foldlRecOn (motive := fun t => get t = get s) l f rfl fun t ht b _ => (hf t b).trans ht

theorem moveReplicas_fabric (s : State) (old new : Nat) : (s.moveReplicas old new).fabric = s.fabric := by
  simp only [State.moveReplicas, State.onDie_fabric]
  exact keeps_foldl State.fabric (f := fun t (e : Nat × Granule) => t.onDie (homeDie new) (fun x => x.setGranule e.1 e.2)) (fun _ _ => rfl) _ _

/-- The state in which a page has its new frame, but its entry the old one (R71). -/
def State.movedPage (s : State) (old new : Nat) (latest : Moves) : State :=
  let c := ((s.copyFrame old new).countFrames old (fun n => n + 1)).countFrames new (fun n => n - 1)
  ({ c with moves := c.moves.filter (fun m => !(decide (m.ctx = latest.ctx) && decide (m.entry = latest.entry))) ++ [latest] } : State).moveReplicas old new

theorem movedPage_fabric (s : State) (old new : Nat) (latest : Moves) : (s.movedPage old new latest).fabric = s.fabric := by
  rw [State.movedPage, moveReplicas_fabric]
  exact (countFrames_fabric ..).trans ((countFrames_fabric ..).trans (onlyMemory_copyFrame ..).fabric)

theorem movedPage_mem (s : State) (old new : Nat) (latest : Moves) : (s.movedPage old new latest).mem = (s.copyFrame old new).mem := by
  rw [State.movedPage, State.moveReplicas_mem]
  exact (State.countFrames_mem ..).trans (State.countFrames_mem ..)

section
variable {s : State} {d : Desc} (hd : s.desc? s.ev.num s.ev.num2 = some d)
include hd

theorem pageMigration_stays : let p := s.readPage (d.entryAddr s.ev.num3)
    (p.v = false ∨ p.pin = true ∨ movesHeld (s.movesOf s.ev.num (d.entryAddr s.ev.num3)) s.keystoneTime = true ∨
      (p.lat ≠ 0 ∧ paChip p.frame ≠ paChip (s.ev.word.toNat / 65536 * 65536))) → exec .pageMigration s = .next s := by
  intro p h
  show execPageMigration s = _
  simp only [execPageMigration, hd]
  rw [if_pos]
  simp only [Bool.or_eq_true, Bool.not_eq_true', Bool.and_eq_true, decide_eq_true_eq]
  rcases h with invalid | pinned | held | away
  · simp only [p] at invalid
    simp only [invalid, true_or]
  · simp only [p] at pinned
    simp only [pinned, true_or, or_true]
  · simp only [held, true_or, or_true]
  · exact .inr away

/-- A page that may move within this module is copied, and its entry then written. -/
theorem pageMigration_moves {new : Nat} (hnew : s.ev.word.toNat / 65536 * 65536 = new) : let entry := d.entryAddr s.ev.num3
    let p := s.readPage entry
    let moves := s.movesOf s.ev.num entry
    p.v = true → p.pin = false → movesHeld moves s.keystoneTime = false → s.pageReqs = [] → s.frameBusy p.frame = false → paChip p.frame = s.chip →
    paChip new = s.chip → s.mapped new = true → paSpace new ≠ 6 → paSpace p.frame ≠ 6 → ∃ latest, exec .pageMigration s =
      .next ((s.movedPage p.frame new latest).writeEntry s.ev.num entry (BitVec.ofNat 64 (new + s.tableLE entry 8 % 65536))
        (BitVec.ofNat 64 (s.tableLE (entry + 8) 8 - p.mig * 16 + min 7 ((recentMoves moves s.keystoneTime).length + 1) * 16))) := by
  intro entry p moves hv hpin hheld hreqs hbusy hold hthere hmapped hspace hspace'
  refine ⟨{ ctx := s.ev.num, entry := entry, times := (moves ++ [s.keystoneTime]).drop (moves.length - 3) }, ?_⟩
  show execPageMigration s = _
  simp only [p, moves, entry] at *
  simp only [execPageMigration, hd, pageBytes, hnew, hreqs, List.any_nil, hv, hpin, hheld, hbusy, hold, hthere, hmapped, hspace, hspace',
    decide_true, decide_false, Bool.not_true, Bool.and_false, Bool.or_false, Bool.false_and, Bool.false_eq_true, if_false, if_true, ne_eq, not_true_eq_false]
  rfl

/-- R71 and R412 for a page that moves within this module. -/
theorem pageMigration_spec {new : Nat} (hnew : s.ev.word.toNat / 65536 * 65536 = new) : let entry := d.entryAddr s.ev.num3
    let p := s.readPage entry
    let w1 := s.loadLE (entry + 8) 8
    let moves := s.movesOf s.ev.num entry
    p.v = true → p.pin = false → movesHeld moves s.keystoneTime = false → paChip entry = s.chip → s.pageReqs = [] → s.frameBusy p.frame = false →
    paChip p.frame = s.chip → paChip new = s.chip → s.mapped new = true → paSpace new ≠ 6 → paSpace p.frame ≠ 6 → memKey entry + 16 ≤ 2 ^ 52 →
    (memKey entry + 16 ≤ memKey new ∨ memKey new + 65536 ≤ memKey entry) → ∃ t, exec .pageMigration s = .next t ∧
    t.loadLE entry 8 = new + s.loadLE entry 8 % 65536 ∧
    t.loadLE (entry + 8) 8 = w1 - p.mig * 16 + min 7 ((recentMoves moves s.keystoneTime).length + 1) * 16 ∧
    (∀ i, i < 65536 → t.byte (new + i) = s.byte (p.frame + i)) ∧
    (∀ a, (∀ i, i < 16 → memKey a ≠ memKey entry + i) → (∀ i, i < 65536 → memKey a ≠ memKey new + i) → t.byte a = s.byte a) := by
  intro entry p w1 moves hv hpin hheld hentry hreqs hbusy hold hthere hmapped hspace hspace' hkey hapart
  obtain ⟨latest, runs⟩ := pageMigration_moves hd hnew hv hpin hheld hreqs hbusy hold hthere hmapped hspace hspace'
  have entry8 : paChip (entry + 8) = s.chip := (paChip_add (by omega)).trans hentry
  have here : paChip entry = (s.movedPage p.frame new latest).chip := hentry.trans (chip_congr (movedPage_fabric ..)).symm
  have fits : memKey new + 65536 ≤ 2 ^ 52 := hnew ▸ frame_fits s.ev.word.toNat
  have room : new + s.loadLE entry 8 % 65536 < 2 ^ 64 := by
    have := s.ev.word.isLt
    omega
  have mig : p.mig = w1 / 16 % 8 := congrArg (· / 16 % 8) (tableLE_here entry8)
  have room' : w1 - p.mig * 16 + min 7 ((recentMoves moves s.keystoneTime).length + 1) * 16 < 2 ^ 64 := by
    have word : w1 < 2 ^ 64 := loadLE_lt s (entry + 8) 8
    omega
  refine ⟨_, runs, (writeEntry_first here hkey ..).trans ?_, (writeEntry_second here hkey ..).trans ?_, fun i hi => ?_, fun a ha ha' => ?_⟩
  · rw [tableLE_here hentry, BitVec.toNat_ofNat, Nat.mod_eq_of_lt room]
  · rw [tableLE_here entry8, BitVec.toNat_ofNat]
    exact Nat.mod_eq_of_lt room'
  · rw [byte_writeEntry here hkey _ _ _ fun j hj => ?_, byte_congr (movedPage_mem ..)]
    · exact byte_copyFrame s p.frame fits hi
    · rw [memKey_add (by omega)]
      omega
  · rw [byte_writeEntry here hkey _ _ _ ha, byte_congr (movedPage_mem ..)]
    exact byte_copyFrame_beyond s p.frame fits ha'

end

/-! ### Changes of lattice type (R322, R425) -/

/-- What holds of the default and of every value listed holds of every value looked up. -/
theorem look_of_forall {α : Type} {P : α → Prop} {d : α} (hd : P d) {m : Sparse α} (h : ∀ e ∈ m, P e.2) (k : Nat) : P (look d m k) := by
  induction m with
  | nil => exact hd
  | cons e m ih =>
    rw [look]
    split
    · exact h e List.mem_cons_self
    · exact ih fun e' he => h e' (List.mem_cons_of_mem _ he)

theorem failParked_none {s : State} (h : ∀ e ∈ s.dies, e.2.parked = []) (frame : Nat) : s.failParked frame = s := by
  have nobody : s.dies.flatMap (fun d => d.2.parked.filter (fun p => inFrame frame (granuleOf p.cell))) = [] :=
    List.flatMap_eq_nil_iff.mpr fun e he => by rw [h e he, List.filter_nil]
  rw [State.failParked, nobody, List.foldl_nil]

theorem gatherFrame_none {s : State} (h : ∀ e ∈ s.dies, e.2.granules = []) (frame d : Nat) : s.gatherFrame frame d = s := by
  have empty : (s.die d).granules = [] := look_of_forall (P := fun x : Die => x.granules = []) rfl h d
  rw [State.gatherFrame, empty, List.filter_nil, List.foldl_nil]

theorem chip_onFabric {s : State} {f : Fabric → Fabric} (hf : ∀ x, (f x).cur = x.cur ∧ (f x).def0 = x.def0 ∧ (f x).def1 = x.def1) :
    (s.onFabric f).chip = s.chip := by
  obtain ⟨cur, def0, def1⟩ := hf s.fabric
  simp only [State.chip, State.onFabric, cur, def0, def1]

theorem chip_inject (s : State) (p : Packet) : (s.inject p).chip = s.chip := chip_onFabric fun _ => ⟨rfl, rfl, rfl⟩

theorem chip_injectControl (s : State) (p : Packet) : (s.injectControl p).chip = s.chip := by
  rw [State.injectControl, chip_inject, chip_inject]
  exact chip_onFabric fun _ => ⟨rfl, rfl, rfl⟩

theorem chip_sendShadows (s : State) (frame : Nat) : (s.sendShadows frame).chip = s.chip := by
  unfold State.sendShadows
  split
  · rfl
  · rw [chip_injectControl]
    exact keeps_foldl State.chip (f := fun t (e : Nat × Granule) => t.injectControl (t.granulePacket .control (paChip frame) e.1 e.2.lat 4 0))
      (fun _ _ => chip_injectControl ..) _ _

/-- The first word of an entry with its FMT and LAT fields replaced (R63). -/
theorem latticeWord_fields {w lat : Nat} (hw : w < 2 ^ 64) (hlat : lat < 10) :
    let x := w - w / 2 ^ 12 % 16 * 4096 - w / 2 ^ 8 % 16 * 256 + 14 * 4096 + lat * 256
    x < 2 ^ 64 ∧ x / 2 ^ 16 = w / 2 ^ 16 ∧ x / 2 ^ 12 % 16 = 14 ∧ x / 2 ^ 8 % 16 = lat ∧ x % 2 ^ 8 = w % 2 ^ 8 := by
  omega

section
variable {s : State} {d : Desc} (hd : s.desc? s.ev.num s.ev.num2 = some d)
include hd

theorem latticeTypeChange_stays (h : (s.readPage (d.entryAddr s.ev.num3)).v = false ∨ 10 ≤ s.ev.num4) : exec .latticeTypeChange s = .next s := by
  show execLatticeTypeChange s = _
  simp only [execLatticeTypeChange, hd]
  rw [if_pos]
  simp only [Bool.or_eq_true, Bool.not_eq_true', decide_eq_true_eq]
  exact .inl (.inl h)

/-- With nothing outstanding and nothing in the replicas, a change of lattice type only writes the entry. -/
theorem latticeTypeChange_writes : let entry := d.entryAddr s.ev.num3
    let p := s.readPage entry
    p.v = true → s.ev.num4 < 10 → s.ev.num4 ≠ 0 → (p.lat = 0 ∨ d.home ≠ 2 ∨ s.othersMerged p.frame = true) →
    (∀ c ∈ s.cores, c.2.outC = [] ∧ c.2.outA = []) → (∀ e ∈ s.dies, e.2.granules = [] ∧ e.2.parked = []) →
    exec .latticeTypeChange s = .next ((((s.sendShadows p.frame).dropReplicas p.frame).settleJoins p.frame).writeEntry s.ev.num entry
      (BitVec.ofNat 64 (s.tableLE entry 8 - p.fmt * 4096 - p.lat * 256 + 14 * 4096 + s.ev.num4 * 256)) (BitVec.ofNat 64 (s.tableLE (entry + 8) 8))) := by
  intro entry p hv hlat hlat0 hmerged hout hdies
  have gathered : (s.dies.map (·.1)).foldl (fun s i => s.gatherFrame p.frame i) s = s :=
    List.foldl_fixed' (fun i => gatherFrame_none (fun e he => (hdies e he).1) p.frame i) _
  have quiet (f : Access → Bool) : s.cores.any (fun c => c.2.outC.any f || c.2.outA.any f) = false := by
    rw [List.any_eq_false]
    intro c hc
    rw [(hout c hc).1, (hout c hc).2, List.any_nil]
    decide
  have merged : (decide (p.lat ≠ 0) && decide (d.home = 2) && decide (paChip p.frame = s.chip) && !s.othersMerged p.frame) = false := by
    rcases hmerged with plain | home | merged
    · rw [decide_eq_false (not_not.mpr plain), Bool.false_and, Bool.false_and, Bool.false_and]
    · rw [decide_eq_false home, Bool.and_false, Bool.false_and, Bool.false_and]
    · rw [merged, Bool.not_true, Bool.and_false]
  have low : ¬10 ≤ s.ev.num4 := by omega
  simp only [p, entry] at *
  show execLatticeTypeChange s = _
  simp only [execLatticeTypeChange, hd, hv, low, quiet, merged, hlat0, failParked_none (fun e he => (hdies e he).2), gathered, Bool.not_true,
    decide_false, Bool.or_false, Bool.false_eq_true, if_false]

/-- R322: the entry takes the lattice type and the raw format, and keeps its other fields; no other byte changes. -/
theorem latticeTypeChange_spec : let entry := d.entryAddr s.ev.num3
    let p := s.readPage entry
    let w0 := s.loadLE entry 8
    let lat := s.ev.num4
    p.v = true → lat < 10 → lat ≠ 0 → paChip entry = s.chip → (p.lat = 0 ∨ d.home ≠ 2 ∨ s.othersMerged p.frame = true) →
    (∀ c ∈ s.cores, c.2.outC = [] ∧ c.2.outA = []) → (∀ e ∈ s.dies, e.2.granules = [] ∧ e.2.parked = []) → memKey entry + 16 ≤ 2 ^ 52 →
    ∃ t, exec .latticeTypeChange s = .next t ∧ t.loadLE entry 8 / 2 ^ 16 = w0 / 2 ^ 16 ∧ t.loadLE entry 8 / 2 ^ 12 % 16 = 14 ∧
    t.loadLE entry 8 / 2 ^ 8 % 16 = lat ∧ t.loadLE entry 8 % 2 ^ 8 = w0 % 2 ^ 8 ∧ (∀ a, (∀ i, i < 8 → memKey a ≠ memKey entry + i) → t.byte a = s.byte a) := by
  intro entry p w0 lat hv hlat hlat0 hentry hmerged hout hdies hkey
  have entry8 : paChip (entry + 8) = s.chip := (paChip_add (by omega)).trans hentry
  have fmt : p.fmt = w0 / 2 ^ 12 % 16 := congrArg (· / 2 ^ 12 % 16) (tableLE_here hentry)
  have old : p.lat = w0 / 2 ^ 8 % 16 := congrArg (· / 2 ^ 8 % 16) (tableLE_here hentry)
  obtain ⟨small, high, format, type, low⟩ := latticeWord_fields (loadLE_lt s entry 8) hlat
  have runs := latticeTypeChange_writes hd hv hlat hlat0 hmerged hout hdies
  generalize hu : ((s.sendShadows p.frame).dropReplicas p.frame).settleJoins p.frame = u at runs
  have bytes (a : Nat) : u.byte a = s.byte a :=
    byte_congr (hu ▸ (State.settleJoins_mem ..).trans ((State.dropReplicas_mem ..).trans (State.sendShadows_mem ..))) a
  have here : paChip entry = u.chip := hu ▸ hentry.trans (chip_sendShadows s p.frame).symm
  have second : (BitVec.ofNat 64 (s.tableLE (entry + 8) 8)).toNat = u.loadLE (entry + 8) 8 := by
    rw [tableLE_here entry8, loadLE_congr fun i _ => bytes _, BitVec.toNat_ofNat]
    exact Nat.mod_eq_of_lt (loadLE_lt s (entry + 8) 8)
  refine ⟨_, runs, ?_⟩
  rw [writeEntry_first here hkey, tableLE_here hentry, fmt, old, BitVec.toNat_ofNat, Nat.mod_eq_of_lt small]
  exact ⟨high, format, type, low, fun a ha => (byte_writeEntry_first here hkey _ _ _ second ha).trans (bytes a)⟩

end

/-! ### TTINV, the stall monitor and parked loads (R69, R405, R429) -/

theorem ttinvWrite_eq {s : State} {d : Desc} (hf : s.ev.flag = false) (hd : s.desc? s.ev.num (tensorOf s.ev.word) = some d) :
    exec .ttinvWrite s = .next (if s.midTile s.ev.num (tensorOf s.ev.word) (d.bitPos (8 * offsetOf s.ev.word / d.eb) / 8 / 65536) then s
      else s.dropStale s.ev.num (d.entryAddr (d.bitPos (8 * offsetOf s.ev.word / d.eb) / 8 / 65536))) := by
  show execTtinvWrite s = _
  simp only [execTtinvWrite, hd, State.written, hf, Bool.false_and, Bool.false_eq_true, if_false]

theorem dropStale_eq (s : State) (ctx entry : Nat) : s.dropStale ctx entry =
    { s with walked := [], stale := s.stale.filter (fun e => decide (¬(e.1 = ctx ∧ e.2.1 = entry))) } := by
  rw [State.dropStale]
  simp only [Bool.decide_and, decide_not]

theorem stallLimit_eq {s : State} {w : Waits} (h : s.stallWaits s.ev.core = some w) : let g := s.ev.core
    let c := s.core g
    let limit := (s.die (g / 96)).dlk.toNat * 1024
    exec .stallLimit s = .next (if limit = 0 ∨ c.stall < limit ∨ c.halted = true ∨ (c.task.map (fun t => t.stopped)).getD true = true then s
      else s.taskFault g c.firstBlocked false (if w.pool then 0x1C else if w.scale then 0x1B else 0x1A) (c.strand c.firstBlocked).pc
        (c.stallAddr w) (BitVec.ofNat 64 c.stall)) := by
  show execStallLimit s = _
  simp only [execStallLimit, h]
  rfl

theorem parkedLoadTimeout_eq {s : State} {p : Parked} {n : Nat} (hp : (s.die s.ev.num).parked[s.ev.num2]? = some p) (hn : p.limit = some n) :
    exec .parkedLoadTimeout s = .next (if (s.die s.ev.num).time.toNat < n then s
      else (s.onDie s.ev.num (fun x => { x with parked := x.parked.eraseIdx s.ev.num2 })).taskFault p.core .c false 0x53 p.pc p.vaddr (p.theta.setWidth 64)) := by
  show execParkedLoadTimeout s = _
  simp only [execParkedLoadTimeout, hp, hn]

/-- Settles O45: each event of the pager, of firmware on live entries and of the limits does what its rule says. -/
theorem pagingEvents : Obligations.PagingEvents := by
  unfold Obligations.PagingEvents
  refine ⟨fun s ctx tn pg q d w0 w1 => ?pageIn, fun s d => ?migration, fun s d => ?lattice, fun s d hf hd => ?ttinv, fun s w => ?stall, fun s p n => ?parked⟩
  case pageIn =>
    intro g frame entry r who hwait hreq
    refine ⟨fun h => pageIn_notMapped hwait hreq h, fun need got h hreserve hspare hgive hgot hneed =>
      pageIn_noFrame hwait hreq h hreserve hspare hgive hgot hneed, ?_⟩
    intro took z h hd hv hchip hspace hentry howed hnew hframe hkey hapart
    exact pageIn_fresh hwait hreq h rfl hd hv hchip hspace hentry howed hnew hframe hkey hapart
  case migration =>
    intro ctx new entry p w0 w1 now moves hd
    exact ⟨pageMigration_stays hd, pageMigration_spec hd rfl⟩
  case lattice =>
    intro entry p w0 lat hd
    refine ⟨latticeTypeChange_stays hd, fun hv hlat hlat0 hentry hmerged hout hdies hkey => ?_⟩
    exact latticeTypeChange_spec hd hv hlat hlat0 hentry hmerged hout hdies hkey
  case ttinv =>
    intro page
    rw [ttinvWrite_eq hf hd]
    refine ⟨fun h => congrArg Host.Outcome.next (if_pos h), fun h => ?_⟩
    rw [if_neg (ne_true_of_eq_false h), dropStale_eq]
  case stall =>
    intro g c limit hw
    rw [stallLimit_eq hw]
    refine ⟨fun h => ?_, fun tk ht hs => ?_, fun tk ht hs hlimit hc hh => ?_⟩
    · exact congrArg Host.Outcome.next (if_pos (h.imp_right .inl))
    · exact congrArg Host.Outcome.next (if_pos (.inr (.inr (.inr (by rw [ht]; exact hs)))))
    · refine congrArg Host.Outcome.next (if_neg ?_)
      rw [not_or, not_or, not_or, ht]
      exact ⟨hlimit, Nat.not_lt.mpr hc, ne_true_of_eq_false hh, ne_true_of_eq_false hs⟩
  case parked =>
    intro d hp hn
    rw [parkedLoadTimeout_eq hp hn]
    exact ⟨fun h => congrArg Host.Outcome.next (if_pos h), fun h => congrArg Host.Outcome.next (if_neg (Nat.not_lt.mpr h))⟩

end Sys2Proof.Machine
end

section
/-! PROOF. Sequencers accept BCASTs, emit and emit again; arms of other modules (O43). -/

namespace Sys2Proof.Machine

/-! ### Changes of one key, core or bus, one after the other -/

section
variable {α : Type} (m : Sparse α) (n : Nat) (x y : α)

theorem place_place : place n y (place n x m) = place n y m := by
  induction m with
  | nil => simp [place]
  | cons e m ih =>
    obtain ⟨k, v⟩ := e
    rcases Nat.lt_trichotomy n k with h | rfl | h
    · simp [place, h]
    · simp [place]
    · simp [place, Nat.not_lt.mpr h.le, Nat.ne_of_gt h, ih]

theorem drop_place : drop n (place n x m) = drop n m := by
  induction m with
  | nil => simp [place, drop]
  | cons e m ih =>
    obtain ⟨k, v⟩ := e
    simp only [drop, ne_eq, decide_not] at *
    rcases Nat.lt_trichotomy n k with h | rfl | h
    · simp [place, h]
    · simp [place]
    · simp [place, Nat.not_lt.mpr h.le, Nat.ne_of_gt h, List.filter_cons, ih]

end

/-- Of two changes of one key only the later counts, unless the earlier drops the key and the later does not. -/
theorem put_put {α : Type} [DecidableEq α] {d x y : α} (h : x = d → y = d) (m : Sparse α) (n : Nat) : put d (put d m n x) n y = put d m n y := by
  unfold put
  by_cases hx : x = d
  · simp [hx, h hx, drop]
  · by_cases hy : y = d
    · simp [hx, hy, drop_place]
    · simp [hx, hy, place_place]

theorem bus_onBus (s : State) (b k : Nat) (f : Bus → Bus) : (s.onBus b f).bus k = if k = b then f (s.bus b) else s.bus k := look_put

theorem onBus_onBus {s : State} {b : Nat} {f h : Bus → Bus} (hf : f (s.bus b) ≠ {}) : (s.onBus b f).onBus b h = s.onBus b (fun x => h (f x)) := by
  rw [State.onBus, bus_onBus, if_pos rfl]
  exact congrArg (fun bs => { s with buses := bs }) (put_put (fun h0 => absurd h0 hf) ..)

theorem onBus_congr {s : State} {b : Nat} {f h : Bus → Bus} (hf : f (s.bus b) = h (s.bus b)) : s.onBus b f = s.onBus b h := by
  rw [State.onBus, hf, State.onBus]

theorem onCore_congr {s : State} {g : Nat} {f h : Core → Core} (hf : f (s.core g) = h (s.core g)) : s.onCore g f = s.onCore g h :=
  congrArg (s.setCore g) hf

/-- A change that leaves its core as an earlier one made it adds nothing to it. -/
theorem onCore_onCore_fixed {s : State} {g : Nat} {f h : Core → Core} (hf : h (f (s.core g)) = f (s.core g)) : (s.onCore g f).onCore g h = s.onCore g f := by
  rw [State.onCore, core_onCore, if_pos rfl, hf]
  exact congrArg (fun cs => { s with cores := cs }) (put_put id ..)

/-! ### Sequencers accept BCASTs (R102, R269) -/

section
variable {s : State} {b : Bcast} {rest : List (Entry Bcast)} (hq : (s.core s.ev.core).bq = .work b :: rest)
include hq

/-- The head of the queue leaves, and its slot clears. -/
theorem popBcast_eq : s.onCore s.ev.core (fun c => ({ c with bq := c.bq.tail } : Core).clearSlot .a b.slot) =
    s.onCore s.ev.core (fun c => ({ c with bq := rest } : Core).clearSlot .a b.slot) := onCore_congr (by rw [hq]; rfl)

theorem bcastAccept_accepts (h : ∀ l, (s.bus b.bus).lastQueued = some l → after b.n0 l = true) : exec .bcastAccept s =
    .next ((s.onCore s.ev.core (fun c => ({ c with bq := rest } : Core).clearSlot .a b.slot)).onBus b.bus (fun x => { x with
      lastQueued := some (b.n0 + BitVec.ofNat 32 (b.n - 1)), jobs := x.jobs ++ [{ cmd := b }]
      kept := (x.kept ++ [({ cmd := b } : Job)]).drop (x.kept.length + 1 - 64) })) := by
  have inOrder : (match (s.bus b.bus).lastQueued with | some l => after b.n0 l | none => true) = true := by
    split
    next l hl => exact h l hl
    next => rfl
  show execBcastAccept s = _
  simp only [execBcastAccept, hq, popBcast_eq hq]
  exact congrArg Host.Outcome.next (if_pos inOrder)

theorem bcastAccept_refuses {l : BitVec 32} (hl : (s.bus b.bus).lastQueued = some l) (h : after b.n0 l = false) : exec .bcastAccept s =
    .next ((s.onCore s.ev.core (fun c => ({ c with bq := rest } : Core).clearSlot .a b.slot)).taskFault s.ev.core .a false 0x43 b.pc
      (opticAddr b.bus b.n0) 0) := by
  show execBcastAccept s = _
  simp only [execBcastAccept, hq, popBcast_eq hq, hl, h, Bool.false_eq_true, if_false]

end

/-! ### Segments leave (R112, R116, R121, R431, R432, R433) -/

/-- A frame that no error waits for leaves whole. -/
theorem launchFrame_whole {s : State} (hu : s.upsets = []) (k : Nat) (f : Frame) (cmd : Option Bcast) : s.launchFrame k f cmd =
    s.onBus k (fun x => { x with
      flights := x.flights ++ [{ frame := { f with crcOk := true }, cmd := cmd,
                                 skws := (s.cores.map (fun c => (c.1, c.2.skw))).filter (fun e => decide (e.2 ≠ 3)) }] }) := by
  have same : ({ s with upsets := s.upsets.erase (.badMarker k f.seg) } : State) = s := by
    rw [hu, List.erase_nil, ← hu]
  rw [State.launchFrame, same, hu]
  rfl

theorem actRecords_none {r : ActRead} (hbad : r.bad = 0) (hscale : r.badScale = none) (s : State) (b : Bcast) : s.actRecords b r = s := by
  simp only [State.actRecords, hbad, hscale, if_true]

/-- The windows that an emission counts as armed begin; nothing but cores changes (R112). -/
theorem sameOutside_begin (l : List Nat) (k : Nat) (n : BitVec 32) (s : State) : SameOutside s (l.foldl (fun s g =>
    if (s.core g).armedFor k n then s.onCore g (fun c => c.onHead (fun w => { w with begun := true })) else s) s) :=
  sameOutside_foldl (fun s g => by split <;> rfl) l s

/-- Every subscribed module's arm for a segment is counted (R117). -/
def Bus.armedBy (x : Bus) (n : BitVec 32) : Prop := ∀ e ∈ x.subs, e.2 = 0 ∨ (n, e.2 - 1) ∈ x.arms

theorem armedBy_iff {x : Bus} {n : BitVec 32} : x.subs.all (fun e => decide (e.2 = 0) || x.arms.contains (n, e.2 - 1)) = true ↔ x.armedBy n := by
  simp [Bus.armedBy]

theorem any_driftOwed_iff {s : State} : s.cores.any (fun c => s.driftOwed c.1 c.2) = false ↔ ∀ c ∈ s.cores, s.driftOwed c.1 c.2 = false := by
  simp

section
variable {s : State} {j : Job} {rest : List Job} (hj : (s.bus s.ev.num).jobs = j :: rest)
include hj

theorem emission_waits (h : (s.bus s.ev.num).lpc = 3 ∨ (s.bus s.ev.num).wanted ≠ [] ∨
    ¬(s.setArmed j.cmd.launch j.cmd.group s.ev.num (j.cmd.n0 + BitVec.ofNat 32 j.next) = true ∧ (s.bus s.ev.num).armedBy (j.cmd.n0 + BitVec.ofNat 32 j.next)) ∨
    ¬∀ c ∈ s.cores, s.driftOwed c.1 c.2 = false) : exec .segmentEmissionCommit s = .next s := by
  rw [← armedBy_iff, ← any_driftOwed_iff] at h
  show execSegmentEmissionCommit s = _
  simp only [execSegmentEmissionCommit, hj]
  refine congrArg Host.Outcome.next (if_pos ?_)
  simp only [Bool.or_eq_true, decide_eq_true_eq, Bool.not_eq_true']
  rcases h with dark | asked | unarmed | unmeasured
  · simp [dark]
  · simp [asked]
  · rw [not_and_or, Bool.not_eq_true, Bool.not_eq_true] at unarmed
    rcases unarmed with own | module
    · simp [own]
    · exact .inl (.inr module)
  · exact .inr (by simpa using unmeasured)

variable (hlpc : (s.bus s.ev.num).lpc ≠ 3) (hwanted : (s.bus s.ev.num).wanted = [])
  (hset : s.setArmed j.cmd.launch j.cmd.group s.ev.num (j.cmd.n0 + BitVec.ofNat 32 j.next) = true)
  (harms : (s.bus s.ev.num).armedBy (j.cmd.n0 + BitVec.ofNat 32 j.next)) (hdrift : ∀ c ∈ s.cores, s.driftOwed c.1 c.2 = false)
include hlpc hwanted hset harms hdrift

theorem emission_trims (h : ∃ c ∈ s.cores, c.2.trimFirst s.ev.num (j.cmd.n0 + BitVec.ofNat 32 j.next) = true) : exec .segmentEmissionCommit s =
    .next (s.mapCores (fun _ c => if c.trimFirst s.ev.num (j.cmd.n0 + BitVec.ofNat 32 j.next) then c.oweTrim else c)) := by
  show execSegmentEmissionCommit s = _
  simp only [execSegmentEmissionCommit, hj, hlpc, hwanted, hset, armedBy_iff.mpr harms, any_driftOwed_iff.mpr hdrift, List.any_eq_true.mpr h,
    decide_false, List.isEmpty_nil, Bool.not_true, Bool.or_false, Bool.false_eq_true, if_false, if_true]

theorem emission_leaves (htrim : ∀ c ∈ s.cores, c.2.trimFirst s.ev.num (j.cmd.n0 + BitVec.ofNat 32 j.next) = false) {r : ActRead}
    (hcodes : s.formCodes j.cmd j.next = (s, .ready r)) (hbad : r.bad = 0) (hscale : r.badScale = none) :
    ∃ u, SameOutside s u ∧ exec .segmentEmissionCommit s =
      .next ((u.launchFrame s.ev.num (frameOf j.cmd j.next none r) (some j.cmd)).onBus s.ev.num (fun x => { x with
        lastEmitted := some (j.cmd.n0 + BitVec.ofNat 32 j.next), arms := x.arms.filter (fun a => decide (a.1 ≠ j.cmd.n0 + BitVec.ofNat 32 j.next)),
        jobs := if j.next + 1 < j.cmd.n then { j with next := j.next + 1 } :: rest else rest })) := by
  have ready : s.cores.any (fun c => c.2.trimFirst s.ev.num (j.cmd.n0 + BitVec.ofNat 32 j.next)) = false := by simpa using htrim
  refine ⟨_, sameOutside_begin (s.setCores j.cmd.launch j.cmd.group) s.ev.num (j.cmd.n0 + BitVec.ofNat 32 j.next) s, ?_⟩
  show execSegmentEmissionCommit s = _
  simp only [execSegmentEmissionCommit, hj, hlpc, hwanted, hset, armedBy_iff.mpr harms, any_driftOwed_iff.mpr hdrift, ready, hcodes,
    actRecords_none hbad hscale, decide_false, List.isEmpty_nil, Bool.not_true, Bool.or_false, Bool.false_eq_true, if_false]

end

section
variable {s : State} {k : Nat} {f : Frame} {b : Bcast} {n : BitVec 32} {js : List Job}

/-- What a first emission has done to its bus, and to nothing else but the windows that began with it. -/
theorem emission_effect {u : State} (hu : SameOutside s u) (hupsets : s.upsets = []) :
    let x := s.bus k
    let t := (u.launchFrame k f (some b)).onBus k (fun x => { x with lastEmitted := some n, arms := x.arms.filter (fun a => decide (a.1 ≠ n)), jobs := js })
    (t.bus k).lastEmitted = some n ∧
      (t.bus k).flights = x.flights ++ [{ frame := { f with crcOk := true }, cmd := some b,
                                          skws := (t.cores.map (fun c => (c.1, c.2.skw))).filter (fun e => decide (e.2 ≠ 3)) }] ∧
      (t.bus k).jobs = js ∧ (t.bus k).arms = x.arms.filter (fun a => decide (a.1 ≠ n)) ∧ SameMemory s t := by
  have bus : u.bus k = s.bus k := congrArg (fun m : Sparse Bus => look ({} : Bus) m k) (congrArg State.buses hu :)
  have memory : SameMemory s u := sameMemory_of (congrArg State.mem hu :) (congrArg State.poison hu :)
  rw [launchFrame_whole ((congrArg State.upsets hu :).trans hupsets)]
  dsimp only
  rw [bus_onBus, if_pos rfl, bus_onBus, if_pos rfl, bus]
  exact ⟨rfl, rfl, rfl, rfl, memory⟩

end

/-! ### Re-emission (R116, R432) -/

section
variable {s : State} {n : BitVec 32} {b : Bcast} {j : Nat} (hw : (s.bus s.ev.num).wanted.find? (fun e => decide (e.1 = s.ev.core)) = some (s.ev.core, n))
  (hk : (s.bus s.ev.num).keptFor n = some (b, j))
include hw hk

theorem reEmission_waits (h : (s.bus s.ev.num).lpc = 3 ∨ (s.bus s.ev.num).dark = true) : exec .reEmission s = .next s := by
  show execReEmission s = _
  simp only [execReEmission, hw, hk]
  refine congrArg Host.Outcome.next (if_pos ?_)
  rcases h with off | dark
  · simp [off]
  · simp [dark]

theorem reEmission_leaves (hlpc : (s.bus s.ev.num).lpc ≠ 3) (hdark : (s.bus s.ev.num).dark = false) (hdrift : ∀ c ∈ s.cores, s.driftOwed c.1 c.2 = false)
    {r : ActRead} (hcodes : s.formCodes b j = (s, .ready r)) (hbad : r.bad = 0) (hscale : r.badScale = none) (hu : s.upsets = []) :
    exec .reEmission s = .next (s.onBus s.ev.num (fun x => { x with
      wanted := x.wanted.filter (fun e => decide (e ≠ (s.ev.core, n)))
      flights := x.flights ++ [{ frame := { frameOf b j (some s.ev.core) r with crcOk := true }, cmd := none,
                                 skws := (s.cores.map (fun c => (c.1, c.2.skw))).filter (fun e => decide (e.2 ≠ 3)) }] })) := by
  have kept : (s.bus s.ev.num).kept ≠ [] := by
    intro none
    simp [Bus.keptFor, none] at hk
  have written : ({ s.bus s.ev.num with wanted := (s.bus s.ev.num).wanted.filter (fun e => decide (e ≠ (s.ev.core, n))) } : Bus) ≠ {} :=
    fun h => kept (congrArg Bus.kept h :)
  show execReEmission s = _
  simp only [execReEmission, hw, hk, hlpc, hdark, any_driftOwed_iff.mpr hdrift, hcodes, actRecords_none hbad hscale, decide_false, Bool.or_false,
    Bool.false_eq_true, if_false]
  rw [launchFrame_whole (by exact hu), onBus_onBus written]
  rfl

end

/-! ### The last symbol is sent (R269) -/

theorem Core.fireTriggers_eq (c : Core) : ∃ ts q, c.fireTriggers = { c with triggers := ts, sq := q } := by
  obtain ⟨ts, q, h⟩ := Core.moveFired_eq
    { c with triggers := c.triggers.map (fun t => if t.theta.toNat ≤ (c.getF t.trigger).toNat then { t with fired := true } else t) }
  exact ⟨ts, q, h⟩

/-- A hardware addition to a flag, where no waiter is due before it, changes its flag and what triggers fire (R233, R264). -/
theorem Core.hwAdd_eq {c : Core} (hr : c.flagRank < 2) {n : Nat} (hn : n ≠ 63) (v : BitVec 48) :
    ∃ ts q, c.hwAdd n v = { c.setF n (c.getF n + v) with flagRank := 1, triggers := ts, sq := q } := by
  have turn : c.flagTurn 1 = { c with flagRank := 1 } := by
    simp [Core.flagTurn, Nat.not_lt.mpr (Nat.le_of_lt_succ hr)]
  obtain ⟨ts, q, h⟩ := (({ c with flagRank := 1 } : Core).setF n (c.getF n + v)).fireTriggers_eq
  refine ⟨ts, q, ?_⟩
  simp only [Core.hwAdd, hn, if_false, turn, Core.addFlag]
  exact h

theorem Core.getF_hwAdd {c : Core} (hr : c.flagRank < 2) {n : Nat} (hn : n ≠ 63) (v : BitVec 48) : (c.hwAdd n v).getF n = c.getF n + v := by
  obtain ⟨ts, q, h⟩ := Core.hwAdd_eq hr hn v
  rw [h]
  exact (look_put).trans (if_pos rfl)

theorem segmentSent_adds {s : State} {f : Flight} {rest : List Flight} {b : Bcast} {tk : Task} (hf : (s.bus s.ev.num).flights = f :: rest)
    (hcmd : f.cmd = some b) (hreached : ∀ c ∈ s.cores, c.1 ∈ f.reached) (htask : (s.core b.core).task = some tk) (hl : tk.launch = b.launch) :
    exec .segmentSent s = .next ((s.onBus s.ev.num (fun x => { x with flights := rest })).hwAdd b.core b.flag 1) := by
  show execSegmentSent s = _
  simp only [execSegmentSent, hf, hcmd]
  refine congrArg Host.Outcome.next ((if_neg ?_).trans (if_pos ⟨?_, ?_⟩))
  · rw [List.any_eq_true]
    rintro ⟨c, hc, waits⟩
    simp [hreached c hc] at waits
  · show (match (s.core b.core).task with | some t => t.launch | none => 0) = _
    rw [htask]
    exact hl
  · show (s.core b.core).task.isSome = true
    rw [htask]
    rfl

theorem segmentSent_spec {s : State} {f : Flight} {rest : List Flight} {b : Bcast} {tk : Task} (hf : (s.bus s.ev.num).flights = f :: rest)
    (hcmd : f.cmd = some b) (hreached : ∀ c ∈ s.cores, c.1 ∈ f.reached) (htask : (s.core b.core).task = some tk) (hl : tk.launch = b.launch)
    (hr : (s.core b.core).flagRank < 2) (hflag : b.flag ≠ 63) : ∃ t, exec .segmentSent s = .next t ∧ (t.bus s.ev.num).flights = rest ∧
      (t.core b.core).getF b.flag = (s.core b.core).getF b.flag + 1 ∧ SameOthers b.core s t ∧ SameMemory s t := by
  refine ⟨_, segmentSent_adds hf hcmd hreached htask hl, ?_, ?_, fun h hh => (core_onCore ..).trans (if_neg hh), sameMemory_of rfl rfl⟩
  · show ((s.onBus s.ev.num (fun x => { x with flights := rest })).bus s.ev.num).flights = rest
    rw [bus_onBus, if_pos rfl]
  · rw [State.hwAdd, core_onCore, if_pos rfl]
    exact Core.getF_hwAdd hr hflag 1

/-! ### Arms of other modules (R117, R443) -/

section
variable {s : State}

theorem remoteArm_counts (hsub : ∃ e ∈ (s.bus s.ev.num).subs, e.2 = s.ev.num3 + 1)
    (hnew : (BitVec.ofNat 32 s.ev.num2, s.ev.num3) ∉ (s.bus s.ev.num).arms) (hp : (s.bus s.ev.num).passed (BitVec.ofNat 32 s.ev.num2) = false) :
    exec .remoteArmFlit s = .next (s.onBus s.ev.num (fun x => { x with arms := x.arms ++ [(BitVec.ofNat 32 s.ev.num2, s.ev.num3)] })) := by
  refine congrArg Host.Outcome.next (onBus_congr (if_pos ?_))
  simpa [hp, hnew] using hsub

theorem remoteArm_ignored (h : (∀ e ∈ (s.bus s.ev.num).subs, e.2 ≠ s.ev.num3 + 1) ∨ (BitVec.ofNat 32 s.ev.num2, s.ev.num3) ∈ (s.bus s.ev.num).arms ∨
    (s.bus s.ev.num).passed (BitVec.ofNat 32 s.ev.num2) = true) : exec .remoteArmFlit s = .next (s.onBus s.ev.num (fun x => x)) := by
  refine congrArg Host.Outcome.next (onBus_congr (if_neg ?_))
  simp only [Bool.and_eq_true, Bool.not_eq_true', List.any_eq_true, decide_eq_true_eq, not_and, Bool.not_eq_false]
  rintro ⟨⟨e, he, sub⟩, new⟩
  rcases h with unsubscribed | counted | passed
  · exact absurd sub (unsubscribed e he)
  · simp [counted] at new
  · exact passed

theorem armResend_none (h : (s.bus s.ev.num).armSent = none) : exec .armFlitResend s = .next s := by
  show execArmFlitResend s = _
  simp only [execArmFlitResend, h]

variable {m : BitVec 32} {at' : Nat} (h : (s.bus s.ev.num).armSent = some (m, at'))
include h

theorem armResend_waits (hw : (s.bus s.ev.num).passed m = true ∨ (s.die 8).time.toNat < at' + 20000) : exec .armFlitResend s = .next s := by
  show execArmFlitResend s = _
  simp only [execArmFlitResend, h]
  exact congrArg Host.Outcome.next (if_pos hw)

theorem armResend_sends (hp : (s.bus s.ev.num).passed m = false) (ht : at' + 20000 ≤ (s.die 8).time.toNat) {chip bus : Nat}
    (hset : s.remoteSetArmed s.ev.num m = some (chip, bus)) : exec .armFlitResend s =
      .next ((s.injectControl { kind := .arm, src := 0, dst := chip, addr := bus, tag := m }).onBus s.ev.num
        (fun x => { x with armSent := some (m, (s.die 8).time.toNat) })) := by
  show execArmFlitResend s = _
  simp only [execArmFlitResend, h, hp, Nat.not_lt.mpr ht, Bool.false_eq_true, or_self, if_false, State.sendArm, hset]

end

/-- Settles O43: each event of a sequencer does what its rule says, and waits where its rule holds it. -/
theorem sequencerEvents : Obligations.SequencerEvents := by
  unfold Obligations.SequencerEvents
  refine ⟨fun s b rest => ?accept, fun s j rest => ?emission, fun s n b j r => ?again, fun s f rest b tk => ?sent, fun s => ?arms⟩
  case accept =>
    intro g x popped hq
    refine ⟨fun h => ⟨_, bcastAccept_accepts hq h, rfl, ?_, ?_, ?_, fun k hk => (bus_onBus ..).trans (if_neg hk)⟩,
      fun l hl h => bcastAccept_refuses hq hl h⟩
    · exact congrArg Bus.jobs ((bus_onBus ..).trans (if_pos rfl))
    · exact congrArg Bus.lastQueued ((bus_onBus ..).trans (if_pos rfl))
    · exact congrArg Bus.kept ((bus_onBus ..).trans (if_pos rfl))
  case emission =>
    intro k x b n armed measured hj
    refine ⟨emission_waits hj, fun hlpc hwanted ⟨hset, harms⟩ hdrift htrim => emission_trims hj hlpc hwanted hset harms hdrift htrim, ?_⟩
    intro r hlpc hwanted ⟨hset, harms⟩ hdrift htrim hcodes hbad hscale hu
    obtain ⟨u, same, runs⟩ := emission_leaves hj hlpc hwanted hset harms hdrift htrim hcodes hbad hscale
    exact ⟨_, runs, emission_effect same hu⟩
  case again =>
    intro k g x hw hk
    exact ⟨reEmission_waits hw hk, fun hlpc hdark hdrift hcodes => reEmission_leaves hw hk hlpc hdark hdrift hcodes⟩
  case sent => exact segmentSent_spec
  case arms =>
    intro k n chip x
    refine ⟨remoteArm_counts, remoteArm_ignored, armResend_none, fun m at' h hw => armResend_waits h hw, ?_⟩
    exact fun m at' chip bus h hp ht hset => armResend_sends h hp ht hset

end Sys2Proof.Machine
end

section
/-! PROOF. Heads of window queues, markers, calibrations and laser power (O44). -/

namespace Sys2Proof.Machine

/-! ### The head of a window queue (R111, R298) -/

section
variable {c : Core} {w : Window} {rest : List (Entry OEntry)} (h : c.oq = .work (.window w) :: rest)
include h

theorem Core.headWindow_eq : c.headWindow = some w := by
  rw [Core.headWindow, h]

theorem Core.onHead_eq (f : Window → Window) : c.onHead f = { c with oq := .work (.window (f w)) :: rest } := by
  rw [Core.onHead, h]

end

theorem bus_onCore (s : State) (g : Nat) (f : Core → Core) (k : Nat) : (s.onCore g f).bus k = s.bus k := rfl

/-- The row exponents of a window, as they stand in the vault (R104). -/
def State.rowExps (s : State) (g : Nat) (w : Window) : List Byte :=
  (List.range w.rows).map (fun i => s.byte (vaultAt g (w.weights + (w.rows * rowPitch w.t + i))))

/-- The codes of a window's rows for one symbol, as they stand in the vault (R104). -/
def State.symbolCodes (s : State) (g : Nat) (w : Window) (t : Nat) : List Byte :=
  (List.range w.rows).map (fun i => s.byte (vaultAt g (w.weights + (i * rowPitch w.t + t))))

theorem poisoned_clean {s : State} (h : s.poison = []) (a : Nat) : s.poisoned a = false := by
  rw [State.poisoned, h, List.any_nil]

/-- From a clean vault a window gets its row exponents, once, and the codes of the symbols that it lacks (R104, R298). -/
theorem fetchWeights_clean {s : State} {g : Nat} {w y : Window} {rest : List (Entry OEntry)} (hp : s.poison = [])
    (hq : (s.core g).oq = .work (.window y) :: rest) (hew : y.ew = w.ew) (n : Nat) :
    s.fetchWeights g w n = .ok (s.onCore g (fun c => { c with oq := .work (.window { y with
      ew := if w.ew = [] then s.rowExps g w else w.ew
      cols := y.cols ++ (span w.cols.length (n - w.cols.length)).map (s.symbolCodes g w) }) :: rest })) := by
  have exps : s.load (span (vaultAt g (w.weights + w.rows * rowPitch w.t)) w.rows) = s.rowExps g w := by
    simp only [State.load, State.rowExps, span_eq_map, List.map_map]
    exact List.map_congr_left fun i _ => congrArg s.byte (by simp only [vaultAt]; omega)
  have codes (t : Nat) : s.load ((span 0 w.rows).map (fun i => vaultAt g (w.weights + i * rowPitch w.t + t))) = s.symbolCodes g w t := by
    simp only [State.load, State.symbolCodes, span_eq_map, List.map_map]
    exact List.map_congr_left fun i _ => congrArg s.byte (by simp only [Function.comp_apply, vaultAt]; rw [Nat.zero_add, Nat.add_assoc w.weights])
  have clean (l : List Nat) : l.find? s.poisoned = none := List.find?_eq_none.mpr fun a _ => by simp [poisoned_clean hp]
  simp only [State.fetchWeights, clean]
  refine congrArg Except.ok (onCore_congr ?_)
  rw [Core.onHead_eq hq, hew]
  simp only [List.map_map, Function.comp_def, codes, List.isEmpty_iff]
  split
  next => rw [exps]
  next => rfl

/-- The first fetch of a window that has nothing yet (R298). -/
theorem fetchWeights_first {s : State} {g : Nat} {w y : Window} {rest : List (Entry OEntry)} (hp : s.poison = [])
    (hq : (s.core g).oq = .work (.window y) :: rest) (hew : w.ew = []) (hcols : w.cols = []) (hyew : y.ew = []) (hycols : y.cols = []) (n : Nat) :
    s.fetchWeights g w n = .ok (s.onCore g (fun c => { c with oq := .work (.window { y with
      ew := s.rowExps g w, cols := (List.range n).map (s.symbolCodes g w) }) :: rest })) := by
  rw [fetchWeights_clean hp hq (hyew.trans hew.symm)]
  simp only [hew, hcols, hycols, if_true, List.length_nil, List.nil_append, Nat.sub_zero, span_eq_map, Nat.zero_add, List.map_id']

/-- The fault of a head window takes it out of its queue (R300, R437). -/
theorem windowFault_eq {z : State} {g : Nat} {w : Window} {e : Entry OEntry} {rest : List (Entry OEntry)} (hq : (z.core g).oq = e :: rest) (cause : Nat) :
    z.windowFault g w cause = (z.onCore g (fun c => { c with oq := rest })).taskFault g .o false cause w.pc
      (BitVec.ofNat 64 (w.bus * 2 ^ 32 + w.seg.toNat)) (BitVec.ofNat 64 w.number) := by
  have popped : z.onCore g (fun c => { c with oq := c.oq.tail }) = z.onCore g (fun c => { c with oq := rest }) := onCore_congr (by rw [hq]; rfl)
  rw [State.windowFault, popped, opticAddr]

section
variable {s : State} {w : Window} {rest : List (Entry OEntry)} (hq : (s.core s.ev.core).oq = .work (.window w) :: rest)
include hq

theorem windowHeadReady_fetches (hready : w.ready = false) (hcal : (s.core s.ev.core).calibrating = none) (howed : (s.core s.ev.core).owedCal = none)
    (hskw : (s.core s.ev.core).skw ≠ 2) (htsm : w.tsm = false) (hbus : w.bus < 4) (hpassed : (s.bus w.bus).passed w.seg = false) (hew : w.ew = [])
    (hcols : w.cols = []) (hp : s.poison = []) : exec .windowHeadReady s =
      .next ((s.onCore s.ev.core (fun c => { c with tuned := some w.bus, owin := c.owin.limited [], oq := .work (.window { w with ready := true }) :: rest })).onCore
        s.ev.core (fun c => { c with oq := .work (.window { w with
          ready := true, ew := s.rowExps s.ev.core w, cols := (List.range (min w.t 32)).map (s.symbolCodes s.ev.core w) }) :: rest })) := by
  have tuned : s.onCore s.ev.core (fun c => ({ c with tuned := some w.bus, owin := c.owin.limited [] } : Core).onHead (fun w => { w with ready := true })) =
      s.onCore s.ev.core (fun c => { c with tuned := some w.bus, owin := c.owin.limited [], oq := .work (.window { w with ready := true }) :: rest }) :=
    onCore_congr (Core.onHead_eq (c := { s.core s.ev.core with tuned := some w.bus, owin := (s.core s.ev.core).owin.limited [] }) hq _)
  have unmarked (p : Bool) : (w.tsm && p) = false := by rw [htsm, Bool.false_and]
  have fetched := fetchWeights_first (s := s.onCore s.ev.core (fun c => { c with
    tuned := some w.bus, owin := c.owin.limited [], oq := .work (.window { w with ready := true }) :: rest })) (g := s.ev.core) (w := w)
    (y := { w with ready := true }) (rest := rest) hp (by rw [core_onCore, if_pos rfl]) hew hcols hew hcols (min w.t 32)
  show execWindowHeadReady s = _
  simp only [execWindowHeadReady, Core.headWindow_eq hq, hready, hcal, howed, hskw, unmarked, Option.isSome_none, Bool.false_and, Bool.or_self,
    decide_false, Bool.false_eq_true, if_false, tuned, fetched, Nat.not_le.mpr hbus, bus_onCore, hpassed]
  rfl

/-! ### Markers (R113, R433) -/

section
variable {f : Flight} {more : List Flight} (hk : w.bus = s.ev.num) (hf : (s.bus s.ev.num).flights = f :: more) (hnew : s.ev.core ∉ f.reached)
  (hseg : f.frame.seg = w.seg) (hre : f.frame.re = none) (hframe : w.frame = none) (hready : w.ready = true)
include hk hf hnew hseg hre hframe hready

/-- The marker of a ready window's segment begins it, or faults where its CRC, T or divisor does not fit. -/
theorem markerArrival_eq : exec .markerFrameArrival s =
    let z : State := s.onBus s.ev.num (fun x => { x with flights := { f with reached := f.reached ++ [s.ev.core] } :: more })
    .next (if !f.frame.crcOk then z.windowFault s.ev.core w 0x45 else if w.t ≠ f.frame.t ∨ w.div ≠ f.frame.div then z.windowFault s.ev.core w 0x40
      else z.onCore s.ev.core (fun c => c.onHead (fun w => { w with begun := true, frame := some f.frame, skw := look 3 f.skws s.ev.core }))) := by
  have first : (s.bus s.ev.num).flights.findIdx? (fun f => !f.reached.contains s.ev.core) = some 0 := by
    rw [hf, List.findIdx?_cons, if_pos (by simpa using hnew)]
  have arrived : s.onBus s.ev.num (fun x => { x with flights := modifyNth (fun f => { f with reached := f.reached ++ [s.ev.core] }) 0 x.flights }) =
      s.onBus s.ev.num (fun x => { x with flights := { f with reached := f.reached ++ [s.ev.core] } :: more }) := onBus_congr (by rw [hf]; rfl)
  show execMarkerFrameArrival s = _
  simp only [execMarkerFrameArrival, first, arrived]
  rw [hf]
  simp only [List.getElem?_cons_zero, Core.headWindow_eq hq, State.arrive1, hk, hre, hframe, hseg, hready, ne_eq, not_true_eq_false, decide_false,
    Bool.not_true, Option.isSome_none, Bool.or_self, Bool.false_eq_true, if_false, if_true]

end

end

/-! ### Calibrations and lasers (R121, R122, R430 to R432) -/

/-- A core with work, or a strand that goes on, in both engines closes no command window. -/
theorem Core.closeIdle_busy {c : Core} (hm : c.mq ≠ [] ∨ c.strandM.status ≠ .ended) (ho : c.oq ≠ [] ∨ c.strandO.status ≠ .ended) : c.closeIdle = c := by
  have matrix : ¬(c.mq.isEmpty = true ∧ c.strandM.status = .ended) := by
    rw [List.isEmpty_iff, not_and_or]
    exact hm
  have optic : ¬(c.oq.isEmpty = true ∧ c.strandO.status = .ended) := by
    rw [List.isEmpty_iff, not_and_or]
    exact ho
  simp only [Core.closeIdle, if_neg matrix, if_neg optic]

section
variable {s : State} {rest : List (Entry OEntry)}

theorem calibrationRun_trim {w : Window} (hq : (s.core s.ev.core).oq = .work (.window w) :: rest) (hcal : (s.core s.ev.core).calibrating = none)
    (hbegun : w.begun = false) (howed : (s.core s.ev.core).owedCal = none) : exec .calibrationRun s = .next (s.onCore s.ev.core (fun c =>
      { c with calibrating := some false, calHead := false, oq := .work (.window { w with ready := false }) :: rest })) := by
  show execCalibrationRun s = _
  conv_lhs => simp only [execCalibrationRun, Core.headWindow_eq hq, hcal, hbegun, howed, hq, Option.isSome_none, Bool.or_self, Bool.false_eq_true, if_false]
  exact congrArg Host.Outcome.next (onCore_congr
    (Core.onHead_eq (c := { s.core s.ev.core with calibrating := some false, calHead := false }) hq fun w => { w with ready := false }))

variable {k : Bool} (hq : (s.core s.ev.core).oq = .work (.cal k) :: rest) (howed : (s.core s.ev.core).owedCal = none)
include hq howed

theorem calibrationRun_queued (hcal : (s.core s.ev.core).calibrating = none) : exec .calibrationRun s =
    .next (s.onCore s.ev.core (fun c => { c with calibrating := some k, calHead := true })) := by
  have head : (s.core s.ev.core).headWindow = none := by rw [Core.headWindow, hq]
  show execCalibrationRun s = _
  simp only [execCalibrationRun, head, hcal, howed, hq, Option.isSome_none, Bool.or_self, Bool.false_eq_true, if_false]
  refine congrArg Host.Outcome.next (onCore_congr ?_)
  simp only [Core.onHead, hq]

theorem calibrationComplete_succeeds (hcal : (s.core s.ev.core).calibrating = some k) (hrows : s.ev.nums = []) (hgood : s.ev.flag = true)
    (hm : (s.core s.ev.core).strandM.status ≠ .ended) (ho : (s.core s.ev.core).strandO.status ≠ .ended) : exec .calibrationComplete s =
      .next (s.onCore s.ev.core (fun c => { c with
        calibrating := none, calHead := false, skw := 0, resting := false, trimmedAt := (s.die (dieOf s.ev.core)).time.toNat
        oq := if c.calHead then rest else c.oq })) := by
  show execCalibrationComplete s = _
  simp only [execCalibrationComplete, hcal, hrows, hgood, List.foldl_nil, Option.isNone_some, Bool.and_self, Bool.not_true, Bool.false_eq_true, if_false, if_true]
  refine congrArg Host.Outcome.next ?_
  rw [onCore_onCore_fixed (Core.closeIdle_busy (.inr hm) (.inr ho))]
  refine onCore_congr ?_
  simp only [hq, howed]

end

theorem skewDrift_eq {s : State} (h : (s.core s.ev.core).skw.toNat ≤ 1) : exec .skewDriftMeasured s =
    .next (s.onCore s.ev.core (fun c => { c with skw := if s.ev.flag then 1 else 2 })) :=
  congrArg Host.Outcome.next (onCore_congr (if_pos h))

section
variable {s : State} (hk : s.ev.num < 8) (hon : s.mgmt.lasersOff = false)
include hk hon

/-- A new reading that is not LPC 3 changes its bus, and is recorded (R430). -/
theorem laserPower_changes (hv : BitVec.ofNat 2 s.ev.num2 ≠ (s.bus s.ev.num).lpc) (hv3 : BitVec.ofNat 2 s.ev.num2 ≠ 3) :
    ∃ f : Bus → Bus, (∀ b, (f b).lpc = BitVec.ofNat 2 s.ev.num2) ∧ exec .laserPowerChange s =
      .next ((s.onBus s.ev.num f).notice 8 0x49 (BitVec.ofNat 64 (s.ev.num * 2 ^ 32)) ((BitVec.ofNat 2 s.ev.num2).setWidth 64)) := by
  have changed : (decide (BitVec.ofNat 2 s.ev.num2 = (s.bus s.ev.num).lpc) || decide (8 ≤ s.ev.num)) = false := by
    simp [hv, hk]
  refine ⟨?reading, ?lpc, ?runs⟩
  case runs =>
    show execLaserPowerChange s = _
    simp only [execLaserPowerChange, changed, hon, hv3, State.onBus_mgmt, decide_false, Bool.false_and, Bool.false_eq_true, if_false]
    rfl
  case lpc => exact fun b => rfl

theorem laserPower_spec (hv : BitVec.ofNat 2 s.ev.num2 ≠ (s.bus s.ev.num).lpc) (hv3 : BitVec.ofNat 2 s.ev.num2 ≠ 3) : ∃ t,
    exec .laserPowerChange s = .next t ∧ (t.bus s.ev.num).lpc = BitVec.ofNat 2 s.ev.num2 ∧ t.cores = s.cores ∧ SameMemory s t := by
  obtain ⟨f, hf, runs⟩ := laserPower_changes hk hon hv hv3
  refine ⟨_, runs, ?_⟩
  rw [notice_eq]
  refine ⟨?_, rfl, sameMemory_of rfl rfl⟩
  show ((s.onBus s.ev.num f).bus s.ev.num).lpc = _
  rw [bus_onBus, if_pos rfl, hf]

end

theorem laserPower_same {s : State} (hv : BitVec.ofNat 2 s.ev.num2 = (s.bus s.ev.num).lpc) : exec .laserPowerChange s = .next s :=
  congrArg Host.Outcome.next (if_pos (by simp [hv]))

theorem laserLost_expires {s : State} (hon : s.mgmt.lasersOff = false) (hlpc : (s.bus s.ev.num).lpc = 3) (hk : s.ev.num < 4)
    (hdue : (s.bus s.ev.num).since + 100000000 ≤ (s.die 8).time.toNat) (howed : s.unemitted s.ev.num = []) (hwin : s.windowsOn s.ev.num (fun w => w.frame.isNone) = []) :
    exec .laserPowerLostExpiry s = .next (s.onBus s.ev.num (fun b => { b with lost := true })) := by
  have windows : (s.onBus s.ev.num (fun b => { b with lost := true })).windowsOn s.ev.num (fun w => w.frame.isNone) = [] := hwin
  show execLaserPowerLostExpiry s = _
  simp only [execLaserPowerLostExpiry, hlpc, show ¬8 ≤ s.ev.num by omega, show ¬4 ≤ s.ev.num by omega, hon, Nat.not_lt.mpr hdue, howed, windows,
    ne_eq, not_true_eq_false, decide_false, Bool.or_self, Bool.false_eq_true, if_false, List.foldl_nil]

theorem laserLost_waits {s : State} (h : (s.bus s.ev.num).lpc ≠ 3 ∨ (s.die 8).time.toNat < (s.bus s.ev.num).since + 100000000) :
    exec .laserPowerLostExpiry s = .next s := by
  refine congrArg Host.Outcome.next (if_pos ?_)
  simp only [Bool.or_eq_true, decide_eq_true_eq]
  exact h.imp_left fun lit => .inl (.inl lit)

end Sys2Proof.Machine
end

section
/-! PROOF. What a window writes: its numbers, its words and no other word, its weights (O44). -/

namespace Sys2Proof.Machine

/-! ### Numbers of a window (R84, R109, R120) -/

theorem fp32_signed_lt {x : Nat} (h : x < 2 ^ 31) (n : Bool) : fp32.signed n x < 2 ^ 32 := by
  cases n <;> simp [Fmt.signed, fp32] <;> omega

theorem fp32_overflow_lt (rm : Nat) (sat n : Bool) : (overflow fp32 rm sat n).1 < 2 ^ 32 := by
  have max : fp32.maxBits < 2 ^ 31 := by decide
  have inf : fp32.infBits < 2 ^ 31 := by decide
  unfold overflow
  split
  · exact fp32_signed_lt max n
  split
  · decide
  · refine fp32_signed_lt ?_ n
    split
    · exact max
    · exact inf

/-- Bits above the largest finite value overflow. -/
theorem fp32_bounded_lt (rm : Nat) (sat n : Bool) (bits : Nat) (fl : Flags) :
    (if fp32.maxBits < bits then overflow fp32 rm sat n else (fp32.signed n bits, fl)).1 < 2 ^ 32 := by
  have max : fp32.maxBits < 2 ^ 31 := by decide
  split
  · exact fp32_overflow_lt rm sat n
  · exact fp32_signed_lt (by omega) n

/-- A number delivered in FP32 has 32 bits. -/
theorem deliver_fp32_lt (rm : Nat) (sat : Bool) (v : Num) : (deliver fp32 rm sat v).1 < 2 ^ 32 := by
  cases v with
  | nan s => exact (show fp32.nanBits < 2 ^ 32 by decide)
  | inf n => exact fp32_signed_lt (x := fp32.infBits) (by decide) n
  | fin n m e =>
    show (roundFin fp32 rm sat n m e).1 < 2 ^ 32
    unfold roundFin
    split
    · exact fp32_signed_lt (x := 0) (by decide) n
    · exact fp32_bounded_lt ..

theorem updateWord_lt (accumulate : Bool) (old : BitVec 32) (term : Num) : (updateWord accumulate old term).1 < 2 ^ 32 := deliver_fp32_lt ..

/-- The products of two lists of one length, summed over their places. -/
theorem dotSum_eq (n : Nat) (x : Nat → Int) {a : List Int} (ha : a.length = n) :
    dotSum ((span 0 n).map x) a = ((List.range n).map (fun t => x t * a.getD t 0)).sum := by
  have fold (l : List (Int × Int)) (z : Int) : l.foldl (fun n e => n + e.1 * e.2) z = z + (l.map (fun e => e.1 * e.2)).sum := by
    induction l generalizing z with
    | nil => simp
    | cons e l ih => rw [List.foldl_cons, ih, List.map_cons, List.sum_cons, add_assoc]
  have pairs : ((span 0 n).map x).zip a = (List.range n).map (fun t => (x t, a.getD t 0)) := by
    refine List.ext_getElem (by simp [span_eq_map, ha]) fun i h _ => ?_
    have hi : i < a.length := by simp [span_eq_map] at h; omega
    simp [span_eq_map, List.getElem?_eq_getElem hi]
  rw [dotSum, fold, pairs, List.map_map, zero_add]
  rfl

/-! ### What a window writes (R105 to R109, R120) -/

/-- The wavelengths of a frame's mask. -/
def Frame.lanes (f : Frame) : List Nat := (span 0 32).filter (fun b => f.mask.getLsbD b)

theorem Frame.mem_lanes {f : Frame} {b : Nat} : b ∈ f.lanes ↔ b < 32 ∧ f.mask.getLsbD b = true := by
  simp [Frame.lanes]

theorem Frame.nodup_lanes (f : Frame) : f.lanes.Nodup := (nodup_span ..).filter _

theorem Frame.foldl_lanes_lt (f : Frame) (q : Nat → Bool) : f.lanes.foldl (fun n b => if q b then n + 2 ^ b else n) 0 < 2 ^ 32 := by
  have both (n b : Nat) : (if f.mask.getLsbD b then (if q b then n + 2 ^ b else n) else n) = if (f.mask.getLsbD b && q b) then n + 2 ^ b else n := by
    cases f.mask.getLsbD b <;> simp
  rw [Frame.lanes, List.foldl_filter, span_eq_range', ← List.range_eq_range']
  simp only [both]
  exact foldl_two_pow_lt (fun b => f.mask.getLsbD b && q b) 32

section
variable (w : Window) (f : Frame) (bounded : Bool) (ctr : Nat) (weight : Nat → Nat → Int) (ew : Nat → Int) (acc : Nat → BitVec 32)

/-- The word that a window writes for a row and a wavelength. -/
def Window.wordFor (i b : Nat) : Nat :=
  if f.ea.getD b 0 = -128 then 0x7FC00000
  else (updateWord w.accumulate (acc (w.acc + 32 * i + b)) (termNum
    (deliveredCode bounded w.t w.sh (dotSum ((span 0 w.t).map (weight i)) (f.codes.getD b [])) (Config.free (ctr + 32 * i + b)))
    (w.sh + ew i + f.ea.getD b 0))).1

theorem Window.wordFor_lt (i b : Nat) : w.wordFor f bounded ctr weight ew acc i b < 2 ^ 32 := by
  unfold Window.wordFor
  split
  · decide
  · exact updateWord_lt ..

/-- A window writes row by row, and in a row the wavelengths of the mask. -/
theorem windowUpdates_words : (windowUpdates w f bounded ctr weight ew acc).words =
    (span 0 w.rows).flatMap (fun i => f.lanes.map (fun b => (w.acc + 32 * i + b, w.wordFor f bounded ctr weight ew acc i b))) := by
  simp only [windowUpdates, List.map_flatMap, List.map_map]
  refine congrArg (fun h => (span 0 w.rows).flatMap h) (funext fun i => List.map_congr_left fun b _ => ?_)
  simp only [Function.comp_apply, Window.wordFor]
  split <;> rfl

theorem windowUpdates_sat_lt : (windowUpdates w f bounded ctr weight ew acc).sat < 2 ^ 32 := f.foldl_lanes_lt _

end

/-- With no reference row, bit 32 and the deviation of a status word are 0 (R120). -/
theorem statusWord_clear {w : Window} (href : w.ref = 2) (f : Frame) {r : WindowResult} (hsat : r.sat < 2 ^ 32) (dev : Nat) (devx : Bool) (skw lpc : Nat) :
    (statusWord w f r dev devx skw lpc).getLsbD 32 = false := by
  have none : noRef w f = true := by simp [noRef, href]
  simp only [statusWord, none, Bool.not_true, Bool.and_false, Bool.false_eq_true, if_false, if_true, BitVec.getLsbD_ofNat,
    Nat.testBit_eq_decide_div_mod_eq, Bool.and_eq_false_iff, decide_eq_false_iff_not]
  right
  split <;> split <;> omega

/-! ### Words of the accumulator store (R55, R103) -/

theorem accAt_key {g i j : Nat} (hg : g < 768) (hi : i < 786432) (hj : j < 4) : memKey (accAt g i + j) = accAt g i + j := by
  simp only [memKey, accAt, dieOf, localOf]
  omega

theorem accAt_add (g i n : Nat) : accAt g (i + n) = accAt g i + 4 * n := by
  simp only [accAt]
  omega

/-- Where the words of a list of numbered words stand, byte by byte. -/
def wordPlaces (g : Nat) (ws : List (Nat × Nat)) : List Nat := ws.flatMap (fun e => span (accAt g e.1) 4)
/-- The bytes of a list of numbered words. -/
def wordImage (ws : List (Nat × Nat)) : List Byte := ws.flatMap (fun e => leBytes 4 e.2)

theorem mem_wordPlaces {g a : Nat} {ws : List (Nat × Nat)} : a ∈ wordPlaces g ws ↔ ∃ e ∈ ws, ∃ j, j < 4 ∧ a = accAt g e.1 + j := by
  simp only [wordPlaces, List.mem_flatMap, span_eq_map, List.mem_map, List.mem_range]
  exact exists_congr fun e => and_congr_right fun _ => exists_congr fun j => and_congr_right fun _ => eq_comm

/-- Lists joined of parts of one length agree part by part. -/
theorem flatMap_parts {α β : Type} {f h : α → List β} (hlen : ∀ x, (f x).length = (h x).length) {l : List α} (he : l.flatMap f = l.flatMap h) :
    ∀ x ∈ l, f x = h x := by
  induction l with
  | nil => exact fun x hx => nomatch hx
  | cons y l ih =>
    obtain ⟨first, others⟩ := List.append_inj he (hlen y)
    exact List.forall_mem_cons.mpr ⟨first, ih others⟩

section
variable {g : Nat} {ws : List (Nat × Nat)} (hg : g < 768) (hlt : ∀ e ∈ ws, e.1 < 786432)
include hg hlt

/-- A byte that belongs to none of the words stays. -/
theorem byte_store_words_other (s : State) {a : Nat} (ha : ∀ e ∈ ws, ∀ j, j < 4 → memKey a ≠ accAt g e.1 + j) :
    (s.store (wordPlaces g ws) (wordImage ws)).byte a = s.byte a := by
  refine byte_store_other s _ _ a fun x hx => ?_
  obtain ⟨e, he, j, hj, rfl⟩ := mem_wordPlaces.mp hx
  rw [accAt_key hg (hlt e he) hj]
  exact ha e he j hj

theorem acc_store_words_other (s : State) {i : Nat} (hi : i < 786432) (hn : i ∉ ws.map Prod.fst) :
    (s.store (wordPlaces g ws) (wordImage ws)).acc g i = s.acc g i := by
  refine congrArg (BitVec.ofNat 32) (loadLE_congr fun j hj => byte_store_words_other hg hlt s fun e he k hk h => hn ?_)
  rw [accAt_key hg hi hj] at h
  have same : i = e.1 := by simp only [accAt] at h; omega
  exact same ▸ List.mem_map_of_mem he

variable (hnodup : (ws.map Prod.fst).Nodup)
include hnodup

theorem nodup_wordPlaces : ((wordPlaces g ws).map memKey).Nodup := by
  have keys : (wordPlaces g ws).map memKey = wordPlaces g ws := by
    refine List.map_congr_left (g := id) (fun a ha => ?_) |>.trans (List.map_id _)
    obtain ⟨e, he, j, hj, rfl⟩ := mem_wordPlaces.mp ha
    exact accAt_key hg (hlt e he) hj
  rw [keys, wordPlaces, List.nodup_flatMap]
  refine ⟨fun e _ => nodup_span .., (List.pairwise_map.mp hnodup).imp fun {d e} hde => ?_⟩
  refine List.disjoint_left.mpr fun a ha ha' => hde ?_
  rw [mem_span] at ha ha'
  simp only [accAt] at ha ha'
  omega

/-- Each of the words reads back. -/
theorem acc_store_words (s : State) {e : Nat × Nat} (he : e ∈ ws) : (s.store (wordPlaces g ws) (wordImage ws)).acc g e.1 = BitVec.ofNat 32 e.2 := by
  have places (a : Nat) : (span a 4).length = 4 := rfl
  have size (x : Nat) : (leBytes 4 x).length = 4 := rfl
  have loaded : (s.store (wordPlaces g ws) (wordImage ws)).load (wordPlaces g ws) = wordImage ws := by
    refine load_setBytes (wordPlaces g ws) (wordImage ws) s ?_ (nodup_wordPlaces hg hlt hnodup)
    simp only [wordPlaces, wordImage, List.length_flatMap, places, size]
  simp only [State.load, wordPlaces, wordImage, List.map_flatMap] at loaded
  have word := flatMap_parts (fun x => by rw [List.length_map, places, size]) loaded e he
  rw [State.acc, State.loadLE]
  refine congrArg (BitVec.ofNat 32) ((congrArg leNat word).trans (leNat_leBytes 4 e.2)) |>.trans ?_
  exact BitVec.eq_of_toNat_eq (by simp)

end

/-! ### The words of a window (R103, R105 to R109) -/

section
variable {w : Window} {f : Frame} {bounded : Bool} {ctr : Nat} {weight : Nat → Nat → Int} {ew : Nat → Int} {acc : Nat → BitVec 32}

theorem mem_windowUpdates {e : Nat × Nat} : e ∈ (windowUpdates w f bounded ctr weight ew acc).words ↔
    ∃ i b, i < w.rows ∧ b < 32 ∧ f.mask.getLsbD b = true ∧ e = (w.acc + 32 * i + b, w.wordFor f bounded ctr weight ew acc i b) := by
  rw [windowUpdates_words]
  simp only [List.mem_flatMap, mem_span, List.mem_map, Frame.mem_lanes]
  constructor
  · rintro ⟨i, ⟨-, hi⟩, b, ⟨hb, hm⟩, rfl⟩
    exact ⟨i, b, by omega, hb, hm, rfl⟩
  · rintro ⟨i, b, hi, hb, hm, rfl⟩
    exact ⟨i, ⟨by omega, by omega⟩, b, ⟨hb, hm⟩, rfl⟩

theorem nodup_windowUpdates : ((windowUpdates w f bounded ctr weight ew acc).words.map Prod.fst).Nodup := by
  rw [windowUpdates_words]
  simp only [List.map_flatMap, List.map_map, Function.comp_def]
  refine List.nodup_flatMap.mpr ⟨fun i _ => f.nodup_lanes.map fun b b' h => by simpa using h, (nodup_span 0 w.rows).imp fun {i j} hij => ?_⟩
  refine List.disjoint_left.mpr fun a ha ha' => hij ?_
  obtain ⟨b, hb, rfl⟩ := List.mem_map.mp ha
  obtain ⟨b', hb', h⟩ := List.mem_map.mp ha'
  have := (Frame.mem_lanes.mp hb).1
  have := (Frame.mem_lanes.mp hb').1
  omega

variable {g : Nat} (hg : g < 768) (ha : w.acc + 32 * w.rows ≤ 786432)

include ha in
theorem windowUpdates_inside : ∀ e ∈ (windowUpdates w f bounded ctr weight ew acc).words, e.1 < 786432 := by
  intro e he
  obtain ⟨i, b, hi, hb, -, rfl⟩ := mem_windowUpdates.mp he
  dsimp only
  omega

include hg ha

/-- A window writes the accumulator words of its rows at the wavelengths of the mask, and no other word. -/
theorem acc_windowUpdates (s : State) {i b : Nat} (hi : i < w.rows) (hb : b < 32) :
    let ws := (windowUpdates w f bounded ctr weight ew acc).words
    ((s.store (wordPlaces g ws) (wordImage ws)).acc g (w.acc + 32 * i + b)).toNat =
      if f.mask.getLsbD b = false then (s.acc g (w.acc + 32 * i + b)).toNat else w.wordFor f bounded ctr weight ew acc i b := by
  dsimp only
  split
  next hm =>
    refine congrArg BitVec.toNat (acc_store_words_other hg (windowUpdates_inside ha) s (by omega) fun h => ?_)
    obtain ⟨e, he, h⟩ := List.mem_map.mp h
    obtain ⟨i', b', -, hb', hm', rfl⟩ := mem_windowUpdates.mp he
    have same : b' = b := by dsimp only at h; omega
    rw [same, hm] at hm'
    exact absurd hm' (by decide)
  next hm =>
    have written : (w.acc + 32 * i + b, w.wordFor f bounded ctr weight ew acc i b) ∈ (windowUpdates w f bounded ctr weight ew acc).words :=
      mem_windowUpdates.mpr ⟨i, b, hi, hb, by simpa using hm, rfl⟩
    have word := acc_store_words hg (windowUpdates_inside ha) nodup_windowUpdates s written
    refine (congrArg BitVec.toNat word).trans ((BitVec.toNat_ofNat ..).trans (Nat.mod_eq_of_lt (w.wordFor_lt ..)))

theorem byte_windowUpdates_other (s : State) {a : Nat} (hother : ∀ i, i < 128 * w.rows → memKey a ≠ accAt g w.acc + i) :
    let ws := (windowUpdates w f bounded ctr weight ew acc).words
    (s.store (wordPlaces g ws) (wordImage ws)).byte a = s.byte a := by
  refine byte_store_words_other hg (windowUpdates_inside ha) s fun e he j hj => ?_
  obtain ⟨i, b, hi, hb, -, rfl⟩ := mem_windowUpdates.mp he
  have place : accAt g (w.acc + 32 * i + b) + j = accAt g w.acc + (128 * i + 4 * b + j) := by
    rw [Nat.add_assoc w.acc, accAt_add]
    omega
  rw [place]
  exact hother _ (by omega)

end

/-! ### The weights of a window (R104, R298) -/

/-- A window with what it still lacks of its weights. -/
def State.fetched (s : State) (g : Nat) (w : Window) : Window :=
  { w with ew := if w.ew = [] then s.rowExps g w else w.ew
           cols := w.cols ++ (span w.cols.length (w.t - w.cols.length)).map (s.symbolCodes g w) }

/-- The weight of a row at a symbol, as the window holds it (R103). -/
def Window.weight (y : Window) (i t : Nat) : Int := oscValue (((y.cols.getD t []).getD i 0).toNat % 64)
/-- The exponent of a row, as the window holds it (R104). -/
def Window.rowExp (y : Window) (i : Nat) : Int := sInt 8 (y.ew.getD i 0).toNat

section
variable {s : State} {g : Nat} {w : Window} {i : Nat} (hi : i < w.rows)
include hi

theorem fetched_rowExp : (s.fetched g w).rowExp i =
    sInt 8 (if w.ew = [] then s.byte (vaultAt g (w.weights + (w.rows * rowPitch w.t + i))) else w.ew.getD i 0).toNat := by
  refine congrArg (fun x : Byte => sInt 8 x.toNat) ?_
  simp only [State.fetched]
  split
  next => simp [State.rowExps, hi]
  next => rfl

theorem fetched_weight {t : Nat} (ht : t < w.t) : (s.fetched g w).weight i t = oscValue
    ((if t < w.cols.length then (w.cols.getD t []).getD i 0 else s.byte (vaultAt g (w.weights + (i * rowPitch w.t + t)))).toNat % 64) := by
  refine congrArg (fun x : Byte => oscValue (x.toNat % 64)) ?_
  simp only [State.fetched]
  split
  next h => rw [List.getD_append _ _ _ _ h]
  next h =>
    rw [List.getD_append_right _ _ _ _ (Nat.not_lt.mp h)]
    have late : t - w.cols.length < w.t - w.cols.length := by omega
    have column : w.cols.length + (t - w.cols.length) = t := by omega
    simp [span_eq_map, State.symbolCodes, hi, late, column]

end

end Sys2Proof.Machine
end

section
/-! PROOF. A received window is performed and completes (O44). -/

namespace Sys2Proof.Machine

/-! ### A received window is performed (R105 to R110, R120) -/

theorem newest_kept (c : Core) (n : Nat) (word : Word) : (n, word) ∈ (c.keepStatus n word).statuses := by
  simp only [Core.keepStatus]
  rw [List.drop_append_of_le_length (by omega)]
  exact List.mem_append_right _ (List.mem_singleton.mpr rfl)

theorem badWord_clean {α : Type} {s : State} (hp : s.poison = []) (g : Nat) (x : CommandWindow α) (reads : Bool) (is : List Nat) :
    s.badWord g x reads is = none := by
  simp [State.badWord, poisoned_clean hp]

/-- A window's words are written, and an open command window keeps what they replace (R109, R389). -/
def State.writeWindow (z : State) (g : Nat) (w : Window) (is : List Nat) (words : List (Nat × Nat)) : State :=
  let u := z.onCore g (fun c => { c with owin := c.owin.addPrior (z.newPrior g (z.core g).owin is) })
  ({ u with freeCtr := u.freeCtr + 32 * w.rows + 32 } : State).store (wordPlaces g words) (wordImage words)

/-- A performed window leaves its queue, with its status word and, unless a replay performs it, its flag (R110, R120, R391). -/
def Core.endWindow (c : Core) (w : Window) (again : Bool) (word : Word) : Core :=
  let c := ({ c with oq := c.oq.tail, owin := c.owin.addEntry (.window w) } : Core).keepStatus w.number word
  (if again then c else c.hwAdd w.flag 1).closeIdle

/-- The end of a window's conversion; saturation is counted (R109, R110, R120). -/
def State.finishWindow (z : State) (g : Nat) (w : Window) (is : List Nat) (r : WindowResult) (word : Word) : State :=
  let u := (z.writeWindow g w is r.words).onCore g (fun c => c.endWindow w (decide (0 < (z.core g).owin.quiet)) word)
  if r.sat = 0 then u else u.strataAdd 12 (dieOf g) 0 1

/-- A window whose weights are there is converted and ends (R105 to R110, R119, R120). -/
def State.convertWindow (z : State) (g : Nat) (w : Window) (f : Frame) (is : List Nat) (lpc : BitVec 2) : State :=
  let bounded := lpc.toNat ≤ 1 && w.skw.toNat ≤ 1
  let y := ((z.core g).headWindow).getD w
  let d := refRow w f (bounded && !z.upsets.contains (.deviation g)) (z.freeCtr + 32 * w.rows)
  let u := ({ z with upsets := z.upsets.erase (.deviation g) } : State)
  let r := windowUpdates w f (bounded && (!d.2 || noRef w f)) u.freeCtr y.weight y.rowExp (u.acc g)
  (u.finishWindow g w is r (statusWord w f r d.1 d.2 w.skw.toNat lpc.toNat)).afterDevx g w (d.2 && !noRef w f) bounded d.1

section
variable {s z : State} {w y : Window} {f : Frame} {g : Nat} {rest : List (Entry OEntry)}

theorem performWindow_dark (hlpc : (s.bus w.bus).lpc = 3) : s.performWindow g w f = s.windowFault g w 0x46 := if_pos hlpc

/-- A window whose weights were fetched and whose words are clean is converted (R104, R413). -/
theorem performWindow_converts (hlpc : (s.bus w.bus).lpc ≠ 3) {is : List Nat} (his : is = (span 0 w.rows).flatMap (fun i => f.lanes.map (fun b => w.acc + 32 * i + b)))
    (hz : (s.limitO g is).fetchWeights g w w.t = .ok z) (hp : z.poison = []) :
    s.performWindow g w f = z.convertWindow g w f is (s.bus w.bus).lpc := by
  subst his
  unfold Frame.lanes at *
  unfold State.performWindow
  refine (if_neg hlpc).trans ?_
  simp -zeta only [hz, badWord_clean hp]
  rfl

/-- With no reference row, a window with the laser and the skew in tolerance is converted within its bound, and owes no calibration. -/
theorem convertWindow_unreferenced {lpc : BitVec 2} (hlpc : lpc.toNat ≤ 1) (hskw : w.skw.toNat ≤ 1) (href : w.ref = 2) (hy : (z.core g).headWindow = some y)
    (is : List Nat) : ∃ word : Word, word.getLsbD 32 = false ∧ z.convertWindow g w f is lpc =
      (({ z with upsets := z.upsets.erase (.deviation g) } : State).finishWindow g w is
        (windowUpdates w f true z.freeCtr y.weight y.rowExp (z.acc g))
        word).onCore g (fun c => { c with devx := false }) := by
  have none : noRef w f = true := by simp [noRef, href]
  have good : (decide (lpc.toNat ≤ 1) && decide (w.skw.toNat ≤ 1)) = true := by simp [hlpc, hskw]
  refine ⟨?word, ?clear, ?runs⟩
  case runs =>
    simp only [State.convertWindow, State.afterDevx, none, good, hy, Option.getD_some, Bool.or_true, Bool.and_self, Bool.not_true, Bool.and_false,
      Bool.not_false, if_true]
    rfl
  case clear => exact statusWord_clear href f (windowUpdates_sat_lt ..) ..

theorem setBytes_mem_congr {s t : State} (h : t.mem = s.mem) (as : List Nat) (bs : List Byte) : (t.setBytes as bs).mem = (s.setBytes as bs).mem := by
  induction as generalizing s t bs with
  | nil => cases bs <;> exact h
  | cons a as ih =>
    cases bs with
    | nil => exact h
    | cons b bs => exact ih (congrArg (fun m => put 0 m (memKey a) b) h) bs

/-- A store gives the same bytes over the same memory. -/
theorem byte_store_congr {s u : State} (h : u.mem = s.mem) (as : List Nat) (bs : List Byte) (a : Nat) : (u.store as bs).byte a = (s.store as bs).byte a :=
  byte_congr (s := s.store as bs) (t := u.store as bs) (setBytes_mem_congr h as bs) a

theorem byte_writeWindow (is : List Nat) (words : List (Nat × Nat)) (a : Nat) :
    (z.writeWindow g w is words).byte a = (z.store (wordPlaces g words) (wordImage words)).byte a := by
  refine byte_store_congr (s := z) ?_ (wordPlaces g words) (wordImage words) a
  rfl

/-- Outside a command window a window's words change no core. -/
theorem core_writeWindow (hwin : (z.core g).owin = {}) (is : List Nat) (words : List (Nat × Nat)) : (z.writeWindow g w is words).core g = z.core g := by
  have stored : (z.writeWindow g w is words).core g = (z.onCore g (fun c => { c with owin := c.owin.addPrior (z.newPrior g (z.core g).owin is) })).core g :=
    congrArg (fun c : Sparse Core => look ({} : Core) c g) (store_cores ..)
  have kept (new : List (Nat × BitVec 32)) : (z.core g).owin.addPrior new = (z.core g).owin := by rw [hwin]; rfl
  rw [stored, core_onCore, if_pos rfl, kept]

/-- Outside a command window a window takes its place in the queue, its flag and its status word. -/
theorem endWindow_spec {c : Core} {e : Entry OEntry} (hq : c.oq = e :: rest) (hr : c.flagRank < 2) (hflag : w.flag ≠ 63)
    (hrest : rest ≠ []) (hm : c.mq ≠ []) (word : Word) : (c.endWindow w false word).oq = rest ∧ (c.endWindow w false word).getF w.flag = c.getF w.flag + 1 ∧
      (w.number, word) ∈ (c.endWindow w false word).statuses := by
  let d : Core := ({ c with oq := c.oq.tail, owin := c.owin.addEntry (.window w) } : Core).keepStatus w.number word
  have queue : d.oq = rest := congrArg List.tail hq
  obtain ⟨ts, sq, added⟩ := Core.hwAdd_eq (c := d) hr hflag 1
  have goesOn : c.endWindow w false word = d.hwAdd w.flag 1 := by
    show (d.hwAdd w.flag 1).closeIdle = _
    rw [added]
    exact Core.closeIdle_busy (.inl hm) (.inl (queue ▸ hrest))
  rw [goesOn]
  refine ⟨?_, Core.getF_hwAdd (c := d) hr hflag 1, ?_⟩
  · rw [added]
    exact queue
  · rw [added]
    exact newest_kept ..

theorem finishWindow_core (hwin : (z.core g).owin = {}) (is : List Nat) (r : WindowResult) (word : Word) :
    (z.finishWindow g w is r word).core g = (z.core g).endWindow w false word := by
  have uncounted (u : State) : (if r.sat = 0 then u else u.strataAdd 12 (dieOf g) 0 1).core g = u.core g := by split <;> rfl
  rw [State.finishWindow, uncounted, core_onCore, if_pos rfl, core_writeWindow hwin, hwin]
  rfl

theorem finishWindow_byte (is : List Nat) (r : WindowResult) (word : Word) (a : Nat) :
    (z.finishWindow g w is r word).byte a = (z.store (wordPlaces g r.words) (wordImage r.words)).byte a := by
  have uncounted (u : State) : (if r.sat = 0 then u else u.strataAdd 12 (dieOf g) 0 1).byte a = u.byte a := by split <;> rfl
  rw [State.finishWindow, uncounted]
  exact byte_writeWindow is r.words a

end

/-! ### Completion (R105 to R110, R120) -/

section
variable {s : State} {w : Window} {f : Frame} {g : Nat} {rest : List (Entry OEntry)}

/-- Outside a command window there are no limits to test. -/
theorem core_limitO (hwin : (s.core g).owin = {}) (is : List Nat) : (s.limitO g is).core g = s.core g := by
  have kept (new : List (Nat × BitVec 32)) : (s.core g).owin.limited new = (s.core g).owin := by rw [hwin]; rfl
  rw [State.limitO, core_onCore, if_pos rfl, kept]

theorem performWindow_spec (hq : (s.core g).oq = .work (.window w) :: rest) (hlpc : (s.bus w.bus).lpc.toNat ≤ 1) (hskw : w.skw.toNat ≤ 1) (href : w.ref = 2)
    (hp : s.poison = []) (hwin : (s.core g).owin = {}) (hr : (s.core g).flagRank < 2) (hflag : w.flag ≠ 63) (hrest : rest ≠ []) (hm : (s.core g).mq ≠ []) :
    let y := s.fetched g w
    let ws := (windowUpdates w f true s.freeCtr y.weight y.rowExp (s.acc g)).words
    ∃ t, ∃ word : Word, s.performWindow g w f = t ∧ (t.core g).oq = rest ∧ (t.core g).getF w.flag = (s.core g).getF w.flag + 1 ∧
      (w.number, word) ∈ (t.core g).statuses ∧ word.getLsbD 32 = false ∧ ∀ a, t.byte a = (s.store (wordPlaces g ws) (wordImage ws)).byte a := by
  have lit : (s.bus w.bus).lpc ≠ 3 := fun h => by rw [h] at hlpc; exact absurd hlpc (by decide)
  generalize his : (span 0 w.rows).flatMap (fun i => f.lanes.map (fun b => w.acc + 32 * i + b)) = is
  let z : State := (s.limitO g is).onCore g (fun c => { c with oq := .work (.window (s.fetched g w)) :: rest })
  have fetched : (s.limitO g is).fetchWeights g w w.t = .ok z :=
    fetchWeights_clean (s := s.limitO g is) hp (by rw [core_limitO hwin, hq]) rfl w.t
  have core : z.core g = { s.core g with oq := .work (.window (s.fetched g w)) :: rest } := by
    rw [core_onCore, if_pos rfl, core_limitO hwin]
  obtain ⟨word, clear, runs⟩ := convertWindow_unreferenced (z := z) (f := f) hlpc hskw href (Core.headWindow_eq (by rw [core])) is
  obtain ⟨queue, flag, kept⟩ := endWindow_spec (c := z.core g) (w := w) (by rw [core]) (by rw [core]; exact hr) hflag hrest (by rw [core]; exact hm) word
  refine ⟨_, word, (performWindow_converts lit his.symm fetched hp).trans runs, ?_⟩
  rw [core_onCore, if_pos rfl, finishWindow_core (by show (z.core g).owin = {}; rw [core]; exact hwin)]
  refine ⟨queue, flag.trans ?_, kept, clear, fun a => (finishWindow_byte ..).trans ?_⟩
  · rw [core]
    rfl
  · refine byte_store_congr (s := s) ?_ ..
    rfl

/-- The word of a row and a wavelength, from the weights as they stand in the window or in the vault. -/
theorem wordFor_fetched (s : State) (g : Nat) {i b : Nat} (hi : i < w.rows) (hcodes : (f.codes.getD b []).length = w.t) :
    let read (o : Nat) : Byte := s.byte (vaultAt g (w.weights + o))
    let weight (t : Nat) : Nat := (if t < w.cols.length then (w.cols.getD t []).getD i 0 else read (i * rowPitch w.t + t)).toNat
    let ew : Nat := (if w.ew = [] then read (w.rows * rowPitch w.t + i) else w.ew.getD i 0).toNat
    let y := s.fetched g w
    w.wordFor f true s.freeCtr y.weight y.rowExp (s.acc g) i b =
      if f.ea.getD b 0 = -128 then 0x7FC00000
      else (updateWord w.accumulate (s.acc g (w.acc + 32 * i + b)) (termNum (deliveredCode true w.t w.sh
        (((List.range w.t).map (fun t => oscValue (weight t % 64) * (f.codes.getD b []).getD t 0)).sum) (Config.free (s.freeCtr + 32 * i + b)))
        (w.sh + sInt 8 ew + f.ea.getD b 0))).1 := by
  have products : (List.range w.t).map (fun t => (s.fetched g w).weight i t * (f.codes.getD b []).getD t 0) =
      (List.range w.t).map (fun t => oscValue ((if t < w.cols.length then (w.cols.getD t []).getD i 0
        else s.byte (vaultAt g (w.weights + (i * rowPitch w.t + t)))).toNat % 64) * (f.codes.getD b []).getD t 0) :=
    List.map_congr_left fun t ht => by rw [fetched_weight hi (List.mem_range.mp ht)]
  dsimp only
  rw [Window.wordFor, dotSum_eq _ _ hcodes, fetched_rowExp hi, products]

/-- R105 to R110 and R120 for a window outside a command window. -/
theorem windowCompletion_spec (hq : (s.core s.ev.core).oq = .work (.window w) :: rest) (hf : w.frame = some f) (hlpc : (s.bus w.bus).lpc.toNat ≤ 1)
    (hskw : w.skw.toNat ≤ 1) (href : w.ref = 2) (hp : s.poison = []) (hwin : (s.core s.ev.core).owin = {}) (hr : (s.core s.ev.core).flagRank < 2)
    (hflag : w.flag ≠ 63) (hrest : rest ≠ []) (hm : (s.core s.ev.core).mq ≠ []) (ha : w.acc + 32 * w.rows ≤ 786432) (hg : s.ev.core < 768) :
    let g := s.ev.core
    let read (o : Nat) : Byte := s.byte (vaultAt g (w.weights + o))
    let weight (i t : Nat) : Nat := (if t < w.cols.length then (w.cols.getD t []).getD i 0 else read (i * rowPitch w.t + t)).toNat
    let ew (i : Nat) : Nat := (if w.ew = [] then read (w.rows * rowPitch w.t + i) else w.ew.getD i 0).toNat
    let code (i b : Nat) : Int := deliveredCode true w.t w.sh
      (((List.range w.t).map (fun t => oscValue (weight i t % 64) * (f.codes.getD b []).getD t 0)).sum) (Config.free (s.freeCtr + 32 * i + b))
    ∃ t word, exec .windowCompletion s = .next t ∧ (t.core g).oq = rest ∧ (t.core g).getF w.flag = (s.core g).getF w.flag + 1 ∧
      (w.number, word) ∈ (t.core g).statuses ∧ (word : Word).getLsbD 32 = false ∧
      (∀ i b, i < w.rows → b < 32 → f.codes.length = 32 → (∀ l ∈ f.codes, l.length = w.t) → (t.acc g (w.acc + 32 * i + b)).toNat =
        if f.mask.getLsbD b = false then (s.acc g (w.acc + 32 * i + b)).toNat else if f.ea.getD b 0 = -128 then 0x7FC00000
        else (updateWord w.accumulate (s.acc g (w.acc + 32 * i + b)) (termNum (code i b) (w.sh + sInt 8 (ew i) + f.ea.getD b 0))).1) ∧
      (∀ a, (∀ i, i < 128 * w.rows → memKey a ≠ accAt g w.acc + i) → t.byte a = s.byte a) := by
  obtain ⟨t, word, runs, queue, flag, kept, clear, bytes⟩ := performWindow_spec (f := f) hq hlpc hskw href hp hwin hr hflag hrest hm
  refine ⟨t, word, ?_, queue, flag, kept, clear, fun i b hi hb hlen hcodes => ?_, fun a hother => (bytes a).trans (byte_windowUpdates_other hg ha s hother)⟩
  · show execWindowCompletion s = _
    simp only [execWindowCompletion, Core.headWindow_eq hq, hf, runs]
  · have column : (f.codes.getD b []).length = w.t := by
      rw [List.getD_eq_getElem _ _ (hlen ▸ hb)]
      exact hcodes _ (List.getElem_mem _)
    have word : t.acc s.ev.core (w.acc + 32 * i + b) = _ := congrArg (BitVec.ofNat 32) (loadLE_congr fun j _ => bytes _)
    rw [word, ← wordFor_fetched s s.ev.core hi column]
    exact acc_windowUpdates hg ha s hi hb

theorem windowCompletion_dark (hq : (s.core s.ev.core).oq = .work (.window w) :: rest) (hf : w.frame = some f) (hlpc : (s.bus w.bus).lpc = 3) :
    exec .windowCompletion s = .next (s.windowFault s.ev.core w 0x46) := by
  show execWindowCompletion s = _
  simp only [execWindowCompletion, Core.headWindow_eq hq, hf, performWindow_dark hlpc]

end

/-- Settles O44: each event of a window, a calibration or a laser does what its rule says. -/
theorem windowEvents : Obligations.WindowEvents := by
  unfold Obligations.WindowEvents
  refine ⟨fun s w rest => ?window, fun s k rest => ?calibration, fun s h => skewDrift_eq h, fun s => ?laser⟩
  case window =>
    intro g c b fault p read column hq
    refine ⟨?_, fun f more hk hf hnew hseg hre hframe hready => ?_, fun f hf => ⟨fun hlpc => ?_, ?_⟩, calibrationRun_trim hq⟩
    · exact fun hready hcal howed hskw htsm hbus hpassed hew hcols hp =>
        windowHeadReady_fetches hq hready hcal howed hskw htsm hbus hpassed hew hcols hp
    · have arrival := markerArrival_eq hq hk hf hnew hseg hre hframe hready
      intro z
      have head : (z.core g).oq = .work (.window w) :: rest := hq
      refine ⟨fun hcrc ht hdiv => arrival.trans ?_, fun hcrc => arrival.trans ?_, fun hcrc hmismatch => arrival.trans ?_⟩
      · have fits : ¬(w.t ≠ f.frame.t ∨ w.div ≠ f.frame.div) := by simp [ht, hdiv]
        simp only [hcrc, Bool.not_true, Bool.false_eq_true, if_false, if_neg fits]
        exact congrArg Host.Outcome.next (onCore_congr (Core.onHead_eq head _))
      · simp only [hcrc, Bool.not_false, if_true]
        exact congrArg Host.Outcome.next (windowFault_eq head 0x45)
      · simp only [hcrc, Bool.not_true, Bool.false_eq_true, if_false, if_pos hmismatch]
        exact congrArg Host.Outcome.next (windowFault_eq head 0x40)
    · exact (windowCompletion_dark hq hf hlpc).trans (congrArg Host.Outcome.next (windowFault_eq hq 0x46))
    · exact fun hlpc hskw href hp hwin hr hflag hrest hm ha hg => windowCompletion_spec hq hf hlpc hskw href hp hwin hr hflag hrest hm ha hg
  case calibration =>
    intro g c hq howed
    exact ⟨calibrationRun_queued hq howed, calibrationComplete_succeeds hq howed⟩
  case laser =>
    intro k v hk hon
    refine ⟨laserPower_spec hk hon, laserPower_same, laserLost_expires hon, laserLost_waits⟩

end Sys2Proof.Machine
end

section
/-! PROOF. Atomics at their units, their completion, and pending sums (O39). -/

namespace Sys2Proof.Machine

/-! ### What a step at a unit leaves alone (R137, R138, R228) -/

theorem core_congr {s t : State} (h : t.cores = s.cores) (g : Nat) : t.core g = s.core g := by rw [State.core, h, State.core]

theorem load_congr {s t : State} (h : t.mem = s.mem) (l : List Nat) : t.load l = s.load l :=
  List.map_congr_left fun a _ => byte_congr h a

/-- A unit's status register takes the flags of an addition; cores, memory and marks stay. -/
theorem accrueUnit_eq (s : State) (u : AtomicUnit) (ctx : Nat) (x : Flags) : ∃ m, s.accrueUnit u ctx x = { s with atst := m } := by
  unfold State.accrueUnit
  split <;> exact ⟨_, rfl⟩

theorem setAccess_others (s : State) (g : Nat) (k : StrandKind) (x : Access) : SameOthers g s (s.setAccess g k x) :=
  fun _ hh => (core_onCore ..).trans (if_neg hh)

/-- A number stored at addresses of distinct keys reads back up to their width. -/
theorem leNat_load_store {l : List Nat} (hkeys : (l.map memKey).Nodup) (s : State) (n : Nat) :
    leNat ((s.store l (leBytes l.length n)).load l) = n % 2 ^ (8 * l.length) := by
  have size : l.length = (leBytes l.length n).length := by rw [leBytes_eq, List.length_map, List.length_range]
  have written : (s.store l (leBytes l.length n)).load l = leBytes l.length n := load_setBytes _ _ s size hkeys
  rw [written, leNat_leBytes, show (256 : Nat) = 2 ^ 8 from rfl, ← pow_mul]

/-- An access that is replaced under its own number is found under it. -/
theorem access?_setAccess {s z : State} {g i : Nat} {k : StrandKind} {x y : Access} (ha : s.access? (g, k, i) = some x) (hz : z.cores = s.cores)
    (hy : y.id = x.id) : (z.setAccess g k y).access? (g, k, i) = some y := by
  have number : x.id = i := of_decide_eq_true (List.find?_some ha :)
  have replaced (l : List Access) (hl : l.find? (fun w => w.id = i) = some x) :
      (l.map (fun w => if w.id = y.id then y else w)).find? (fun w => w.id = i) = some y := by
    have tests : ((fun w : Access => decide (w.id = i)) ∘ fun w => if w.id = y.id then y else w) = fun w => decide (w.id = i) := by
      funext w
      by_cases h : w.id = i <;> simp [h, hy, number]
    rw [List.find?_map, tests, hl, Option.map_some, if_pos hy.symm]
  rw [State.access?] at ha
  rw [State.access?, State.setAccess, core_onCore, if_pos rfl, core_congr hz]
  cases k with
  | c => exact replaced _ ha
  | a => exact replaced _ ha
  | m => exact absurd ha (by simp [Core.out])
  | o => exact absurd ha (by simp [Core.out])

/-! ### An atomic executes at its unit (R137, R138, R228) -/

/-- The operation only reads its location: LOAD of R227. -/
def onlyReads (op : Nat) (cas : Bool) : Bool := decide (op = 10) && !cas

theorem onlyReads_iff {op : Nat} {cas : Bool} : onlyReads op cas = true ↔ op = 10 ∧ cas = false := by simp [onlyReads]

/-- What one atomic stores over `m`, up to the width of its cell: a compare and swap only on a match. -/
theorem atomicNew_mod (op ty : Nat) (cas : Bool) (v e : BitVec 128) (m : Nat) : (atomicNew op ty cas v e m).1 % 2 ^ (8 * atomicBytes ty) =
    (if cas then (if m = e.toNat % 2 ^ (8 * atomicBytes ty) then v.toNat else m) else (atomicStored op ty m v.toNat).1) % 2 ^ (8 * atomicBytes ty) := by
  unfold atomicNew
  cases cas with
  | false => rfl
  | true =>
    by_cases h : m = e.toNat % 2 ^ (8 * atomicBytes ty)
    · simp only [if_true, if_pos h, Nat.mod_mod]
    · simp only [if_true, if_neg h]

/-- The state as the unit leaves it: a LOAD observes its location, from the value that a NOR read has taken on; every other operation
stores its value there (R127, R138, R228). -/
def State.atUnit (s : State) (g : Nat) (k : StrandKind) (x : Access) (nor reads : Bool) (value : Nat) : State :=
  if nor && reads then { s with past := observeFrom g k x.addrs (s.norDepth g k x) s.past }
  else (if reads then s else s.store x.addrs (leBytes x.addrs.length value)).observe g k x.addrs

theorem atUnit_cores (s : State) (g : Nat) (k : StrandKind) (x : Access) (nor reads : Bool) (value : Nat) :
    (s.atUnit g k x nor reads value).cores = s.cores := by
  unfold State.atUnit
  split
  · rfl
  · split
    · rfl
    · exact store_cores ..

theorem atUnit_reads (s : State) (g : Nat) (k : StrandKind) (x : Access) (nor : Bool) (value : Nat) : SameMemory s (s.atUnit g k x nor true value) := by
  cases nor <;> exact sameMemory_of rfl rfl

theorem atUnit_stores (s : State) (g : Nat) (k : StrandKind) (x : Access) (nor : Bool) (value : Nat) :
    (s.atUnit g k x nor false value).mem = (s.store x.addrs (leBytes x.addrs.length value)).mem := by
  cases nor <;> rfl

/-- The cell holds the value stored, up to its width. -/
theorem load_atUnit (s : State) (g : Nat) (k : StrandKind) {x : Access} (hkeys : (x.addrs.map memKey).Nodup) (nor : Bool) (value : Nat) :
    leNat ((s.atUnit g k x nor false value).load x.addrs) = value % 2 ^ (8 * x.addrs.length) :=
  (congrArg leNat (load_congr (atUnit_stores ..) _)).trans (leNat_load_store hkeys s value)

theorem byte_atUnit_other (s : State) (g : Nat) (k : StrandKind) (x : Access) (nor reads : Bool) (value : Nat) {a : Nat}
    (ha : ∀ b ∈ x.addrs, memKey a ≠ memKey b) : (s.atUnit g k x nor reads value).byte a = s.byte a := by
  cases reads with
  | true => exact (atUnit_reads s g k x nor value).1 a
  | false => exact (byte_congr (atUnit_stores ..) a).trans (byte_store_other s _ _ a ha)

/-- A NOR read whose event asks for no older value sees the present one (R138). -/
theorem seen_eq (s : State) (g : Nat) (k : StrandKind) (x : Access) (op use m : Nat) (cas : Bool) :
    (if decide (use = 2) && onlyReads op cas then s.norValue g k x m else m) =
      if use = 2 ∧ op = 10 ∧ cas = false ∧ s.ev.flag = true then s.norValue g k x m else m := by
  cases hf : s.ev.flag with
  | true => simp [onlyReads_iff]
  | false => simp [State.norValue, hf]

section
variable {s : State} {g : Nat} {k : StrandKind} {x : Access} {op ty use : Nat} {cas : Bool} {v e : BitVec 128}
  (hk : x.kind = .atomic op ty cas v e use) (hroute : x.route = .plain) (hunit : x.unit = 8) (hopen : s.vaultClosed g x = false)
  (hreach : s.unreachable x.addrs = none) (hclean : ∀ a ∈ x.addrs, s.poisoned a = false)
include hk hroute hunit hopen hreach hclean

/-- An atomic in this module's memory: one change at the unit, and the value seen there stays with the access. -/
theorem executeAtomic_plain : let m := leNat (s.load x.addrs)
    ∃ status flags, s.executeAtomic g k x = ({ s.atUnit g k x (decide (use = 2)) (onlyReads op cas) (atomicNew op ty cas v e m).1 with
        atst := status } : State).setAccess g k { x with
          phase := .answered (BitVec.ofNat 256 (if decide (use = 2) && onlyReads op cas then s.norValue g k x m else m)), flags := flags } := by
  have bytes : x.bytes = x.addrs := by simp [Access.bytes, unitBytes, hunit]
  have clean : s.firstPoison x.addrs = none := List.find?_eq_none.mpr fun a ha => by simp [hclean a ha]
  have stored (n : Nat) : s.storeUnits 8 x.addrs n = s.store x.addrs (leBytes x.addrs.length n) := by rw [State.storeUnits.eq_def, if_pos rfl]
  have old : s.loadUnits 8 x.addrs = leNat (s.load x.addrs) := if_pos rfl
  let m := leNat (s.load x.addrs)
  let r := atomicNew op ty cas v e m
  let w := s.atUnit g k x (decide (use = 2)) (onlyReads op cas) r.1
  have unit : ∀ returns : Bool, ∃ status, (if returns then w else w.accrueUnit x.unitOf (w.ctxOn g) r.2) = { w with atst := status }
    | true => ⟨_, rfl⟩
    | false => accrueUnit_eq ..
  obtain ⟨status, hw⟩ := unit (decide (x.dest ≠ .none) && decide (k = .c))
  refine ⟨status, if decide (x.dest ≠ .none) && decide (k = .c) then r.2 else 0, ?_⟩
  rw [← hw]
  simp only [State.executeAtomic, hk, hroute, hopen, bytes, hreach, clean, hunit, stored, old, Bool.false_eq_true, if_false]
  rfl

/-- What an atomic in this module's memory has done: its cell, every other byte, its access, every other core (R137, R138, R227). -/
theorem executeAtomic_spec {i : Nat} (ha : s.access? (g, k, i) = some x) (hlen : x.addrs.length = atomicBytes ty) (hkeys : (x.addrs.map memKey).Nodup) :
    let n := atomicBytes ty
    let m := leNat (s.load x.addrs)
    let seen := if use = 2 ∧ op = 10 ∧ cas = false ∧ s.ev.flag = true then s.norValue g k x m else m
    let stored := if cas then (if m = e.toNat % 2 ^ (8 * n) then v.toNat else m) else (atomicStored op ty m v.toNat).1
    let t := s.executeAtomic g k x
    (op ≠ 10 ∨ cas = true → leNat (t.load x.addrs) = stored % 2 ^ (8 * n)) ∧ (op = 10 → cas = false → SameMemory s t) ∧
      (∀ a, (∀ b ∈ x.addrs, memKey a ≠ memKey b) → t.byte a = s.byte a) ∧ (∃ y, t.access? (g, k, i) = some y ∧
        y.phase = .answered (BitVec.ofNat 256 seen) ∧ y.dest = x.dest ∧ y.slot = x.slot) ∧ SameOthers g s t := by
  intro n m seen stored t
  obtain ⟨status, flags, runs⟩ : ∃ status flags, t = _ := executeAtomic_plain hk hroute hunit hopen hreach hclean
  have cores := atUnit_cores s g k x (decide (use = 2)) (onlyReads op cas) (atomicNew op ty cas v e m).1
  rw [runs]
  refine ⟨fun hw => ?_, fun ho hc => ?_, fun a hother => ?_, ⟨_, access?_setAccess ha cores rfl, ?_, rfl, rfl⟩, fun h hh => ?_⟩
  · have stores : onlyReads op cas = false := Bool.eq_false_iff.mpr fun h => by
      obtain ⟨ho, hc⟩ := onlyReads_iff.mp h
      exact hw.elim (absurd ho) (by simp [hc])
    refine Eq.trans (congrArg leNat (load_congr (s := s.atUnit g k x _ _ _) rfl _)) ?_
    rw [stores, load_atUnit s _ _ hkeys, hlen]
    exact atomicNew_mod ..
  · have reads : onlyReads op cas = true := onlyReads_iff.mpr ⟨ho, hc⟩
    rw [reads]
    exact atUnit_reads ..
  · exact byte_atUnit_other s g k x _ _ _ hother
  · exact congrArg (fun n => Phase.answered (BitVec.ofNat 256 n)) (seen_eq ..)
  · exact (setAccess_others _ _ _ _ h hh).trans (core_congr cores h)

end

/-- ATOMIC_EXECUTE of one atomic, not merged with others. -/
theorem atomicExecute_runs {s : State} {x : Access} {op ty use : Nat} {cas : Bool} {v e : BitVec 128} (hlone : (mergeLeaves s.ev.tree).length ≤ 1)
    (ha : s.access? (s.ev.core, s.ev.strand, s.ev.num) = some x) (hk : x.kind = .atomic op ty cas v e use) (hp : x.phase = .issued) (huse : use ≠ 3)
    (hm : s.mayPerform s.ev.core s.ev.strand x = true) : exec .atomicExecute s = .next (s.executeAtomic s.ev.core s.ev.strand x) := by
  show execAtomicExecute s = _
  simp only [execAtomicExecute, if_neg (Nat.not_lt.mpr hlone), ha, hk, hp, hm, huse, ne_eq, not_false_eq_true, decide_true, Bool.and_self, if_true]

/-! ### An executed atomic completes (R131, R228) -/

theorem answered_completes {s : State} {x : Access} {op ty use : Nat} {cas : Bool} {v e : BitVec 128} {r : BitVec 256}
    (ha : s.access? (s.ev.core, s.ev.strand, s.ev.num) = some x) (hk : x.kind = .atomic op ty cas v e use) (hp : x.phase = .answered r)
    (hspc : x.spc = false) (hmask : s.ev.num2 = 0) :
    exec .memoryAccessCompletion s = .next (s.endAccess s.ev.core s.ev.strand x (atomicBytes ty) r.toNat) := by
  show execMemoryAccessCompletion s = _
  rw [← completeAccess_whole (by rw [hmask, Dest.split_zero])]
  simp only [execMemoryAccessCompletion, ha, hp, State.performAccess, hk, hspc, ne_eq, reduceCtorEq, not_false_eq_true, decide_true, Bool.true_or,
    Bool.false_and, if_true, Bool.false_eq_true, if_false]

/-- What an s-register reads after an access to `s[r]` has ended, where the event names no later write. -/
theorem endAccess_getS_nil {s : State} {g : Nat} {k : StrandKind} {x : Access} (hspc : x.spc = false) (hflag : x.flag = 63) {r : Nat} (hd : x.dest = .s r)
    (hn : s.ev.nums = []) (n v q : Nat) : ((s.endAccess g k x n v).core g).getS q = if q = r ∧ r ≠ 0 then BitVec.ofNat 64 v else (s.core g).getS q := by
  rw [endAccess_getS hspc hflag hd, hn]
  simp only [List.not_mem_nil, false_and, not_false_eq_true, and_true]

/-! ### Pending sums (R140) -/

/-- The state once a pending sum has left its die. -/
def State.leaveQua (s : State) (d : Nat) (q : Qua) : State := s.onDie d (fun x => { x with qua := x.qua.filter (fun y => decide (y ≠ q)) })

theorem leaveQua_qua (s : State) (d : Nat) (q : Qua) : ((s.leaveQua d q).die d).qua = (s.die d).qua.filter (fun y => decide (y ≠ q)) := by
  rw [State.leaveQua, die_onDie, if_pos rfl]

/-- Whether a location takes a sum does not depend on the dies. -/
theorem quaError_onDie (s : State) (d : Nat) (f : Die → Die) (q : Qua) : (s.onDie d f).quaError q = s.quaError q := rfl

theorem OnlyMemory.dies {s t : State} (h : OnlyMemory s t) : t.dies = s.dies := (congrArg State.dies h :)

/-- QUA_PENDING_FLUSH waits for 4 µs after the first increment held. -/
theorem quaPendingFlush_eq {s : State} {q : Qua} (hq : (s.die s.ev.num).qua[s.ev.num2]? = some q) (hfly : q.flying = false) :
    exec .quaPendingFlush s = .next (if q.since + 4000 ≤ (s.die s.ev.num).time.toNat then s.flushQua s.ev.num q else s) := by
  refine congrArg Host.Outcome.next ?_
  rw [hq]
  exact if_neg (by simp [hfly])

section
variable {s : State} {q : Qua} {a : Nat} {as : List Nat} (hroute : q.route = .plain) (haddrs : q.addrs = a :: as) (hcounter : q.counter = none)
include hroute haddrs hcounter

/-- A sum that its location cannot take leaves its die and is lost. -/
theorem flushQua_lost {b : Nat} (h : s.quaError q = some b) (d : Nat) : s.flushQua d q = (s.leaveQua d q).loseQua q b := by
  simp only [State.flushQua, hcounter, hroute, haddrs, quaError_onDie, h]
  rfl

/-- A sum that its location takes leaves its die and is added there as one store. -/
theorem flushQua_added (hunit : q.unit = 8) (h : s.quaError q = none) (d : Nat) : s.flushQua d q =
    (s.leaveQua d q).store q.addrs (leBytes q.addrs.length ((leNat (s.load q.addrs) + q.sum) % 2 ^ (8 * atomicBytes q.ty))) := by
  simp only [State.flushQua, hcounter, hroute, haddrs, quaError_onDie, h, hunit]
  exact (State.storeUnits.eq_def ..).trans (if_pos rfl)

end

theorem flushQua_spec {s : State} {q : Qua} (hlen : q.addrs.length = atomicBytes q.ty) (hkeys : (q.addrs.map memKey).Nodup) (d : Nat) :
    let t := (s.leaveQua d q).store q.addrs (leBytes q.addrs.length ((leNat (s.load q.addrs) + q.sum) % 2 ^ (8 * atomicBytes q.ty)))
    leNat (t.load q.addrs) = (leNat (s.load q.addrs) + q.sum) % 2 ^ (8 * atomicBytes q.ty) ∧
      (∀ b, (∀ c ∈ q.addrs, memKey b ≠ memKey c) → t.byte b = s.byte b) ∧
      (t.die d).qua = (s.die d).qua.filter (fun y => decide (y ≠ q)) ∧ t.cores = s.cores := by
  have left := onlyMemory_store (s.leaveQua d q) q.addrs (leBytes q.addrs.length ((leNat (s.load q.addrs) + q.sum) % 2 ^ (8 * atomicBytes q.ty)))
  refine ⟨?_, fun b hb => byte_store_other (s.leaveQua d q) _ _ b hb, ?_, left.cores⟩
  · rw [leNat_load_store hkeys, hlen, Nat.mod_mod]
  · exact (congrArg Die.qua (congrArg (fun m : Sparse Die => look ({} : Die) m d) left.dies)).trans (leaveQua_qua s d q)

/-- Settles O39: an atomic is one change at its unit and its completion delivers the old value; a pending sum is added in one step. -/
theorem atomicExecution : Obligations.AtomicExecution := by
  unfold Obligations.AtomicExecution
  refine ⟨fun s x op ty use cas v e => ?atomic, fun s q a as => ?sum⟩
  case atomic =>
    intro g k n m seen stored hlone ha hk hroute hunit hopen hreach hclean hlen hkeys
    refine ⟨fun hp huse hm => ?_, fun r hp hspc hflag hn hmask => ?_⟩
    · obtain ⟨cell, same, others, ⟨y, found, phase, dest, slot⟩, cores⟩ := executeAtomic_spec hk hroute hunit hopen hreach hclean ha hlen hkeys
      exact ⟨_, y, atomicExecute_runs hlone ha hk hp huse hm, cell, same, others, found, phase, dest, slot, cores⟩
    · obtain ⟨gone, _, _⟩ := endAccess_gone (s := s) (g := g) (k := k) hspc hflag n r.toNat
      exact ⟨_, answered_completes ha hk hp hspc hmask, endAccess_sameMemory hspc hflag _ _, gone,
        fun d hd q => endAccess_getS_nil hspc hflag hd hn _ _ q, fun d hd q => endAccess_getA hspc hflag hd hn _ _ q⟩
  case sum =>
    intro d hq hfly hcounter hroute haddrs hunit hlen hkeys
    have flush := quaPendingFlush_eq hq hfly
    refine ⟨fun early => flush.trans ?_, fun b late hb => flush.trans ?_, fun late hb => ⟨_, flush.trans ?_, flushQua_spec hlen hkeys d⟩⟩
    · rw [if_neg (Nat.not_le.mpr early)]
    · rw [if_pos late, flushQua_lost hroute haddrs hcounter hb]
      rfl
    · rw [if_pos late, flushQua_added hroute haddrs hcounter hunit hb]

end Sys2Proof.Machine
end

section
/-! PROOF. Sends start, complete, are delivered and acknowledged; plans ask for their circuits (O41). -/

namespace Sys2Proof.Machine

/-! ### A send starts (R142, R263, R265, R371) -/

/-- A list cut into pieces of `c` is the pieces in order. -/
theorem flatMap_pieces {α : Type} (c n : Nat) (l : List α) : (List.range n).flatMap (fun i => (l.drop (c * i)).take c) = l.take (c * n) := by
  induction n with
  | zero => simp
  | succ n ih => rw [List.range_succ, List.flatMap_append, ih, List.flatMap_singleton, Nat.mul_succ, List.take_add]

/-- A piece's bytes go out in pieces of 32, one after the other. -/
theorem addPieces_spec (s : State) (p : Piece) : ∃ l n, s.addPieces p = s.onFabric (fun f => { f with pieces := f.pieces ++ l, nextPiece := n }) ∧
    l.length = pieceCount p.bytes.length ∧ l.flatMap (fun q => q.bytes) = p.bytes := by
  refine ⟨_, _, rfl, ?_, ?_⟩
  · rw [List.length_map, span_eq_map, List.length_map, List.length_range, pieceCount]
  · rw [List.flatMap_map, span_eq_map, List.flatMap_map]
    simp only [Nat.zero_add]
    rw [flatMap_pieces, List.take_of_length_le (by omega)]

section
variable {s : State} {x : Send} {rest : List (Entry Send)} {l : List Byte} {m : List Nat}
  (hq : (s.core s.ev.core).sq = .work x :: rest) (hbegun : x.begun = false) (hcoll : x.coll = false) (hmc : x.mc = false) (hchip : x.chip = s.chip)
  (hsource : s.readSource s.ev.core 25 x.ctx x.pc x.src x.count = (s, .bytes l m)) (hdest : s.destFault x.gcore x.ctx x.dst x.count = none)
include hq hbegun hcoll hmc hchip hsource hdest

/-- SEND_START to a core of this chip. -/
theorem sendStart_eq : exec .sendStart s = .next ((s.fly s.ev.core x (pieceCount x.count)).addPieces
    { id := 0, core := x.gcore, ctx := x.ctx, dst := x.dst, bytes := l, marks := m, rflag := x.rflag, sender := some (s.ev.core, x.id) }) := by
  show execSendStart s = _
  simp only [execSendStart, hq, hbegun, hcoll, hsource, State.startSend, hmc, hchip, hdest, Bool.false_eq_true, if_false, if_true]

theorem sendStart_spec (hlen : l.length = x.count) : let g := s.ev.core
    ∃ t, exec .sendStart s = .next t ∧ (t.core g).sq = .work { x with begun := true } :: rest ∧
      (t.core g).flying = (s.core g).flying ++ [{ send := x, core := g, owed := (x.count + 31) / 32, localDone := false }] ∧
      t.fabric.pieces.length = s.fabric.pieces.length + (x.count + 31) / 32 ∧
      (t.fabric.pieces.drop s.fabric.pieces.length).flatMap (fun p => p.bytes) = l ∧ SameMemory s t ∧ SameOthers g s t := by
  have runs := sendStart_eq hq hbegun hcoll hmc hchip hsource hdest
  obtain ⟨ps, n, added, size, bytes⟩ := addPieces_spec (s.fly s.ev.core x (pieceCount x.count))
    { id := 0, core := x.gcore, ctx := x.ctx, dst := x.dst, bytes := l, marks := m, rflag := x.rflag, sender := some (s.ev.core, x.id) }
  have flown : (s.fly s.ev.core x (pieceCount x.count)).core s.ev.core = { (s.core s.ev.core).startHead x with
      flying := (s.core s.ev.core).flying ++ [{ send := x, core := s.ev.core, owed := pieceCount x.count, localDone := false }] } :=
    (core_onCore ..).trans (if_pos rfl)
  rw [added] at runs
  refine ⟨_, runs, ?_, ?_, ?_, ?_, sameMemory_of rfl rfl,
    fun h hh => show (s.fly s.ev.core x _).core h = _ from (core_onCore ..).trans (if_neg hh)⟩
  · refine (congrArg Core.sq flown).trans ?_
    simp only [Core.startHead, hq, List.tail_cons]
  · exact congrArg Core.flying flown
  · refine List.length_append.trans (congrArg (s.fabric.pieces.length + ·) (size.trans ?_))
    rw [hlen, pieceCount]
  · refine (congrArg (List.flatMap _) List.drop_left).trans bytes

end

/-! ### Local completion and acknowledgement (R142, R265) -/

section
variable {s : State} {f : Flying} (hf : (s.core s.ev.core).flying.find? (fun y => y.send.id = s.ev.num) = some f)
include hf

theorem sendLocalCompletion_eq (hd : f.localDone = false) (hz : f.send.zc = false) :
    exec .sendLocalCompletion s = .next (s.sendDone s.ev.core f.send) := by
  refine congrArg Host.Outcome.next ?_
  rw [hf]
  exact if_neg (by simp [hd, hz])

/-- A send whose bytes have all left staging sends no request (R440). -/
theorem pumpSend_empty (hleft : f.left = []) : ∀ fuel, s.pumpSend s.ev.core s.ev.num fuel = s
  | 0 => rfl
  | fuel + 1 => by
    rw [State.pumpSend, hf]
    simp only [hleft, List.isEmpty_nil, if_true]

/-- SEND_ACK with no request under way: the send ends once nothing is owed any more. -/
theorem sendAck_eq (hr : s.fabric.requests = []) (hleft : f.left = []) :
    exec .sendAck s = .next (if f.owed ≠ 0 ∨ (f.localDone = false ∧ f.send.zc = false) then s
      else (if f.localDone then s else s.sendDone s.ev.core f.send).onCore s.ev.core (fun c => c.endSend f.send.id)) := by
  have settled : s.settleRequests = s := by rw [State.settleRequests, hr]; rfl
  show execSendAck s = _
  simp only [execSendAck, settled, pumpSend_empty hf hleft, hf, hleft, List.isEmpty_nil, Bool.not_true, Bool.false_or, Bool.or_eq_true, decide_eq_true_eq,
    Bool.and_eq_true, Bool.not_eq_true']

end

/-- Where no armed send has fired, none moves to the send queue. -/
theorem Core.moveFired_none {c : Core} (h : ∀ y ∈ c.triggers, y.fired = false) : c.moveFired = c := by
  have none : c.triggers.filter (fun t => t.fired) = [] := List.filter_eq_nil_iff.mpr fun y hy => by simp [h y hy]
  rw [Core.moveFired, none]
  rfl

/-- A list without its head, where the test drops the head alone. -/
theorem filter_behind {α : Type} {p : α → Bool} {a : α} {l : List α} (ha : p a = false) (hl : ∀ e ∈ l, p e = true) : (a :: l).filter p = l := by
  rw [List.filter_cons_of_neg (by simp [ha]), List.filter_eq_self.mpr hl]

/-- A send that has begun leaves the head of its queue, and every entry behind it stays. -/
theorem Core.endSend_head {c : Core} {x : Send} {rest : List (Entry Send)} (hq : c.sq = .work x :: rest) (hb : x.begun = true)
    (hrest : ∀ y, .work y ∈ rest → y.begun = false) (ht : ∀ y ∈ c.triggers, y.fired = false) :
    c.endSend x.id = { c with flying := c.flying.filter (fun y => decide (y.send.id ≠ x.id)), sq := rest } := by
  rw [Core.endSend, hq, filter_behind (by simp [hb])]
  · exact Core.moveFired_none ht
  · intro e he
    cases e with
    | work y => simp [hrest y he]
    | fence i => rfl

/-! ### Checked bytes of this module (R56, R61) -/

/-- A byte of this module as a checked unit. -/
def plainUnit (a : Nat) : Route × Nat × List Nat := (.plain, 8, [a])

/-- A checked byte stands in this module's memory, outside the register BAR. -/
def Target.IsPlainByte (t : Target) : Prop := t.route = .plain ∧ t.unit = 8 ∧ t.addrs.length = 1 ∧ ∀ a ∈ t.addrs, paSpace a ≠ 6

section
variable {dst : List (Nat × Target)} (h : ∀ e ∈ dst, e.2.IsPlainByte)
include h

/-- Checked bytes that each stand in this module are units of one address each. -/
theorem copyUnits_plain : copyUnits dst = (dst.flatMap (fun e => e.2.addrs)).map plainUnit := by
  induction dst with
  | nil => rfl
  | cons e dst ih =>
    obtain ⟨hroute, hunit, hone, _⟩ := h e (List.mem_cons_self ..)
    obtain ⟨a, ha⟩ := List.length_eq_one_iff.mp hone
    rw [List.flatMap_cons, List.map_append, ← ih fun d hd => h d (List.mem_cons_of_mem _ hd), copyUnits, List.map_cons, hroute, hunit, ha]
    rfl

theorem paSpace_plain {a : Nat} (ha : a ∈ dst.flatMap (fun e => e.2.addrs)) : paSpace a ≠ 6 := by
  obtain ⟨e, he, hea⟩ := List.mem_flatMap.mp ha
  obtain ⟨_, _, _, memory⟩ := h e he
  exact memory a hea

end

/-- Where every byte of a list can be reached, each can. -/
theorem unreachable_of_mem {s : State} {l : List Nat} (h : s.unreachable l = none) {a : Nat} (ha : a ∈ l) : s.unreachable [a] = none := by
  simp only [State.unreachable] at h ⊢
  split at h
  · exact nomatch h
  next tier =>
    split at h
    · exact nomatch h
    next mapped =>
      split at h
      · exact nomatch h
      next host =>
        have metadata := List.findSome?_eq_none_iff.mp (Option.map_eq_none_iff.mp h) a ha
        have alone {p : Nat → Bool} (hp : l.find? p = none) : [a].find? p = none := by
          rw [List.find?_eq_none] at hp ⊢
          simpa using hp a ha
        rw [alone tier, alone mapped, alone host, State.badMetadata, List.findSome?_cons, metadata]
        rfl

theorem unitsReach_plain {s : State} {l : List Nat} (h : s.unreachable l = none) (w : Word) : s.unitsReach w (l.map plainUnit) = none := by
  rw [State.unitsReach, List.findSome?_eq_none_iff]
  rintro ⟨i, u⟩ hu
  obtain ⟨a, ha, rfl⟩ := List.mem_map.mp (List.of_mem_zip hu).2
  exact congrArg (Option.map _) (unreachable_of_mem h ha)

theorem engineRefused_idle {s : State} (hr : s.fabric.requests = []) (g q : Nat) (a d : Word) : s.engineRefused g q a d = none := by
  rw [State.engineRefused, hr]
  rfl

/-- What byte values at bytes of this module write: each at its bit address. -/
def plainOuts (l vals : List Nat) : List (Nat × Route × Nat) := (l.zip vals).map (fun e => (8 * e.1, Route.plain, e.2 % 256))

theorem route_plainOuts {l vals : List Nat} : ∀ e ∈ plainOuts l vals, e.2.1 = .plain := by
  intro e he
  obtain ⟨p, _, rfl⟩ := List.mem_map.mp he
  rfl

theorem unitOuts_plain (l vals : List Nat) : unitOuts (l.map plainUnit) vals = (8, plainOuts l vals) := by
  have width : (match l.map plainUnit with | e :: _ => e.2.1 | [] => 8) = 8 := by cases l <;> rfl
  refine congrArg₂ Prod.mk width ?_
  rw [List.zip_map_left, List.flatMap_map, plainOuts, List.map_eq_flatMap]
  refine congrArg (List.flatMap · _) (funext fun e => ?_)
  simp [plainUnit, span, Nat.mul_comm]

theorem unitMarks_none (us : List (Route × Nat × List Nat)) (n : Nat) : unitMarks us ((span 0 n).map (fun i => ([] : List Nat).contains i)) = [] := by
  refine List.flatMap_eq_nil_iff.mpr fun e he => ?_
  obtain ⟨i, _, hi⟩ := List.mem_map.mp (List.of_mem_zip he).2
  rw [← hi]
  rfl

theorem writeReady_plain {out : List (Nat × Route × Nat)} (h : ∀ e ∈ out, e.2.1 = .plain) (s : State) (g q : Nat) (pc : Word) (eb : Nat) (marks : List Where) :
    s.writeReady g q pc eb out marks = (s, true) := by
  rw [State.writeReady, List.filterMap_eq_nil_iff.mpr (fun e he => ?_)]
  · rfl
  · rw [h e he]

/-- A store to memory alone is a store; one of no byte changes nothing. -/
theorem anyStore_plain {l : List Nat} (h : ∀ a ∈ l, paSpace a ≠ 6) (s : State) (bs : List Byte) : s.anyStore l bs = s.store l bs := by
  cases l with
  | nil =>
    have kept : s.poison.filter (fun u => !covers u []) = s.poison := List.filter_eq_self.mpr fun u _ => by
      simp only [covers, List.any_nil, Bool.not_eq_true', List.all_eq_false]
      exact ⟨u, mem_span.mpr ⟨le_rfl, by unfold unitSize; split <;> omega⟩, by decide⟩
    rw [State.store, kept]
    rfl
  | cons a l => exact if_neg (h a (List.mem_cons_self ..))

/-- Byte values written at bytes of this module are one store. -/
theorem writeLocal_plain {l : List Nat} {bs : List Byte} (hlen : l.length = bs.length) (h : ∀ a ∈ l, paSpace a ≠ 6) (s : State) :
    s.writeLocal 8 (plainOuts l (bs.map BitVec.toNat)) = s.store l bs := by
  have addresses : ((l.zip (bs.map BitVec.toNat)).flatMap fun e => span (8 * e.1 / 8) 1) = l := by
    simp only [Nat.mul_div_cancel_left _ (Nat.succ_pos 7), span]
    rw [← List.map_eq_flatMap, List.map_fst_zip (by rw [List.length_map, hlen])]
  have whole (b : Byte) : BitVec.ofNat 8 (b.toNat % 256) = b := by rw [Nat.mod_eq_of_lt b.isLt, BitVec.ofNat_toNat, BitVec.setWidth_eq]
  have values : ((l.zip (bs.map BitVec.toNat)).flatMap fun e => leBytes 1 (e.2 % 256)) = bs :=
    calc ((l.zip (bs.map BitVec.toNat)).flatMap fun e => leBytes 1 (e.2 % 256))
      _ = (l.zip (bs.map BitVec.toNat)).map (fun e => BitVec.ofNat 8 (e.2 % 256)) := List.map_eq_flatMap.symm
      _ = ((l.zip (bs.map BitVec.toNat)).map Prod.snd).map (fun v => BitVec.ofNat 8 (v % 256)) := by rw [List.map_map]; rfl
      _ = bs.map (fun b => BitVec.ofNat 8 (b.toNat % 256)) := by rw [List.map_snd_zip (by rw [List.length_map, hlen]), List.map_map]; rfl
      _ = bs := (List.map_congr_left fun b _ => whole b).trans (List.map_id bs)
  rw [State.writeLocal, List.filter_eq_self.mpr (fun e he => ?_), State.putElems, if_pos (le_refl 8), plainOuts, List.map_map, List.flatMap_map, List.flatMap_map]
  · refine Eq.trans ?_ (anyStore_plain h s bs)
    exact congrArg₂ (State.anyStore s) addresses values
  · rw [route_plainOuts e he]

/-! ### A piece is performed (R144, R263, R371) -/

/-- A piece that has been performed leaves the flags of every core alone. -/
theorem donePiece_f (s : State) (p : Piece) (g : Nat) : ((s.donePiece p).core g).f = (s.core g).f := by
  have acked (z : State) (h id : Nat) : ((z.ackSend h id).core g).f = (z.core g).f := by
    rw [State.ackSend, core_onCore]
    split
    next hg => rw [hg]
    · rfl
  have answered (z : State) (b : Prop) [Decidable b] (chip seq : Nat) : ((if b then z else z.respond chip seq 0 []).core g).f = (z.core g).f := by
    split <;> rfl
  unfold State.donePiece
  dsimp only
  cases p.sender with
  | none =>
    cases p.reply with
    | none => rfl
    | some r => exact answered ..
  | some e =>
    cases p.reply with
    | none => exact acked ..
    | some r => exact (answered ..).trans (acked ..)

section
variable {s : State} {p : Piece} {dst : List (Nat × Target)} {l : List Nat} {tk : Task} (hpresent : (s.core p.core).present = true)
  (htask : (s.core p.core).task = some tk) (hctx : tk.ctx = p.ctx) (hr : s.fabric.requests = []) (hmarks : p.marks = [])
  (hcheck : s.checkBytes p.core p.ctx p.dst .store p.bytes.length = .ok dst) (hplain : ∀ e ∈ dst, e.2.IsPlainByte)
  (hl : dst.flatMap (fun e => e.2.addrs) = l) (hreach : s.unreachable l = none) (hlen : l.length = p.bytes.length)
include hpresent htask hctx hr hmarks hcheck hplain hl hreach hlen

/-- A piece at a core that accepts it: one store of its bytes, then its part of RFLAG's addition, then its acknowledgement. -/
theorem deliverPiece_eq : s.deliverPiece p p.core =
    (((s.store l p.bytes).dropEngine p.core (64 + p.id)).hwAdd p.core p.rflag (BitVec.ofNat 48 p.bytes.length)).donePiece p := by
  have accepted : s.sendRefused p.core p.ctx p.dst = none := by
    simp only [State.sendRefused, hpresent, htask, hctx, Bool.not_true, Bool.false_eq_true, if_false, if_true]
  have units : copyUnits dst = l.map plainUnit := hl ▸ copyUnits_plain hplain
  have written := writeLocal_plain hlen (fun a ha => paSpace_plain hplain (hl ▸ ha)) s
  have ready := writeReady_plain (route_plainOuts (l := l) (vals := p.bytes.map BitVec.toNat)) s p.core (64 + p.id) (s.pieceSender p).2 8 []
  have mine : (((s.store l p.bytes).dropEngine p.core (64 + p.id)).core p.core).task = some tk :=
    (congrArg Core.task (core_congr (store_cores ..) p.core)).trans htask
  have unmarked (z : State) : z.markLocal [] = z := rfl
  simp only [State.deliverPiece, accepted, hcheck, units, unitsReach_plain hreach, engineRefused_idle hr, unitOuts_plain, hmarks, unitMarks_none, ready, written,
    unmarked, mine, hctx, decide_true, Bool.not_true, Bool.false_eq_true, if_false, if_true]

theorem deliverPiece_spec (hkeys : (l.map memKey).Nodup) (hrank : (s.core p.core).flagRank < 2) (hflag : p.rflag ≠ 63) :
    let t := s.deliverPiece p p.core
    t.load l = p.bytes ∧ (∀ a, (∀ b ∈ l, memKey a ≠ memKey b) → t.byte a = s.byte a) ∧
      (t.core p.core).getF p.rflag = (s.core p.core).getF p.rflag + BitVec.ofNat 48 p.bytes.length := by
  intro t
  have runs : t = _ := deliverPiece_eq hpresent htask hctx hr hmarks hcheck hplain hl hreach hlen
  have memory : t.mem = (s.store l p.bytes).mem := (congrArg State.mem runs).trans (State.donePiece_mem ..)
  have before : ((s.store l p.bytes).dropEngine p.core (64 + p.id)).core p.core = s.core p.core := core_congr (store_cores s l p.bytes) p.core
  refine ⟨(load_congr memory _).trans (load_setBytes _ _ s hlen hkeys), fun a ha => (byte_congr memory a).trans (byte_store_other s _ _ a ha), ?_⟩
  refine (congrArg (fun m : Sparse (BitVec 48) => look 0 m p.rflag) (runs ▸ donePiece_f _ p p.core)).trans ?_
  rw [State.hwAdd, core_onCore, if_pos rfl, before]
  exact Core.getF_hwAdd hrank hflag _

end

/-- SEND_DELIVERY of a piece to a core. -/
theorem sendDelivery_eq {s : State} {p : Piece} (hp : s.fabric.pieces[s.ev.num]? = some p) (hm : p.member = none) :
    exec .sendDelivery s = .next (s.deliverPiece p p.core) := by
  show execSendDelivery s = _
  simp only [execSendDelivery, hp, hm]

/-! ### Plans (R366) -/

/-- A plan that runs asks for its circuits before its first step, and waits until all are up. -/
theorem collectivePlanRun_eq {s : State} {p : Plan} (hp : s.fabric.plans[s.ev.num]? = some p) (hfailed : p.failed = false) (hclosing : p.closing = none)
    (h : p.asked = true → p.up.length < p.circuits.length) : exec .collectivePlanRun s =
      .next (if p.asked then s else (s.onPlan p.core p.send.id (fun p => { p with asked := true })).planCircuits p false) := by
  show execCollectivePlanRun s = _
  cases hasked : p.asked with
  | false => simp only [execCollectivePlanRun, hp, hclosing, hfailed, hasked, Bool.not_false, if_true, Bool.false_eq_true, if_false]
  | true => simp only [execCollectivePlanRun, hp, hclosing, hfailed, hasked, h hasked, Bool.not_true, if_true, Bool.false_eq_true, if_false]

/-- Settles O41: each event of a send and the first of a plan does what its rule says. -/
theorem sendEvents : Obligations.SendEvents := by
  unfold Obligations.SendEvents
  refine ⟨fun s x rest l m => ?start, fun s f => ?ends, fun s p dst tk => ?delivery, fun s p hp hfailed hclosing => ?plan⟩
  case start =>
    intro g hq hbegun hcoll hmc hchip hsource hdest hlen
    exact sendStart_spec hq hbegun hcoll hmc hchip hsource hdest hlen
  case ends =>
    intro g done hf
    refine ⟨fun hd hz hflag => ?_, fun hr hleft howed hd => ?_, fun x rest hq hb hid hrest ht => ?_, fun hr hleft howed => ?_⟩
    · rw [sendLocalCompletion_eq hf hd hz]
      simp only [State.sendDone, Core.hwAdd, hflag, Core.addFlag, if_false]
      rfl
    · rw [sendAck_eq hf hr hleft, if_neg (by simp [howed, hd]), if_pos hd]
    · rw [← hid]
      exact Core.endSend_head hq hb hrest ht
    · rw [sendAck_eq hf hr hleft, if_pos (.inl howed)]
  case delivery =>
    intro g at' hp hm hpresent htask hctx hr hrank hflag hmarks hcheck hplain hkeys hreach hlen
    obtain ⟨load, others, flag⟩ := deliverPiece_spec hpresent htask hctx hr hmarks hcheck hplain rfl hreach hlen hkeys hrank hflag
    exact ⟨_, sendDelivery_eq hp hm, load, others, flag⟩
  case plan =>
    refine ⟨fun hasked => ?_, fun hasked hup => ?_⟩
    · rw [collectivePlanRun_eq hp hfailed hclosing (by simp [hasked]), hasked]
      rfl
    · rw [collectivePlanRun_eq hp hfailed hclosing fun _ => hup, if_pos hasked]

end Sys2Proof.Machine
end

section
/-! PROOF. The word formats: a word gives back its opcode and every field it was made of (O54). -/

namespace Sys2Proof

/-! ### Fields of a concatenation: those above its low part, and the low part itself -/

theorem extractLsb'_append_high {v w s n : Nat} {x : BitVec v} {y : BitVec w} {z : BitVec n} (h : w ≤ s)
    (hx : x.extractLsb' (s - w) n = z) : (x ++ y).extractLsb' s n = z :=
  (BitVec.extractLsb'_append_eq_of_le h).trans hx

theorem extractLsb'_append_low {v w : Nat} (x : BitVec v) (y : BitVec w) : (x ++ y).extractLsb' 0 w = y :=
  (BitVec.extractLsb'_append_eq_of_add_le (Nat.zero_add w).le).trans BitVec.extractLsb'_eq_self

/-! ### C words (R155): the opcode in [63:54] -/

@[simp] theorem SR.of_bits (op : BitVec 10) (f : SR) : SR.of (f.bits op) = f := by
  unfold SR.of SR.bits
  congr <;> (repeat apply extractLsb'_append_high (by decide)) <;> exact extractLsb'_append_low _ _

@[simp] theorem SR.opcode_bits (op : BitVec 10) (f : SR) : (f.bits op).extractLsb' 54 10 = op := by
  unfold SR.bits
  repeat apply extractLsb'_append_high (by decide)
  exact BitVec.extractLsb'_eq_self

@[simp] theorem SI.of_bits (op : BitVec 10) (f : SI) : SI.of (f.bits op) = f := by
  unfold SI.of SI.bits
  congr <;> (repeat apply extractLsb'_append_high (by decide)) <;> exact extractLsb'_append_low _ _

@[simp] theorem SI.opcode_bits (op : BitVec 10) (f : SI) : (f.bits op).extractLsb' 54 10 = op := by
  unfold SI.bits
  repeat apply extractLsb'_append_high (by decide)
  exact BitVec.extractLsb'_eq_self

@[simp] theorem VR.of_bits (op : BitVec 10) (f : VR) : VR.of (f.bits op) = f := by
  unfold VR.of VR.bits
  congr <;> (repeat apply extractLsb'_append_high (by decide)) <;> exact extractLsb'_append_low _ _

@[simp] theorem VR.opcode_bits (op : BitVec 10) (f : VR) : (f.bits op).extractLsb' 54 10 = op := by
  unfold VR.bits
  repeat apply extractLsb'_append_high (by decide)
  exact BitVec.extractLsb'_eq_self

@[simp] theorem VI.of_bits (op : BitVec 10) (f : VI) : VI.of (f.bits op) = f := by
  unfold VI.of VI.bits
  congr <;> (repeat apply extractLsb'_append_high (by decide)) <;> exact extractLsb'_append_low _ _

@[simp] theorem VI.opcode_bits (op : BitVec 10) (f : VI) : (f.bits op).extractLsb' 54 10 = op := by
  unfold VI.bits
  repeat apply extractLsb'_append_high (by decide)
  exact BitVec.extractLsb'_eq_self

@[simp] theorem MV.of_bits (op : BitVec 10) (f : MV) : MV.of (f.bits op) = f := by
  unfold MV.of MV.bits
  congr <;> (repeat apply extractLsb'_append_high (by decide)) <;> exact extractLsb'_append_low _ _

@[simp] theorem MV.opcode_bits (op : BitVec 10) (f : MV) : (f.bits op).extractLsb' 54 10 = op := by
  unfold MV.bits
  repeat apply extractLsb'_append_high (by decide)
  exact BitVec.extractLsb'_eq_self

@[simp] theorem SY.of_bits (op : BitVec 10) (f : SY) : SY.of (f.bits op) = f := by
  unfold SY.of SY.bits
  congr <;> (repeat apply extractLsb'_append_high (by decide)) <;> exact extractLsb'_append_low _ _

@[simp] theorem SY.opcode_bits (op : BitVec 10) (f : SY) : (f.bits op).extractLsb' 54 10 = op := by
  unfold SY.bits
  repeat apply extractLsb'_append_high (by decide)
  exact BitVec.extractLsb'_eq_self

@[simp] theorem BR.of_bits (op : BitVec 10) (f : BR) : BR.of (f.bits op) = f := by
  unfold BR.of BR.bits
  congr <;> (repeat apply extractLsb'_append_high (by decide)) <;> exact extractLsb'_append_low _ _

@[simp] theorem BR.opcode_bits (op : BitVec 10) (f : BR) : (f.bits op).extractLsb' 54 10 = op := by
  unfold BR.bits
  repeat apply extractLsb'_append_high (by decide)
  exact BitVec.extractLsb'_eq_self

@[simp] theorem CT.of_bits (op : BitVec 10) (f : CT) : CT.of (f.bits op) = f := by
  unfold CT.of CT.bits
  congr <;> (repeat apply extractLsb'_append_high (by decide)) <;> exact extractLsb'_append_low _ _

@[simp] theorem CT.opcode_bits (op : BitVec 10) (f : CT) : (f.bits op).extractLsb' 54 10 = op := by
  unfold CT.bits
  repeat apply extractLsb'_append_high (by decide)
  exact BitVec.extractLsb'_eq_self

/-! ### A words (R158): the opcode in [63:58] -/

@[simp] theorem AR.of_bits (op : BitVec 6) (f : AR) : AR.of (f.bits op) = f := by
  unfold AR.of AR.bits
  congr <;> (repeat apply extractLsb'_append_high (by decide)) <;> exact extractLsb'_append_low _ _

@[simp] theorem AR.opcode_bits (op : BitVec 6) (f : AR) : (f.bits op).extractLsb' 58 6 = op := by
  unfold AR.bits
  repeat apply extractLsb'_append_high (by decide)
  exact BitVec.extractLsb'_eq_self

@[simp] theorem AI.of_bits (op : BitVec 6) (f : AI) : AI.of (f.bits op) = f := by
  unfold AI.of AI.bits
  congr <;> (repeat apply extractLsb'_append_high (by decide)) <;> exact extractLsb'_append_low _ _

@[simp] theorem AI.opcode_bits (op : BitVec 6) (f : AI) : (f.bits op).extractLsb' 58 6 = op := by
  unfold AI.bits
  repeat apply extractLsb'_append_high (by decide)
  exact BitVec.extractLsb'_eq_self

@[simp] theorem AB.of_bits (op : BitVec 6) (f : AB) : AB.of (f.bits op) = f := by
  unfold AB.of AB.bits
  congr <;> (repeat apply extractLsb'_append_high (by decide)) <;> exact extractLsb'_append_low _ _

@[simp] theorem AB.opcode_bits (op : BitVec 6) (f : AB) : (f.bits op).extractLsb' 58 6 = op := by
  unfold AB.bits
  repeat apply extractLsb'_append_high (by decide)
  exact BitVec.extractLsb'_eq_self

@[simp] theorem AT.of_bits (op : BitVec 6) (f : AT) : AT.of (f.bits op) = f := by
  unfold AT.of AT.bits
  congr <;> (repeat apply extractLsb'_append_high (by decide)) <;> exact extractLsb'_append_low _ _

@[simp] theorem AT.opcode_bits (op : BitVec 6) (f : AT) : (f.bits op).extractLsb' 58 6 = op := by
  unfold AT.bits
  repeat apply extractLsb'_append_high (by decide)
  exact BitVec.extractLsb'_eq_self

@[simp] theorem AS.of_bits (op : BitVec 6) (f : AS) : AS.of (f.bits op) = f := by
  unfold AS.of AS.bits
  congr <;> (repeat apply extractLsb'_append_high (by decide)) <;> exact extractLsb'_append_low _ _

@[simp] theorem AS.opcode_bits (op : BitVec 6) (f : AS) : (f.bits op).extractLsb' 58 6 = op := by
  unfold AS.bits
  repeat apply extractLsb'_append_high (by decide)
  exact BitVec.extractLsb'_eq_self

/-! ### M words (R161): the opcode in [127:120] -/

@[simp] theorem MM.of_bits (op : BitVec 8) (f : MM) : MM.of (f.bits op) = f := by
  unfold MM.of MM.bits
  congr <;> (repeat apply extractLsb'_append_high (by decide)) <;> exact extractLsb'_append_low _ _

@[simp] theorem MM.opcode_bits (op : BitVec 8) (f : MM) : (f.bits op).extractLsb' 120 8 = op := by
  unfold MM.bits
  repeat apply extractLsb'_append_high (by decide)
  exact BitVec.extractLsb'_eq_self

@[simp] theorem MG.of_bits (op : BitVec 8) (f : MG) : MG.of (f.bits op) = f := by
  unfold MG.of MG.bits
  congr <;> (repeat apply extractLsb'_append_high (by decide)) <;> exact extractLsb'_append_low _ _

@[simp] theorem MG.opcode_bits (op : BitVec 8) (f : MG) : (f.bits op).extractLsb' 120 8 = op := by
  unfold MG.bits
  repeat apply extractLsb'_append_high (by decide)
  exact BitVec.extractLsb'_eq_self

@[simp] theorem MN.of_bits (op : BitVec 8) (f : MN) : MN.of (f.bits op) = f := by
  unfold MN.of MN.bits
  congr <;> (repeat apply extractLsb'_append_high (by decide)) <;> exact extractLsb'_append_low _ _

@[simp] theorem MN.opcode_bits (op : BitVec 8) (f : MN) : (f.bits op).extractLsb' 120 8 = op := by
  unfold MN.bits
  repeat apply extractLsb'_append_high (by decide)
  exact BitVec.extractLsb'_eq_self

@[simp] theorem MT.of_bits (op : BitVec 8) (f : MT) : MT.of (f.bits op) = f := by
  unfold MT.of MT.bits
  congr <;> (repeat apply extractLsb'_append_high (by decide)) <;> exact extractLsb'_append_low _ _

@[simp] theorem MT.opcode_bits (op : BitVec 8) (f : MT) : (f.bits op).extractLsb' 120 8 = op := by
  unfold MT.bits
  repeat apply extractLsb'_append_high (by decide)
  exact BitVec.extractLsb'_eq_self

@[simp] theorem MS.of_bits (op : BitVec 8) (f : MS) : MS.of (f.bits op) = f := by
  unfold MS.of MS.bits
  congr <;> (repeat apply extractLsb'_append_high (by decide)) <;> exact extractLsb'_append_low _ _

@[simp] theorem MS.opcode_bits (op : BitVec 8) (f : MS) : (f.bits op).extractLsb' 120 8 = op := by
  unfold MS.bits
  repeat apply extractLsb'_append_high (by decide)
  exact BitVec.extractLsb'_eq_self

/-! ### O words (R163): the opcode in [127:120] -/

@[simp] theorem OC.of_bits (op : BitVec 8) (f : OC) : OC.of (f.bits op) = f := by
  unfold OC.of OC.bits
  congr <;> (repeat apply extractLsb'_append_high (by decide)) <;> exact extractLsb'_append_low _ _

@[simp] theorem OC.opcode_bits (op : BitVec 8) (f : OC) : (f.bits op).extractLsb' 120 8 = op := by
  unfold OC.bits
  repeat apply extractLsb'_append_high (by decide)
  exact BitVec.extractLsb'_eq_self

@[simp] theorem OW.of_bits (op : BitVec 8) (f : OW) : OW.of (f.bits op) = f := by
  unfold OW.of OW.bits
  congr <;> (repeat apply extractLsb'_append_high (by decide)) <;> exact extractLsb'_append_low _ _

@[simp] theorem OW.opcode_bits (op : BitVec 8) (f : OW) : (f.bits op).extractLsb' 120 8 = op := by
  unfold OW.bits
  repeat apply extractLsb'_append_high (by decide)
  exact BitVec.extractLsb'_eq_self

@[simp] theorem OS.of_bits (op : BitVec 8) (f : OS) : OS.of (f.bits op) = f := by
  unfold OS.of OS.bits
  congr <;> (repeat apply extractLsb'_append_high (by decide)) <;> exact extractLsb'_append_low _ _

@[simp] theorem OS.opcode_bits (op : BitVec 8) (f : OS) : (f.bits op).extractLsb' 120 8 = op := by
  unfold OS.bits
  repeat apply extractLsb'_append_high (by decide)
  exact BitVec.extractLsb'_eq_self

@[simp] theorem OX.of_bits (op : BitVec 8) (f : OX) : OX.of (f.bits op) = f := by
  unfold OX.of OX.bits
  congr <;> (repeat apply extractLsb'_append_high (by decide)) <;> exact extractLsb'_append_low _ _

@[simp] theorem OX.opcode_bits (op : BitVec 8) (f : OX) : (f.bits op).extractLsb' 120 8 = op := by
  unfold OX.bits
  repeat apply extractLsb'_append_high (by decide)
  exact BitVec.extractLsb'_eq_self

end Sys2Proof
end

section
/-! PROOF. The opcode maps read every instruction from its own word; decode and encode agree (O54). -/

namespace Sys2Proof

/-! ### The opcode of a C word: its class K and its number in the class (R155, R157) -/

theorem opcode_class (w : BitVec 64) : w.extractLsb' 62 2 = (w.extractLsb' 54 10).extractLsb' 8 2 := by
  ext i hi
  have inside : 8 + i < 10 := by omega
  simp [inside, ← Nat.add_assoc]

theorem opcode_index (w : BitVec 64) : w.extractLsb' 54 8 = (w.extractLsb' 54 10).extractLsb' 0 8 := by
  ext i hi
  have inside : i < 10 := by omega
  simp [inside]

section
variable {w : BitVec 64}

theorem rawC_class0 (h : (w.extractLsb' 54 10).extractLsb' 8 2 = 0#2) : rawC w = rawC0 w := by rw [rawC, opcode_class, h]; rfl
theorem rawC_class1 (h : (w.extractLsb' 54 10).extractLsb' 8 2 = 1#2) : rawC w = rawC1 w := by rw [rawC, opcode_class, h]; rfl
theorem rawC_class2 (h : (w.extractLsb' 54 10).extractLsb' 8 2 = 2#2) : rawC w = rawC2 w := by rw [rawC, opcode_class, h]; rfl
theorem rawC_class3 (h : (w.extractLsb' 54 10).extractLsb' 8 2 = 3#2) : rawC w = rawC3 w := by rw [rawC, opcode_class, h]; rfl

end

/-! ### Two instructions of one opcode: the field that the decoder tests tells them apart -/

theorem vmov_not_stream {f : VR} (h : (Instr.vmov f).wf = true) : ¬ (f.sub == 1) = true := by
  obtain ⟨_, hsub⟩ := Bool.and_eq_true_iff.mp h
  simp [eq_of_beq hsub]

theorem vmovStream_stream {f : VR} (h : (Instr.vmovStream f).wf = true) : (f.sub == 1) = true := by
  change (_ && _ && f.sub == 1 && _ && _ && _ && _) = true at h
  simp only [Bool.and_eq_true] at h
  obtain ⟨⟨⟨⟨⟨_, hsub⟩, _⟩, _⟩, _⟩, _⟩ := h
  exact hsub

theorem lldt_scalar {f : SY} (h : (Instr.lldt f).wf = true) : ¬ f.opt.toNat ≥ 4 := by
  change (_ && (f.opt == 0 || f.opt == 2) && _) = true at h
  simp only [Bool.and_eq_true, Bool.or_eq_true, beq_iff_eq] at h
  obtain ⟨⟨_, hopt | hopt⟩, _⟩ := h <;> simp [hopt]

theorem lldtV_vector {f : SY} (h : (Instr.lldtV f).wf = true) : f.opt.toNat ≥ 4 := by
  change (_ && _ && (f.opt == 4 || f.opt == 6) && _) = true at h
  simp only [Bool.and_eq_true, Bool.or_eq_true, beq_iff_eq] at h
  obtain ⟨⟨_, hopt | hopt⟩, _⟩ := h <;> simp [hopt]

theorem lld_scalar {f : SY} (h : (Instr.lld f).wf = true) : ¬ f.opt.toNat ≥ 4 := by
  change (_ && _ && f.opt == 0 && _) = true at h
  simp only [Bool.and_eq_true, beq_iff_eq] at h
  obtain ⟨⟨_, hopt⟩, _⟩ := h
  simp [hopt]

theorem lldV_vector {f : SY} (h : (Instr.lldV f).wf = true) : f.opt.toNat ≥ 4 := by
  change (_ && _ && f.opt == 4 && _) = true at h
  simp only [Bool.and_eq_true, beq_iff_eq] at h
  obtain ⟨⟨_, hopt⟩, _⟩ := h
  simp [hopt]

theorem alds_element {f : AT} (h : (Instr.alds f).wf = true) : ¬ f.dx.toNat ≥ 32 := by
  change (_ && _ && decide (f.dx.toNat < 32) && _ && _ && _) = true at h
  simp only [Bool.and_eq_true, decide_eq_true_eq] at h
  obtain ⟨⟨⟨⟨_, hdx⟩, _⟩, _⟩, _⟩ := h
  exact hdx.not_ge

theorem aldsStatus_status {f : AT} (h : (Instr.aldsStatus f).wf = true) : f.dx.toNat ≥ 32 := by
  change (_ && _ && _ && decide (32 ≤ f.dx.toNat) && _ && _ && _ && _) = true at h
  simp only [Bool.and_eq_true, decide_eq_true_eq] at h
  obtain ⟨⟨⟨⟨⟨_, hdx⟩, _⟩, _⟩, _⟩, _⟩ := h
  exact hdx

/-! ### Every instruction is read from its word, format by format -/

/-- The decoder reads a C instruction from its word. -/
theorem rawC_of_encode {i : Instr} {w : BitVec 64} (hwf : i.wf = true) (h : encode i = some (.c w)) : rawC w = some i := by
  cases i <;> cases h
  case add | sub | mul | mulh | mulhu | div | divu | rem | remu | and | or | xor | shl | shr | sar | min | max | minu | maxu | seq | sne |
      slt | sltu | clz | popc | bfx | bfi | sext | zext | fadds | fsubs | fmuls | fmas | fmins | fmaxs | fcmps | fcvtis | fcvtsi =>
    rw [rawC_class0 (by rw [SR.opcode_bits]; rfl), rawC0, opcode_index, SR.opcode_bits, SR.of_bits]
    rfl
  case addi | muli | andi | ori | xori | shli | shri | sari | slti | sltui | li | lih =>
    rw [rawC_class0 (by rw [SI.opcode_bits]; rfl), rawC0, opcode_index, SI.opcode_bits, SI.of_bits]
    rfl
  case vadd | vsub | vmul | vmulh | vmad | vmin | vmax | vand | vor | vxor | vshl | vshr | vsar | vabs | vclz | vpopc | vfadd | vfsub |
      vfmul | vfma | vfmin | vfmax | vfneg | vcmp | vfcmp | pand | por | pxor | pnot | pmovs | smovp | vsel | vmvs | vmvl | vidx | vexp2 | vlog2 |
      vrcp | vrsqrt | vtanh | vsigm | vcvt | vpack | vunpk | vperm | vbcl | vslide | vred | vscan | trd | twr | tsetf | trel | accrd | accwr |
      accz =>
    rw [rawC_class1 (by rw [VR.opcode_bits]; rfl), rawC1, opcode_index, VR.opcode_bits, VR.of_bits]
    rfl
  case vmov =>
    rw [rawC_class1 (by rw [VR.opcode_bits]; rfl), rawC1, opcode_index, VR.opcode_bits, VR.of_bits]
    exact if_neg (vmov_not_stream hwf)
  case vmovStream =>
    rw [rawC_class1 (by rw [VR.opcode_bits]; rfl), rawC1, opcode_index, VR.opcode_bits, VR.of_bits]
    exact if_pos (vmovStream_stream hwf)
  case vaddi | vli =>
    rw [rawC_class1 (by rw [VI.opcode_bits]; rfl), rawC1, opcode_index, VI.opcode_bits, VI.of_bits]
    rfl
  case ldv | stv | lds | sts | ldvx | stvx =>
    rw [rawC_class2 (by rw [MV.opcode_bits]; rfl), rawC2, opcode_index, MV.opcode_bits, MV.of_bits]
    rfl
  case amov | casv | fladd | flwait | flset | flrd | wait | tidwait | rclaim | rpub | rwfill | rwfree | rcons | rinfo | gbar | garr | gwait |
      ljoin | ljoinv | fence | qfence | evsig =>
    rw [rawC_class2 (by rw [SY.opcode_bits]; rfl), rawC2, opcode_index, SY.opcode_bits, SY.of_bits]
    rfl
  case lldt =>
    rw [rawC_class2 (by rw [SY.opcode_bits]; rfl), rawC2, opcode_index, SY.opcode_bits, SY.of_bits]
    exact if_neg (lldt_scalar hwf)
  case lldtV =>
    rw [rawC_class2 (by rw [SY.opcode_bits]; rfl), rawC2, opcode_index, SY.opcode_bits, SY.of_bits]
    exact if_pos (lldtV_vector hwf)
  case lld =>
    rw [rawC_class2 (by rw [SY.opcode_bits]; rfl), rawC2, opcode_index, SY.opcode_bits, SY.of_bits]
    exact if_neg (lld_scalar hwf)
  case lldV =>
    rw [rawC_class2 (by rw [SY.opcode_bits]; rfl), rawC2, opcode_index, SY.opcode_bits, SY.of_bits]
    exact if_pos (lldV_vector hwf)
  case br | brz | brp | jmp | jal | jr | loop =>
    rw [rawC_class3 (by rw [BR.opcode_bits]; rfl), rawC3, opcode_index, BR.opcode_bits, BR.of_bits]
    rfl
  case nop | fork | join | endC | region | csrrd | csrwr | csrset | csrclr | trap | bkpt | syscall =>
    rw [rawC_class3 (by rw [CT.opcode_bits]; rfl), rawC3, opcode_index, CT.opcode_bits, CT.of_bits]
    rfl

/-- The decoder reads an A instruction from its word. -/
theorem rawA_of_encode {i : Instr} {w : BitVec 64} (hwf : i.wf = true) (h : encode i = some (.a w)) : rawA w = some i := by
  cases i <;> cases h
  case aadd | asub | amul | aand | aor | axor | ashl | ashr | amin | amax =>
    rw [rawA, AR.opcode_bits, AR.of_bits]
    rfl
  case aaddi | ali | alih =>
    rw [rawA, AI.opcode_bits, AI.of_bits]
    rfl
  case abr | ajmp | aloop | aend | anop =>
    rw [rawA, AB.opcode_bits, AB.of_bits]
    rfl
  case dld | dset | tld | tst | tgath | tscat | tpref | scld | copy | xsend | xcoll | xrtsw | xcirc | amo | acas | dispatch | bcast =>
    rw [rawA, AT.opcode_bits, AT.of_bits]
    rfl
  case alds =>
    rw [rawA, AT.opcode_bits, AT.of_bits]
    exact if_neg (alds_element hwf)
  case aldsStatus =>
    rw [rawA, AT.opcode_bits, AT.of_bits]
    exact if_pos (aldsStatus_status hwf)
  case await | aflwait | afladd | atidwait =>
    rw [rawA, AS.opcode_bits, AS.of_bits]
    rfl

/-- The decoder reads an M instruction from its word. -/
theorem rawM_of_encode {i : Instr} {w : BitVec 128} (h : encode i = some (.m w)) : rawM w = some i := by
  cases i <;> cases h
  case mma | bmma =>
    rw [rawM, MM.opcode_bits, MM.of_bits]
    rfl
  case mgang =>
    rw [rawM, MG.opcode_bits, MG.of_bits]
    rfl
  case mnest | mgo =>
    rw [rawM, MN.opcode_bits, MN.of_bits]
    rfl
  case mtz | maccz | mtacc | msetf | mtrel | mfladd | mflwait =>
    rw [rawM, MT.opcode_bits, MT.of_bits]
    rfl
  case mli | madd | mbr | mloop | mend | mscq =>
    rw [rawM, MS.opcode_bits, MS.of_bits]
    rfl

/-- The decoder reads an O instruction from its word. -/
theorem rawO_of_encode {i : Instr} {w : BitVec 128} (h : encode i = some (.o w)) : rawO w = some i := by
  cases i <;> cases h
  case ocfg =>
    rw [rawO, OC.opcode_bits, OC.of_bits]
    rfl
  case owin =>
    rw [rawO, OW.opcode_bits, OW.of_bits]
    rfl
  case owait | ostat | ocal | oref =>
    rw [rawO, OS.opcode_bits, OS.of_bits]
    rfl
  case oli | oadd | obr | oloop | oend | ofladd | oflwait =>
    rw [rawO, OX.opcode_bits, OX.of_bits]
    rfl

/-! ### Decode and encode (R151, R396) -/

/-- A word as its strand's opcode map reads it, before the checks of R396. -/
def Code.raw : Code → Option Instr
  | .c w => rawC w
  | .a w => rawA w
  | .m w => rawM w
  | .o w => rawO w

theorem decode_eq_accept (c : Code) : decode c = accept c c.raw := by cases c <;> rfl

/-- What it takes to be accepted: the reading, well formed, whose word is this word. -/
theorem accept_eq_some {c : Code} {r : Option Instr} {i : Instr} : accept c r = some i ↔ r = some i ∧ i.wf = true ∧ encode i = some c := by
  cases r with
  | none => simp [accept]
  | some j =>
    simp only [accept, Option.ite_none_right_eq_some, Option.some.injEq, Bool.and_eq_true, beq_iff_eq]
    constructor
    · rintro ⟨checks, rfl⟩
      exact ⟨rfl, checks⟩
    · rintro ⟨rfl, checks⟩
      exact ⟨checks, rfl⟩

theorem decode_eq_some {c : Code} {i : Instr} : decode c = some i ↔ c.raw = some i ∧ i.wf = true ∧ encode i = some c := by
  rw [decode_eq_accept, accept_eq_some]

theorem raw_of_encode {i : Instr} {c : Code} (hwf : i.wf = true) (h : encode i = some c) : c.raw = some i := by
  cases c with
  | c w => exact rawC_of_encode hwf h
  | a w => exact rawA_of_encode hwf h
  | m w => exact rawM_of_encode h
  | o w => exact rawO_of_encode h

/-- Settles O54: the decoder reads an instruction's own word as that instruction, and accepts nothing but well-formed
instructions with the word they encode to. -/
theorem encodeDecode : Obligations.EncodeDecode := by
  unfold Obligations.EncodeDecode
  refine ⟨fun i c hwf h => decode_eq_some.mpr ⟨raw_of_encode hwf h, hwf, h⟩, fun i c h => ?_⟩
  obtain ⟨_, hwf, hword⟩ := decode_eq_some.mp h
  exact ⟨hword, hwf⟩

end Sys2Proof
end

section
/-! PROOF. Scalar integer instructions: their results as integers (O1) and bit by bit (O2). -/

namespace Sys2Proof.Machine

/-! ### Words as integers (R3, R176) -/

theorem ofInt_toInt_add (a b : Word) : BitVec.ofInt 64 (a.toInt + b.toInt) = a + b := by
  rw [BitVec.ofInt_add, BitVec.ofInt_toInt, BitVec.ofInt_toInt]

theorem ofInt_toInt_sub (a b : Word) : BitVec.ofInt 64 (a.toInt - b.toInt) = a - b := by
  rw [sub_eq_add_neg, BitVec.ofInt_add, BitVec.ofInt_neg, BitVec.ofInt_toInt, BitVec.ofInt_toInt, BitVec.sub_eq_add_neg]

theorem ofInt_toInt_mul (a b : Word) : BitVec.ofInt 64 (a.toInt * b.toInt) = a * b := by
  rw [BitVec.ofInt_mul, BitVec.ofInt_toInt, BitVec.ofInt_toInt]

theorem ofInt_toInt_shl (a : Word) (n : Nat) : BitVec.ofInt 64 (a.toInt * 2 ^ n) = a <<< n := by
  rw [BitVec.ofInt_mul, BitVec.ofInt_toInt, BitVec.shiftLeft_eq_mul_twoPow]
  congr 1
  exact BitVec.eq_of_toNat_eq (by
    rw [BitVec.toNat_twoPow, show (2 : Int) ^ n = ((2 ^ n : Nat) : Int) by push_cast; rfl, BitVec.ofInt_natCast, BitVec.toNat_ofNat])

theorem ofInt_toInt_sar (a : Word) (n : Nat) : BitVec.ofInt 64 (a.toInt / 2 ^ n) = a.sshiftRight n := by
  rw [BitVec.sshiftRight_eq, Int.shiftRight_eq_div_pow]
  push_cast
  rfl

theorem ofInt_toNat_shr (a : Word) (n : Nat) : BitVec.ofInt 64 ((a.toNat / 2 ^ n : Nat) : Int) = a >>> n := by
  rw [BitVec.ofInt_natCast]
  exact BitVec.eq_of_toNat_eq (by
    rw [BitVec.toNat_ushiftRight, Nat.shiftRight_eq_div_pow, BitVec.toNat_ofNat, Nat.mod_eq_of_lt ((Nat.div_le_self ..).trans_lt a.isLt)])

theorem ofInt_toNat (a : Word) : BitVec.ofInt 64 (a.toNat : Int) = a := by
  rw [BitVec.ofInt_natCast, BitVec.ofNat_toNat, BitVec.setWidth_eq]

theorem toInt_eq_zero_iff (b : Word) : b.toInt = 0 ↔ b = 0 := BitVec.toInt_inj (y := 0)

theorem toNat_eq_zero_iff (b : Word) : b.toNat = 0 ↔ b = 0 := BitVec.toNat_inj (y := 0)

/-! ### Division (R177) -/

theorem quotS_eq (a b : Word) : quotS a b = BitVec.ofInt 64 (if b.toInt = 0 then -1 else a.toInt.tdiv b.toInt) := by
  unfold quotS
  simp only [toInt_eq_zero_iff]
  split
  · rfl
  · rfl

theorem quotU_eq (a b : Word) : quotU a b = BitVec.ofInt 64 (if b.toNat = 0 then -1 else ((a.toNat / b.toNat : Nat) : Int)) := by
  unfold quotU
  simp only [toNat_eq_zero_iff]
  split
  · rfl
  · exact (BitVec.ofInt_natCast ..).symm

theorem remS_eq (a b : Word) : remS a b =
    BitVec.ofInt 64 (if b.toInt = 0 then a.toInt else a.toInt - b.toInt * a.toInt.tdiv b.toInt) := by
  unfold remS
  simp only [toInt_eq_zero_iff]
  split
  · exact BitVec.ofInt_toInt.symm
  · rw [Int.tmod_def]

theorem remU_eq (a b : Word) : remU a b =
    BitVec.ofInt 64 (if b.toNat = 0 then (a.toNat : Int) else ((a.toNat % b.toNat : Nat) : Int)) := by
  unfold remU
  simp only [toNat_eq_zero_iff]
  split
  · exact (ofInt_toNat a).symm
  · exact (BitVec.ofInt_natCast ..).symm

/-! ### Minimum, maximum and compare (R176) -/

theorem minS_eq (a b : Word) : (if a.toInt ≤ b.toInt then a else b) = BitVec.ofInt 64 (min a.toInt b.toInt) := by
  rw [min_def, apply_ite (BitVec.ofInt 64), BitVec.ofInt_toInt, BitVec.ofInt_toInt]

theorem maxS_eq (a b : Word) : (if a.toInt ≤ b.toInt then b else a) = BitVec.ofInt 64 (max a.toInt b.toInt) := by
  rw [max_def, apply_ite (BitVec.ofInt 64), BitVec.ofInt_toInt, BitVec.ofInt_toInt]

theorem minU_eq (a b : Word) : (if a.toNat ≤ b.toNat then a else b) = BitVec.ofInt 64 ((min a.toNat b.toNat : Nat) : Int) := by
  rw [min_def, ← apply_ite BitVec.toNat, ofInt_toNat]

theorem maxU_eq (a b : Word) : (if a.toNat ≤ b.toNat then b else a) = BitVec.ofInt 64 ((max a.toNat b.toNat : Nat) : Int) := by
  rw [max_def, ← apply_ite BitVec.toNat, ofInt_toNat]

theorem bit_eq (c : Prop) [Decidable c] : bit (decide c) = BitVec.ofInt 64 (if c then 1 else 0) := by
  unfold bit
  by_cases h : c <;> simp [h]

/-! ### The outcome of a two-register instruction -/

/-- A ready instruction of two registers gives what its function makes of their values. -/
theorem scalarOp_ready {f : SR} {s : State} (h : ready (srForm f) s = true) (g : Word → Word → Word) :
    scalarOp f g s = gaveS s f.sd (g (s.me.getS f.sa.toNat) (s.me.getS f.sb.toNat)) := issueCore_ready h _

/-- It gives an integer, where its function makes that integer's word. -/
theorem scalarOp_gives {f : SR} {s : State} (h : ready (srForm f) s = true) (g : Word → Word → Word) {v : Int}
    (hv : g (s.me.getS f.sa.toNat) (s.me.getS f.sb.toNat) = BitVec.ofInt 64 v) : scalarOp f g s = gaveS s f.sd (BitVec.ofInt 64 v) :=
  (scalarOp_ready h g).trans (congrArg (gaveS s f.sd) hv)

/-- Settles O1: each instruction gives its function's value, and each function's value is the integer's word. -/
theorem integerResults : Obligations.IntegerResults := by
  unfold Obligations.IntegerResults
  intro f s h a b sh gives
  have ne : bit (decide (a ≠ b)) = BitVec.ofInt 64 (if a.toInt = b.toInt then 0 else 1) := by
    simp only [bit_eq, ite_not, BitVec.toInt_inj]
  have eq : bit (decide (a = b)) = BitVec.ofInt 64 (if a.toInt = b.toInt then 1 else 0) := by
    simp only [bit_eq, BitVec.toInt_inj]
  show gives (execAdd f s) _ ∧ gives (execSub f s) _ ∧ gives (execMul f s) _ ∧ gives (execMulh f s) _ ∧ gives (execMulhu f s) _ ∧
    gives (execDiv f s) _ ∧ gives (execDivu f s) _ ∧ gives (execRem f s) _ ∧ gives (execRemu f s) _ ∧ gives (execShl f s) _ ∧
    gives (execShr f s) _ ∧ gives (execSar f s) _ ∧ gives (execMin f s) _ ∧ gives (execMax f s) _ ∧ gives (execMinu f s) _ ∧
    gives (execMaxu f s) _ ∧ gives (execSeq f s) _ ∧ gives (execSne f s) _ ∧ gives (execSlt f s) _ ∧ gives (execSltu f s) _
  exact ⟨scalarOp_gives h _ (ofInt_toInt_add a b).symm, scalarOp_gives h _ (ofInt_toInt_sub a b).symm,
    scalarOp_gives h _ (ofInt_toInt_mul a b).symm, scalarOp_gives h _ rfl, scalarOp_gives h _ (BitVec.ofInt_natCast ..).symm,
    scalarOp_gives h _ (quotS_eq a b), scalarOp_gives h _ (quotU_eq a b), scalarOp_gives h _ (remS_eq a b), scalarOp_gives h _ (remU_eq a b),
    scalarOp_gives h _ (ofInt_toInt_shl a sh).symm, scalarOp_gives h _ (ofInt_toNat_shr a sh).symm,
    scalarOp_gives h _ (ofInt_toInt_sar a sh).symm, scalarOp_gives h _ (minS_eq a b), scalarOp_gives h _ (maxS_eq a b),
    scalarOp_gives h _ (minU_eq a b), scalarOp_gives h _ (maxU_eq a b), scalarOp_gives h _ eq, scalarOp_gives h _ ne,
    scalarOp_gives h _ (bit_eq _), scalarOp_gives h _ (bit_eq _)⟩


/-! ### Bits of a word (R176) -/

/-- BFX takes the bits of a from pos up. -/
theorem getLsbD_bfxOf (a b : Word) {i : Nat} (hi : i < 64) :
    (bfxOf a b).getLsbD i = (decide (i < fieldLen b) && a.getLsbD (fieldPos b + i)) := by
  rw [bfxOf, BitVec.getLsbD_ofNat, Nat.testBit_mod_two_pow, Nat.testBit_div_two_pow, Nat.add_comm, BitVec.getLsbD]
  simp [hi]

/-- BFI puts the low bits of a into d from pos up. -/
theorem getLsbD_bfiOf (d a b : Word) {i : Nat} (hi : i < 64) : (bfiOf d a b).getLsbD i =
    if fieldPos b ≤ i ∧ i < fieldPos b + fieldLen b then a.getLsbD (i - fieldPos b) else d.getLsbD i := by
  have mask : (BitVec.ofNat 64 ((2 ^ fieldLen b - 1) * 2 ^ fieldPos b)).getLsbD i
      = decide (fieldPos b ≤ i ∧ i < fieldPos b + fieldLen b) := by
    rw [BitVec.getLsbD_ofNat, Nat.testBit_mul_two_pow, Nat.testBit_two_pow_sub_one]
    simp only [hi, decide_true, Bool.true_and, ← Bool.decide_and]
    exact decide_eq_decide.mpr (by omega)
  have moved : (BitVec.ofNat 64 (a.toNat * 2 ^ fieldPos b)).getLsbD i = (decide (fieldPos b ≤ i) && a.getLsbD (i - fieldPos b)) := by
    rw [BitVec.getLsbD_ofNat, Nat.testBit_mul_two_pow, BitVec.getLsbD]
    simp [hi]
  simp only [bfiOf, BitVec.getLsbD_or, BitVec.getLsbD_and, BitVec.getLsbD_not, mask, moved, hi]
  split
  · next inside => simp [inside]
  · next outside => simp [outside]

/-- The signed value of the low `w` bits is that of the word of `w` bits. -/
theorem sInt_eq_toInt {w : Nat} (hw : 0 < w) (x : Nat) : sInt w x = (BitVec.ofNat w x).toInt := by
  have two : 2 ^ w = 2 * 2 ^ (w - 1) := by rw [← pow_succ', Nat.sub_add_cancel hw]
  rw [BitVec.toInt_eq_toNat_cond, BitVec.toNat_ofNat, sInt]
  by_cases h : 2 ^ (w - 1) ≤ x % 2 ^ w
  · rw [if_pos h, if_neg (by omega)]
    push_cast
    rfl
  · rw [if_neg h, if_pos (by omega)]

/-- The widths of SEXT and ZEXT with fn 0 to 2: 8, 16 and 32 bits. -/
theorem extWidth_bounds {f : SR} (hf : f.fn.toNat < 3) : 0 < extWidth f ∧ extWidth f < 64 := by
  unfold extWidth
  generalize f.fn.toNat = n at hf
  interval_cases n <;> decide

theorem getLsbD_sext {w : Nat} (hw : 0 < w) (a : Word) {i : Nat} (hi : i < 64) :
    (BitVec.ofInt 64 (sInt w a.toNat)).getLsbD i = if i < w then a.getLsbD i else a.getLsbD (w - 1) := by
  have low {j : Nat} (hj : j < w) : (BitVec.ofNat w a.toNat).getLsbD j = a.getLsbD j := by
    rw [BitVec.getLsbD_ofNat, decide_eq_true hj, Bool.true_and, BitVec.getLsbD]
  rw [sInt_eq_toInt hw, ← BitVec.signExtend, BitVec.getLsbD_signExtend, BitVec.msb_eq_getLsbD_last, low (Nat.sub_lt hw Nat.one_pos),
    decide_eq_true hi, Bool.true_and]
  by_cases inside : i < w
  · rw [if_pos inside, if_pos inside, low inside]
  · rw [if_neg inside, if_neg inside]

theorem getLsbD_zext (w : Nat) (a : Word) {i : Nat} (hi : i < 64) :
    (BitVec.ofNat 64 (a.toNat % 2 ^ w)).getLsbD i = (decide (i < w) && a.getLsbD i) := by
  rw [BitVec.getLsbD_ofNat, Nat.testBit_mod_two_pow, decide_eq_true hi, Bool.true_and, BitVec.getLsbD]

/-! ### Counts of bits (R176) -/

theorem clzNat_zero (w : Nat) : clzNat w 0 = w := rfl

/-- Above its highest 1 a number has zeros, as many as CLZ counts. -/
theorem clzNat_spec (w : Nat) {x : Nat} (h0 : x ≠ 0) (hx : x < 2 ^ w) : clzNat w x < w ∧ w - clzNat w x = x.log2 + 1 := by
  have top : x.log2 < w := (Nat.log2_lt h0).mpr hx
  rw [clzNat, if_neg h0]
  omega

theorem clz_spec (a : Word) : let n := clzNat 64 a.toNat
    n ≤ 64 ∧ (∀ i, 64 - n ≤ i → a.getLsbD i = false) ∧ (n < 64 → a.getLsbD (63 - n) = true) := by
  by_cases h0 : a.toNat = 0
  · simp [h0, clzNat_zero, BitVec.getLsbD]
  · obtain ⟨below, place⟩ := clzNat_spec 64 h0 a.isLt
    refine ⟨below.le, fun i hi => ?_, fun _ => ?_⟩
    · exact Nat.testBit_lt_two_pow (Nat.lt_log2_self.trans_le (Nat.pow_le_pow_right (by decide) (by omega)))
    · rw [show 63 - clzNat 64 a.toNat = a.toNat.log2 by omega]
      exact Nat.testBit_log2 h0

theorem popNat_eq_countP (a : Word) : popNat 64 a.toNat = (List.range 64).countP a.getLsbD := by
  rw [popNat, span_eq_range', ← List.range_eq_range', List.countP_eq_length_filter]
  rfl

/-! ### The outcome of an immediate instruction (R178) -/

/-- A ready immediate instruction gives what its function makes of the register and the sign-extended immediate. -/
theorem scalarImm_ready {f : SI} {s : State} (h : ready (siForm f) s = true) (g : Word → Word → Word) :
    scalarImm f g s = gaveS s f.sd (g (s.me.getS f.sa.toNat) (BitVec.ofInt 64 f.imm.toInt)) := issueCore_ready h _

theorem scalarImm_gives {f : SI} {s : State} (h : ready (siForm f) s = true) (g : Word → Word → Word) {v : Int}
    (hv : g (s.me.getS f.sa.toNat) (BitVec.ofInt 64 f.imm.toInt) = BitVec.ofInt 64 v) : scalarImm f g s = gaveS s f.sd (BitVec.ofInt 64 v) :=
  (scalarImm_ready h g).trans (congrArg (gaveS s f.sd) hv)

theorem toInt_imm (i : BitVec 32) : (BitVec.ofInt 64 i.toInt).toInt = i.toInt := BitVec.toInt_signExtend_of_le (by decide)

theorem lih_eq (i : BitVec 32) (a : Word) : i ++ a.setWidth 32 = BitVec.ofInt 64 ((i.toNat * 2 ^ 32 + a.toNat % 2 ^ 32 : Nat) : Int) := by
  rw [BitVec.ofInt_natCast]
  refine BitVec.eq_of_toNat_eq ?_
  have high := i.isLt
  rw [BitVec.toNat_append, BitVec.toNat_setWidth, Nat.shiftLeft_eq, Nat.mul_comm, ← Nat.two_pow_add_eq_or_of_lt (Nat.mod_lt _ (by decide)), BitVec.toNat_ofNat]
  omega

/-- The logical, bit-field, extension and bit-count instructions (R176). -/
theorem bitInstructions {f : SR} {s : State} (h : ready (srForm f) s = true) :
    let a := s.me.getS f.sa.toNat
    let b := s.me.getS f.sb.toNat
    let d := s.me.getS f.sd.toNat
    let gives (r : Result) (g : Nat → Bool) : Prop := ∃ v : Word, r = gaveS s f.sd v ∧ ∀ i, i < 64 → v.getLsbD i = g i
    gives (execAnd f s) (fun i => a.getLsbD i && b.getLsbD i) ∧
    gives (execOr f s) (fun i => a.getLsbD i || b.getLsbD i) ∧
    gives (execXor f s) (fun i => a.getLsbD i != b.getLsbD i) ∧
    gives (execBfx f s) (fun i => decide (i < fieldLen b) && a.getLsbD (fieldPos b + i)) ∧
    gives (execBfi f s) (fun i => if fieldPos b ≤ i ∧ i < fieldPos b + fieldLen b then a.getLsbD (i - fieldPos b) else d.getLsbD i) ∧
    (f.fn.toNat < 3 → gives (execSext f s) (fun i => if i < extWidth f then a.getLsbD i else a.getLsbD (extWidth f - 1))) ∧
    (f.fn.toNat < 3 → gives (execZext f s) (fun i => decide (i < extWidth f) && a.getLsbD i)) := by
  intro a b d gives
  exact ⟨⟨_, scalarOp_ready h _, fun _ _ => BitVec.getLsbD_and⟩, ⟨_, scalarOp_ready h _, fun _ _ => BitVec.getLsbD_or⟩,
    ⟨_, scalarOp_ready h _, fun _ _ => BitVec.getLsbD_xor⟩, ⟨_, scalarOp_ready h _, fun _ => getLsbD_bfxOf a b⟩,
    ⟨_, issueCore_ready h _, fun _ => getLsbD_bfiOf d a b⟩,
    fun hf => ⟨_, scalarOp_ready h _, fun _ => getLsbD_sext (extWidth_bounds hf).1 a⟩,
    fun _ => ⟨_, scalarOp_ready h _, fun _ => getLsbD_zext _ a⟩⟩

/-- Settles O2: register forms bit by bit, immediate forms as integers. -/
theorem bitImmediateResults : Obligations.BitImmediateResults := by
  unfold Obligations.BitImmediateResults
  refine ⟨fun f s h => ?_, fun f s h => ?_⟩
  · obtain ⟨and_, or_, xor_, bfx, bfi, sext, zext⟩ := bitInstructions h
    have clz : execClz f s = gaveS s f.sd _ := scalarOp_ready h _
    have popc : execPopc f s = gaveS s f.sd _ := scalarOp_ready h _
    rw [popNat_eq_countP] at popc
    exact ⟨and_, or_, xor_, bfx, bfi, sext, zext, ⟨_, clz, clz_spec _⟩, popc⟩
  · intro a i sh gives
    have short (hs : sh < 64) : f.imm.toNat % 64 = sh := Nat.mod_eq_of_lt hs
    show gives (execAddi f s) _ ∧ gives (execMuli f s) _ ∧ execAndi f s = _ ∧ execOri f s = _ ∧ execXori f s = _ ∧
      (_ → gives (execShli f s) _) ∧ (_ → gives (execShri f s) _) ∧ (_ → gives (execSari f s) _) ∧ gives (execSlti f s) _ ∧
      gives (execSltui f s) _ ∧ gives (execLi f s) _ ∧ gives (execLih f s) _
    refine ⟨scalarImm_gives h _ ?_, scalarImm_gives h _ ?_, scalarImm_ready h _, scalarImm_ready h _, scalarImm_ready h _,
      fun hs => scalarImm_gives h _ ?_, fun hs => scalarImm_gives h _ ?_, fun hs => scalarImm_gives h _ ?_,
      scalarImm_gives h _ ?_, scalarImm_gives h _ (bit_eq _), scalarImm_gives h _ rfl, scalarImm_gives h _ (lih_eq f.imm a)⟩
    · rw [BitVec.ofInt_add, BitVec.ofInt_toInt]
    · rw [BitVec.ofInt_mul, BitVec.ofInt_toInt]
    · rw [short hs, ofInt_toInt_shl]
    · rw [short hs, ofInt_toNat_shr]
    · rw [short hs, ofInt_toInt_sar]
    · rw [bit_eq, toInt_imm]

end Sys2Proof.Machine
end

section
/-! PROOF. Scalar FP32 instructions: result and flags (O4). -/

namespace Sys2Proof.Machine

/-- What a completed word did to its core is all that its outcome holds of it. -/
theorem stepped_congr {s : State} {k : StrandKind} {f g : Core → Core} (h : f s.me = g s.me) : s.stepped k f = s.stepped k g :=
  congrArg (fun t : State => t.onMe (fun c => c.onStrand k (Strand.advance k))) (onCore_congr h)

/-- The rounding code of an SR word is fn[2:0], with 7 for FPST.RM (R84). -/
theorem rmCode_fn (fn : BitVec 4) (x : Fpst) : rmCode (fn.setWidth 3) x = if fn.toNat % 8 = 7 then x.rm.toNat else fn.toNat % 8 := by
  have code : (fn.setWidth 3).toNat = fn.toNat % 8 := BitVec.toNat_setWidth ..
  rw [rmCode, code]
  exact if_congr (by rw [← BitVec.toNat_inj, code]; rfl) rfl rfl

theorem ofNat_wrap (i : Int) : BitVec.ofNat 64 (wrap 64 i) = BitVec.ofInt 64 i := by
  refine BitVec.eq_of_toNat_eq ?_
  rw [BitVec.toNat_ofNat, BitVec.toNat_ofInt, wrap]
  omega

/-- A ready instruction that writes a register and raises flags: the value, the flags ORed into FPST, and nothing else. -/
theorem issueCore_accrues {f : Form} {s : State} (h : ready f s = true) (d : Nat) (r : Core → Nat × Flags) {x : Nat × Flags} (hr : r s.me = x) :
    issueCore f (fun c => (c.setS d (BitVec.ofNat 64 (r c).1)).accrue (r c).2) s =
      .next (s.stepped f.k (fun c => { c.setS d (BitVec.ofNat 64 x.1) with fpst := s.me.fpst.accrue x.2 })) := by
  rw [issueCore_ready h]
  refine congrArg Host.Outcome.next (stepped_congr ?_)
  simp only [hr, Core.accrue, Core.setS_fpst]

/-- What a ready FP instruction gives: its function of the rounding code, FZ and the three operands. -/
theorem scalarFp_ready {f : SR} {s : State} (h : ready (srForm f) s = true) (g : Nat → Bool → Nat → Nat → Nat → Nat × Flags) :
    let st := s.me.fpst
    let x := g (if f.fn.toNat % 8 = 7 then st.rm.toNat else f.fn.toNat % 8) st.fz ((s.me.getS f.sa.toNat).toNat % 2 ^ 32)
      ((s.me.getS f.sb.toNat).toNat % 2 ^ 32) ((s.me.getS f.sd.toNat).toNat % 2 ^ 32)
    scalarFp f g s = .next (s.stepped .c (fun c => { c.setS f.sd.toNat (BitVec.ofNat 64 x.1) with fpst := st.accrue x.2 })) := by
  intro st x
  exact issueCore_accrues h f.sd.toNat (fun c => g (rmCode (f.fn.setWidth 3) c.fpst) c.fpst.fz ((c.getS f.sa.toNat).toNat % 2 ^ 32)
    ((c.getS f.sb.toNat).toNat % 2 ^ 32) ((c.getS f.sd.toNat).toNat % 2 ^ 32)) (by rw [rmCode_fn])

/-- Settles O4: each instruction gives its function of the operands, FCVTIS a wrapped integer and FCVTSI the rounded one. -/
theorem scalarFloatResults : Obligations.ScalarFloatResults := by
  unfold Obligations.ScalarFloatResults
  intro f s h st rm a b c gives
  have fcvtis : execFcvtis f s = _ := scalarFp_ready h _
  simp only [ofNat_wrap] at fcvtis
  have fcvtsi : execFcvtsi f s = _ := issueCore_accrues h f.sd.toNat
    (fun c => deliver fp32 (rmCode (f.fn.setWidth 3) c.fpst) false (ofInt (c.getS f.sa.toNat).toInt)) rfl
  rw [rmCode_fn] at fcvtsi
  show gives (execFadds f s) _ ∧ gives (execFsubs f s) _ ∧ gives (execFmuls f s) _ ∧ gives (execFmas f s) _ ∧ gives (execFmins f s) _ ∧
    gives (execFmaxs f s) _ ∧ gives (execFcmps f s) _ ∧ (∃ n x, _ ∧ execFcvtis f s = _) ∧ gives (execFcvtsi f s) _
  exact ⟨scalarFp_ready h _, scalarFp_ready h _, scalarFp_ready h _, scalarFp_ready h _, scalarFp_ready h _, scalarFp_ready h _,
    scalarFp_ready h _, ⟨_, _, rfl, fcvtis⟩, fcvtsi⟩

end Sys2Proof.Machine
end

section
/-! PROOF. Branches, jumps and links (O5), LOOP and the next PC (O6). -/

namespace Sys2Proof.Machine

/-! ### Predicates over active lanes (R183) -/

section
variable {x act : BitVec 32}

theorem and_eq_zero_iff : x &&& act = 0 ↔ ∀ i, i < 32 → act.getLsbD i = true → x.getLsbD i = false := by
  refine ⟨fun h i _ ha => ?_, fun h => BitVec.eq_of_getLsbD_eq fun i hi => ?_⟩
  · have bit := congrArg (fun y : BitVec 32 => y.getLsbD i) h
    simpa [ha] using bit
  · have none := h i hi
    cases hact : act.getLsbD i <;> simp_all

theorem and_ne_zero_iff : x &&& act ≠ 0 ↔ ∃ i, i < 32 ∧ act.getLsbD i = true ∧ x.getLsbD i = true := by
  rw [ne_eq, and_eq_zero_iff]
  push Not
  simp only [Bool.not_eq_false, ne_eq]

theorem and_eq_active_iff : x &&& act = act ↔ ∀ i, i < 32 → act.getLsbD i = true → x.getLsbD i = true := by
  refine ⟨fun h i _ ha => ?_, fun h => BitVec.eq_of_getLsbD_eq fun i hi => ?_⟩
  · have bit := congrArg (fun y : BitVec 32 => y.getLsbD i) h
    simpa [ha] using bit
  · have all := h i hi
    cases hact : act.getLsbD i <;> simp_all

end

/-! ### Branches (R182, R183, R187) -/

/-- A ready branch goes to its target where its condition holds, and continues in line where it does not. -/
theorem branchIf_ready {f : Form} {s : State} (h : ready { f with notLast := true } s = true) (target : Core → Word) {taken : Core → Bool}
    {c : Prop} (hc : taken s.me = true ↔ c) :
    (c → branchIf f target taken s = jumped s f.k (target s.me)) ∧ (¬c → branchIf f target taken s = passed s f.k) := by
  have runs : branchIf f target taken s = .next (s.settle f.k (if taken s.me then .jump (target s.me) s else .done s)) := issue_ready h _
  refine ⟨fun holds => ?_, fun fails => ?_⟩
  · rw [runs, if_pos (hc.mpr holds)]
    rfl
  · rw [runs, if_neg (fun ht => fails (hc.mp ht))]
    rfl

section
variable {f : BR} {s : State}

/-- BR with a condition code of R154. -/
theorem br_ready (h : ready { brForm f with notLast := true } s = true) {n : BitVec 4} (hn : f.cond = n) {c : Prop}
    (hc : condHolds n.toNat (s.me.getS f.sa.toNat) (s.me.getS f.sb.toNat) = true ↔ c) :
    (c → execBr f s = jumped s .c (brTarget f s.me)) ∧ (¬c → execBr f s = passed s .c) :=
  branchIf_ready h _ (by rw [hn]; exact hc)

/-- BRZ with a condition code of R154. -/
theorem brz_ready (h : ready { brForm f with notLast := true } s = true) {n : BitVec 4} (hn : f.cond = n) {c : Prop}
    (hc : condHolds n.toNat (s.me.getS f.sa.toNat) 0 = true ↔ c) :
    (c → execBrz f s = jumped s .c (brTarget f s.me)) ∧ (¬c → execBrz f s = passed s .c) :=
  branchIf_ready h _ (by rw [hn]; exact hc)

theorem brp_ready (h : ready { k := .c, notLast := true, refs := [.p (f.sb.toNat % 8), .p f.pg.toNat] } s = true) {c : Prop}
    (hc : brpTaken f s.me = true ↔ c) :
    (c → execBrp f s = jumped s .c (brTarget f s.me)) ∧ (¬c → execBrp f s = passed s .c) :=
  branchIf_ready (f := { k := .c, refs := [.p (f.sb.toNat % 8), .p f.pg.toNat] }) h _ hc

theorem brpTaken_any (hn : f.cond = 9) (c : Core) : brpTaken f c = true ↔
    ∃ i, i < 32 ∧ (c.getP f.pg.toNat).getLsbD i = true ∧ (c.getP (f.sb.toNat % 8)).getLsbD i = true := by
  rw [brpTaken, hn]
  exact decide_eq_true_iff.trans and_ne_zero_iff

theorem brpTaken_all (hn : f.cond = 10) (c : Core) : brpTaken f c = true ↔
    ∀ i, i < 32 → (c.getP f.pg.toNat).getLsbD i = true → (c.getP (f.sb.toNat % 8)).getLsbD i = true := by
  rw [brpTaken, hn]
  exact decide_eq_true_iff.trans and_eq_active_iff

theorem brpTaken_none (hn : f.cond = 11) (c : Core) : brpTaken f c = true ↔
    ∀ i, i < 32 → (c.getP f.pg.toNat).getLsbD i = true → (c.getP (f.sb.toNat % 8)).getLsbD i = false := by
  rw [brpTaken, hn]
  exact decide_eq_true_iff.trans and_eq_zero_iff

theorem jmp_ready (h : ready { k := .c, notLast := true } s = true) : execJmp f s = jumped s .c (brTarget f s.me) :=
  (branchIf_ready (f := { k := .c }) h _ (c := True) (by simp)).1 trivial

theorem jr_ready (h : ready { k := .c, notLast := true, refs := [.s f.sa.toNat] } s = true) :
    let far := relTarget (s.me.getS f.sa.toNat) 8 f.off
    (far.toNat % 8 = 0 → execJr f s = jumped s .c far) ∧ (far.toNat % 8 ≠ 0 → execJr f s = trapped s .c 0x05 far (s.me.ldep .c)) := by
  intro far
  have runs : execJr f s = .next (s.settle .c (if far.toNat % 8 ≠ 0 then .trap 0x05 far (s.me.ldep .c) else .jump far s)) := issue_ready h _
  refine ⟨fun aligned => ?_, fun misaligned => ?_⟩
  · rw [runs, if_neg (not_not.mpr aligned)]
    rfl
  · rw [runs, if_pos misaligned]
    rfl

/-- JAL links and goes; no loop level is popped (R187). -/
theorem jal_ready (h : ready { k := .c, notLast := true, refs := [.s f.sa.toNat] } s = true) : execJal f s = .next (s.onMe (fun c =>
    (c.setS f.sa.toNat (s.me.strandC.pc + 8)).onStrand .c (fun x => { x with status := .running, pc := brTarget f s.me, hold := .fresh }))) :=
  issue_ready h _

end

/-- Settles O5: each condition code says when its branch is taken; a jump is a branch that always is. -/
theorem branchResults : Obligations.BranchResults := by
  unfold Obligations.BranchResults
  intro f s pc a b act p target far on
  refine ⟨fun h => ?_, fun h => ?_, jmp_ready, fun h => ⟨(jr_ready h).1, (jr_ready h).2, jal_ready h⟩⟩
  · exact ⟨fun hn => br_ready h hn (iff_of_true rfl trivial), fun hn => br_ready h hn decide_eq_true_iff, fun hn => br_ready h hn decide_eq_true_iff,
      fun hn => br_ready h hn decide_eq_true_iff, fun hn => br_ready h hn decide_eq_true_iff, fun hn => br_ready h hn decide_eq_true_iff,
      fun hn => br_ready h hn decide_eq_true_iff, fun hn => brz_ready h hn decide_eq_true_iff, fun hn => brz_ready h hn decide_eq_true_iff⟩
  · exact ⟨fun hn => brp_ready h (brpTaken_any hn s.me), fun hn => brp_ready h (brpTaken_all hn s.me), fun hn => brp_ready h (brpTaken_none hn s.me)⟩

/-! ### The next PC (R186) -/

section
variable {npc : Word} {l : LoopLevel} {ls : List LoopLevel}

theorem nextPc_elsewhere (h : npc ≠ l.stop) : nextPc npc (l :: ls) = (npc, l :: ls) := if_neg h

theorem nextPc_repeats (h : npc = l.stop) (hc : 1 < l.count.toNat) : nextPc npc (l :: ls) = (l.start, { l with count := l.count - 1 } :: ls) :=
  (if_pos h).trans (if_pos hc)

theorem nextPc_leaves (h : npc = l.stop) (hc : l.count.toNat ≤ 1) : nextPc npc (l :: ls) = nextPc npc ls :=
  (if_pos h).trans (if_neg (by omega))

/-- No word that completes in line deepens the loop stack. -/
theorem length_nextPc_le (npc : Word) (ls : List LoopLevel) : (nextPc npc ls).2.length ≤ ls.length := by
  induction ls with
  | nil => exact le_rfl
  | cons l ls ih =>
    unfold nextPc
    split
    · split
      · exact le_rfl
      · exact ih.trans (Nat.le_succ _)
    · exact le_rfl

end

/-! ### LOOP (R185) -/

section
variable {f : BR} {s : State}

/-- What LOOP does with its loop stack: leaves the body, traps or enters it. -/
theorem loop_ready (h : ready { k := .c, notLast := true, refs := [.s f.sa.toNat] } s = true) :
    exec (.loop f) s = .next (s.settle .c (loopBody .c (fun c => c.getS f.sa.toNat) (brTarget f) s)) := issue_ready h _

variable {n stop : Core → Word}

theorem loopBody_skips (hn : n s.me = 0) : s.settle .c (loopBody .c n stop s) = s.onMe (fun c =>
    { c with strandC := { status := .running, pc := (nextPc (stop s.me) s.me.strandC.loops).1,
                          loops := (nextPc (stop s.me) s.me.strandC.loops).2 } }) := by
  rw [loopBody]
  simp only [if_pos hn]
  rfl

/-- The body is no legal loop: a fifth level, or one that runs past the enclosing body. -/
theorem loopBody_traps (hn : n s.me ≠ 0)
    (hl : 4 ≤ s.me.strandC.loops.length ∨ ∃ l ls, s.me.strandC.loops = l :: ls ∧ l.stop.toNat < (stop s.me).toNat) :
    s.settle .c (loopBody .c n stop s) = s.raise .c 0x03 (stop s.me) (s.me.ldep .c) := by
  rw [loopBody]
  simp only [if_neg hn]
  rw [if_pos]
  · rfl
  · rcases hl with deep | ⟨l, ls, hs, past⟩
    · exact Bool.or_eq_true_iff.mpr (.inl (decide_eq_true deep))
    · have here : (s.me.strand .c).loops = l :: ls := hs
      simp [here, past]

theorem loopBody_enters (hn : n s.me ≠ 0) (hl : s.me.strandC.loops.length < 4)
    (he : ∀ l ∈ s.me.strandC.loops.head?, (stop s.me).toNat ≤ l.stop.toNat) :
    s.settle .c (loopBody .c n stop s) = s.onMe (fun c => { c with strandC := {
      status := .running, pc := s.me.strandC.pc + 8,
      loops := ⟨s.me.strandC.pc + 8, stop s.me, n s.me⟩ :: s.me.strandC.loops } }) := by
  have shallow : ¬4 ≤ (s.me.strand .c).loops.length := not_le.mpr hl
  rw [loopBody]
  simp only [if_neg hn]
  rw [if_neg]
  · rfl
  · cases hs : (s.me.strand .c).loops with
    | nil => simp
    | cons l ls =>
      have inside : (stop s.me).toNat ≤ l.stop.toNat := he l (congrArg List.head? hs)
      rw [hs] at shallow
      simpa [inside] using shallow

end

/-- Settles O6: LOOP by its four outcomes, the next PC by the recursion over the levels. -/
theorem loopResults : Obligations.LoopResults := by
  unfold Obligations.LoopResults
  refine ⟨fun f s h => ?_, fun k x => ?_⟩
  · intro x n stop goes
    have runs (t : State) (ht : s.settle .c (loopBody .c (fun c => c.getS f.sa.toNat) (brTarget f) s) = t) : exec (.loop f) s = .next t :=
      (loop_ready h).trans (congrArg Host.Outcome.next ht)
    exact ⟨fun hn => runs _ (loopBody_skips hn), fun hn deep => runs _ (loopBody_traps hn (.inl deep)),
      fun l ls hn hs past => runs _ (loopBody_traps hn (.inr ⟨l, ls, hs, past⟩)), fun hn hl he => runs _ (loopBody_enters hn hl he)⟩
  · intro npc y
    have pc : y.pc = (nextPc npc x.loops).1 := rfl
    have loops : y.loops = (nextPc npc x.loops).2 := rfl
    refine ⟨rfl, fun hs => ?_, fun l ls hs he => ?_, fun l ls hs he hc => ?_, fun l ls hs he hc => ?_, length_nextPc_le ..⟩
    · rw [pc, loops, hs]
      exact ⟨rfl, rfl⟩
    · rw [pc, loops, hs, nextPc_elsewhere he]
      exact ⟨rfl, rfl⟩
    · rw [pc, loops, hs, nextPc_repeats he hc]
      exact ⟨rfl, rfl⟩
    · have out : nextPc npc x.loops = nextPc npc ls := by rw [hs, nextPc_leaves he hc]
      exact congrArg (fun r : Word × List LoopLevel => ({ x with status := .running, pc := r.1, loops := r.2, hold := .fresh } : Strand)) out

end Sys2Proof.Machine
end

section
/-! PROOF. FORK, JOIN, REGION, END and NOP (O7); TRAP, BKPT and SYSCALL (O9). -/

namespace Sys2Proof.Machine

/-! ### Named strands (R188, R189) -/

theorem Strand.live_eq_false_iff {x : Strand} : x.live = false ↔ x.status = .unstarted ∨ x.status = .ended := by
  cases h : x.status <;> simp [Strand.live, h]

/-- A mask of one bit among 1 to 3 names that bit's strand and no other. -/
theorem namedStrands_single {i : Nat} {k : StrandKind} (h : (i, k) ∈ [(1, StrandKind.a), (2, .m), (3, .o)]) :
    namedStrands (BitVec.ofNat 10 (2 ^ i)) = [k] := by
  simp only [List.mem_cons, Prod.mk.injEq, List.not_mem_nil, or_false] at h
  rcases h with ⟨rfl, rfl⟩ | ⟨rfl, rfl⟩ | ⟨rfl, rfl⟩ <;> rfl

theorem mem_namedStrands {opt : BitVec 10} {k : StrandKind} : k ∈ namedStrands opt ↔
    (k = .a ∧ opt.getLsbD 1 = true) ∨ (k = .m ∧ opt.getLsbD 2 = true) ∨ (k = .o ∧ opt.getLsbD 3 = true) := by
  have bits : namedStrands opt = ([1, 2, 3].filter (fun i => opt.getLsbD i)).map strandOfBit := rfl
  simp only [bits, List.mem_map, List.mem_filter, List.mem_cons, List.not_mem_nil, or_false]
  constructor
  · rintro ⟨i, ⟨rfl | rfl | rfl, hi⟩, rfl⟩
    · exact .inl ⟨rfl, hi⟩
    · exact .inr (.inl ⟨rfl, hi⟩)
    · exact .inr (.inr ⟨rfl, hi⟩)
  · rintro (⟨rfl, hi⟩ | ⟨rfl, hi⟩ | ⟨rfl, hi⟩)
    · exact ⟨1, ⟨.inl rfl, hi⟩, rfl⟩
    · exact ⟨2, ⟨.inr (.inl rfl), hi⟩, rfl⟩
    · exact ⟨3, ⟨.inr (.inr rfl), hi⟩, rfl⟩

/-- A core's strand that a JOIN's or FORK's mask names. -/
def Core.named (c : Core) (opt : BitVec 10) (x : Strand) : Prop :=
  (x = c.strandA ∧ opt.getLsbD 1 = true) ∨ (x = c.strandM ∧ opt.getLsbD 2 = true) ∨ (x = c.strandO ∧ opt.getLsbD 3 = true)

theorem Core.named_iff {c : Core} {opt : BitVec 10} {x : Strand} : c.named opt x ↔ ∃ k ∈ namedStrands opt, x = c.strand k := by
  simp only [mem_namedStrands, Core.named]
  constructor
  · rintro (⟨rfl, hi⟩ | ⟨rfl, hi⟩ | ⟨rfl, hi⟩)
    · exact ⟨.a, .inl ⟨rfl, hi⟩, rfl⟩
    · exact ⟨.m, .inr (.inl ⟨rfl, hi⟩), rfl⟩
    · exact ⟨.o, .inr (.inr ⟨rfl, hi⟩), rfl⟩
  · rintro ⟨k, ⟨rfl, hi⟩ | ⟨rfl, hi⟩ | ⟨rfl, hi⟩, rfl⟩
    · exact .inl ⟨rfl, hi⟩
    · exact .inr (.inl ⟨rfl, hi⟩)
    · exact .inr (.inr ⟨rfl, hi⟩)

/-! ### FORK (R188) -/

section
variable {f : CT} {s : State} {k : StrandKind}

theorem fork_ready (hk : namedStrands f.opt = [k]) (h : ready { k := .c, notLast := true, effect := true } s = true) :
    let target := s.me.strandC.pc + BitVec.ofInt 64 f.imm.toInt
    exec (.fork f) s = .next (s.settle .c (if (s.me.strand k).live || target.toNat % wordBytes k ≠ 0 then .trap 0x01 target (s.me.ldep .c)
      else .done (s.onMe (fun c => c.onStrand k (fun x => { x with status := .running, pc := target, hold := .fresh }))))) := by
  have runs : execFork f s = _ := issue_ready h _
  simp only [hk] at runs
  exact runs

theorem fork_starts (hk : namedStrands f.opt = [k]) (h : ready { k := .c, notLast := true, effect := true } s = true)
    (idle : (s.me.strand k).status = .unstarted ∨ (s.me.strand k).status = .ended)
    (aligned : (s.me.strandC.pc + BitVec.ofInt 64 f.imm.toInt).toNat % wordBytes k = 0) :
    exec (.fork f) s = .next (s.stepped .c (fun c => c.onStrand k (fun x =>
      { x with status := .running, pc := s.me.strandC.pc + BitVec.ofInt 64 f.imm.toInt, hold := .fresh }))) := by
  rw [fork_ready hk h, if_neg]
  · rfl
  · rw [Strand.live_eq_false_iff.mpr idle, Bool.false_or, decide_eq_true_eq]
    exact not_not.mpr aligned

theorem fork_traps (hk : namedStrands f.opt = [k]) (h : ready { k := .c, notLast := true, effect := true } s = true)
    (bad : ¬((s.me.strand k).status = .unstarted ∨ (s.me.strand k).status = .ended) ∨
      (s.me.strandC.pc + BitVec.ofInt 64 f.imm.toInt).toNat % wordBytes k ≠ 0) :
    exec (.fork f) s = trapped s .c 0x01 (s.me.strandC.pc + BitVec.ofInt 64 f.imm.toInt) (s.me.ldep .c) := by
  rw [← Strand.live_eq_false_iff, Bool.not_eq_false] at bad
  rw [fork_ready hk h, if_pos]
  · rfl
  · rwa [Bool.or_eq_true, decide_eq_true_eq]

end

/-! ### JOIN (R189) -/

section
variable {f : CT} {s : State}

theorem join_ready (h : ready { k := .c, notLast := true } s = true) : execJoin f s = .next (s.settle .c (
    if (namedStrands f.opt).any (fun k => decide ((s.me.strand k).status = .unstarted)) then .trap 0x02 0 (s.me.ldep .c)
    else if (namedStrands f.opt).all (fun k => decide ((s.me.strand k).status = .ended)) then .done s
    else .wait .other s)) := issue_ready h _

/-- Some strand that JOIN names was never started. -/
theorem any_unstarted_iff : (namedStrands f.opt).any (fun k => decide ((s.me.strand k).status = .unstarted)) = true ↔
    ∃ x, s.me.named f.opt x ∧ x.status = .unstarted := by
  simp only [List.any_eq_true, decide_eq_true_eq, Core.named_iff]
  exact ⟨fun ⟨k, hk, hs⟩ => ⟨_, ⟨k, hk, rfl⟩, hs⟩, fun ⟨_, ⟨k, hk, hx⟩, hs⟩ => ⟨k, hk, hx ▸ hs⟩⟩

/-- Every strand that JOIN names has ended. -/
theorem all_ended_iff : (namedStrands f.opt).all (fun k => decide ((s.me.strand k).status = .ended)) = true ↔
    ∀ x, s.me.named f.opt x → x.status = .ended := by
  simp only [List.all_eq_true, decide_eq_true_eq, Core.named_iff]
  exact ⟨fun h _ ⟨k, hk, hx⟩ => hx ▸ h k hk, fun h k hk => h _ ⟨k, hk, rfl⟩⟩

theorem join_traps (h : ready { k := .c, notLast := true } s = true) (hu : ∃ x, s.me.named f.opt x ∧ x.status = .unstarted) :
    exec (.join f) s = trapped s .c 0x02 0 (s.me.ldep .c) := by
  refine (join_ready h).trans ?_
  rw [if_pos (any_unstarted_iff.mpr hu)]
  rfl

theorem join_passes (h : ready { k := .c, notLast := true } s = true) (he : ∀ x, s.me.named f.opt x → x.status = .ended) :
    exec (.join f) s = passed s .c := by
  have started : ¬∃ x, s.me.named f.opt x ∧ x.status = .unstarted := fun ⟨x, hx, hu⟩ => nomatch (he x hx).symm.trans hu
  refine (join_ready h).trans ?_
  rw [if_neg (any_unstarted_iff.not.mpr started), if_pos (all_ended_iff.mpr he)]
  rfl

theorem join_waits (h : ready { k := .c, notLast := true } s = true) (hs : ∀ x, s.me.named f.opt x → x.status ≠ .unstarted)
    (hr : ∃ x, s.me.named f.opt x ∧ x.status ≠ .ended) : exec (.join f) s = blocked s .c .other := by
  obtain ⟨x, named, running⟩ := hr
  refine (join_ready h).trans ?_
  rw [if_neg (any_unstarted_iff.not.mpr fun ⟨y, hy, hu⟩ => hs y hy hu), if_neg (all_ended_iff.not.mpr fun he => running (he x named))]
  rfl

end

/-! ### Changes of one core, one after the other -/

theorem onCore_onCore {s : State} {g : Nat} {f h : Core → Core} (hf : f (s.core g) ≠ {}) :
    (s.onCore g f).onCore g h = s.onCore g (fun c => h (f c)) := by
  rw [State.onCore, core_onCore, if_pos rfl]
  exact congrArg (fun cs => { s with cores := cs }) (put_put (fun he => absurd he hf) ..)

/-- A core whose strand may issue has a task, so it is not the core of reset. -/
theorem me_ne_reset {f : Form} {s : State} (h : ready f s = true) : s.me ≠ {} := by
  intro he
  simp [ready, he, Core.issues] at h

/-! ### REGION (R190) -/

/-- The core as its new region opens at `pc`, with its tiles free from value `n` (R190, R217, R272, R292). -/
def Core.reopened (c : Core) (tk : Task) (pc : Word) (n : Nat) : Core :=
  ({ ((c.closeMwin).closeOwin).resetEngines.unstart with
    t := freeTiles n
    task := some { tk with entry := c.snapshot pc, region := .opened, restarts := 0, mismatches := 0, boundCount := 0 } }).onStrand .c
      (Strand.advance .c)

/-- C stands after its REGION word, the other strands are not started, and the registers and streams are as they were (R190, log entry 105). -/
theorem Core.reopened_spec {c : Core} (h : c.mwin.releases = []) (tk : Task) (pc : Word) (n : Nat) : let d := c.reopened tk pc n
    d.task = some { tk with
      entry := { start := false, pc := pc, s := between 1 18 c.s, a := between 1 16 c.a, f := c.f }
      region := .opened, restarts := 0, mismatches := 0, boundCount := 0 } ∧
    d.strandC = c.strandC.advance .c ∧ d.strandA = {} ∧ d.strandM = {} ∧ d.strandO = {} ∧
    d.s = c.s ∧ d.a = c.a ∧ d.m = c.m ∧ d.v = c.v ∧ d.p = c.p ∧ d.f = c.f ∧ d.q = c.q ∧ d.fpst = c.fpst := by
  rw [Core.reopened, Core.closeMwin_of_nil c h]
  exact ⟨rfl, rfl, rfl, rfl, rfl, rfl, rfl, rfl, rfl, rfl, rfl, rfl, rfl⟩

/-- Where no pre-emption is pending the region opens and nothing else happens. -/
theorem openRegion_eq {s : State} {g : Nat} {tk : Task} (ht : (s.core g).task = some tk) (hr : tk.region = .opened ∨ tk.region = .sealed)
    (pc : Word) : s.openRegion g pc = { s.setCore g ((s.core g).reopened tk pc s.freeCtr) with freeCtr := s.freeCtr + 40 } := by
  rcases hr with hr | hr <;> simp only [State.openRegion, ht, Task.overrun, hr] <;> rfl

section
variable {f : CT} {s : State}

theorem region_nested (h : ready { k := .c, notLast := true } s = true) (hl : s.me.strandC.loops ≠ []) :
    exec (.region f) s = trapped s .c 0x04 0 (s.me.ldep .c) := by
  have runs : execRegion f s = _ := issue_ready h _
  simp only [List.isEmpty_eq_false_iff.mpr hl, Bool.not_false, if_true] at runs
  exact runs

theorem region_opens (h : ready { k := .c, notLast := true } s = true) (hl : s.me.strandC.loops = [])
    (hidle : ∀ x ∈ [s.me.strandA, s.me.strandM, s.me.strandO], x.status = .unstarted ∨ x.status = .ended) (hsb : s.me.sbC = 0)
    (hdone : s.entriesDone s.cur = true) (howed : s.me.gangOwed = []) (hscales : s.me.scales = []) :
    exec (.region f) s = .next (s.openRegion s.cur s.me.strandC.pc) := by
  have runs : execRegion f s = _ := issue_ready h _
  simp only [List.forall_mem_cons, List.not_mem_nil, false_imp_iff, implies_true, and_true] at hidle
  obtain ⟨idleA, idleM, idleO⟩ := hidle
  simp only [hl, idleA, idleM, idleO, hsb, hdone, howed, hscales, ← Bool.decide_or, decide_true, List.isEmpty_nil, Bool.not_true, Bool.and_self,
    Bool.or_self, Bool.false_eq_true, if_false, ne_eq, not_true] at runs
  exact runs

end

/-! ### END (R27, R192) -/

section
variable {f : CT} {s : State}

/-- Some strand but C still runs or is blocked. -/
theorem endC_waits (h : ready { k := .c, notLast := true } s = true)
    (hr : ∃ x ∈ [s.me.strandA, s.me.strandM, s.me.strandO], ¬(x.status = .unstarted ∨ x.status = .ended)) :
    exec (.endC f) s = blocked s .c .other := by
  have runs : execEndC f s = .next (s.settle .c (if s.me.strandA.live || s.me.strandM.live || s.me.strandO.live then .wait .other s
    else .goto _)) := issue_ready h _
  refine runs.trans ?_
  rw [if_pos]
  · rfl
  · simp only [← Strand.live_eq_false_iff, Bool.not_eq_false, List.exists_mem_cons_iff, List.not_mem_nil, false_and, exists_false, or_false] at hr
    simpa only [Bool.or_eq_true, or_assoc] using hr

theorem endC_ends {tk : Task} (ht : s.me.task = some tk) (h : ready { k := .c, notLast := true } s = true)
    (hidle : ∀ x ∈ [s.me.strandA, s.me.strandM, s.me.strandO], x.status = .unstarted ∨ x.status = .ended) :
    exec (.endC f) s = .next (s.onMe (fun c => { c with
      strandC := { c.strandC with status := .ended, loops := [], hold := .fresh }, task := some { tk with ending := true } })) := by
  have runs : execEndC f s = .next (s.settle .c (if s.me.strandA.live || s.me.strandM.live || s.me.strandO.live then .wait .other s
    else .goto (s.onMe (fun c => (c.setStrand .c { c.strandC with status := .ended, loops := [], hold := .fresh }).onTask
      (fun t => { t with ending := true }))))) := issue_ready h _
  simp only [← Strand.live_eq_false_iff, List.forall_mem_cons, List.not_mem_nil, false_imp_iff, implies_true, and_true] at hidle
  obtain ⟨idleA, idleM, idleO⟩ := hidle
  refine runs.trans ?_
  rw [idleA, idleM, idleO, if_neg (by decide)]
  refine congrArg Host.Outcome.next (show State.onMe s _ = State.onMe s _ from onCore_congr ?_)
  simp only [Core.onTask, Core.setStrand, show (s.core s.cur).task = some tk from ht, Option.map_some]

/-! ### NOP (R199) -/

theorem nop_passes (h : ready { k := .c } s = true) : exec (.nop f) s = passed s .c := by
  refine (issueCore_ready h id).trans (congrArg Host.Outcome.next ?_)
  exact (onCore_onCore (f := id) (me_ne_reset h) : (s.onCore s.cur id).onCore s.cur (fun c => c.onStrand .c (Strand.advance .c)) = _)

end

/-- Settles O7: each instruction by the cases of its rule. -/
theorem forkRegionResults : Obligations.ForkRegionResults := by
  unfold Obligations.ForkRegionResults
  refine ⟨fun f s i k hk hopt => ?_, fun f s h => ⟨join_traps h, join_passes h, join_waits h⟩, fun f s tk => ⟨fun h ht => ?_, nop_passes⟩⟩
  · have named : namedStrands f.opt = [k] := by rw [hopt, namedStrands_single hk]
    exact fun h => ⟨fork_starts named h, fork_traps named h⟩
  · have three {p : Strand → Prop} (a : p s.me.strandA) (m : p s.me.strandM) (o : p s.me.strandO) :
        ∀ x ∈ [s.me.strandA, s.me.strandM, s.me.strandO], p x := by
      simp [a, m, o]
    refine ⟨fun hr hl ha hm ho hsb hdone howed hscales hwin => ?_, region_nested h, fun ha hm ho => endC_ends ht h (three ha hm ho), fun hn => ?_⟩
    · refine ⟨_, region_opens h hl (three ha hm ho) hsb hdone howed hscales, ?_⟩
      have me : (s.openRegion s.cur s.me.strandC.pc).me = s.me.reopened tk s.me.strandC.pc s.freeCtr := by
        rw [openRegion_eq ht hr]
        exact (core_setCore ..).trans (if_pos rfl)
      rw [me]
      obtain ⟨task, c, a, m, o, s', a', m', v, p, f, q, fpst⟩ := Core.reopened_spec hwin tk s.me.strandC.pc s.freeCtr
      refine ⟨task, c, a, m, o, s', a', m', v, p, f, q, fpst, ?_⟩
      rw [openRegion_eq ht hr]
      exact ⟨fun g hg => (core_setCore ..).trans (if_neg hg), rfl⟩
    · refine endC_waits h ?_
      by_contra hc
      push Not at hc
      exact hn ⟨hc _ (by simp), hc _ (by simp), hc _ (by simp)⟩

/-! ### TRAP, BKPT and SYSCALL (R196 to R198) -/

section
variable {f : CT} {s : State}

theorem bkpt_ready (h : ready { k := .c } s = true) : execBkpt f s = .next (s.settle .c (if s.me.dbgBe then
    .done ((s.enter (s.taskRecord s.cur .c true 0x08 0 s.me.strandC.pc 0 (ctCode f))).haltCore s.cur) else .done s)) := issue_ready h _

theorem bkpt_passes (h : ready { k := .c } s = true) (hb : s.me.dbgBe = false) : exec (.bkpt f) s = passed s .c := by
  refine (bkpt_ready h).trans ?_
  rw [hb]
  rfl

theorem bkpt_halts (h : ready { k := .c } s = true) (hb : s.me.dbgBe = true) : exec (.bkpt f) s = .next
    (((s.enter (s.taskRecord s.cur .c true 0x08 0 s.me.strandC.pc 0 (ctCode f))).haltCore s.cur).onMe (fun c => c.onStrand .c (Strand.advance .c))) := by
  refine (bkpt_ready h).trans ?_
  rw [hb]
  rfl

/-- Sealing a region leaves what its strand's accesses have come to (R42, R134). -/
theorem settled_sealMine (s : State) (k : StrandKind) (scope : Nat) : s.sealMine.settled k scope = s.settled k scope := by
  have out : s.sealMine.me.out k = s.me.out k := by
    rw [State.sealMine, me_onMe]
    cases k <;> rfl
  rw [State.settled, State.settled, Core.allDone, out]
  rfl

/-- A fresh SYSCALL whose earlier accesses are performed seals and hands its request over. -/
theorem syscall_requests (h : ready { k := .c, refs := [.s f.sa.toNat, .s f.sd.toNat] } s = true) (hh : s.me.strandC.hold = .fresh)
    (hs : s.settled .c 1 = true) : exec (.syscall f) s = .next ((s.onMe Core.seal).onMe (fun c => c.onStrand .c
      (Strand.block (.requested f.sd.toNat (f.imm.setWidth 16) (s.me.getS f.sa.toNat))))) := by
  have me : s.sealMine.me = s.me.seal := me_onMe ..
  have hold : s.sealMine.me.strandC.hold = .fresh := by
    rw [me]
    exact hh
  have arg : s.sealMine.me.getS f.sa.toNat = s.me.getS f.sa.toNat := by
    rw [me]
    rfl
  have runs : execSyscall f s = _ := issue_ready h _
  simp only [hold, settled_sealMine, hs, arg, if_true] at runs
  exact runs

end

/-- Settles O9: TRAP faults, BKPT halts or passes, SYSCALL hands its request over. -/
theorem systemResults : Obligations.SystemResults := by
  unfold Obligations.SystemResults
  exact fun f s => ⟨fun h => ⟨issue_ready h (fun _ => .trap 0x07 0 (ctCode f)), bkpt_passes h, bkpt_halts h⟩, syscall_requests⟩

end Sys2Proof.Machine
end

section
/-! PROOF. CSR instructions at issue and as they are performed, and what the CSRs read as (O8). -/

namespace Sys2Proof.Machine

/-! ### At issue (R193, R194, R86) -/

section
variable {f : CT} {s : State} {op : Nat}

/-- A pending CSR instruction of FPST. -/
def Access.ofFpst (y : Access) : Prop := ∃ op w, y.kind = .csr op 0 w

/-- One that does not write FPST joins C's list. -/
theorem csrOp_asks (h : ready (csrForm f (decide (op ≠ 0))) s = true) (hn : op = 0 ∨ csrAddr f ≠ 0) :
    csrOp f op s = gaveAccess s .c
      { id := 0, grp := 0, pc := 0, kind := .csr op (csrAddr f) (s.me.getS f.sa.toNat),
        dest := if f.sd = 0 then .none else .s f.sd.toNat, slot := (f.opt.extractLsb' 7 3).toNat, loose := true } := by
  have runs : csrOp f op s = _ := issue_ready h _
  simp only [if_neg (show ¬(op ≠ 0 ∧ csrAddr f = 0) by tauto)] at runs
  exact runs

/-- One that writes FPST does so at once where no earlier one of FPST is pending. -/
theorem csrOp_writes (h : ready (csrForm f (decide (op ≠ 0))) s = true) (hop : op ≠ 0) (ha : csrAddr f = 0) (hb : ∀ y ∈ s.me.outC, ¬y.ofFpst) :
    let old := s.readCsr s.cur (csrAddr f)
    csrOp f op s = .next (s.stepped .c (fun c =>
      ({ c with fpst := c.fpst.write (csrValue op old (s.me.getS f.sa.toNat)) } : Core).setS f.sd.toNat old)) := by
  have runs : csrOp f op s = _ := issue_ready h _
  simp only [if_pos (show op ≠ 0 ∧ csrAddr f = 0 from ⟨hop, ha⟩)] at runs
  rw [if_neg] at runs
  · simp only [Core.writeCsr, if_pos ha] at runs
    exact runs
  · simp only [List.any_eq_true, not_exists, not_and]
    intro y hy hk
    split at hk
    · next b _ kind => exact hb y hy ⟨_, _, kind.trans (by rw [of_decide_eq_true hk])⟩
    · exact absurd hk (by decide)

theorem csrOp_blocks (h : ready (csrForm f (decide (op ≠ 0))) s = true) (hop : op ≠ 0) (ha : csrAddr f = 0) (hb : ∃ y ∈ s.me.outC, y.ofFpst) :
    csrOp f op s = blocked s .c .other := by
  obtain ⟨y, hy, _, _, hk⟩ := hb
  have runs : csrOp f op s = _ := issue_ready h _
  simp only [if_pos (show op ≠ 0 ∧ csrAddr f = 0 from ⟨hop, ha⟩)] at runs
  rw [if_pos (List.any_eq_true.mpr ⟨y, hy, by rw [hk]; rfl⟩)] at runs
  exact runs

end

/-! ### As they are performed (R193, R194) -/

section
variable {s : State} {x : Access} {op a sd : Nat} {w : Word}

theorem Core.writeCsr_outC (c : Core) (a : Nat) (w : Word) : (c.writeCsr a w).outC = c.outC := by
  unfold Core.writeCsr
  split
  · rfl
  split <;> rfl

theorem outC_ne_nil_of_access {g id : Nat} (ha : s.access? (g, .c, id) = some x) : (s.core g).outC ≠ [] :=
  List.ne_nil_of_mem (List.mem_of_find?_eq_some ha)

/-- Its read and its write are one change of its core, with the old value to s[sd] and the access gone from the list. -/
theorem performCsr_eq (ha : s.access? (s.ev.core, .c, s.ev.num) = some x) (hn : s.ev.nums = []) (hd : x.dest = .s sd) (hspc : x.spc = false)
    (hflag : x.flag = 63) (hflags : x.flags = 0) : s.performCsr s.ev.core .c x op a w = s.onCore s.ev.core (fun c =>
      ((if op = 0 then c else c.writeCsr a (csrValue op (s.readCsr s.ev.core a) w)).setS sd (s.readCsr s.ev.core a)).retire .c x) := by
  have single : (∀ r, x.dest ≠ .sPair r) ∧ ∀ r l, x.dest ≠ .lanes r l := by simp [hd]
  have busy (y : Core) (h : y.outC = (s.core s.ev.core).outC) : y ≠ {} := fun he =>
    outC_ne_nil_of_access ha (h.symm.trans (congrArg Core.outC he))
  rw [State.performCsr, completeAccess_plain hspc hflag hflags (show (s.onCore _ _).ev.nums = [] from hn) single.1 single.2, onCore_onCore, hd]
  · simp only [Core.deliverTo, BitVec.ofNat_toNat, BitVec.setWidth_eq]
  · refine busy _ ?_
    split
    · rfl
    · exact Core.writeCsr_outC ..

theorem csr_performed (hk : s.ev.strand = .c) (hn : s.ev.nums = []) (ha : s.access? (s.ev.core, .c, s.ev.num) = some x)
    (hkind : x.kind = .csr op a w) (hphase : x.phase = .issued) (hd : x.dest = .s sd) (hspc : x.spc = false) (hflag : x.flag = 63)
    (hflags : x.flags = 0) (hm : s.mayPerform s.ev.core .c x = true) :
    exec .memoryAccessCompletion s = .next (s.onCore s.ev.core (fun c =>
      ((if op = 0 then c else c.writeCsr a (csrValue op (s.readCsr s.ev.core a) w)).setS sd (s.readCsr s.ev.core a)).retire .c x)) := by
  rw [completion_performs (by rwa [hk]) (by rwa [hk]), hk]
  simp only [State.performAccess, hkind, hphase]
  rw [performCsr_eq ha hn hd hspc hflag hflags]

end

/-! ### The map of CSRs (R195) -/

/-- A field of a word that was built as a number. -/
theorem field_ofNat {n lo w v : Nat} (hn : n < 2 ^ 64) (q : Nat) (hq : n / 2 ^ lo = q) (h : q % 2 ^ w = v % 2 ^ w) :
    (BitVec.ofNat 64 n).extractLsb' lo w = BitVec.ofNat w v := by
  refine BitVec.eq_of_toNat_eq ?_
  rw [BitVec.extractLsb'_toNat, BitVec.toNat_ofNat, BitVec.toNat_ofNat, Nat.mod_eq_of_lt hn, Nat.shiftRight_eq_div_pow, hq, h]

theorem chip_lt (s : State) : s.chip < 4096 := by
  unfold State.chip
  split <;> exact Nat.mod_lt _ (by decide)

section
variable (s : State) (g : Nat)

/-- COREID: chip, die, core of the die and core of the module. -/
theorem readCsr_coreId (hg : g < 768) : (s.readCsr g 0x010).extractLsb' 0 10 = BitVec.ofNat 10 g ∧
    (s.readCsr g 0x010).extractLsb' 16 8 = BitVec.ofNat 8 (g % 96) ∧ (s.readCsr g 0x010).extractLsb' 24 4 = BitVec.ofNat 4 (g / 96) ∧
    (s.readCsr g 0x010).extractLsb' 32 12 = BitVec.ofNat 12 s.chip := by
  have chip := chip_lt s
  have word : s.readCsr g 0x010 = BitVec.ofNat 64 (s.chip * 2 ^ 32 + g / 96 * 2 ^ 24 + g % 96 * 2 ^ 16 + g) := rfl
  rw [word]
  have small : s.chip * 2 ^ 32 + g / 96 * 2 ^ 24 + g % 96 * 2 ^ 16 + g < 2 ^ 64 := by omega
  exact ⟨field_ofNat small _ (Nat.div_one _) (by omega),
    field_ofNat small (s.chip * 2 ^ 16 + g / 96 * 2 ^ 8 + g % 96) (by omega) (by omega),
    field_ofNat small (s.chip * 2 ^ 8 + g / 96) (by omega) (by omega), field_ofNat small s.chip (by omega) rfl⟩

theorem readCsr_taskId {tk : Task} (ht : (s.core g).task = some tk) (hc : tk.ctx < 16) (hs : tk.stage < 16) :
    (s.readCsr g 0x011).extractLsb' 0 4 = BitVec.ofNat 4 tk.stage ∧ (s.readCsr g 0x011).extractLsb' 32 4 = BitVec.ofNat 4 tk.ctx := by
  have word : s.readCsr g 0x011 = BitVec.ofNat 64 (tk.ctx * 2 ^ 32 + tk.stage) := by
    simp only [State.readCsr, ht]
    rfl
  rw [word]
  exact ⟨field_ofNat (by omega) _ (Nat.div_one _) (by omega), field_ofNat (by omega) tk.ctx (by omega) rfl⟩

/-- LCNT0 counts the outermost level. -/
theorem readCsr_loopCount {k : Nat} (hk : k < 4) : s.readCsr g (0x00C + k) = if k < (s.core g).strandC.loops.length
    then ((s.core g).strandC.loops.getD ((s.core g).strandC.loops.length - 1 - k) ⟨0, 0, 0⟩).count else 0 := by
  simp (disch := omega) only [State.readCsr, if_neg, if_pos, Nat.add_sub_cancel_left]
  by_cases hl : k < (s.core g).strandC.loops.length
  · rw [if_pos hl, List.getElem?_reverse hl, List.getElem?_eq_getElem (by omega), List.getD_eq_getElem _ _ (by omega)]
  · rw [if_neg hl, List.getElem?_eq_none (by simpa using hl)]

theorem readCsr_group {tk : Task} (ht : (s.core g).task = some tk) {k : Nat} (hk : k < 4) : s.readCsr g (0x018 + k) = groupWord tk k := by
  simp (disch := omega) only [State.readCsr, if_neg, if_pos, ht, Nat.add_sub_cancel_left]

theorem readCsr_timeConversion {d : Nat} (hd : d < 13) : s.readCsr g (0x030 + d) = look 0 (s.die (dieOf g)).tofs d ∧
    s.readCsr g (0x040 + d) = look (BitVec.ofNat 64 (2 ^ 40)) (s.die (dieOf g)).trate d := by
  constructor
  · simp (disch := omega) only [State.readCsr, if_neg, if_pos, Nat.add_sub_cancel_left]
  · simp (disch := omega) only [State.readCsr, if_neg, if_pos, Nat.add_sub_cancel_left]
    rfl

theorem readCsr_tidst {n : Nat} (hn : n < 8) : s.readCsr g (0x060 + n) = BitVec.ofNat 64 (((s.core g).channel n).tidst % 2 ^ 48) := by
  simp (disch := omega) only [State.readCsr, if_neg, if_pos, Nat.add_sub_cancel_left]

theorem readCsr_spcp : s.readCsr g 0x001 = (s.core g).spcp.setWidth 64 <<< 1 := by
  have word : s.readCsr g 0x001 = BitVec.ofNat 64 ((s.core g).spcp.toNat * 2) := rfl
  rw [word]
  refine BitVec.eq_of_toNat_eq ?_
  have small := (s.core g).spcp.isLt
  rw [BitVec.toNat_ofNat, BitVec.toNat_shiftLeft, BitVec.toNat_setWidth, Nat.shiftLeft_eq]
  omega

theorem readCsr_dbg : s.readCsr g 0x070 = (if (s.core g).dbgBe then 2 else 0) ||| (if (s.core g).dbgHz then 1 else 0) := by
  have word : s.readCsr g 0x070 = BitVec.ofNat 64 ((if (s.core g).dbgBe then 2 else 0) + (if (s.core g).dbgHz then 1 else 0)) := rfl
  rw [word]
  cases (s.core g).dbgBe <;> cases (s.core g).dbgHz <;> rfl

end

/-! ### FPST (R85) -/

/-- A flag's weight in FPST is its bit of the word that was written. -/
theorem ite_getLsbD (w : Word) (i v : Nat) : (if w.getLsbD i then v else 0) = w.toNat / 2 ^ i % 2 * v := by
  rw [BitVec.getLsbD, Nat.testBit_eq_decide_div_mod_eq]
  rcases Nat.mod_two_eq_zero_or_one (w.toNat / 2 ^ i) with h | h <;> simp [h]

theorem Fpst.rm_write_reserved {x : Fpst} {w : Word} (h : 4 < (w.extractLsb' 5 3).toNat) : (x.write w).rm = x.rm := if_neg (not_le.mpr h)

/-- FPST reads back as the nine bits written, field by field. -/
theorem Fpst.word_write {x : Fpst} {w : Word} (h : (w.extractLsb' 5 3).toNat ≤ 4) : (x.write w).word = w &&& 0x1FF := by
  have rm : (x.write w).rm = w.extractLsb' 5 3 := if_pos h
  have mask : (w &&& 0x1FF).toNat = w.toNat % 2 ^ 9 := (BitVec.toNat_and ..).trans (Nat.and_two_pow_sub_one_eq_mod _ 9)
  refine BitVec.eq_of_toNat_eq ?_
  have digits (n : Nat) : n / 2 ^ 8 % 2 * 256 + n / 2 ^ 5 % 2 ^ 3 * 32 + n / 2 ^ 4 % 2 * 16 + n / 2 ^ 3 % 2 * 8 + n / 2 ^ 2 % 2 * 4 + n / 2 ^ 1 % 2 * 2
      + n / 2 ^ 0 % 2 * 1 = n % 2 ^ 9 := by
    have high : n % 2 ^ 8 = n % 2 ^ 5 + 2 ^ 5 * (n / 2 ^ 5 % 2 ^ 3) := Nat.mod_mul (a := 2 ^ 5) (b := 2 ^ 3)
    have low : n % 2 ^ 5 = n / 2 ^ 4 % 2 * 16 + n / 2 ^ 3 % 2 * 8 + n / 2 ^ 2 % 2 * 4 + n / 2 ^ 1 % 2 * 2 + n / 2 ^ 0 % 2 * 1 := by omega
    rw [Nat.mod_pow_succ (k := 8), high, low]
    ring
  simp only [mask, Fpst.word, rm]
  simp only [Fpst.write, ite_getLsbD, BitVec.extractLsb'_toNat, Nat.shiftRight_eq_div_pow, BitVec.toNat_ofNat, digits]
  exact Nat.mod_eq_of_lt ((Nat.mod_lt _ (by decide)).trans (by decide))

/-- Settles O8: issue, performance, and the map of CSRs one by one. -/
theorem csrResults : Obligations.CsrResults := by
  unfold Obligations.CsrResults
  refine ⟨fun f s => ?_, fun s x op a sd w => ?_, fun s tk hg ht hc hs => ?_, fun x w => ⟨Fpst.rm_write_reserved, Fpst.word_write⟩⟩
  · intro n old x asks wrote before
    refine ⟨fun h => csrOp_asks (op := 0) h (.inl rfl), fun h => ⟨fun hn => ?_, fun hn hb => ?_, fun hn hb => ?_⟩⟩
    · exact ⟨csrOp_asks (op := 1) h (.inr hn), csrOp_asks (op := 2) h (.inr hn), csrOp_asks (op := 3) h (.inr hn)⟩
    · exact ⟨csrOp_writes (op := 1) h (by decide) hn hb, csrOp_writes (op := 2) h (by decide) hn hb, csrOp_writes (op := 3) h (by decide) hn hb⟩
    · exact ⟨csrOp_blocks (op := 1) h (by decide) hn hb, csrOp_blocks (op := 2) h (by decide) hn hb, csrOp_blocks (op := 3) h (by decide) hn hb⟩
  · intro old new hk hn ha hkind hphase hd hspc hflag hflags hm
    exact csr_performed hk hn ha hkind hphase hd hspc hflag hflags hm
  · obtain ⟨core, unit, die, chip⟩ := readCsr_coreId s s.cur hg
    obtain ⟨stage, ctx⟩ := readCsr_taskId s s.cur ht hc hs
    exact ⟨core, unit, die, chip, stage, ctx, rfl, rfl, rfl, fun k hk => readCsr_loopCount s s.cur hk, fun k hk => readCsr_group s s.cur ht hk, rfl,
      fun d hd => readCsr_timeConversion s s.cur hd, fun n hn => readCsr_tidst s s.cur hn, rfl, readCsr_spcp s s.cur, readCsr_dbg s s.cur⟩

end Sys2Proof.Machine
end

section
/-! PROOF. Frames of the arithmetic instructions: what a wait, a fault and a completed word leave alone (O60). -/

namespace Sys2Proof.Machine

/-! ### Changes that keep memory and every register (R385, R386, R393) -/

/-- Memory and the register files of every core stay. -/
def KeepsFiles (s t : State) : Prop := SameMemory s t ∧ ∀ g, (t.core g).files = (s.core g).files

theorem KeepsFiles.refl (s : State) : KeepsFiles s s := ⟨sameMemory_of rfl rfl, fun _ => rfl⟩

theorem KeepsFiles.trans {s t u : State} (h : KeepsFiles s t) (h' : KeepsFiles t u) : KeepsFiles s u :=
  ⟨⟨fun a => (h'.1.1 a).trans (h.1.1 a), h'.1.2.trans h.1.2⟩, fun g => (h'.2 g).trans (h.2 g)⟩

@[simp] theorem Core.files_onStrand (c : Core) (k : StrandKind) (f : Strand → Strand) : (c.onStrand k f).files = c.files := by
  cases k <;> rfl

theorem keepsFiles_onCore {s : State} {g : Nat} {f : Core → Core} (hf : (f (s.core g)).files = (s.core g).files) : KeepsFiles s (s.onCore g f) := by
  refine ⟨sameMemory_of rfl rfl, fun h => ?_⟩
  rw [core_onCore]
  split
  · next here => rw [hf, here]
  · rfl

theorem keepsFiles_enter (s : State) (r : Record) : KeepsFiles s (s.enter r) := by
  rw [enter_eq]
  exact ⟨sameMemory_of rfl rfl, fun _ => rfl⟩

theorem keepsFiles_stopFor (s : State) (g : Nat) (k : StrandKind) (rcl : Nat) : KeepsFiles s (s.stopFor g k rcl) := by
  unfold State.stopFor
  split
  · exact List.foldlRecOn (motive := KeepsFiles s) _ _ (.refl s) fun _ ht _ _ => ht.trans (keepsFiles_onCore rfl)
  split
  · exact keepsFiles_onCore rfl
  · exact .refl s

theorem keepsFiles_taskFault (s : State) (g : Nat) (k : StrandKind) (precise : Bool) (cause : Nat) (pc addr data : Word) :
    KeepsFiles s (s.taskFault g k precise cause pc addr data) := by
  simp only [State.taskFault, State.faultAs]
  split
  · exact keepsFiles_enter ..
  · exact (keepsFiles_stopFor ..).trans (keepsFiles_enter ..)

theorem keepsFiles_raise (s : State) (k : StrandKind) (cause : Nat) (addr data : Word) : KeepsFiles s (s.raise k cause addr data) :=
  keepsFiles_taskFault ..

theorem keepsFiles_plumbMismatch (s : State) (k : StrandKind) : KeepsFiles s (s.plumbMismatch k) := by
  have counted : KeepsFiles s (({ s with upsets := s.upsets.erase (.mismatch s.cur k) } : State).onMe (fun c =>
      c.onTask (fun t => { t with mismatches := t.mismatches + 1 }))) :=
    .trans (t := { s with upsets := s.upsets.erase (.mismatch s.cur k) }) ⟨sameMemory_of rfl rfl, fun _ => rfl⟩ (keepsFiles_onCore rfl)
  unfold State.plumbMismatch
  dsimp only
  generalize hb : (_ || (s.gangCores s.cur).any fun x => (s.core x).isSealed) = sealed
  cases sealed
  · exact counted.trans (keepsFiles_raise ..)
  · exact counted.trans (keepsFiles_raise ..)

/-! ### Issue of an instruction that only changes its core -/

/-- It stands still, waits or faults with its registers kept, or its word completes. -/
theorem issueCore_outcome {m : Form} {body : Core → Core} {s t : State} (h : issueCore m body s = .next t) :
    KeepsFiles s t ∨ t = s.stepped m.k body := by
  cases h
  dsimp only
  split
  · exact .inl (.refl s)
  split
  · exact .inl (keepsFiles_onCore (Core.files_onStrand ..))
  split
  · exact .inl (keepsFiles_raise ..)
  · exact .inl (keepsFiles_raise ..)
  split
  · exact .inl (keepsFiles_raise ..)
  split
  · exact .inl (keepsFiles_plumbMismatch ..)
  · exact .inr rfl

theorem files_stepped (s : State) (k : StrandKind) (body : Core → Core) (g : Nat) :
    ((s.stepped k body).core g).files = if g = s.cur then (body s.me).files else (s.core g).files := by
  by_cases here : g = s.cur
  · subst here
    have stepped : (s.stepped k body).core s.cur = (s.onMe body).me.onStrand k (Strand.advance k) := me_onMe (s.onMe body) _
    rw [if_pos rfl, stepped, Core.files_onStrand, me_onMe]
  · have stepped : (s.stepped k body).core g = s.core g :=
      (core_onCore ..).trans ((if_neg here).trans ((core_onCore ..).trans (if_neg here)))
    rw [if_neg here, stepped]

/-- Memory and the other cores' registers stay, and the issuing core's change as `P` says. -/
def State.Framed (P : Files → Files → Prop) (s t : State) : Prop :=
  (SameMemory s t ∧ ∀ h, h ≠ s.cur → (t.core h).files = (s.core h).files) ∧ P (s.core s.cur).files (t.core s.cur).files

/-- What every change of the core that an instruction makes says of its registers, its outcome says. -/
theorem exec_framed {P : Files → Files → Prop} (hP : ∀ x, P x x) {i : Instr} {s : State}
    (hi : ∃ m body, exec i s = issueCore m body s ∧ ∀ c : Core, P c.files (body c).files) : ∀ t, exec i s = .next t → s.Framed P t := by
  obtain ⟨m, body, runs, change⟩ := hi
  intro t ht
  rcases issueCore_outcome (runs.symm.trans ht) with kept | rfl
  · exact ⟨⟨kept.1, fun h _ => kept.2 h⟩, by rw [kept.2]; exact hP _⟩
  · refine ⟨⟨sameMemory_of rfl rfl, fun h hh => (files_stepped ..).trans (if_neg hh)⟩, ?_⟩
    rw [files_stepped, if_pos rfl]
    exact change s.me

/-! ### What a write of one register changes -/

/-- Only register s[d] and, with `fp`, FPST may have changed. -/
def Files.WroteS (d : Nat) (fp : Bool) (x y : Files) : Prop :=
  (∀ n, n ≠ d → y.s n = x.s n) ∧ (fp = false → y.fpst = x.fpst) ∧ y = { x with s := y.s, fpst := y.fpst }

/-- Only register a[d] may have changed. -/
def Files.WroteA (d : Nat) (x y : Files) : Prop := (∀ n, n ≠ d → y.a n = x.a n) ∧ y = { x with a := y.a }

/-- Only register v[d] and, with `fp`, FPST may have changed. -/
def Files.WroteV (d : Nat) (fp : Bool) (x y : Files) : Prop :=
  (∀ n, n ≠ d → y.v n = x.v n) ∧ (fp = false → y.fpst = x.fpst) ∧ y = { x with v := y.v, fpst := y.fpst }

theorem Files.WroteS.refl {d : Nat} {fp : Bool} (x : Files) : x.WroteS d fp x := ⟨fun _ _ => rfl, fun _ => rfl, rfl⟩
theorem Files.WroteA.refl {d : Nat} (x : Files) : x.WroteA d x := ⟨fun _ _ => rfl, rfl⟩
theorem Files.WroteV.refl {d : Nat} {fp : Bool} (x : Files) : x.WroteV d fp x := ⟨fun _ _ => rfl, fun _ => rfl, rfl⟩

theorem wroteS_setS (c : Core) (d : Nat) (w : Word) : c.files.WroteS d false (c.setS d w).files := by
  refine ⟨fun n hn => (Core.getS_setS c d n w).trans (if_neg fun h => hn h.1), fun _ => Core.setS_fpst .., ?_⟩
  unfold Core.setS
  split <;> rfl

theorem wroteS_accrue (c : Core) (d : Nat) (w : Word) (x : Flags) : c.files.WroteS d true ((c.setS d w).accrue x).files := by
  refine ⟨fun n hn => (Core.getS_setS c d n w).trans (if_neg fun h => hn h.1), nofun, ?_⟩
  unfold Core.setS
  split <;> rfl

theorem wroteA_setA (c : Core) (d : Nat) (w : Word) : c.files.WroteA d (c.setA d w).files := by
  refine ⟨fun n hn => (Core.getA_setA c d n w).trans (if_neg fun h => hn h.1), ?_⟩
  unfold Core.setA
  split <;> rfl

theorem Core.getV_setV_other (c : Core) {d n : Nat} (hn : n ≠ d) (v : Vec) : (c.setV d v).getV n = c.getV n :=
  look_put.trans (if_neg hn)

theorem wroteV_setV (c : Core) (d : Nat) (v : Vec) : c.files.WroteV d false (c.setV d v).files :=
  ⟨fun _ hn => c.getV_setV_other hn v, fun _ => rfl, rfl⟩

theorem wroteV_accrue (c : Core) (d : Nat) (v : Vec) (x : Flags) : c.files.WroteV d true ((c.setV d v).accrue x).files :=
  ⟨fun _ hn => c.getV_setV_other hn v, nofun, rfl⟩

/-- Settles O60: every instruction issues a change of its core that writes one register. -/
theorem arithmeticFrames : Obligations.ArithmeticFrames := by
  unfold Obligations.ArithmeticFrames
  intro s c kept writesS writesA writesV
  refine ⟨fun f => ?ofS, fun f => ?ofSFloat, fun f => ?ofSImm, fun f => ?ofA, fun f => ?ofAImm, fun f => ?ofV, fun f => ?ofVFloat⟩
  case ofS | ofSImm =>
    repeat refine List.forall_mem_cons.mpr ⟨exec_framed .refl ⟨_, _, by dsimp only [exec]; rfl, fun c => wroteS_setS c _ _⟩, ?_⟩
    exact List.forall_mem_nil _
  case ofSFloat =>
    repeat refine List.forall_mem_cons.mpr ⟨exec_framed .refl ⟨_, _, by dsimp only [exec]; rfl, fun c => wroteS_accrue c _ _ _⟩, ?_⟩
    exact List.forall_mem_nil _
  case ofA | ofAImm =>
    repeat refine List.forall_mem_cons.mpr ⟨exec_framed .refl ⟨_, _, by dsimp only [exec]; rfl, fun c => wroteA_setA c _ _⟩, ?_⟩
    exact List.forall_mem_nil _
  case ofV =>
    repeat refine List.forall_mem_cons.mpr ⟨exec_framed .refl ⟨_, _, by dsimp only [exec]; rfl, fun c => wroteV_setV c _ _⟩, ?_⟩
    exact List.forall_mem_nil _
  case ofVFloat =>
    repeat refine List.forall_mem_cons.mpr ⟨exec_framed .refl ⟨_, _, by dsimp only [exec]; rfl, fun c => wroteV_accrue c _ _ _⟩, ?_⟩
    exact List.forall_mem_nil _

end Sys2Proof.Machine
end

section
/-! PROOF. The words that the spec writes out (O55). -/

namespace Sys2Proof.Machine

/-- Settles O55: each instruction is well formed and its word is the one written out, so the word is read back as it (O54). -/
theorem decodeWords : Obligations.DecodeWords := by
  unfold Obligations.DecodeWords
  have reads (i : Instr) (c : Code) : i.wf = true → encode i = some c → decode c = some i := encodeDecode.1 i c
  exact ⟨reads _ _ rfl rfl, reads _ _ rfl rfl, reads _ _ rfl rfl, reads _ _ rfl rfl, reads _ _ rfl rfl, reads _ _ rfl rfl, reads _ _ rfl rfl,
    reads _ _ rfl rfl⟩

end Sys2Proof.Machine
end
